-- ==== Sys2Proof/Word.lean ====
section
/-! DEFINITION. The plain word types of the module's registers, packets and memories. -/

namespace Sys2Proof

/-- One byte of a packet, a memory or a stream. -/
abbrev Byte := BitVec 8

/-- One 32-bit little-endian word of a record, a table or a command packet (R4). -/
abbrev Word := BitVec 32

/-- An exact complex integer: real part, imaginary part (the values of the data path). -/
abbrev Cplx := Int × Int

end Sys2Proof
end

