-- ==== Sys2Proof/Syntax.lean ====
section
/-! DEFINITION. The commands and events of the module: one constructor for each row of
spec/opcode_table.json, with the row's operands. -/

namespace Sys2Proof

/-- A bench: 0 and 1 on PCI Express, 2 and 3 on management ports A and B (R9). -/
abbrev BenchId := Fin 4
/-- A sub-array (R9). -/
abbrev SubId := Fin 4
/-- A serial lane (R23). -/
abbrev LaneId := Fin 128
/-- An octet of lanes (R23). -/
abbrev OctetId := Fin 16
/-- A front-end slice. -/
abbrev SliceId := Fin 4
/-- A Mill engine; engine x belongs to slice x >> 3. -/
abbrev EngineId := Fin 32
/-- A physical Loom tile (R154). -/
abbrev TileId := Fin 42
/-- A Granary channel. -/
abbrev ChanId := Fin 32
/-- A Drayman channel. -/
abbrev DrayId := Fin 16
/-- A Timekeeper timer. -/
abbrev TimerId := Fin 8
/-- A management port: 0 is A, 1 is B. -/
abbrev PortId := Fin 2
/-- A PCI Express function; function f is bench f (Table 12-1). -/
abbrev FuncId := Fin 2
/-- A Tally source (R386). -/
abbrev SourceId := Fin 256
/-- A power island (R418). -/
abbrev IslandId := Fin 79
/-- An Exchange master port (Table 14-2). -/
abbrev MasterId := Fin 8

/-- What goes wrong inside the module while it carries out a command, where its firmware or a device does not do as it should (log
entry 79): a firmware fault that does or does not carry out the command (R336), a program or read-back failure of the
configuration store (R356), a difference that the Baler's self-check finds in the block of a number (R382). -/
inductive CmdFault where
  | nothing
  | firmware (acted : Bool)
  | program
  | selfCheck (block : Nat)
  deriving DecidableEq, Repr

/-- A command packet less what its row already says: the opcode is the row's, LENGTH is the number
of words, two for the header and one for each parameter word (R333); `meets` is no word of it. -/
structure Packet where
  flags  : BitVec 8
  tag    : Word
  params : List Word
  meets  : CmdFault := .nothing
  deriving DecidableEq, Repr

/-- The sender of a bench datagram: MAC address, IP address (with its version) and UDP port (R318). -/
structure Peer where
  mac  : BitVec 48
  v6   : Bool
  ip   : BitVec 128
  port : BitVec 16
  deriving DecidableEq, Repr

/-- The block whose request a Granary channel serves (Table 10-11, SOURCE). -/
inductive GranSource where
  | cellarWriter | shelf | ledgerFold | beamEngine | exchange | internal
  deriving DecidableEq, Repr

/-- The kinds of a ledger fold (Table 08-2). -/
inductive FoldKind where
  | direct | store | add | take | swap | flush
  deriving DecidableEq, Repr

/-- One request to a Granary channel controller (R244, R245, R194). -/
inductive GranOp where
  /-- Read one 64-byte granule. -/
  | read
  /-- Write one whole granule. -/
  | write (data : List Byte)
  /-- Write some bytes of a granule by read-modify-write, from the given byte on. -/
  | partialWrite (offset : Nat) (data : List Byte)
  /-- Fold one 16-byte entry of the granule with a set value. -/
  | fold (kind : FoldKind) (entry : Fin 4) (value : Cplx)
  deriving DecidableEq, Repr

/-- What the DRAM gave when the granule and its check were read: how many of the reads in a row
mismatched, and what a freeze record needs of a lasting error (R245, R246, Table 10-11). -/
structure ReadOutcome where
  mismatches   : Fin 4
  /-- The granule in the row that failed: 0 to 30 data, 31 the check granule itself. -/
  checkGranule : Bool
  stored       : BitVec 16
  computed     : BitVec 16
  diffBits     : BitVec 10
  deriving DecidableEq, Repr

/-- The parts of an Exchange access that take part in locked sequences (R367). -/
inductive LockKind where
  | none | lock | unlock
  deriving DecidableEq, Repr

/-- One burst of a master port at the Exchange: at most 16 beats of 64 bytes (R360). For a write,
each byte is present when its strobe is on. -/
structure Burst where
  master : MasterId
  write  : Bool
  addr   : BitVec 44
  /-- Bytes of a read. -/
  len    : Nat
  /-- Bytes of a write with their strobes. -/
  data   : List (Option Byte)
  lock   : LockKind
  deriving DecidableEq, Repr

/-- Where a SECDED error of the Ledger lies (R209). -/
inductive EccSite where
  /-- Corrected: counted only. -/
  | corrected
  /-- Uncorrectable, in the dump of a tile in the pending area. -/
  | pending (tile : TileId)
  /-- Uncorrectable, in entry `entry` of set `set`. -/
  | setEntry (set : Fin 2) (entry : Nat)
  deriving DecidableEq, Repr

/-- Where a SECDED error of the Shelf lies (R149). -/
inductive ShelfSite where
  | corrected
  /-- Uncorrectable, in the unit held by a buffer. -/
  | buffer (n : Fin 2)
  deriving DecidableEq, Repr

/-- One measurement of a reference over the last 100 ms (R273). -/
structure RefMeasure where
  present : Bool
  f100    : Bool
  /-- Offset from nominal against the OCXO, in 0.001 ppm. -/
  offset  : Int
  /-- A cycle has been missing since the last measurement. -/
  missing : Bool := false
  deriving DecidableEq, Repr

/-- What a beat finds: how long its work holds the Foreman, and the module's sensors (R288, R424, R330). -/
structure BeatReadings where
  workNs    : Nat
  tjMax     : BitVec 16
  dramMax   : BitVec 16
  hotIsland : IslandId
  powerDw   : BitVec 16
  bank10mv  : BitVec 16
  /-- The junction temperature of each tile, in units of 0.125 °C (Table 07-8). -/
  tiles     : Vector (BitVec 16) 42 := Vector.replicate 42 0
  deriving DecidableEq, Repr

/-- What the block of a roll-call step reports when the step ends (R427, R430). -/
structure StepReport where
  /-- Step 4: Granary channels whose full training failed; channels that trained in full. -/
  failedChans : BitVec 32
  fullChans   : BitVec 32
  /-- Step 6: engines that failed their test frame. -/
  badEngines  : BitVec 32
  /-- Step 6: slices that failed to power. -/
  badSlices   : BitVec 4
  /-- Step 7: tiles that failed their self-test. -/
  badTiles    : BitVec 42
  /-- Step 1: RAILS_UP timed out. -/
  railsFailed : Bool
  deriving DecidableEq, Repr

/-- The straps sampled when the always-on island powers up (R272, R306). -/
structure Straps where
  rankA   : BitVec 2
  rankB   : BitVec 2
  rankC   : BitVec 2
  pcieBif : Bool
  deriving DecidableEq, Repr

/-- What the RS-FEC of an Ethernet lane reported since its last frame (R58, Table 02-12): symbol errors on the lane, and codewords
of its port corrected and not correctable. -/
structure FecReport where
  symErrors     : Nat
  corrected     : Nat
  uncorrectable : Nat
  deriving DecidableEq, Repr

/-- The commands and events of the module, one constructor for each row of the opcode table. -/
inductive Instr where
  /-- HELLO (R324): Opens a new bench session, replacing or refusing an existing one, and returns a new SESSION_ID. -/
  | hello (b : BenchId) (keySlot : Fin 8) (p : Packet)
  /-- LEASE (R326): Grants a lease of a class to the bench, or refuses it, and sets the bench's lease timeout. -/
  | lease (b : BenchId) (p : Packet)
  /-- RELEASE (R327): Gives up one lease or all leases of the bench, ending only the bench's rights. -/
  | release (b : BenchId) (p : Packet)
  /-- HEARTBEAT (R326): Renews every lease of the bench and returns word 0 of BNCH_LEASES. -/
  | heartbeat (b : BenchId) (p : Packet)
  /-- IDENTIFY (R328): Returns the whole ID_INFO record. -/
  | identify (b : BenchId) (p : Packet)
  /-- GET_RECORD (R340): Returns the requested words of a record, all taken at one instant. -/
  | getRecord (b : BenchId) (p : Packet)
  /-- SET_RECORD (R341): Applies all words to a record at one instant or none: RW fields written, W1C bits cleared, RO fields ignored; covers register writes with no behaviour of their own. -/
  | setRecord (b : BenchId) (p : Packet)
  /-- GET_STATUS (R338): Returns BNCH_HEALTH and the first words of the bench's BNCH_STAT. -/
  | getStatus (b : BenchId) (p : Packet)
  /-- TABLE_BEGIN (R344): Opens a table transaction on the bench and reserves staging space in the table store. -/
  | tableBegin (b : BenchId) (p : Packet)
  /-- TABLE_COMMIT (R344): Checks the staged table's header and class rules and commits it, or leaves it staged on BUSY or TABLE_INVALID. -/
  | tableCommit (b : BenchId) (p : Packet)
  /-- TABLE_ABORT (R344): Ends the bench's open transaction and discards the staged table. -/
  | tableAbort (b : BenchId) (p : Packet)
  /-- TABLE_QUERY (R345): Lists the tables of one class that are in force, pending or staged. -/
  | tableQuery (b : BenchId) (p : Packet)
  /-- OBS_DEFINE (R347): Defines a sub-array or frees it: writes its configuration records, places its regions and sets it DEFINED or FREE. -/
  | obsDefine (b : BenchId) (p : Packet)
  /-- OBS_CHECK (R348): Evaluates the nine budgets and the beam limits for the sub-array with every defined sub-array and returns usage and DETAIL bits. -/
  | obsCheck (b : BenchId) (p : Packet)
  /-- OBS_ARM (R349): Tests the required tables and budgets, assigns engines, clears the Ledger sets and moves the sub-array to ALIGN. -/
  | obsArm (b : BenchId) (p : Packet)
  /-- OBS_START_AT (R350): Computes the start index from the named time, sets the parser front index and schedules the start. -/
  | obsStartAt (b : BenchId) (p : Packet)
  /-- OBS_STOP_AT (R351): Cancels an armed sub-array at once, or names a stop boundary for an observing one. -/
  | obsStopAt (b : BenchId) (p : Packet)
  /-- DRAIN_AT (R200): Schedules a drain boundary that closes the integration in progress, merging or refusing as needed. -/
  | drainAt (b : BenchId) (p : Packet)
  /-- RESYNC_AT (R107): Schedules a synchronising reset of the sub-array at the aligned index of the named time. -/
  | resyncAt (b : BenchId) (p : Packet)
  /-- DELAY_LOAD (R353): Schedules replacement of the delay coefficients of listed inputs within a resident DELAY set. -/
  | delayLoad (b : BenchId) (p : Packet)
  /-- WEIGHT_LOAD (R227): Schedules the flip of the beam weight selector bits at the fine sample of a chosen beat. -/
  | weightLoad (b : BenchId) (p : Packet)
  /-- COEF_SWAP (R103): Requests a cross-fade from the active to the standby coefficient bank, or exchanges the banks at once outside ALIGN and OBSERVE. -/
  | coefSwap (b : BenchId) (p : Packet)
  /-- DCB_FREEZE (R89): Schedules freezing or thawing of the DC-blocker mean estimates of named blocks from a stated aligned index. -/
  | dcbFreeze (b : BenchId) (p : Packet)
  /-- CELLAR_TRIGGER (R143): Starts a transient capture window of Cellar bays around a named time, freezing the bays that hold its spans. -/
  | cellarTrigger (b : BenchId) (p : Packet)
  /-- CELLAR_RELEASE (R145): Returns every frozen bay to the ring and ends the capture. -/
  | cellarRelease (b : BenchId) (p : Packet)
  /-- TIME_GET (R338): Returns the Timekeeper time at one tick with the Timekeeper and Clocksmith states. -/
  | timeGet (b : BenchId) (p : Packet)
  /-- TIME_INCREMENT (R281): Sets the base increment or starts a slew of a given number of ticks. -/
  | timeIncrement (b : BenchId) (p : Packet)
  /-- TIME_STEP (R283): Sets the Timekeeper time to an absolute value or adds an offset at one tick. -/
  | timeStep (b : BenchId) (p : Packet)
  /-- TIMER_SET (R291): Sets or stops one of timers 1 to 7 with its action, target, first instant, period, count and width. -/
  | timerSet (b : BenchId) (p : Packet)
  /-- CAPTURE_GET (R294): Returns and removes up to 16 capture entries of one source, oldest first. -/
  | captureGet (b : BenchId) (p : Packet)
  /-- LANE_SET (R60): Writes the per-lane and link-control fields of LANE_OCT_CFG, putting lanes through full training when enable or polarity changes. -/
  | laneSet (b : BenchId) (p : Packet)
  /-- LANE_TRAIN (R53): Sends a lane or its octet into RETRAIN, or into full training when FULL is set. -/
  | laneTrain (b : BenchId) (p : Packet)
  /-- EYE_SCAN (R56): Starts an eye scan of one eye of one lane over a grid of offsets, replacing the lane's LANE_EYE record. -/
  | eyeScan (b : BenchId) (p : Packet)
  /-- LANE_STATS (R338): Returns LANE_STAT and LANE_CNT of all eight lanes of an octet taken at one instant with a timestamp. -/
  | laneStats (b : BenchId) (p : Packet)
  /-- BULK_WRITE (R315): Copies words from the Bulk window to an internal address in ascending order. -/
  | bulkWrite (b : BenchId) (p : Packet)
  /-- BULK_READ (R315): Copies words from an internal address into the Bulk window in ascending order. -/
  | bulkRead (b : BenchId) (p : Packet)
  /-- TALLY_GET (R402): Returns a range of TALY_SRC source records. -/
  | tallyGet (b : BenchId) (p : Packet)
  /-- TALLY_CLEAR (R391): Returns one Tally source or all sources to QUIET, discarding their stamps and escalation. -/
  | tallyClear (b : BenchId) (p : Packet)
  /-- TALLY_CONFIG (R401): Writes one Tally source configuration entry, which takes effect at once. -/
  | tallyConfig (b : BenchId) (p : Packet)
  /-- MODE_REQUEST (R355): Requests a change of operating mode and replies when the transition of the mode table is complete or refused. -/
  | modeRequest (b : BenchId) (p : Packet)
  /-- TILE_RETIRE (R176): Retires a physical Loom tile at once or at its sub-array's next boundary. -/
  | tileRetire (b : BenchId) (p : Packet)
  /-- TILE_RESTORE (R176): Runs the self-test of a retired tile and returns it to service or to the spares when it passes. -/
  | tileRestore (b : BenchId) (p : Packet)
  /-- OCTET_SET (R27): Changes the direction, personality, layout or enable of an octet at once or at the boundaries of the sub-arrays concerned. -/
  | octetSet (b : BenchId) (p : Packet)
  /-- STORE_WRITE (R437): Erases and programs a range of the image area of the copy that did not boot. -/
  | storeWrite (b : BenchId) (p : Packet)
  /-- STORE_ACTIVATE (R437): Checks the written image, burns any owner key, writes the unit area and then the copy header, and optionally restarts. -/
  | storeActivate (b : BenchId) (p : Packet)
  /-- STORE_QUERY (R338): Returns the booted copy, COPY_BYTES and the state, sequence and version of both copies. -/
  | storeQuery (b : BenchId) (p : Packet)
  /-- BALE (R381): Compresses a source range into a Baler stream in SCRATCH, self-checking every block. -/
  | bale (b : BenchId) (p : Packet)
  /-- UNBALE (R384): Checks and decodes a Baler stream into SCRATCH and verifies its RAW_CRC. -/
  | unbale (b : BenchId) (p : Packet)
  /-- SELFTEST (R357): Runs the self-test or repair target named and replies with passes and failures. -/
  | selftest (b : BenchId) (p : Packet)
  /-- PEEK (R357): Reads words by one 32-bit Exchange access each, in ascending address order. -/
  | peek (b : BenchId) (p : Packet)
  /-- POKE (R357): Writes words by one 32-bit Exchange access each, in ascending address order. -/
  | poke (b : BenchId) (p : Packet)
  /-- BAD_OPCODE (R335): A command with an unknown opcode or a wrong length is answered without being executed. -/
  | badOpcode (b : BenchId) (words : List Word)
  /-- POST_TAIL_WRITE (R311): The host advances POST_TAIL in BAR0, handing command packets to the module, or the write is ignored as a protocol error. -/
  | postTailWrite (f : FuncId) (value : BitVec 16) (packets : List (List Word))
  /-- REPLY_HEAD_WRITE (R311): The host advances REPLY_HEAD in BAR0, freeing Reply slots, or the write is ignored as a protocol error. -/
  | replyHeadWrite (f : FuncId) (value : BitVec 16)
  /-- IRQ_ENABLE_WRITE (R317): A write of IRQ_ENABLE that enables an already set interrupt bit sends its MSI-X message. -/
  | irqEnableWrite (f : FuncId) (value : BitVec 6)
  /-- IRQ_STATUS_CLEAR (R317): The host writes 1 to IRQ_STATUS bits to clear them. -/
  | irqStatusClear (f : FuncId) (value : BitVec 6)
  /-- GAIN_COMMIT (R131): A write of 1 to ASSY_CFG.GAIN_COMMIT sets GAIN_PENDING, or swaps the gain copies at once outside ALIGN and OBSERVE. -/
  | gainCommit (s : SubId)
  /-- GO (R376): A write of 1 to DRAY_CHAN.GO starts the channel at DESC_ADDR, clearing ERR_CODE. -/
  | go (c : DrayId)
  /-- STOP (R376): A write of 1 to DRAY_CHAN.STOP finishes issued bursts, abandons the descriptor, clears PENDING and makes the channel IDLE. -/
  | stop (c : DrayId)
  /-- COMMAND_DATAGRAM (R321): A COMMAND datagram is verified and taken, held, answered from stored replies, or dropped by its CMD_NUM. -/
  | commandDatagram (port : PortId) (peer : Peer) (bytes : List Byte)
  /-- BULK_PUT (R321): A BULK_PUT datagram stores its words in the Bulk window and is acknowledged with BULK_PUT_ACK. -/
  | bulkPut (port : PortId) (peer : Peer) (bytes : List Byte)
  /-- BULK_GET (R321): A BULK_GET datagram is answered with one BULK_DATA datagram carrying the words asked for. -/
  | bulkGet (port : PortId) (peer : Peer) (bytes : List Byte)
  /-- NOTIFY_REPEAT (R321): Every 1 s while an enabled IRQ_STATUS bit stays set, the module sends the NOTIFY again. -/
  | notifyRepeat (port : PortId)
  /-- SESSION_IDLE_CLOSE (R323): A management-port session with no lease and no accepted datagram for 10 s closes. -/
  | sessionIdleClose (port : PortId)
  /-- FUNCTION_LEVEL_RESET (R323): A PCI Express function level reset or hot reset closes the session of its bench and resets its bench mover. -/
  | functionLevelReset (f : FuncId)
  /-- PERST_N (R447): PERST_N low holds the PCI Express island in reset with the effect of a hot reset on both functions. -/
  | perstN (high : Bool)
  /-- FRAME_END (R40): At the end of a received PLF frame the receiver delivers it, discards it as duplicate, or sends a NAK. -/
  | frameEnd (l : LaneId)
  /-- ACK (R43): A received ACK releases the frames held by the module as egress transmitter. -/
  | ack (l : LaneId) (payload : BitVec 64)
  /-- NAK (R43): A received NAK makes the module's egress transmitter replay every held frame after NAK_SEQ, or enter RETRAIN at REPLAY_LIMIT. -/
  | nak (l : LaneId) (payload : BitVec 64)
  /-- LINK (R51): A received LINK block checks the tag and moves the lane from SYNC to UP, or starts RETRAIN on RETRAIN_REQ. -/
  | link (l : LaneId) (payload : BitVec 64)
  /-- TRAIN_REQ (R48): A received TRAIN_REQ with a new REQ_NUM is applied to the module's transmitter taps within 2 µs and answered in TRAIN_STS. -/
  | trainReq (l : LaneId) (payload : BitVec 64)
  /-- TRAIN_STS (R49): A received TRAIN_STS reports a tap update, letting the module's training search of the far transmitter proceed. -/
  | trainSts (l : LaneId) (payload : BitVec 64) (metric : BitVec 16)
  /-- TRAIN_REQ_RESEND (R48): When no status answers a training request within 10 µs, the requester sends the same request again. -/
  | trainReqResend (l : LaneId)
  /-- TRAIN_TIMEOUT (R49): The training search ends and DONE is sent when 450 ms in TRAIN have passed. -/
  | trainTimeout (l : LaneId)
  /-- ACK_REPEAT (R41): Every 1 µs with no other ACK or NAK due, the module repeats its last ACK, or repeats a pending NAK. -/
  | ackRepeat (l : LaneId)
  /-- REPLAY_TIMEOUT (R43): When no ACK or NAK releases a held frame within 2 µs, the egress transmitter replays all held frames. -/
  | replayTimeout (l : LaneId)
  /-- FILLER (R39): After 1024 blocks sent since its last FILLER, the module's transmitter inserts a FILLER between frames. -/
  | filler (l : LaneId)
  /-- FILL_GAP (R37): 2048 consecutive blocks received in LOCK without a FILLER count FILL_GAP and raise LANE_FILL. -/
  | fillGap (l : LaneId)
  /-- BLOCK_RECEIVED (R35): A received 66-bit block's sync header is tested for block lock, and the block is deleted if FILLER or IDLE or passed to the framer. -/
  | blockReceived (l : LaneId) (hdr : BitVec 2) (payload : BitVec 64) (reads : Nat)
  /-- HUNT_TIMEOUT (R36): A lane from UP that stays in HUNT for more than 1 ms enters RETRAIN. -/
  | huntTimeout (l : LaneId)
  /-- SIGNAL_DETECTED (R50): Signal is detected and the clock recovered on a lane in WAIT_SIGNAL, which enters HUNT. -/
  | signalDetected (l : LaneId)
  /-- LANE_BRINGUP_TIMEOUT (R50): A lane bring-up step that exceeds its limit sends the lane to FAULT. -/
  | laneBringupTimeout (l : LaneId)
  /-- RETRAIN_TIMEOUT (R53): A RETRAIN that does not finish within 200 ms falls back to full training from WAIT_SIGNAL. -/
  | retrainTimeout (l : LaneId)
  /-- LANE_FAULT_RETRY (R53): A lane in FAULT tries full training again every 10 s. -/
  | laneFaultRetry (l : LaneId)
  /-- EYE_SCAN_POINT (R55): The offset sampler finishes settling and dwelling at one grid point and stores its error count. -/
  | eyeScanPoint (l : LaneId) (errors : Nat)
  /-- ETH_ALIGN_LOSS (R59): A loss of PCS alignment from UP lasting more than 1 ms on an Ethernet lane leads to full training. -/
  | ethAlignLoss (l : LaneId)
  /-- ETH_FRAME_RECEIVED (R58): An Ethernet frame received on a lane is checked and delivered to the parser, or counted and discarded. -/
  | ethFrameReceived (l : LaneId) (frame : List Byte) (fec : FecReport)
  /-- INGRESS_SAMPLE_PACKET (R71): A sample packet is tested and filed into its slot, or discarded and counted by cause. -/
  | ingressSamplePacket (l : LaneId) (bytes : List Byte)
  /-- INGRESS_STATUS_PACKET (R69): A status packet is tested against the rate limit and relayed in a RELAY metadata packet, or discarded. -/
  | ingressStatusPacket (l : LaneId) (bytes : List Byte)
  /-- INGRESS_JUMP (R73): When every sample packet of a sub-array has been FUTURE for 1 s, the parser raises INGRESS_JUMP. -/
  | ingressJump (s : SubId)
  /-- EGRESS_FRAME_SEND (R84): An Ethernet egress port sends the next staged frame as its token bucket allows. -/
  | egressFrameSend (port : LaneId)
  /-- EGRESS_STALL (R84): A producer waiting for egress staging for more than 100 ms raises EGRESS_STALL. -/
  | egressStall (fmt : Fin 64) (waitedMs : Nat)
  /-- SIEVE_SLOT (R98): The Sieve runs DC blocking, alignment, rotation and filtering over a passed slot and deals the resulting frames. -/
  | sieveSlot (s : SubId) (sl : SliceId)
  /-- XFADE_END (R104): A cross-fade ends after its last fine sample, making the incoming bank active and starting any pending swap. -/
  | xfadeEnd (s : SubId)
  /-- FRONT_END_SPAN_BOUNDARY (R22): At a front-end span boundary the parser, Sieve and Assay apply pending ingress formats, OUT_SHIFT, gains and curves. -/
  | frontEndSpanBoundary (s : SubId)
  /-- NOP (R118): Mill instruction that does nothing for one issue cycle. -/
  | nop (e : EngineId)
  /-- BF4 (R120): Mill instruction that reads a vector, runs 16 radix-4 butterflies with optional twiddles and writes a vector. -/
  | bf4 (e : EngineId)
  /-- BF2 (R120): Mill instruction that runs two radix-2 butterflies per unit on a vector. -/
  | bf2 (e : EngineId)
  /-- MOVE (R118): Mill instruction that reads a vector, shifts it and writes it. -/
  | move (e : EngineId)
  /-- CMUL (R118): Mill instruction that shifts a vector and multiplies each lane by a coefficient word. -/
  | cmul (e : EngineId)
  /-- LOAD (R119): Mill instruction that writes the next input-queue vector of the current frame into a slot, waiting while the queue is empty. -/
  | load (e : EngineId)
  /-- UNLOAD (R121): Mill instruction that reads a vector of a slot to the output, passing the finished frame to the Assay. -/
  | unload (e : EngineId)
  /-- XFER (R118): Mill instruction that performs an UNLOAD and a LOAD in one cycle. -/
  | xfer (e : EngineId)
  /-- LOOP (R117): Mill instruction that opens a loop level over its body. -/
  | loop (e : EngineId)
  /-- JUMP (R118): Mill instruction that continues at TARGET. -/
  | jump (e : EngineId)
  /-- SETREG (R116): Mill instruction that writes an address generator register for the next instruction. -/
  | setreg (e : EngineId)
  /-- NULL_FRAME (R122): When a LOAD has waited 4096 cycles, the Sieve gives the engine a null frame. -/
  | nullFrame (e : EngineId)
  /-- ASSAY_FRAME (R127): The Assay applies fine-delay phase, gain and requantisation to a finished frame and sends its bytes to the Cellar writer. -/
  | assayFrame (sl : SliceId)
  /-- GAIN_COPYBACK (R131): After the last fine sample of the previous span passes the Assay, the new active gains are copied to the shadow and GAIN_PENDING clears. -/
  | gainCopyback (s : SubId)
  /-- CONDEMN (R141): After any staging copy from the bay ends, the Cellar condemns every unstaged unit of the overrun span. -/
  | condemn (s : SubId)
  /-- SPAN_AVAILABLE (R138): 100 µs after a span's last fine sample is dealt and the next span opens, the writer flushes its granules with markers and the span becomes available. -/
  | spanAvailable (s : SubId)
  /-- UNIT_STAGED (R149): A staging unit is completely copied from the Cellar into a Shelf buffer, making its jobs ready. -/
  | unitStaged (s : SubId)
  /-- SHELF_ECC (R149): An uncorrectable Shelf word restages its unit from the bay or condemns its chunk. -/
  | shelfEcc (s : SubId) (site : ShelfSite)
  /-- JOB_START (R162): An idle correlating tile takes the next job whose unit is staged and computes it. -/
  | jobStart (t : TileId)
  /-- JOB_COMPUTE_DONE (R159): A tile finishes computing a job, swaps accumulator sets and begins dumping to the pending area. -/
  | jobComputeDone (t : TileId) (upsets : List (Nat × Cplx))
  /-- JOB_CHECK (R160): When a dump completes, the job's row and column sums are checked and the job is committed or failed. -/
  | jobCheck (t : TileId)
  /-- JOB_TIMEOUT (R171): A job whose compute or dump does not end within 50 µs fails and its tile becomes FAILED. -/
  | jobTimeout (t : TileId)
  /-- TILE_CLOCK_LOSS (R171): A tile island that loses its clock or breaks a handshake makes the tile FAILED. -/
  | tileClockLoss (t : TileId)
  /-- TILE_SELFTEST_DONE (R180): A tile self-test finishes and the tile returns to dealing or service, or becomes FAILED or RETIRED. -/
  | tileSelftestDone (t : TileId) (pass : Bool)
  /-- SPARE_SELFTEST (R180): Every 60 s in OBSERVE each spare tile runs its self-test. -/
  | spareSelftest (t : TileId)
  /-- LOOM_SPAN_BOUNDARY (R168): When every job of a span is settled, the Loom finishes the span and applies the pending plan, spare substitution and cut in order. -/
  | loomSpanBoundary (s : SubId)
  /-- SPAN_START (R18): The Loom starts the next span at the later of its availability and the finish of the previous one, fixing its fold kinds. -/
  | spanStart (s : SubId)
  /-- LEDGER_SET_COMPLETE (R193): When every job of a fine channel is settled, the Ledger folds or streams its SRAM set and then releases it. -/
  | ledgerSetComplete (s : SubId)
  /-- LEDGER_ECC (R209): An uncorrectable Ledger SRAM or pending-area error discards the dump or withholds the output tile. -/
  | ledgerEcc (s : SubId) (site : EccSite)
  /-- BEAM_JOB_START (R221): An idle beam tile takes the next beam job whose unit is staged and whose beam store set is free. -/
  | beamJobStart (t : TileId) (failAt : Option Nat)
  /-- BEAM_UNIT_COMPLETE (R229): When every beam job of a unit is settled the adder requantises the set, writes the unit into the turn and releases the set. -/
  | beamUnitComplete (s : SubId)
  /-- BEAM_CURSOR_PACKET (R233): A beam reader cursor builds its next packet once its span is written and its port holds fewer than BEAM_QUEUE bytes. -/
  | beamCursorPacket (fmt : Fin 64)
  /-- GRANARY_ACCESS (R245): A channel controller serves a read, write or fold of a granule, verifying its check value with retries. -/
  | granaryAccess (src : GranSource) (op : GranOp) (addr : BitVec 44) (rd : ReadOutcome)
  /-- SR_IDLE (R252): A channel idle for SR_IDLE_US writes back check granules, precharges and enters self-refresh. -/
  | srIdle (c : ChanId)
  /-- SR_EXIT (R253): A request arriving in self-refresh waits the residency, then SRX, exit time and resynchronisation before being served. -/
  | srExit (c : ChanId) (sinceSreNs : Nat)
  /-- REFRESH_RATE_READ (R251): Every 16 ms the controller reads MR4, sets the refresh interval and raises GRAN_HOT when needed. -/
  | refreshRateRead (c : ChanId) (rate : BitVec 4) (temp : BitVec 16)
  /-- ZQ_CALIBRATION (R251): Every 100 ms ZQ calibration and read-clock tracking run inside refresh windows. -/
  | zqCalibration
  /-- GRANARY_TRAINING_DONE (R254): A quadrant finishes training, or a channel fails it and enters FAULT. -/
  | granaryTrainingDone (q : Fin 4) (failed : BitVec 8)
  /-- ZERO_FILL_DONE (R257): A quadrant finishes zero-filling its check pages and becomes ACTIVE. -/
  | zeroFillDone (q : Fin 4)
  /-- CLK_MEASURE (R273): Every 10 ms the Clocksmith measures each source's offset and qualifies, disqualifies, disputes or selects sources. -/
  | clkMeasure (a : RefMeasure) (b : RefMeasure) (c : RefMeasure)
  /-- REF_CYCLES_MISSING (R274): Eight consecutive missing cycles disqualify a source, starting a switch or HOLDOVER if it was selected. -/
  | refCyclesMissing (src : Fin 3)
  /-- CLK_SWITCH (R277): A reference switch ends after phase measurement and build-out, leaving the Clocksmith LOCKED on the new source. -/
  | clkSwitch (phasePs : Int)
  /-- TICK (R280): On each 250 MHz tick the Timekeeper adds INC to its time. -/
  | tick (n : Nat)
  /-- SLEW_END (R281): After DURATION ticks the slewed increment ends and the base increment returns. -/
  | slewEnd
  /-- TIME_FREE_RUN (R282): Ten seconds after the last TIME_INCREMENT the Timekeeper enters FREE_RUN. -/
  | timeFreeRun
  /-- BEAT (R287): At a beat the Foreman sends delay updates, acts on due commands, checks leases and raises per-beat Tally events. -/
  | beat (r : BeatReadings)
  /-- TIMER_FIRE (R291): A timer reaches its instant and performs its pulse, Drayman, start or drain action. -/
  | timerFire (t : TimerId)
  /-- PPS_OUT (R292): At every whole second PPS_OUT pulses for PPS_OUT_WIDTH_US when enabled. -/
  | ppsOut
  /-- EDGE_CAPTURE (R294): A rising edge on PPS_IN_A, PPS_IN_B or TRIG_IN is timestamped and queued, or ignored or dropped. -/
  | edgeCapture (src : Fin 3) (quarterNs : Fin 16)
  /-- MGMT_FRAME_RECEIVED (R295): A frame on a management port is consumed as a bench datagram or PTP frame, or forwarded to the other port. -/
  | mgmtFrameReceived (port : PortId) (frame : List Byte) (residence : Nat)
  /-- DELAY_REQ (R298): At each interval instant the module sends a Delay_Req on DREQ_PORT and captures its egress timestamp. -/
  | delayReq
  /-- EXCHANGE_BURST (R360): A master's burst is split, ordered, granted and served by its target, ending with one response code. -/
  | exchangeBurst (burst : Burst)
  /-- BRIDGE_TIMEOUT (R362): A bridge burst not completed within 100 µs ends with TARGET_FAULT. -/
  | bridgeTimeout (burst : Burst)
  /-- LOCK_BREAK (R368): A lock still held 64 µs after grant is broken and the target released. -/
  | lockBreak
  /-- MASTER_RESET (R369): A master reset makes its port converter finish or discard its bursts, release its lock and let it leave reset. -/
  | masterReset (m : MasterId) (inFlight : Option (Burst × Nat))
  /-- DRAY_TRIGGER (R372): A timer or event-line pulse adds a pending trigger to a Drayman channel. -/
  | drayTrigger (c : DrayId) (line : Option (Fin 32))
  /-- DESCRIPTOR_START (R371): A Drayman channel reads and checks a descriptor, waiting for a trigger or barrier, and begins its move. -/
  | descriptorStart (c : DrayId)
  /-- DESCRIPTOR_COMPLETE (R375): A descriptor's writes are visible: cursors advance, any event pulse leaves and the channel chains or becomes IDLE. -/
  | descriptorComplete (c : DrayId)
  /-- TALLY_EVENT (R390): An event on a Tally source is stamped and counted and may make the source SEVERE with its primary reaction. -/
  | tallyEvent (src : SourceId) (detail : Word) (sub : Option SubId)
  /-- GRACE_EXPIRY (R394): A source's grace timer expires uncleared: it escalates and takes the next ladder step. -/
  | graceExpiry (src : SourceId)
  /-- QUIET_PERIOD (R391): A SEVERE or ESCALATED source with no event for QUIET_MS returns to QUIET. -/
  | quietPeriod (src : SourceId)
  /-- AUTO_CLEAR (R391): A raising block reports its recovery complete and a source with AUTO_CLEAR returns to QUIET. -/
  | autoClear (src : SourceId) (detail : Word)
  /-- FOREMAN_WDOG (R386): A Foreman core that has not served its watchdog for 100 ms raises FOREMAN_WDOG. -/
  | foremanWdog (core : Fin 4)
  /-- SUPPLY_EVENT_BEGIN (R404): The input lies outside 40 V to 60 V for 5 µs, beginning an event and entering RIDE with shedding. -/
  | supplyEventBegin (v10mV : BitVec 16) (bank10mV : BitVec 16)
  /-- SUPPLY_TRANSIENT (R404): An input excursion shorter than 5 µs is counted and raises SUPPLY_TRANSIENT. -/
  | supplyTransient (extreme10mV : BitVec 16)
  /-- SWELL_ISOLATE (R403): Above 60 V the input switch opens within 2 µs, and closes again after 1 ms below 59 V. -/
  | swellIsolate (v10mV : BitVec 16)
  /-- SUPPLY_EVENT_END (R404): The input stays within 41 V to 59 V for RECOVER_MS, ending the event and writing its record. -/
  | supplyEventEnd (v10mV : BitVec 16) (bank10mV : BitVec 16)
  /-- RIDE_END (R412): With the event ended and the bank at 90 V, the Bellows restores islands, returns the mode and sends EVENT RIDE_END. -/
  | rideEnd (bank10mV : BitVec 16)
  /-- SUPPLY_LOSS (R407): A curve band limit, an input outside every band or the bank floor makes the event LOSS. -/
  | supplyLoss (v10mV : BitVec 16) (bank10mV : BitVec 16)
  /-- AUTO_RESTART (R415): After a shutdown, the input held within 41 V to 59 V for 1 s makes a cold start when AUTO_RESTART is set. -/
  | autoRestart (v10mV : BitVec 16)
  /-- BANK_TEST (R409): Every BANK_TEST_H hours the Bellows measures the bank capacitance and raises BANK_LOW if low. -/
  | bankTest (uF : BitVec 16) (bank10mV : BitVec 16)
  /-- RAIL_FAULT (R417): A rail's power-good falling outside a sequence raises RAIL_FAULT and runs RAILS_DOWN. -/
  | railFault (rail : Fin 12)
  /-- RAIL_SEQ (R417): A sequence step that exceeds its timeout raises RAIL_SEQ and fails the start, forces the rest, or enters HOLD. -/
  | railSeq
  /-- SEQ_STEP (R416): The Bellows performs one step of a rail sequence and waits for its condition. -/
  | seqStep (met : Bool)
  /-- ISLAND_POWER_DONE (R419): An island finishes powering up or down, and any waiting request for it runs. -/
  | islandPowerDone (i : IslandId)
  /-- ISLAND_GATE (R423): An island not ON within twice its power-up time raises ISLAND_GATE. -/
  | islandGate (i : IslandId)
  /-- CABLE_OVERCURRENT (R443): An overcurrent on CABLE_3V3 switches it off and raises ISLAND_GATE for that octet. -/
  | cableOvercurrent (o : OctetId)
  /-- THERMAL_CRIT (R424): A junction above 115 °C or DRAM case above 90 °C for 10 ms raises THERMAL_CRIT and starts orderly shutdown. -/
  | thermalCrit (i : IslandId) (tj : BitVec 16) (dram : BitVec 16) (forMs : Nat)
  /-- RESET_N (R426): Release of RESET_N after a low level of 10 µs or more starts a warm or cold start by its length. -/
  | resetN (lowUs : Nat)
  /-- POWER_UP (R426): The always-on island powers up from the 48 V input, samples the straps and begins a cold start. -/
  | powerUp (straps : Straps) (v10mV : BitVec 16)
  /-- ROLL_CALL_STEP (R427): A roll call step ends and the next begins, until STANDBY is reached at step 9. -/
  | rollCallStep (r : StepReport)
  /-- I2C_WRITE (R449): A one-byte I2C write sets the sideband pointer, or a longer write is not acknowledged. -/
  | i2cWrite (bytes : List Byte)
  /-- I2C_READ (R449): An I2C read returns sideband page bytes from the pointer, advancing it one word per four bytes. -/
  | i2cRead (count : Nat)
  /-- DROPOUT (R405): During a SAG event the input falls below 33.0 V, the event class rises to DROPOUT and the module moves from the input onto the hold-up bank. -/
  | dropout (v10mV : BitVec 16) (bank10mV : BitVec 16)
  /-- PCIE_LINK_DOWN (R323): A PCI Express link goes down: BNCH_STAT.LINK_UP clears while the session stays open. -/
  | pcieLinkDown (f : FuncId)
  /-- PCIE_LINK_UP (R306): A PCI Express link finishes training on the host reference clock and BNCH_STAT.LINK_UP sets. -/
  | pcieLinkUp (f : FuncId)
  /-- MGMT_BLOCK_LOCK (R273): A management port gains 10GBASE-R block lock, setting its bench LINK_UP and making REC_A present on port A. -/
  | mgmtBlockLock (port : PortId)
  /-- MGMT_BLOCK_LOCK_LOSS (R273): A management port loses block lock, clearing its bench LINK_UP and making REC_A not present on port A. -/
  | mgmtBlockLockLoss (port : PortId)
  /-- REMOTE_FAULT (R58): An egress Ethernet port receives or stops receiving remote fault; with UNIDIR clear it sends idles and discards the egress packets for that port. -/
  | remoteFault (l : LaneId) (on : Bool)
  /-- ETH_PCS_ALIGNED (R59): An Ethernet lane in HUNT reaches PCS alignment and FEC lock and moves on toward TRAIN or UP. -/
  | ethPcsAligned (l : LaneId)
  /-- ETH_TRAIN_DONE (R59): Standard PMD training of an Ethernet lane completes or times out, moving the lane to UP or FAULT. -/
  | ethTrainDone (l : LaneId) (ok : Bool)
  /-- CBL_PRESENT_N (R443): CBL_PRESENT_N changes level, switching CABLE_3V3 on or off for an octet whose island is ON. -/
  | cblPresentN (o : OctetId) (high : Bool)
  /-- BUS_MASTER_ENABLE (R308): The host sets a function's Bus Master Enable bit, and the MSI-X messages held pending are sent. -/
  | busMasterEnable (f : FuncId)
  /-- MSIX_UNMASK (R317): The host unmasks an MSI-X vector in BAR0 while its bit is pending, and the message is sent. -/
  | msixUnmask (f : FuncId) (vec : Fin 16)
  deriving DecidableEq, Repr

end Sys2Proof
end

