-- ==== Sys2Proof/Decode.lean ====
section
/-! DEFINITION. The command that a word spells. No row of the opcode table gives its bits, so no word
spells a command: commands reach the module as packets, datagrams and events (log entry 1). -/

namespace Sys2Proof

/-- The command spelled by a word whose bits are numbered as the opcode table numbers them. The table gives
no row any bits. -/
def decodeTableWord (_nbits _w : Nat) : Option Instr := none

end Sys2Proof
end

