-- ==== Sys2Proof/Machine/Bits.lean ====
section
/-! DEFINITION. Bit fields, byte order, narrowing with rounding and saturation: the helpers every
block's arithmetic uses (R4, R86, and the rounding rules each use cites). -/

namespace Sys2Proof.Machine

/-! ### Fields of a 32-bit word -/

/-- A field placed at bit `lo` of a word. -/
def putAt {w : Nat} (v : BitVec w) (lo : Nat) : Word := (v.setWidth 32) <<< lo

/-- A one-bit field placed at bit `lo` of a word. -/
def bitAt (b : Bool) (lo : Nat) : Word := if b then (1 : Word) <<< lo else 0

/-- Word `k` of a field that spans several words, low word first (R4). -/
def wordOf {w : Nat} (v : BitVec w) (k : Nat) : Word := (v >>> (32 * k)).setWidth 32

/-- The low word of a 44-bit address. -/
def lo32 (v : BitVec 44) : Word := v.setWidth 32

/-- The high bits of a 44-bit address, in bits 11 to 0 of a word. -/
def hi32 (v : BitVec 44) : Word := (v >>> 32).setWidth 32

/-- A field of a word as a natural number. -/
def fieldOf (w : Word) (lo len : Nat) : Nat := (w.toNat >>> lo) % 2 ^ len

/-- A bit of a word. -/
def flagOf (w : Word) (i : Nat) : Bool := w.getLsbD i

/-- Two words as one 64-bit number, low word first (R4). -/
def join64 (lo hi : Word) : BitVec 64 := hi ++ lo

/-- A RW bit after a write: the written bit where the word is written, else as it was (R8, R341). -/
def rwBit (ws : Nat → Option Word) (k i : Nat) (old : Bool) : Bool :=
  match ws k with
  | some w => w.getLsbD i
  | none => old

/-- A RW field after a write (R8, R341). -/
def rwBits {n : Nat} (ws : Nat → Option Word) (k lo : Nat) (old : BitVec n) : BitVec n :=
  match ws k with
  | some w => (w >>> lo).setWidth n
  | none => old

/-- A RW field of several words after a write: each written word replaces its 32 bits (R8, R341). -/
def rwLong {n : Nat} (ws : Nat → Option Word) (k : Nat) (old : BitVec n) : BitVec n :=
  BitVec.ofNat n (((List.range ((n + 31) / 32)).map fun j =>
    match ws (k + j) with
    | some w => w.toNat <<< (32 * j)
    | none => (wordOf old j).toNat <<< (32 * j)).foldl (· + ·) 0)

/-- A W1C bit after a write: cleared by a one (R8). -/
def w1cBit (ws : Nat → Option Word) (k i : Nat) (old : Bool) : Bool :=
  match ws k with
  | some w => old && !w.getLsbD i
  | none => old

/-- A W1C field after a write: each bit cleared by a one (R8). -/
def w1cBits {n : Nat} (ws : Nat → Option Word) (k lo : Nat) (old : BitVec n) : BitVec n :=
  match ws k with
  | some w => old &&& ~~~((w >>> lo).setWidth n)
  | none => old

/-! ### Counters -/

/-- A counter that stops at its greatest value (R8). -/
def satInc {n : Nat} (c : BitVec n) (by' : Nat := 1) : BitVec n :=
  BitVec.ofNat n (min (2 ^ n - 1) (c.toNat + by'))

/-- A natural number held at the greatest value of a field. -/
def satNat (n v : Nat) : BitVec n := BitVec.ofNat n (min (2 ^ n - 1) v)

/-! ### Bytes -/

/-- A number from bytes, the first byte lowest. -/
def leNat : List Byte → Nat
  | [] => 0
  | b :: bs => b.toNat + 256 * leNat bs

/-- A number from bytes, the first byte highest (network order). -/
def beNat (bs : List Byte) : Nat := bs.foldl (fun a b => a * 256 + b.toNat) 0

/-- The low `n` bytes of a number, lowest first. -/
def leBytes : Nat → Nat → List Byte
  | 0, _ => []
  | n + 1, v => BitVec.ofNat 8 v :: leBytes n (v / 256)

/-- The low `n` bytes of a number, highest first (network order). -/
def beBytes (n v : Nat) : List Byte := (leBytes n v).reverse

/-- The four bytes of a word, lowest first (R4). -/
def wordBytes (w : Word) : List Byte := leBytes 4 w.toNat

/-- The bytes of words one after another. -/
def wordsBytes (ws : List Word) : List Byte := ws.flatMap wordBytes

/-- The words that bytes make, four bytes a word, lowest first; missing bytes of the last are zero. -/
def bytesWords : List Byte → List Word
  | [] => []
  | [a] => [BitVec.ofNat 32 (leNat [a])]
  | [a, b] => [BitVec.ofNat 32 (leNat [a, b])]
  | [a, b, c] => [BitVec.ofNat 32 (leNat [a, b, c])]
  | a :: b :: c :: d :: rest => BitVec.ofNat 32 (leNat [a, b, c, d]) :: bytesWords rest

/-- The bytes from `off` on, `n` of them; bytes past the end are zero. -/
def bytesAt (bs : List Byte) (off n : Nat) : List Byte :=
  let xs := (bs.drop off).take n
  xs ++ List.replicate (n - xs.length) 0

/-- The little-endian number in `n` bytes from `off` on. -/
def leAt (bs : List Byte) (off n : Nat) : Nat := leNat (bytesAt bs off n)

/-- The network-order number in `n` bytes from `off` on. -/
def beAt (bs : List Byte) (off n : Nat) : Nat := beNat (bytesAt bs off n)

/-! ### Signed numbers -/

/-- The low `n` bits of a number read as two's complement. -/
def signedOf (n v : Nat) : Int :=
  let m := v % 2 ^ n
  if m < 2 ^ (n - 1) then (m : Int) else (m : Int) - (2 : Int) ^ n

/-- The two's complement code of an integer in `n` bits. -/
def codeOf (n : Nat) (v : Int) : Nat := (v % (2 : Int) ^ n).toNat

/-- An integer held between two bounds. -/
def clampInt (lo hi v : Int) : Int := max lo (min hi v)

/-- Saturation to `n` signed bits. -/
def satInt (n : Nat) (v : Int) : Int := clampInt (-((2 : Int) ^ (n - 1))) ((2 : Int) ^ (n - 1) - 1) v

/-- Symmetric saturation to `n` signed bits: the most negative code is not used. -/
def satSym (n : Nat) (v : Int) : Int :=
  clampInt (-((2 : Int) ^ (n - 1) - 1)) ((2 : Int) ^ (n - 1) - 1) v

/-- Arithmetic shift right, towards minus infinity. -/
def shrFloor (v : Int) (n : Nat) : Int := v.fdiv ((2 : Int) ^ n)

/-- Division by `2 ^ n` rounded to nearest, ties to even (R86). -/
def shrEven (v : Int) (n : Nat) : Int :=
  match n with
  | 0 => v
  | k + 1 =>
    let q := v.fdiv ((2 : Int) ^ (k + 1))
    let r := v - q * (2 : Int) ^ (k + 1)
    let h := (2 : Int) ^ k
    if r < h then q else if r > h then q + 1 else if q % 2 = 0 then q else q + 1

/-- Division by `2 ^ n` rounded to nearest, ties towards plus infinity: half is added and the bits below dropped. -/
def shrHalfUp (v : Int) (n : Nat) : Int :=
  match n with
  | 0 => v
  | k + 1 => (v + (2 : Int) ^ k).fdiv ((2 : Int) ^ (k + 1))

/-! ### Lists and vectors -/

/-- A vector with the element at an index replaced. -/
def vset {α : Type} {n : Nat} (v : Vector α n) (i : Fin n) (a : α) : Vector α n := v.set i.val a i.isLt

/-- A vector with the element at an index changed by a function. -/
def vmod {α : Type} {n : Nat} (v : Vector α n) (i : Fin n) (f : α → α) : Vector α n := vset v i (f v[i])

/-- All indices below `n`, rising. -/
def allFin (n : Nat) : List (Fin n) := List.finRange n

/-- Replaces the element at `i`, where the list has one. -/
def setNth {α : Type} : List α → Nat → α → List α
  | [], _, _ => []
  | _ :: xs, 0, a => a :: xs
  | x :: xs, n + 1, a => x :: setNth xs n a

/-- The numbers `k` below `n` for which `f k` holds, as a mask. -/
def maskOf (n : Nat) (f : Nat → Bool) : Nat :=
  (List.range n).foldl (fun a k => if f k then a + 2 ^ k else a) 0

/-- How many bits of the low `n` of a number are ones. -/
def popCount (n v : Nat) : Nat := ((List.range n).filter fun k => v.testBit k).length

/-- The indices below `n` of the bits of a number that are ones, rising. -/
def bitsOf (n v : Nat) : List Nat := (List.range n).filter fun k => v.testBit k

/-- The least `k` with `v ≤ 2 ^ k`, for `v` up to `2 ^ n`. -/
def log2Up (n v : Nat) : Nat := ((List.range n).find? fun k => v ≤ 2 ^ k).getD n

end Sys2Proof.Machine
end

