-- ==== Sys2Proof/Machine/Crypto.lean ====
section
/-! DEFINITION. The standard codes and digests the spec names: CRC-32 of IEEE 802.3 (R34), SHA-256 and
HMAC (R320), SHA-384 and ECDSA P-384 (R434, R438). -/

namespace Sys2Proof.Machine

/-! ### CRC-32 -/

/-- One byte into the CRC register, bits taken least significant first. -/
def crcByte (c : BitVec 32) (b : Byte) : BitVec 32 :=
  (List.range 8).foldl (fun a _ => if a.getLsbD 0 then (a >>> 1) ^^^ 0xEDB88320 else a >>> 1) (c ^^^ b.setWidth 32)

/-- The CRC-32 of IEEE 802.3 over bytes (R34). -/
def crc32 (bs : List Byte) : Word := ~~~(bs.foldl crcByte 0xFFFFFFFF)

/-! ### SHA-2 -/

/-- The largest `r` below `2 ^ k` past `r0` with `r ^ e` at most `n`, one binary digit at a time. -/
def rootDigits (e n : Nat) : Nat → Nat → Nat
  | 0, r0 => r0
  | k + 1, r0 => rootDigits e n k (if (r0 + 2 ^ k) ^ e ≤ n then r0 + 2 ^ k else r0)

/-- The first `w` bits of the fraction of the `e`th root of a number whose root is below 16. -/
def rootFraction (e w p : Nat) : Nat := rootDigits e (p * 2 ^ (e * w)) (w + 4) 0 % 2 ^ w

/-- The primes below 410; they are eighty. -/
def smallPrimes : List Nat :=
  (List.range 410).filter fun p => decide (2 ≤ p) && (List.range 21).all fun d => d < 2 || d == p || p % d != 0

/-- Round constants of `w` bits: fractions of the cube roots of the first `n` primes. -/
def roundConstants (w n : Nat) : List (BitVec w) :=
  (smallPrimes.take n).map fun p => BitVec.ofNat w (rootFraction 3 w p)

/-- An initial hash value: fractions of the square roots of eight primes. -/
def rootStart (w : Nat) (ps : List Nat) : List (BitVec w) := ps.map fun p => BitVec.ofNat w (rootFraction 2 w p)

/-- The round constants of SHA-256: 32 bits for each of 64 primes. -/
def rounds256 : List (BitVec 32) := roundConstants 32 64

/-- The initial hash value of SHA-256, from the first eight primes. -/
def start256 : List (BitVec 32) := rootStart 32 (smallPrimes.take 8)

/-- The round constants of SHA-384: 64 bits for each of 80 primes. -/
def rounds384 : List (BitVec 64) := roundConstants 64 80

/-- The initial hash value of SHA-384, from the ninth to the sixteenth prime. -/
def start384 : List (BitVec 64) := rootStart 64 ((smallPrimes.drop 8).take 8)

/-- The rotation amounts that tell SHA-256 from SHA-384: the two sums of a round and the two of the schedule. -/
structure ShaShape where
  s1a : Nat × Nat × Nat
  s1b : Nat × Nat × Nat
  sga : Nat × Nat × Nat
  sgb : Nat × Nat × Nat

/-- SHA-256's amounts. -/
def shape256 : ShaShape := ⟨(2, 13, 22), (6, 11, 25), (7, 18, 3), (17, 19, 10)⟩

/-- SHA-384's amounts. -/
def shape384 : ShaShape := ⟨(28, 34, 39), (14, 18, 41), (1, 8, 7), (19, 61, 6)⟩

/-- Three rotations combined. -/
def rot3 {w : Nat} (x : BitVec w) (r : Nat × Nat × Nat) : BitVec w :=
  x.rotateRight r.1 ^^^ x.rotateRight r.2.1 ^^^ x.rotateRight r.2.2

/-- Two rotations and a shift combined. -/
def rot2s {w : Nat} (x : BitVec w) (r : Nat × Nat × Nat) : BitVec w :=
  x.rotateRight r.1 ^^^ x.rotateRight r.2.1 ^^^ (x >>> r.2.2)

/-- `n` further words of the message schedule; the words so far newest first. -/
def shaSchedule {w : Nat} (h : ShaShape) : Nat → List (BitVec w) → List (BitVec w)
  | 0, ws => ws.reverse
  | n + 1, ws =>
    shaSchedule h n ((rot2s (ws.getD 1 0) h.sgb + ws.getD 6 0 + rot2s (ws.getD 14 0) h.sga + ws.getD 15 0) :: ws)

/-- One round over the eight working variables. -/
def shaRound {w : Nat} (h : ShaShape) (v : List (BitVec w)) (kw : BitVec w × BitVec w) : List (BitVec w) :=
  match v with
  | [a, b, c, d, e, f, g, x] =>
    let t1 := x + rot3 e h.s1b + ((e &&& f) ^^^ (~~~e &&& g)) + kw.1 + kw.2
    let t2 := rot3 a h.s1a + ((a &&& b) ^^^ (a &&& c) ^^^ (b &&& c))
    [t1 + t2, a, b, c, d + t1, e, f, g]
  | other => other

/-- One block of sixteen words into the hash value. -/
def shaBlock {w : Nat} (h : ShaShape) (ks hv blk : List (BitVec w)) : List (BitVec w) :=
  let ws := shaSchedule h (ks.length - 16) blk.reverse
  List.zipWith (· + ·) hv ((List.zip ks ws).foldl (shaRound h) hv)

/-- The words of `n` bytes each, first byte highest, that the first `k` of bytes make. -/
def beWords (w n : Nat) : Nat → List Byte → List (BitVec w)
  | 0, _ => []
  | k + 1, bs => BitVec.ofNat w (beNat (bs.take n)) :: beWords w n k (bs.drop n)

/-- Blocks of sixteen words, `k` of them, into the hash value. -/
def shaBlocks {w : Nat} (h : ShaShape) (n : Nat) (ks : List (BitVec w)) :
    Nat → List Byte → List (BitVec w) → List (BitVec w)
  | 0, _, hv => hv
  | k + 1, bs, hv => shaBlocks h n ks k (bs.drop (16 * n)) (shaBlock h ks hv (beWords w n 16 bs))

/-- The message padded to whole blocks of `16 n` bytes, its bit length in the last `2 n` bytes. -/
def shaPad (n : Nat) (bs : List Byte) : List Byte :=
  let z := (16 * n - (bs.length + 1 + 2 * n) % (16 * n)) % (16 * n)
  bs ++ [0x80] ++ List.replicate z 0 ++ beBytes (2 * n) (8 * bs.length)

/-- SHA-256, 32 bytes. -/
def sha256 (bs : List Byte) : List Byte :=
  let p := shaPad 4 bs
  (shaBlocks shape256 4 rounds256 (p.length / 64) p start256).flatMap fun x => beBytes 4 x.toNat

/-- SHA-384, 48 bytes. -/
def sha384 (bs : List Byte) : List Byte :=
  let p := shaPad 8 bs
  ((shaBlocks shape384 8 rounds384 (p.length / 128) p start384).take 6).flatMap fun x => beBytes 8 x.toNat

/-- HMAC-SHA-256 for a key of at most 64 bytes. -/
def hmac256 (key msg : List Byte) : List Byte :=
  let k := key ++ List.replicate (64 - key.length) 0
  sha256 (k.map (· ^^^ 0x5C) ++ sha256 (k.map (· ^^^ 0x36) ++ msg))

/-! ### ECDSA over P-384 -/

/-- The field prime. -/
def p384P : Nat := 39402006196394479212279040100143613805079739270465446667948293404245721771496870329047266088258938001861606973112319

/-- The order of the base point. -/
def p384N : Nat := 0xffffffffffffffffffffffffffffffffffffffffffffffffc7634d81f4372ddf581a0db248b0a77aecec196accc52973

/-- The curve constant b. -/
def p384B : Nat := 0xb3312fa7e23ee7e4988e056be3f82d19181d9c6efe8141120314088f5013875ac656398d8a2ed19d2a85c8edd3ec2aef

/-- The base point. -/
def p384G : Nat × Nat :=
  (0xaa87ca22be8b05378eb1c71ef320ad746e1d3b628ba79b9859f741e082542a385502f25dbf55296c3a545e3872760ab7,
   0x3617de4a96262c6f5d9e98bf9292dc29f8f41dbd289a147ce9da3113b5f0b8c00a60b1ce1d7e819d7a431d7c90ea0e5f)

/-- `b ^ e mod m`, over the low `k` bits of the exponent. -/
def powMod (m : Nat) : Nat → Nat → Nat → Nat
  | 0, _, _ => 1 % m
  | k + 1, b, e =>
    let r := powMod m k (b * b % m) (e / 2)
    if e % 2 = 1 then b * r % m else r

/-- The inverse modulo a prime. -/
def invMod (m a : Nat) : Nat := powMod m 384 (a % m) (m - 2)

/-- The sum of two points; none is the point at infinity. -/
def ecAdd (a b : Option (Nat × Nat)) : Option (Nat × Nat) :=
  match a, b with
  | none, q => q
  | q, none => q
  | some (x1, y1), some (x2, y2) =>
    if x1 = x2 ∧ (y1 + y2) % p384P = 0 then none
    else
      let l := if x1 = x2 then (3 * x1 * x1 + (p384P - 3)) * invMod p384P (2 * y1) % p384P
        else (y2 + p384P - y1) * invMod p384P (x2 + p384P - x1) % p384P
      let x3 := (l * l + 2 * p384P - x1 - x2) % p384P
      some (x3, (l * (x1 + p384P - x3) + p384P - y1) % p384P)

/-- A multiple of a point, over the low `k` bits of the scalar. -/
def ecMul : Nat → Nat → Option (Nat × Nat) → Option (Nat × Nat)
  | 0, _, _ => none
  | k + 1, e, q =>
    let r := ecMul k (e / 2) (ecAdd q q)
    if e % 2 = 1 then ecAdd q r else r

/-- The ECDSA P-384 check of a signature (r, s) over a digest under a public key. -/
def ecdsaVerify (pub : Nat × Nat) (digest r s : Nat) : Bool :=
  let x := pub.1
  let y := pub.2
  decide (x < p384P) && decide (y < p384P) &&
  decide (y * y % p384P = (x * x % p384P * x + (p384P - 3) * x + p384B) % p384P) &&
  decide (0 < r) && decide (r < p384N) && decide (0 < s) && decide (s < p384N) &&
  (let w := invMod p384N s
   match ecAdd (ecMul 384 (digest * w % p384N) (some p384G)) (ecMul 384 (r * w % p384N) (some pub)) with
   | some (px, _) => decide (px % p384N = r)
   | none => false)

end Sys2Proof.Machine
end

