-- ==== Sys2Proof/Config.lean ====
section
/-! DEFINITION. What one module's manufacture fixes, and the free values: constants with no body,
so that no proof can lean on what they are (log entry 3). -/

namespace Sys2Proof.Config

/-- A fresh unconstrained 32-bit value, applied to the plain counter `freeCount` of the state (log entry 3). -/
opaque freeWord : Nat → BitVec 32

/-- A fresh unconstrained byte, applied to the plain counter `freeCount` of the state (log entry 3). -/
opaque freeByte : Nat → BitVec 8

/-- What a read of an internal address returns whose contents the spec does not give: boot ROM,
egress staging, the blocks behind the two bridges (R358; log entry 3). -/
opaque readOpaque : Nat → BitVec 32

/-- The integer a delay evaluation leaves when a binary64 value of the model is not finite (R95; log entry 3). -/
opaque nonFinite : Nat → Int

/-- ID_INFO.SILICON_REV (R328: the Reset column gives none). -/
opaque siliconRev : BitVec 16

/-- ID_INFO.MODULE_REV (R328). -/
opaque moduleRev : BitVec 16

/-- FW_VERSION of the factory image (R328, R434). -/
opaque fwVersion : BitVec 32

/-- The serial fuses (R438). -/
opaque serial : BitVec 64

/-- The SHA-384 of Satisin's root public key in the fuses, as a number (R438). -/
opaque rootDigest : BitVec 384

/-- The 32-byte recovery key of the manufacturing record (R322, R440). -/
opaque recoveryKey : Vector (BitVec 8) 32

/-- The management-port base MAC address of the manufacturing record (R453). -/
opaque macBase : BitVec 48

/-- LENGTH (word 0) and CRC (word 1) of a table of the factory image, by class and identity; word 2 onward its body where
the spec gives no content for it (R345, R416; log entry 40). -/
opaque factoryTable : Nat → Nat → Nat → BitVec 32

/-- SEQ of the factory image's copy header (R434; log entry 40). -/
opaque factorySeq : BitVec 32

/-- IMAGE_BYTES of the factory image (R434; log entry 40). -/
opaque factoryBytes : BitVec 32

/-- SECURITY_VERSION of the factory image (R434; log entry 40). -/
opaque factorySecurity : BitVec 7

/-- The boot-ROM firmware version in a recovery boot (R440). -/
opaque recoveryFwVersion : BitVec 32

end Sys2Proof.Config
end

