-- ==== Sys2Proof/Machine/Records.lean ====
section
/-! DEFINITION. The records of the module as structures: the fields of the spec's record tables with
their cold-start values. What a record reads as and how SET_RECORD changes it stands in RecordWords.lean. -/

namespace Sys2Proof.Machine

/-- LANE_OCT_CFG, Table 02-9 (R60): the record's fields with their cold-start values. -/
structure LaneOctCfg where
  /-- ENABLE (RO, reset 1). -/
  enable : Bool := true
  /-- DIR (RO, reset 0 (octets 0–11), 1 (12–15)). -/
  dir : Bool := false
  /-- PERS (RO, reset 0 (octets 0–11), 1 (12–15)). -/
  pers : Bool := false
  /-- ETH_LAYOUT (RO, reset 2). -/
  ethLayout : BitVec 3 := 2
  /-- ETH_TRAIN (RO, reset 1). -/
  ethTrain : Bool := true
  /-- LANE_EN (RO, reset 0xFF). -/
  laneEn : BitVec 8 := 255
  /-- RX_INVERT (RO, reset 0x00). -/
  rxInvert : BitVec 8 := 0
  /-- TX_INVERT (RO, reset 0x00). -/
  txInvert : BitVec 8 := 0
  /-- ERR_LIMIT (RO, reset 1000). -/
  errLimit : BitVec 16 := 1000
  /-- REPLAY_LIMIT (RO, reset 4). -/
  replayLimit : BitVec 4 := 4
  /-- START_PRESET (RO, reset 0). -/
  startPreset : BitVec 3 := 0
  /-- LOOPBACK (RO, reset 0). -/
  loopback : Bool := false
  /-- UNIDIR (RO, reset 0). -/
  unidir : Bool := false
  /-- EXPECT_TAG0 (RO, reset 0xFFFF_FFFF). -/
  expectTag0 : BitVec 32 := 4294967295
  /-- EXPECT_TAG1 (RO, reset 0xFFFF_FFFF). -/
  expectTag1 : BitVec 32 := 4294967295
  deriving DecidableEq, Repr

/-- LANE_STAT, Table 02-10 (R61): the record's fields with their cold-start values. -/
structure LaneStat where
  /-- STATE (RO, reset 0). -/
  state : BitVec 4 := 0
  /-- SIGNAL (RO, reset 0). -/
  signal : Bool := false
  /-- BLOCK_LOCK (RO, reset 0). -/
  blockLock : Bool := false
  /-- TAG_OK (RO, reset 0). -/
  tagOk : Bool := false
  /-- PEER_TAG (RO, reset 0xFF). -/
  peerTag : BitVec 8 := 255
  /-- PRESET (RO, reset 0). -/
  preset : BitVec 3 := 0
  /-- LOCK_LOST (W1C, reset 0). -/
  lockLost : Bool := false
  /-- RETRAINED (W1C, reset 0). -/
  retrained : Bool := false
  /-- TAG_BAD (W1C, reset 0). -/
  tagBad : Bool := false
  /-- FILL_BAD (W1C, reset 0). -/
  fillBad : Bool := false
  /-- PEER_TAPS (RO, reset 0). -/
  peerTaps : BitVec 32 := 0
  /-- OWN_TAPS (RO, reset 0x0040_0000). -/
  ownTaps : BitVec 32 := 4194304
  /-- EYE_METRIC (RO, reset 0). -/
  eyeMetric : BitVec 16 := 0
  /-- RETRAINS (RO, reset 0). -/
  retrains : BitVec 16 := 0
  deriving DecidableEq, Repr

/-- LANE_CNT, Table 02-12 (R62): the record's fields with their cold-start values. -/
structure LaneCnt where
  /-- RX_BLOCKS (RO, reset 0). -/
  rxBlocks : BitVec 64 := 0
  /-- RX_FRAMES (RO, reset 0). -/
  rxFrames : BitVec 64 := 0
  /-- CRC_ERR (RO, reset 0). -/
  crcErr : BitVec 32 := 0
  /-- FORM_ERR (RO, reset 0). -/
  formErr : BitVec 32 := 0
  /-- NAK_SENT (RO, reset 0). -/
  nakSent : BitVec 32 := 0
  /-- DUP_FRAMES (RO, reset 0). -/
  dupFrames : BitVec 32 := 0
  /-- BAD_HDR (RO, reset 0). -/
  badHdr : BitVec 32 := 0
  /-- LOCK_LOSS (RO, reset 0). -/
  lockLoss : BitVec 32 := 0
  /-- UNK_CTRL (RO, reset 0). -/
  unkCtrl : BitVec 32 := 0
  /-- FILL_GAP (RO, reset 0). -/
  fillGap : BitVec 32 := 0
  /-- ELASTIC_OVF (RO, reset 0). -/
  elasticOvf : BitVec 32 := 0
  /-- TX_REPLAY (RO, reset 0). -/
  txReplay : BitVec 32 := 0
  /-- REPLAY_TMO (RO, reset 0). -/
  replayTmo : BitVec 32 := 0
  /-- LOST_FRAMES (RO, reset 0). -/
  lostFrames : BitVec 32 := 0
  deriving DecidableEq, Repr

/-- LANE_EYE, Table 02-13 (R63): the record's fields with their cold-start values. -/
structure LaneEye where
  /-- LANE (RO, reset 0). -/
  lane : BitVec 7 := 0
  /-- EYE (RO, reset 0). -/
  eye : BitVec 2 := 0
  /-- STATUS (RO, reset 0). -/
  status : BitVec 4 := 0
  /-- DWELL_LOG2 (RO, reset 0). -/
  dwellLog2 : BitVec 5 := 0
  /-- POINTS_TOTAL (RO, reset 0). -/
  pointsTotal : BitVec 16 := 0
  /-- POINTS_DONE (RO, reset 0). -/
  pointsDone : BitVec 16 := 0
  /-- OPEN_H (RO, reset 0xFFFF). -/
  openH : BitVec 16 := 65535
  /-- OPEN_V (RO, reset 0xFFFF). -/
  openV : BitVec 16 := 65535
  /-- START_SEC (RO, reset 0). -/
  startSec : BitVec 32 := 0
  deriving DecidableEq, Repr

/-- LANE_INGR_CNT, Table 03-9 (R85): the record's fields with their cold-start values. -/
structure LaneIngrCnt where
  /-- PKTS_OK (RO, reset 0). -/
  pktsOk : BitVec 64 := 0
  /-- STATUS_OK (RO, reset 0). -/
  statusOk : BitVec 32 := 0
  /-- MALFORMED (RO, reset 0). -/
  malformed : BitVec 32 := 0
  /-- NO_SUBARRAY (RO, reset 0). -/
  noSubarray : BitVec 32 := 0
  /-- OUT_OF_SET (RO, reset 0). -/
  outOfSet : BitVec 32 := 0
  /-- MISALIGNED (RO, reset 0). -/
  misaligned : BitVec 32 := 0
  /-- LATE (RO, reset 0). -/
  late : BitVec 32 := 0
  /-- FUTURE (RO, reset 0). -/
  future : BitVec 32 := 0
  /-- DUP (RO, reset 0). -/
  dup : BitVec 32 := 0
  /-- STATUS_EXCESS (RO, reset 0). -/
  statusExcess : BitVec 32 := 0
  /-- OVERRANGE (RO, reset 0). -/
  overrange : BitVec 32 := 0
  /-- FLAGGED (RO, reset 0). -/
  flagged : BitVec 32 := 0
  /-- ADDR_DROP (RO, reset 0). -/
  addrDrop : BitVec 32 := 0
  deriving DecidableEq, Repr

/-- LANE_EGR_CNT, Table 03-10 (R85): the record's fields with their cold-start values. -/
structure LaneEgrCnt where
  /-- PKTS_BUILT (RO, reset 0). -/
  pktsBuilt : BitVec 64 := 0
  /-- BYTES_SENT (RO, reset 0). -/
  bytesSent : BitVec 64 := 0
  /-- PORT_DOWN_DROP (RO, reset 0). -/
  portDownDrop : BitVec 32 := 0
  /-- QUEUE_DROP (RO, reset 0). -/
  queueDrop : BitVec 32 := 0
  /-- STALL_MS (RO, reset 0). -/
  stallMs : BitVec 32 := 0
  deriving DecidableEq, Repr

/-- SIEV_CFG, Table 04-6 (R109): the record's fields with their cold-start values. -/
structure SievCfg where
  /-- FIR_MODE (RO, reset 0). -/
  firMode : Bool := false
  /-- P_LOG2 (RO, reset 6). -/
  pLog2 : BitVec 4 := 6
  /-- TAPS (RO, reset 16). -/
  taps : BitVec 5 := 16
  /-- DECIM_M1 (RO, reset 0). -/
  decimM1 : BitVec 6 := 0
  /-- DTAPS_M1 (RO, reset 0). -/
  dtapsM1 : BitVec 9 := 0
  /-- COEF_BASE (RO, reset 0). -/
  coefBase : BitVec 16 := 0
  /-- OUT_SHIFT (RW, reset 17). -/
  outShift : BitVec 5 := 17
  /-- DELAY_SLIP (RW, reset 0). -/
  delaySlip : Bool := false
  /-- CAL_HOLD (RW, reset 0). -/
  calHold : Bool := false
  /-- STALE_INVALID (RW, reset 0). -/
  staleInvalid : Bool := false
  /-- DCB_SHIFT (RW, reset 14). -/
  dcbShift : BitVec 5 := 14
  /-- DCB_SETTLE (RW, reset 65,536). -/
  dcbSettle : BitVec 21 := 65536
  /-- XFADE_LOG2 (RW, reset 10). -/
  xfadeLog2 : BitVec 4 := 10
  /-- COARSE_CHANNELS (RO, reset 0). -/
  coarseChannels : BitVec 16 := 0
  deriving DecidableEq, Repr

/-- SIEV_STAT, Table 04-7 (R110): the record's fields with their cold-start values. -/
structure SievStat where
  /-- STATE (RO, reset 0). -/
  state : BitVec 3 := 0
  /-- MODEL_STALE (RO, reset 0). -/
  modelStale : Bool := false
  /-- ACTIVE_BANK (RO, reset 0). -/
  activeBank : Bool := false
  /-- STANDBY_VALID (RO, reset 0). -/
  standbyValid : Bool := false
  /-- SWAP_PENDING (RO, reset 0). -/
  swapPending : Bool := false
  /-- STALE_SEEN (W1C, reset 0). -/
  staleSeen : Bool := false
  /-- SAT_SEEN (W1C, reset 0). -/
  satSeen : Bool := false
  /-- LATE_SEEN (W1C, reset 0). -/
  lateSeen : Bool := false
  /-- RANGE_SEEN (W1C, reset 0). -/
  rangeSeen : Bool := false
  /-- FIRST_EMIT (RO, reset 0). -/
  firstEmit : BitVec 64 := 0
  /-- LAST_RESET (RO, reset 0). -/
  lastReset : BitVec 64 := 0
  /-- FROZEN_BLOCKS (RO, reset 0). -/
  frozenBlocks : BitVec 32 := 0
  /-- XFADE_LEFT (RO, reset 0). -/
  xfadeLeft : BitVec 16 := 0
  /-- SAT_COUNT (RO, reset 0). -/
  satCount : BitVec 32 := 0
  /-- DELAY_STEPS (RO, reset 0). -/
  delaySteps : BitVec 32 := 0
  /-- LATE_UPDATES (RO, reset 0). -/
  lateUpdates : BitVec 32 := 0
  /-- SUPPRESSED (RO, reset 0). -/
  suppressed : BitVec 64 := 0
  /-- SWAPS (RO, reset 0). -/
  swaps : BitVec 32 := 0
  deriving DecidableEq, Repr

/-- MILL_CFG, Table 05-10 (R133): the record's fields with their cold-start values. -/
structure MillCfg where
  /-- KERNEL_ID (RW, reset 6). -/
  kernelId : BitVec 8 := 6
  /-- ENGINES (RO, reset 0). -/
  engines : BitVec 32 := 0
  deriving DecidableEq, Repr

/-- MILL_STAT, Table 05-11 (R133): the record's fields with their cold-start values. -/
structure MillStat where
  /-- STATE (RO, reset 0). -/
  state : BitVec 2 := 0
  /-- SUBARRAY (RO, reset 0). -/
  subarray : BitVec 2 := 0
  /-- KERNEL_ID (RO, reset 0). -/
  kernelId : BitVec 8 := 0
  /-- FAULT_CODE (RO, reset 0). -/
  faultCode : BitVec 4 := 0
  /-- FAULT_SEEN (W1C, reset 0). -/
  faultSeen : Bool := false
  /-- SAT_SEEN (W1C, reset 0). -/
  satSeen : Bool := false
  /-- FAULT_PC (RO, reset 0). -/
  faultPc : BitVec 12 := 0
  /-- RESTARTS (RO, reset 0). -/
  restarts : BitVec 16 := 0
  /-- FRAMES (RO, reset 0). -/
  frames : BitVec 64 := 0
  /-- STALL_CYCLES (RO, reset 0). -/
  stallCycles : BitVec 32 := 0
  /-- LOAD_WAIT (RO, reset 0). -/
  loadWait : BitVec 32 := 0
  /-- SAT_COUNT (RO, reset 0). -/
  satCount : BitVec 32 := 0
  /-- EXP_MIN (RO, reset 0). -/
  expMin : BitVec 5 := 0
  /-- EXP_MAX (RO, reset 0). -/
  expMax : BitVec 5 := 0
  deriving DecidableEq, Repr

/-- ASSY_CFG, Table 05-12 (R133): the record's fields with their cold-start values. -/
structure AssyCfg where
  /-- FORMAT (RO, reset 0). -/
  format : Bool := false
  /-- FDELAY_EN (RW, reset 1). -/
  fdelayEn : Bool := true
  /-- CURVE_ID (RW, reset 0). -/
  curveId : BitVec 4 := 0
  /-- GAIN_GROUP_LOG2 (RO, reset 0). -/
  gainGroupLog2 : BitVec 3 := 0
  /-- DEFAULT_GAIN (RW, reset 0x3A00). -/
  defaultGain : BitVec 16 := 14848
  /-- CLIP_ALARM (RW, reset 655). -/
  clipAlarm : BitVec 16 := 655
  deriving DecidableEq, Repr

/-- ASSY_STAT, Table 05-13 (R133): the record's fields with their cold-start values. -/
structure AssyStat where
  /-- GAIN_PENDING (RO, reset 0). -/
  gainPending : Bool := false
  /-- CLIP_SEEN (W1C, reset 0). -/
  clipSeen : Bool := false
  /-- QSAT_SEEN (W1C, reset 0). -/
  qsatSeen : Bool := false
  /-- DROP_SEEN (W1C, reset 0). -/
  dropSeen : Bool := false
  /-- LAST_SPAN (RO, reset 0). -/
  lastSpan : BitVec 64 := 0
  /-- Q_SAT (RO, reset 0). -/
  qSat : BitVec 32 := 0
  /-- DROPPED_FRAMES (RO, reset 0). -/
  droppedFrames : BitVec 32 := 0
  /-- CLIP_INPUTS (RO, reset 0). -/
  clipInputs : BitVec 16 := 0
  /-- MASKED (RO, reset 0). -/
  masked : BitVec 32 := 0
  deriving DecidableEq, Repr

/-- ASSY_LEVELS, Table 05-14 (R133): the record's fields with their cold-start values. -/
structure AssyLevels where
  /-- SPAN (RO, reset 0). -/
  span : BitVec 64 := 0
  /-- VALID_FS (RO, reset 0). -/
  validFs : BitVec 64 := 0
  /-- PWR (RO, reset 0). -/
  pwr : BitVec 64 := 0
  /-- CLIP (RO, reset 0). -/
  clip : BitVec 32 := 0
  /-- HIST0–HIST7 (RO, reset 0). -/
  hist : Vector (BitVec 32) 8 := Vector.replicate 8 0
  deriving DecidableEq, Repr

/-- CELL_CFG, Table 06-2 (R150): the record's fields with their cold-start values. -/
structure CellCfg where
  /-- DEPTH (RO, reset 0). -/
  depth : BitVec 4 := 0
  /-- FORMAT (RO, reset 0). -/
  format : Bool := false
  /-- HALVES (RO, reset 0). -/
  halves : Bool := false
  /-- BLOCK_MASK (RO, reset 0). -/
  blockMask : BitVec 32 := 0
  /-- FINE_CHANNELS (RO, reset 0). -/
  fineChannels : BitVec 24 := 0
  /-- BASE (RO, reset 0). -/
  base : BitVec 44 := 0
  /-- BAY_BYTES (RO, reset 0). -/
  bayBytes : BitVec 48 := 0
  /-- SHELF_BASE (RO, reset 0). -/
  shelfBase : BitVec 25 := 0
  /-- SHELF_UNIT (RO, reset 0). -/
  shelfUnit : BitVec 25 := 0
  deriving DecidableEq, Repr

/-- CELL_STAT, Table 06-3 (R151): the record's fields with their cold-start values. -/
structure CellStat where
  /-- LIVE_BAYS (RO, reset 0). -/
  liveBays : BitVec 4 := 0
  /-- PENDING (RO, reset 0). -/
  pending : BitVec 4 := 0
  /-- OVERRUN_SEEN (W1C, reset 0). -/
  overrunSeen : Bool := false
  /-- RMW_SEEN (W1C, reset 0). -/
  rmwSeen : Bool := false
  /-- LATE_SEEN (W1C, reset 0). -/
  lateSeen : Bool := false
  /-- SHELF_ERR_SEEN (W1C, reset 0). -/
  shelfErrSeen : Bool := false
  /-- WRITE_SPAN (RO, reset 0). -/
  writeSpan : BitVec 64 := 0
  /-- READ_SPAN (RO, reset 0). -/
  readSpan : BitVec 64 := 0
  /-- MAX_LAG (RC, reset 0). -/
  maxLag : BitVec 32 := 0
  /-- OVERRUN_SPANS (RO, reset 0). -/
  overrunSpans : BitVec 32 := 0
  /-- CONDEMNED_CHUNKS (RO, reset 0). -/
  condemnedChunks : BitVec 32 := 0
  /-- MARKER_GRANULES (RO, reset 0). -/
  markerGranules : BitVec 64 := 0
  /-- RMW_GRANULES (RO, reset 0). -/
  rmwGranules : BitVec 32 := 0
  /-- LATE_FS (RO, reset 0). -/
  lateFs : BitVec 32 := 0
  /-- SHELF_CORR (RO, reset 0). -/
  shelfCorr : BitVec 32 := 0
  /-- SHELF_RESTAGE (RO, reset 0). -/
  shelfRestage : BitVec 32 := 0
  deriving DecidableEq, Repr

/-- CELL_CAPT, Table 06-4 (R152): the record's fields with their cold-start values. -/
structure CellCapt where
  /-- STATE (RO, reset 0). -/
  state : BitVec 2 := 0
  /-- SUBARRAY (RO, reset 0). -/
  subarray : BitVec 2 := 0
  /-- COUNT (RO, reset 0). -/
  count : BitVec 4 := 0
  /-- DONE (RO, reset 0). -/
  done : BitVec 4 := 0
  /-- SHORT (RO, reset 0). -/
  isShort : Bool := false
  /-- WARM_KEPT (RO, reset 0). -/
  warmKept : Bool := false
  /-- FORMAT (RO, reset 0). -/
  format : Bool := false
  /-- FIRST_SPAN (RO, reset 0). -/
  firstSpan : BitVec 64 := 0
  /-- TRIG_SEC_LO (RO, reset 0). -/
  trigSecLo : BitVec 32 := 0
  /-- TRIG_SEC_HI (RO, reset 0). -/
  trigSecHi : BitVec 16 := 0
  /-- TRIG_NS (RO, reset 0). -/
  trigNs : BitVec 30 := 0
  /-- BLOCK_MASK (RO, reset 0). -/
  blockMask : BitVec 32 := 0
  /-- FINE_CHANNELS (RO, reset 0). -/
  fineChannels : BitVec 24 := 0
  /-- BAY_BYTES (RO, reset 0). -/
  bayBytes : BitVec 48 := 0
  /-- BAY_ADDR0–5 (RO, reset 0). -/
  bayAddr : Vector (BitVec 44) 6 := Vector.replicate 6 0
  /-- SPAN0_SEC_LO (RO, reset 0). -/
  span0SecLo : BitVec 32 := 0
  /-- SPAN0_SEC_HI (RO, reset 0). -/
  span0SecHi : BitVec 16 := 0
  /-- SPAN0_NS (RO, reset 0). -/
  span0Ns : BitVec 30 := 0
  deriving DecidableEq, Repr

/-- LOOM_CFG, Table 07-5 (R182): the record's fields with their cold-start values. -/
structure LoomCfg where
  /-- FORMAT (RO, reset 0). -/
  format : Bool := false
  /-- S_LOG2 (RO, reset 0). -/
  sLog2 : BitVec 2 := 0
  /-- HALVES (RO, reset 0). -/
  halves : Bool := false
  /-- CUSTOM_ORDER (RO, reset 0). -/
  customOrder : Bool := false
  /-- CUT_FROM (RW, reset 0). -/
  cutFrom : BitVec 2 := 0
  /-- CUT_TARGET (RW, reset 10,000). -/
  cutTarget : BitVec 16 := 10000
  /-- CORR_TILES_LO (RO, reset 0). -/
  corrTilesLo : BitVec 32 := 0
  /-- CORR_TILES_HI (RO, reset 0). -/
  corrTilesHi : BitVec 8 := 0
  /-- BEAM_TILES_LO (RO, reset 0). -/
  beamTilesLo : BitVec 32 := 0
  /-- BEAM_TILES_HI (RO, reset 0). -/
  beamTilesHi : BitVec 8 := 0
  /-- POSITIONS (RO, reset 0). -/
  positions : BitVec 10 := 0
  deriving DecidableEq, Repr

/-- LOOM_STAT, Table 07-6 (R183): the record's fields with their cold-start values. -/
structure LoomStat where
  /-- STATE (RO, reset 0). -/
  state : BitVec 3 := 0
  /-- PLAN_PENDING (RO, reset 0). -/
  planPending : Bool := false
  /-- RETIRE_PENDING (RO, reset 0). -/
  retirePending : Bool := false
  /-- CUT_ACTIVE (RO, reset 0). -/
  cutActive : Bool := false
  /-- NO_MARGIN (RO, reset 0). -/
  noMargin : Bool := false
  /-- CHECK_SEEN (W1C, reset 0). -/
  checkSeen : Bool := false
  /-- LOST_SEEN (W1C, reset 0). -/
  lostSeen : Bool := false
  /-- CUT_SEEN (W1C, reset 0). -/
  cutSeen : Bool := false
  /-- FAIL_SEEN (W1C, reset 0). -/
  failSeen : Bool := false
  /-- LOAD (RO, reset 0). -/
  load : BitVec 16 := 0
  /-- BEAM_LOAD (RO, reset 0). -/
  beamLoad : BitVec 16 := 0
  /-- CUT_TOP (RO, reset 0). -/
  cutTop : BitVec 16 := 0
  /-- CUT_BOTTOM (RO, reset 0). -/
  cutBottom : BitVec 16 := 0
  /-- SPAN (RO, reset 0). -/
  span : BitVec 64 := 0
  /-- FINE_CHAN (RO, reset 0). -/
  fineChan : BitVec 24 := 0
  /-- JOBS (RO, reset 0). -/
  jobs : BitVec 64 := 0
  /-- REDONE (RO, reset 0). -/
  redone : BitVec 32 := 0
  /-- LOST (RO, reset 0). -/
  lost : BitVec 32 := 0
  /-- SHELF_WAIT (RO, reset 0). -/
  shelfWait : BitVec 32 := 0
  /-- LEDGER_WAIT (RO, reset 0). -/
  ledgerWait : BitVec 32 := 0
  /-- LATE_SPANS (RO, reset 0). -/
  lateSpans : BitVec 32 := 0
  /-- ODD_CODES (RO, reset 0). -/
  oddCodes : BitVec 32 := 0
  deriving DecidableEq, Repr

/-- LOOM_TILE, Table 07-8 (R184): the record's fields with their cold-start values. -/
structure LoomTile where
  /-- STATE (RO, reset 0). -/
  state : BitVec 3 := 0
  /-- LOGICAL (RO, reset —). -/
  logical : BitVec 6 := 0
  /-- SUBARRAY (RO, reset 0). -/
  subarray : BitVec 2 := 0
  /-- LAST_CAUSE (RO, reset 0). -/
  lastCause : BitVec 3 := 0
  /-- FAIL_SEEN (W1C, reset 0). -/
  failSeen : Bool := false
  /-- JOBS (RO, reset 0). -/
  jobs : BitVec 64 := 0
  /-- CHECK_FAIL (RO, reset 0). -/
  checkFail : BitVec 16 := 0
  /-- SOFT_ERRORS (RO, reset 0). -/
  softErrors : BitVec 16 := 0
  /-- SELFTESTS (RO, reset 0). -/
  selftests : BitVec 16 := 0
  /-- SELFTEST_FAIL (RO, reset 0). -/
  selftestFail : BitVec 16 := 0
  /-- TEMP (RO, reset 0). -/
  temp : BitVec 16 := 0
  /-- RETIRE_SEC (RO, reset 0). -/
  retireSec : BitVec 32 := 0
  deriving DecidableEq, Repr

/-- LOOM_POOL, Table 07-10 (R185): the record's fields with their cold-start values. -/
structure LoomPool where
  /-- PRESENT (RO, reset —). -/
  present : BitVec 6 := 0
  /-- SPARES (RO, reset —). -/
  spares : BitVec 2 := 0
  /-- RETIRED_LO (RO, reset —). -/
  retiredLo : BitVec 32 := 0
  /-- RETIRED_HI (RO, reset —). -/
  retiredHi : BitVec 10 := 0
  /-- FREE_LO (RO, reset 0xFFFF_FFFF). -/
  freeLo : BitVec 32 := 4294967295
  /-- FREE_HI (RO, reset 0xFF). -/
  freeHi : BitVec 8 := 255
  deriving DecidableEq, Repr

/-- LOOM_LOST, Table 07-11 (R186): the record's fields with their cold-start values. -/
structure LoomLost where
  /-- SPAN (RO, reset 0). -/
  span : BitVec 64 := 0
  /-- FINE_CHAN (RO, reset 0). -/
  fineChan : BitVec 24 := 0
  /-- CHUNK (RO, reset 0). -/
  chunk : BitVec 3 := 0
  /-- SLICE (RO, reset 0). -/
  slice : BitVec 3 := 0
  /-- SUBARRAY (RO, reset 0). -/
  subarray : BitVec 2 := 0
  /-- BLOCK_I (RO, reset 0). -/
  blockI : BitVec 5 := 0
  /-- BLOCK_J (RO, reset 0). -/
  blockJ : BitVec 5 := 0
  /-- CAUSE (RO, reset 0). -/
  cause : Bool := false
  deriving DecidableEq, Repr

/-- LEDG_CFG, Table 08-4 (R212): the record's fields with their cold-start values. -/
structure LedgCfg where
  /-- INT_SPANS_M1 (RO, reset 0). -/
  intSpansM1 : BitVec 20 := 0
  /-- STREAM (RO, reset 1). -/
  stream : Bool := true
  /-- WREC_GROUP_LOG2 (RW, reset 0). -/
  wrecGroupLog2 : BitVec 3 := 0
  /-- SHIFT (RW, reset 0). -/
  shift : BitVec 6 := 0
  /-- DRAM_BASE (RO, reset 0). -/
  dramBase : BitVec 44 := 0
  /-- DRAM_BYTES (RO, reset 0). -/
  dramBytes : BitVec 48 := 0
  /-- SRAM_BASE (RO, reset 0). -/
  sramBase : BitVec 28 := 0
  /-- SET_BYTES (RO, reset 0). -/
  setBytes : BitVec 28 := 0
  deriving DecidableEq, Repr

/-- LEDG_STAT, Table 08-5 (R213): the record's fields with their cold-start values. -/
structure LedgStat where
  /-- DRAINS (RO, reset 0). -/
  drains : BitVec 3 := 0
  /-- SWAP_DUE (RO, reset 0). -/
  swapDue : Bool := false
  /-- SAT_LEDGER_SEEN (W1C, reset 0). -/
  satLedgerSeen : Bool := false
  /-- SAT_COMPACT_SEEN (W1C, reset 0). -/
  satCompactSeen : Bool := false
  /-- ECC_SEEN (W1C, reset 0). -/
  eccSeen : Bool := false
  /-- WITHHELD_SEEN (W1C, reset 0). -/
  withheldSeen : Bool := false
  /-- INTEGRATION (RO, reset 0). -/
  integration : BitVec 64 := 0
  /-- INT_FIRST_SPAN (RO, reset 0). -/
  intFirstSpan : BitVec 64 := 0
  /-- NEXT_DRAIN (RO, reset 0). -/
  nextDrain : BitVec 64 := 0
  /-- ENTRIES (RO, reset 0). -/
  entries : BitVec 64 := 0
  /-- DUMPS_DISCARDED (RO, reset 0). -/
  dumpsDiscarded : BitVec 32 := 0
  /-- SAT_TILES_LEDGER (RO, reset 0). -/
  satTilesLedger : BitVec 32 := 0
  /-- SAT_TILES_COMPACT (RO, reset 0). -/
  satTilesCompact : BitVec 32 := 0
  /-- ECC_CORR (RO, reset 0). -/
  eccCorr : BitVec 32 := 0
  /-- WITHHELD_TILES (RO, reset 0). -/
  withheldTiles : BitVec 32 := 0
  /-- WH_INTEGRATION (RO, reset 0). -/
  whIntegration : BitVec 64 := 0
  /-- WH_FINE_CHAN (RO, reset 0). -/
  whFineChan : BitVec 24 := 0
  /-- WH_BLOCK_I (RO, reset 0). -/
  whBlockI : BitVec 5 := 0
  /-- WH_BLOCK_J (RO, reset 0). -/
  whBlockJ : BitVec 5 := 0
  deriving DecidableEq, Repr

/-- LOOM_BEAM_CFG, Table 09-6 (R238): the record's fields with their cold-start values. -/
structure LoomBeamCfg where
  /-- BEAMS (RO, reset 0). -/
  beams : BitVec 11 := 0
  /-- WGROUP_LOG2 (RO, reset 0). -/
  wgroupLog2 : BitVec 3 := 0
  /-- CURVE_ID (RW, reset 0). -/
  curveId : BitVec 3 := 0
  /-- SUM_LEN_M1 (RO, reset 0). -/
  sumLenM1 : BitVec 16 := 0
  /-- WEIGHT_BASE (RO, reset 0). -/
  weightBase : BitVec 44 := 0
  /-- WEIGHT_BYTES (RO, reset 0). -/
  weightBytes : BitVec 48 := 0
  /-- TURN_BASE (RO, reset 0). -/
  turnBase : BitVec 44 := 0
  /-- TURN_BYTES (RO, reset 0). -/
  turnBytes : BitVec 48 := 0
  deriving DecidableEq, Repr

/-- LOOM_BEAM_STAT, Table 09-7 (R239): the record's fields with their cold-start values. -/
structure LoomBeamStat where
  /-- WEIGHT_READY (RO, reset 0). -/
  weightReady : Bool := false
  /-- SWITCH_PENDING (RO, reset 0). -/
  switchPending : Bool := false
  /-- LOST_SEEN (W1C, reset 0). -/
  lostSeen : Bool := false
  /-- TURN_SEEN (W1C, reset 0). -/
  turnSeen : Bool := false
  /-- CLIP_SEEN (W1C, reset 0). -/
  clipSeen : Bool := false
  /-- SWITCH_FS (RO, reset 0). -/
  switchFs : BitVec 64 := 0
  /-- JOBS (RO, reset 0). -/
  jobs : BitVec 64 := 0
  /-- REDONE (RO, reset 0). -/
  redone : BitVec 32 := 0
  /-- LOST (RO, reset 0). -/
  lost : BitVec 32 := 0
  /-- STORE_WAIT (RO, reset 0). -/
  storeWait : BitVec 32 := 0
  /-- WEIGHT_WAIT (RO, reset 0). -/
  weightWait : BitVec 32 := 0
  /-- TURN_SKIPPED (RO, reset 0). -/
  turnSkipped : BitVec 32 := 0
  /-- CLIP (RO, reset 0). -/
  clip : BitVec 32 := 0
  /-- SWITCHES (RO, reset 0). -/
  switches : BitVec 16 := 0
  /-- CURSOR_SPAN (RO, reset 0). -/
  cursorSpan : BitVec 64 := 0
  deriving DecidableEq, Repr

/-- GRAN_CFG, Table 10-8 (R265): the record's fields with their cold-start values. -/
structure GranCfg where
  /-- AUTO_SR (RW, reset 1). -/
  autoSr : Bool := true
  /-- HASH_SRC (RO, reset 0). -/
  hashSrc : Bool := false
  /-- SR_IDLE_US (RW, reset 100). -/
  srIdleUs : BitVec 16 := 100
  /-- CONTROL_SHARE (RO, reset 500). -/
  controlShare : BitVec 16 := 500
  deriving DecidableEq, Repr

/-- GRAN_STAT, Table 10-9 (R266): the record's fields with their cold-start values. -/
structure GranStat where
  /-- STATE (RO, reset 0). -/
  state : BitVec 3 := 0
  /-- TRAIN_FULL (RO, reset 0). -/
  trainFull : Bool := false
  /-- REFRESH_RATE (RO, reset 0). -/
  refreshRate : BitVec 4 := 0
  /-- RETRY_SEEN (W1C, reset 0). -/
  retrySeen : Bool := false
  /-- HOT_SEEN (W1C, reset 0). -/
  hotSeen : Bool := false
  /-- READS (RO, reset 0). -/
  reads : BitVec 64 := 0
  /-- WRITES (RO, reset 0). -/
  writes : BitVec 64 := 0
  /-- CHECK_ACCESSES (RO, reset 0). -/
  checkAccesses : BitVec 64 := 0
  /-- RETRY_OK (RO, reset 0). -/
  retryOk : BitVec 32 := 0
  /-- RETRY2_OK (RO, reset 0). -/
  retry2Ok : BitVec 32 := 0
  /-- FOLD_SPLIT (RO, reset 0). -/
  foldSplit : BitVec 32 := 0
  /-- SR_ENTRIES (RO, reset 0). -/
  srEntries : BitVec 32 := 0
  /-- SR_ABANDONED (RO, reset 0). -/
  srAbandoned : BitVec 32 := 0
  /-- SR_WAIT_MAX (RC, reset 0). -/
  srWaitMax : BitVec 16 := 0
  /-- TEMP (RO, reset 0). -/
  temp : BitVec 16 := 0
  /-- FROZEN_REJECT (RO, reset 0). -/
  frozenReject : BitVec 32 := 0
  /-- LAST_RETRY (RO, reset 0). -/
  lastRetry : BitVec 25 := 0
  deriving DecidableEq, Repr

/-- GRAN_FREEZE, Table 10-11 (R267): the record's fields with their cold-start values. -/
structure GranFreeze where
  /-- VALID (RO, reset 0). -/
  valid : Bool := false
  /-- WARM_KEPT (RO, reset 0). -/
  warmKept : Bool := false
  /-- CHANNEL (RO, reset 0). -/
  channel : BitVec 5 := 0
  /-- SUBCHANNEL (RO, reset 0). -/
  subchannel : BitVec 2 := 0
  /-- BANK (RO, reset 0). -/
  bank : BitVec 4 := 0
  /-- GRANULE (RO, reset 0). -/
  granule : BitVec 5 := 0
  /-- SOURCE (RO, reset 0). -/
  source : BitVec 3 := 0
  /-- OP (RO, reset 0). -/
  op : BitVec 2 := 0
  /-- ROW (RO, reset 0). -/
  row : BitVec 19 := 0
  /-- LOGICAL (RO, reset 0). -/
  logical : BitVec 44 := 0
  /-- STORED_CHECK (RO, reset 0). -/
  storedCheck : BitVec 16 := 0
  /-- COMPUTED_CHECK (RO, reset 0). -/
  computedCheck : BitVec 16 := 0
  /-- DIFF_BITS (RO, reset 0). -/
  diffBits : BitVec 10 := 0
  /-- FREEZES (RO, reset 0). -/
  freezes : BitVec 16 := 0
  /-- FROZEN_MASK (RO, reset 0). -/
  frozenMask : BitVec 32 := 0
  /-- SEC_LO (RO, reset 0). -/
  secLo : BitVec 32 := 0
  /-- SEC_HI (RO, reset 0). -/
  secHi : BitVec 16 := 0
  /-- NS (RO, reset 0). -/
  ns : BitVec 30 := 0
  deriving DecidableEq, Repr

/-- CLKS_STAT, Table 11-7 (R299): the record's fields with their cold-start values. -/
structure ClksStat where
  /-- STATE (RO, reset 0). -/
  state : BitVec 3 := 0
  /-- SELECTED (RO, reset 3). -/
  selected : BitVec 2 := 3
  /-- EVER_LOCKED (RO, reset 0). -/
  everLocked : Bool := false
  /-- DISPUTE (W1C, reset 0). -/
  dispute : Bool := false
  /-- HOLDOVER_SEEN (W1C, reset 0). -/
  holdoverSeen : Bool := false
  /-- SWITCH_SEEN (W1C, reset 0). -/
  switchSeen : Bool := false
  /-- DISQ_SEEN (W1C, reset 0). -/
  disqSeen : Bool := false
  /-- RANK_A (RO, reset strap). -/
  rankA : BitVec 2 := 0
  /-- RANK_B (RO, reset strap). -/
  rankB : BitVec 2 := 0
  /-- RANK_C (RO, reset strap). -/
  rankC : BitVec 2 := 0
  /-- OCXO_EST (RO, reset 0). -/
  ocxoEst : BitVec 16 := 0
  /-- SWITCHES (RO, reset 0). -/
  switches : BitVec 32 := 0
  /-- DISQUALIFICATIONS (RO, reset 0). -/
  disqualifications : BitVec 32 := 0
  /-- BUILDOUT_PS (RO, reset 0). -/
  buildoutPs : BitVec 32 := 0
  /-- HOLDOVER_S (RO, reset 0). -/
  holdoverS : BitVec 32 := 0
  deriving DecidableEq, Repr

/-- TIME_CFG, Table 11-10 (R300): the record's fields with their cold-start values. -/
structure TimeCfg where
  /-- PPS_OUT_EN (RW, reset 1). -/
  ppsOutEn : Bool := true
  /-- CONSUME_A (RW, reset 0). -/
  consumeA : Bool := false
  /-- CONSUME_B (RW, reset 0). -/
  consumeB : Bool := false
  /-- DREQ_EN (RW, reset 0). -/
  dreqEn : Bool := false
  /-- DREQ_PORT (RW, reset 0). -/
  dreqPort : Bool := false
  /-- PTP_DOMAIN (RW, reset 0). -/
  ptpDomain : BitVec 8 := 0
  /-- DREQ_INTERVAL_LOG2 (RW, reset 0). -/
  dreqIntervalLog2 : BitVec 4 := 0
  /-- PPS_OUT_WIDTH_US (RW, reset 100). -/
  ppsOutWidthUs : BitVec 16 := 100
  /-- COMP_PPS_A (RW, reset 0). -/
  compPpsA : BitVec 16 := 0
  /-- COMP_PPS_B (RW, reset 0). -/
  compPpsB : BitVec 16 := 0
  /-- COMP_TRIG (RW, reset 0). -/
  compTrig : BitVec 16 := 0
  deriving DecidableEq, Repr

/-- TIME_STAT, Table 11-11 (R301): the record's fields with their cold-start values. -/
structure TimeStat where
  /-- STATE (RO, reset 0). -/
  state : BitVec 2 := 0
  /-- SLEWING (RO, reset 0). -/
  slewing : Bool := false
  /-- FREE_RUN_SEEN (W1C, reset 0). -/
  freeRunSeen : Bool := false
  /-- STEP_SEEN (W1C, reset 0). -/
  stepSeen : Bool := false
  /-- LATE_SEEN (W1C, reset 0). -/
  lateSeen : Bool := false
  /-- SLIP_SEEN (W1C, reset 0). -/
  slipSeen : Bool := false
  /-- CAP_OVF_SEEN (W1C, reset 0). -/
  capOvfSeen : Bool := false
  /-- INC_FRAC (RO, reset 0). -/
  incFrac : BitVec 32 := 0
  /-- INC_INT (RO, reset 4). -/
  incInt : BitVec 8 := 4
  /-- SINCE_INC_MS (RO, reset 0xFFFF_FFFF). -/
  sinceIncMs : BitVec 32 := 4294967295
  /-- BEAT (RO, reset 0). -/
  beat : BitVec 64 := 0
  /-- LAG_US (RO, reset 0). -/
  lagUs : BitVec 32 := 0
  /-- MAX_LAG_US (RC, reset 0). -/
  maxLagUs : BitVec 32 := 0
  /-- LATE_BEATS (RO, reset 0). -/
  lateBeats : BitVec 32 := 0
  /-- SLIPS (RO, reset 0). -/
  slips : BitVec 32 := 0
  /-- SKIPPED_BEATS (RO, reset 0). -/
  skippedBeats : BitVec 32 := 0
  /-- STEPS (RO, reset 0). -/
  steps : BitVec 32 := 0
  /-- CAP_DROPS (RO, reset 0). -/
  capDrops : BitVec 32 := 0
  /-- EDGES_IGNORED (RO, reset 0). -/
  edgesIgnored : BitVec 32 := 0
  deriving DecidableEq, Repr

/-- TIME_TIMER, Table 11-12 (R302): the record's fields with their cold-start values. -/
structure TimeTimer where
  /-- ACTION (RO, reset 5 (timer 0), 0 (others)). -/
  action : BitVec 3 := 5
  /-- REFUSED_SEEN (W1C, reset 0). -/
  refusedSeen : Bool := false
  /-- TARGET (RO, reset 0). -/
  target : BitVec 8 := 0
  /-- WIDTH (RO, reset 0). -/
  width : BitVec 16 := 0
  /-- NEXT_SEC_LO (RO, reset 0). -/
  nextSecLo : BitVec 32 := 0
  /-- NEXT_SEC_HI (RO, reset 0). -/
  nextSecHi : BitVec 16 := 0
  /-- NEXT_NS (RO, reset 0). -/
  nextNs : BitVec 30 := 0
  /-- PERIOD_NS (RO, reset 0). -/
  periodNs : BitVec 48 := 0
  /-- COUNT (RO, reset 0). -/
  count : BitVec 32 := 0
  /-- FIRED (RO, reset 0). -/
  fired : BitVec 32 := 0
  /-- REFUSED (RO, reset 0). -/
  refused : BitVec 32 := 0
  /-- MISSED (RO, reset 0). -/
  missed : BitVec 32 := 0
  deriving DecidableEq, Repr

/-- TIME_EPOCH, Table 11-13 (R303): the record's fields with their cold-start values. -/
structure TimeEpoch where
  /-- EPOCH_SEC_LO (RO, reset 0). -/
  epochSecLo : BitVec 32 := 0
  /-- EPOCH_SEC_HI (RO, reset 0). -/
  epochSecHi : BitVec 16 := 0
  /-- EPOCH_FRAC (RO, reset 0). -/
  epochFrac : BitVec 16 := 0
  /-- EPOCH_NS (RO, reset 0). -/
  epochNs : BitVec 30 := 0
  /-- PERIOD_FRAC (RO, reset 0). -/
  periodFrac : BitVec 32 := 0
  /-- PERIOD_NS (RO, reset 0). -/
  periodNs : BitVec 16 := 0
  /-- START_INDEX (RO, reset 0). -/
  startIndex : BitVec 64 := 0
  deriving DecidableEq, Repr

/-- ID_INFO, Table 12-10 (R328): the record's fields with their cold-start values. -/
structure IdInfo where
  /-- LAYOUT (RO, reset 1). -/
  layout : BitVec 8 := 1
  /-- MEMBER (RO, reset 4). -/
  member : BitVec 8 := 4
  /-- DEVICE (RO, reset 0x4D56). -/
  device : BitVec 16 := 19798
  /-- TILES_PHYS (RO, reset 42). -/
  tilesPhys : BitVec 8 := 42
  /-- TILES_ACTIVE (RO, reset 40). -/
  tilesActive : BitVec 8 := 40
  /-- SLICES (RO, reset 4). -/
  slices : BitVec 8 := 4
  /-- ENGINES (RO, reset 32). -/
  engines : BitVec 8 := 32
  /-- MAX_INPUTS (RO, reset 4096). -/
  maxInputs : BitVec 16 := 4096
  /-- LANES (RO, reset 128). -/
  lanes : BitVec 8 := 128
  /-- OCTETS (RO, reset 16). -/
  octets : BitVec 8 := 16
  /-- GRANARY_RAW_GIB (RO, reset 2048). -/
  granaryRawGib : BitVec 16 := 2048
  /-- GRANARY_USE_GIB (RO, reset 1984). -/
  granaryUseGib : BitVec 16 := 1984
  /-- GRAN_CHANNELS (RO, reset 32). -/
  granChannels : BitVec 8 := 32
  /-- BENCHES (RO, reset 4). -/
  benches : BitVec 8 := 4
  /-- SUBARRAYS (RO, reset 4). -/
  subarrays : BitVec 8 := 4
  /-- TIMERS (RO, reset 8). -/
  timers : BitVec 8 := 8
  /-- SILICON_REV (RO, reset —). -/
  siliconRev : BitVec 16 := 0
  /-- MODULE_REV (RO, reset —). -/
  moduleRev : BitVec 16 := 0
  /-- FW_VERSION (RO, reset —). -/
  fwVersion : BitVec 32 := 0
  /-- STORE_SEQ (RO, reset —). -/
  storeSeq : BitVec 32 := 0
  /-- STORE_COPY (RO, reset —). -/
  storeCopy : Bool := false
  /-- RECOVERY (RO, reset —). -/
  recovery : Bool := false
  /-- PCIE_BIF (RO, reset strap). -/
  pcieBif : Bool := false
  /-- SERIAL (RO, reset —). -/
  serial : BitVec 64 := 0
  /-- PART_NUMBER (RO, reset "PRS-MV4096-2T"). -/
  partNumber : BitVec 128 := 0
  deriving DecidableEq, Repr

/-- BNCH_STAT, Table 12-11 (R329): the record's fields with their cold-start values. -/
structure BnchStat where
  /-- BENCH (RO, reset index). -/
  bench : BitVec 2 := 0
  /-- OPEN (RO, reset 0). -/
  isOpen : Bool := false
  /-- LINK_UP (RO, reset 0). -/
  linkUp : Bool := false
  /-- KEY_SLOT (RO, reset 0). -/
  keySlot : BitVec 3 := 0
  /-- POST_TAIL (RW, reset 0). -/
  postTail : BitVec 16 := 0
  /-- POST_HEAD (RO, reset 0). -/
  postHead : BitVec 16 := 0
  /-- REPLY_HEAD (RW, reset 0). -/
  replyHead : BitVec 16 := 0
  /-- REPLY_TAIL (RO, reset 0). -/
  replyTail : BitVec 16 := 0
  /-- IRQ_STATUS (W1C, reset 0). -/
  irqStatus : BitVec 6 := 0
  /-- IRQ_ENABLE (RW, reset 0). -/
  irqEnable : BitVec 6 := 0
  /-- PROTO_CODE (RO, reset 0). -/
  protoCode : BitVec 8 := 0
  /-- SESSION_ID (RO, reset 0). -/
  sessionId : BitVec 32 := 0
  /-- COMMANDS (RO, reset 0). -/
  commands : BitVec 64 := 0
  /-- AUTH_FAIL (RO, reset 0). -/
  authFail : BitVec 32 := 0
  /-- SEQ_DROP (RO, reset 0). -/
  seqDrop : BitVec 32 := 0
  /-- MALFORMED (RO, reset 0). -/
  malformed : BitVec 32 := 0
  /-- RETX (RO, reset 0). -/
  retx : BitVec 32 := 0
  /-- NOTIFY_SENT (RO, reset 0). -/
  notifySent : BitVec 32 := 0
  deriving DecidableEq, Repr

/-- BNCH_HEALTH, Table 12-13 (R330): the record's fields with their cold-start values. -/
structure BnchHealth where
  /-- SEQ (RO, reset 0). -/
  seq : BitVec 32 := 0
  /-- MODE (RO, reset 0). -/
  mode : BitVec 4 := 0
  /-- FAULT_N_LOW (RO, reset 0). -/
  faultNLow : Bool := false
  /-- ESCALATED (RO, reset 0). -/
  escalated : BitVec 8 := 0
  /-- SA_STATE (RO, reset 0). -/
  saState : BitVec 16 := 0
  /-- SEC_LO (RO, reset 0). -/
  secLo : BitVec 32 := 0
  /-- SEC_HI (RO, reset 0). -/
  secHi : BitVec 16 := 0
  /-- NS (RO, reset 0). -/
  ns : BitVec 30 := 0
  /-- POWER_DW (RO, reset 0). -/
  powerDw : BitVec 16 := 0
  /-- SUPPLY_10MV (RO, reset 0). -/
  supply10mv : BitVec 16 := 0
  /-- TJ_MAX (RO, reset 0). -/
  tjMax : BitVec 16 := 0
  /-- DRAM_MAX (RO, reset 0). -/
  dramMax : BitVec 16 := 0
  /-- CLKS_STATE (RO, reset 0). -/
  clksState : BitVec 3 := 0
  /-- TIME_STATE (RO, reset 0). -/
  timeState : BitVec 2 := 0
  /-- TALLY_ACTIVE (RO, reset 0). -/
  tallyActive : BitVec 32 := 0
  deriving DecidableEq, Repr

/-- BNCH_MGMT, Table 12-14 (R331): the record's fields with their cold-start values. -/
structure BnchMgmt where
  /-- MAC (RW, reset store). -/
  mac : BitVec 48 := 0
  /-- IPV4 (RW, reset store). -/
  ipv4 : BitVec 32 := 0
  /-- IPV6 (RW, reset store). -/
  ipv6 : BitVec 128 := 0
  /-- UDP_PORT (RW, reset 46,016). -/
  udpPort : BitVec 16 := 46016
  /-- VLAN_ID (RW, reset 0). -/
  vlanId : BitVec 12 := 0
  /-- TAGGED (RW, reset 0). -/
  tagged : Bool := false
  /-- V4_EN (RW, reset 1). -/
  v4En : Bool := true
  /-- V6_EN (RW, reset 1). -/
  v6En : Bool := true
  /-- KEYS_PRESENT (RO, reset store). -/
  keysPresent : BitVec 8 := 0
  /-- KEY_CLASSES (RO, reset store). -/
  keyClasses : BitVec 64 := 0
  deriving DecidableEq, Repr

/-- EXCH_CTRL, Table 14-10 (R385): the record's fields with their cold-start values. -/
structure ExchCtrl where
  /-- REMAP (RO, reset 0). -/
  remap : Bool := false
  deriving DecidableEq, Repr

/-- EXCH_STAT, Table 14-11 (R385): the record's fields with their cold-start values. -/
structure ExchStat where
  /-- LOCK_OWNER (RO, reset 15). -/
  lockOwner : BitVec 4 := 15
  /-- LOCK_TARGET (RO, reset 15). -/
  lockTarget : BitVec 4 := 15
  /-- BREAK_SEEN (W1C, reset 0). -/
  breakSeen : Bool := false
  /-- RESET_SEEN (W1C, reset 0). -/
  resetSeen : Bool := false
  /-- ERR_SEEN (W1C, reset 0). -/
  errSeen : Bool := false
  /-- LOCK_BREAKS (RO, reset 0). -/
  lockBreaks : BitVec 32 := 0
  /-- MASTER_RESETS (RO, reset 0). -/
  masterResets : BitVec 32 := 0
  /-- STROBED_OFF (RO, reset 0). -/
  strobedOff : BitVec 32 := 0
  /-- UNMAPPED (RO, reset 0). -/
  unmapped : BitVec 32 := 0
  /-- TARGET_FAULT (RO, reset 0). -/
  targetFault : BitVec 32 := 0
  /-- LOCK_REFUSED (RO, reset 0). -/
  lockRefused : BitVec 32 := 0
  /-- LAST_ERR_ADDR (RO, reset 0). -/
  lastErrAddr : BitVec 44 := 0
  /-- LAST_ERR_PORT (RO, reset 0). -/
  lastErrPort : BitVec 4 := 0
  /-- LAST_ERR_RESP (RO, reset 0). -/
  lastErrResp : BitVec 2 := 0
  deriving DecidableEq, Repr

/-- EXCH_PORT, Table 14-12 (R385): the record's fields with their cold-start values. -/
structure ExchPort where
  /-- BURSTS (RO, reset 0). -/
  bursts : BitVec 64 := 0
  /-- BYTES (RO, reset 0). -/
  bytes : BitVec 64 := 0
  /-- ORDER_HOLD_US (RO, reset 0). -/
  orderHoldUs : BitVec 32 := 0
  /-- LOCK_HOLD_US (RO, reset 0). -/
  lockHoldUs : BitVec 32 := 0
  /-- ERRORS (RO, reset 0). -/
  errors : BitVec 32 := 0
  deriving DecidableEq, Repr

/-- DRAY_CHAN, Table 14-13 (R385): the record's fields with their cold-start values. -/
structure DrayChan where
  /-- STATE (RO, reset 0). -/
  state : BitVec 2 := 0
  /-- HOST (RO, reset 0 (1 for channels 12–15)). -/
  host : Bool := false
  /-- TRIG_SRC (RW, reset 0). -/
  trigSrc : BitVec 2 := 0
  /-- TRIG_LINE (RW, reset 0). -/
  trigLine : BitVec 5 := 0
  /-- ERR_SEEN (W1C, reset 0). -/
  errSeen : Bool := false
  /-- ERR_CODE (RO, reset 0). -/
  errCode : BitVec 4 := 0
  /-- PENDING (RO, reset 0). -/
  pending : BitVec 8 := 0
  /-- DESC_ADDR (RW, reset 0). -/
  descAddr : BitVec 44 := 0
  /-- CUR_DESC (RO, reset 0). -/
  curDesc : BitVec 44 := 0
  /-- SRC_CUR (RO, reset 0). -/
  srcCur : BitVec 32 := 0
  /-- DST_CUR (RO, reset 0). -/
  dstCur : BitVec 32 := 0
  /-- BYTES (RO, reset 0). -/
  bytes : BitVec 64 := 0
  /-- DONE (RO, reset 0). -/
  done : BitVec 32 := 0
  /-- TRIG_LOST (RO, reset 0). -/
  trigLost : BitVec 32 := 0
  /-- ERR_ADDR (RO, reset 0). -/
  errAddr : BitVec 44 := 0
  deriving DecidableEq, Repr

/-- BALE_STAT, Table 14-14 (R385): the record's fields with their cold-start values. -/
structure BaleStat where
  /-- STATE (RO, reset 0). -/
  state : BitVec 2 := 0
  /-- BENCH (RO, reset 0). -/
  bench : BitVec 2 := 0
  /-- CHECK_SEEN (W1C, reset 0). -/
  checkSeen : Bool := false
  /-- JOBS (RO, reset 0). -/
  jobs : BitVec 32 := 0
  /-- FAILED_NOSPACE (RO, reset 0). -/
  failedNospace : BitVec 32 := 0
  /-- FAILED_CHECK (RO, reset 0). -/
  failedCheck : BitVec 32 := 0
  /-- FAILED_OTHER (RO, reset 0). -/
  failedOther : BitVec 32 := 0
  /-- RAW_BYTES (RO, reset 0). -/
  rawBytes : BitVec 64 := 0
  /-- STREAM_BYTES (RO, reset 0). -/
  streamBytes : BitVec 64 := 0
  /-- LAST_DETAIL (RO, reset 0). -/
  lastDetail : BitVec 32 := 0
  deriving DecidableEq, Repr

/-- TALY_CFG, Table 15-5 (R401): the record's fields with their cold-start values. -/
structure TalyCfg where
  /-- SOURCE (RO, reset index). -/
  source : BitVec 8 := 0
  /-- ENABLE (RO, reset 1). -/
  enable : Bool := true
  /-- AUTO_CLEAR (RO, reset 0). -/
  autoClear : Bool := false
  /-- THRESHOLD (RO, reset 1). -/
  threshold : BitVec 8 := 1
  /-- WINDOW_MS (RO, reset 1000). -/
  windowMs : BitVec 16 := 1000
  /-- GRACE_MS (RO, reset 60,000). -/
  graceMs : BitVec 16 := 60000
  /-- QUIET_MS (RO, reset 10,000). -/
  quietMs : BitVec 16 := 10000
  /-- FALLBACK (RO, reset 1). -/
  fallback : BitVec 3 := 1
  /-- LEASES (RO, reset 0b00011). -/
  leases : BitVec 5 := 3
  deriving DecidableEq, Repr

/-- TALY_SRC, Table 15-7 (R402): the record's fields with their cold-start values. -/
structure TalySrc where
  /-- STATE (RO, reset 0). -/
  state : BitVec 3 := 0
  /-- STEP (RO, reset 0). -/
  step : BitVec 2 := 0
  /-- HELD (RO, reset 0). -/
  held : Bool := false
  /-- SEVERE_SEEN (W1C, reset 0). -/
  severeSeen : Bool := false
  /-- ESCALATED_SEEN (W1C, reset 0). -/
  escalatedSeen : Bool := false
  /-- EVENTS (RO, reset 0). -/
  events : BitVec 32 := 0
  /-- IN_WINDOW (RO, reset 0). -/
  inWindow : BitVec 8 := 0
  /-- GRACE_LEFT_MS (RO, reset 0). -/
  graceLeftMs : BitVec 16 := 0
  /-- RECOVERIES (RO, reset 0). -/
  recoveries : BitVec 16 := 0
  /-- ESCALATIONS (RO, reset 0). -/
  escalations : BitVec 16 := 0
  /-- LAST_DETAIL (RO, reset 0). -/
  lastDetail : BitVec 32 := 0
  /-- LAST_SEC_LO (RO, reset 0). -/
  lastSecLo : BitVec 32 := 0
  /-- LAST_SEC_HI (RO, reset 0). -/
  lastSecHi : BitVec 16 := 0
  /-- LAST_NS (RO, reset 0). -/
  lastNs : BitVec 30 := 0
  deriving DecidableEq, Repr

/-- TALY_STAT, Table 15-8 (R402): the record's fields with their cold-start values. -/
structure TalyStat where
  /-- FAULT_N_LOW (RO, reset 0). -/
  faultNLow : Bool := false
  /-- SEVERE (RO, reset 0). -/
  severe : BitVec 9 := 0
  /-- ESCALATED (RO, reset 0). -/
  escalated : BitVec 9 := 0
  /-- ACTIVE (RO, reset 0). -/
  active : BitVec 9 := 0
  /-- CHIP_RESETS (RO, reset 0). -/
  chipResets : BitVec 32 := 0
  /-- CHIP_TO_HOLD (RO, reset 0). -/
  chipToHold : BitVec 32 := 0
  /-- LAST_CHIP_SOURCE (RO, reset 0). -/
  lastChipSource : BitVec 8 := 0
  /-- LAST_CHIP_SEC_LO (RO, reset 0). -/
  lastChipSecLo : BitVec 32 := 0
  /-- LAST_CHIP_SEC_HI (RO, reset 0). -/
  lastChipSecHi : BitVec 16 := 0
  /-- MONO_MS (RO, reset 0). -/
  monoMs : BitVec 32 := 0
  deriving DecidableEq, Repr

/-- BELL_CFG, Table 16-13 (R425): the record's fields with their cold-start values. -/
structure BellCfg where
  /-- RECOVER_MS (RW, reset 100). -/
  recoverMs : BitVec 14 := 100
  /-- AUTO_RESTART (RW, reset 1). -/
  autoRestart : Bool := true
  /-- BANK_TEST_H (RW, reset 24). -/
  bankTestH : BitVec 8 := 24
  deriving DecidableEq, Repr

/-- BELL_STAT, Table 16-14 (R425): the record's fields with their cold-start values. -/
structure BellStat where
  /-- MODE (RO, reset 0). -/
  mode : BitVec 4 := 0
  /-- PREV_MODE (RO, reset 0). -/
  prevMode : BitVec 4 := 0
  /-- CLASS_NOW (RO, reset 0). -/
  classNow : BitVec 3 := 0
  /-- RIDE_IN_HOLD (RO, reset 0). -/
  rideInHold : Bool := false
  /-- ISOLATED (RO, reset 0). -/
  isolated : Bool := false
  /-- PWR_GOOD (RO, reset 0). -/
  pwrGood : Bool := false
  /-- LAST_SHUTDOWN (RO, reset 0). -/
  lastShutdown : BitVec 2 := 0
  /-- RIDE_SEEN (W1C, reset 0). -/
  rideSeen : Bool := false
  /-- BANK_LOW_SEEN (W1C, reset 0). -/
  bankLowSeen : Bool := false
  /-- SUPPLY_10MV (RO, reset 0). -/
  supply10mv : BitVec 16 := 0
  /-- POWER_DW (RO, reset 0). -/
  powerDw : BitVec 16 := 0
  /-- BANK_10MV (RO, reset 0). -/
  bank10mv : BitVec 16 := 0
  /-- BANK_UF (RO, reset 0). -/
  bankUf : BitVec 16 := 0
  /-- HOLDUP_US (RO, reset 0). -/
  holdupUs : BitVec 32 := 0
  /-- RIDES (RO, reset 0). -/
  rides : BitVec 32 := 0
  /-- RIDE_MS (RO, reset 0). -/
  rideMs : BitVec 32 := 0
  /-- TRANSIENTS (RO, reset 0). -/
  transients : BitVec 32 := 0
  /-- SHUTDOWNS (RO, reset 0). -/
  shutdowns : BitVec 32 := 0
  /-- RIDE_DISCARD (RO, reset 0). -/
  rideDiscard : BitVec 32 := 0
  /-- ISLANDS_ON (RO, reset 0). -/
  islandsOn : BitVec 96 := 0
  deriving DecidableEq, Repr

/-- BELL_EVENT, Table 16-15 (R425): the record's fields with their cold-start values. -/
structure BellEvent where
  /-- CLASS (RO, reset 0). -/
  cls : BitVec 3 := 0
  /-- IN_PROGRESS (RO, reset 0). -/
  inProgress : Bool := false
  /-- SEC_LO (RO, reset 0). -/
  secLo : BitVec 32 := 0
  /-- SEC_HI (RO, reset 0). -/
  secHi : BitVec 16 := 0
  /-- NS (RO, reset 0). -/
  ns : BitVec 30 := 0
  /-- DURATION_US (RO, reset 0). -/
  durationUs : BitVec 32 := 0
  /-- MIN_10MV (RO, reset 0). -/
  min10mv : BitVec 16 := 0
  /-- MAX_10MV (RO, reset 0). -/
  max10mv : BitVec 16 := 0
  /-- BANK_MJ (RO, reset 0). -/
  bankMj : BitVec 16 := 0
  /-- BANK_MIN_10MV (RO, reset 0). -/
  bankMin10mv : BitVec 16 := 0
  deriving DecidableEq, Repr

/-- BELL_START, Table 17-9 (R441): the record's fields with their cold-start values. -/
structure BellStart where
  /-- KIND (RO, reset 0). -/
  kind : Bool := false
  /-- CAUSE (RO, reset 0). -/
  cause : BitVec 4 := 0
  /-- STEP (RO, reset 0). -/
  step : BitVec 4 := 0
  /-- RECOVERY (RO, reset 0). -/
  recovery : Bool := false
  /-- UNIT_DEFAULT (RO, reset 0). -/
  unitDefault : Bool := false
  /-- FREERUN (RO, reset 0). -/
  freerun : Bool := false
  /-- COPY (RO, reset 0). -/
  copy : Bool := false
  /-- FIRST_INVALID (RO, reset 0). -/
  firstInvalid : Bool := false
  /-- STEP1_MS (RO, reset 0). -/
  step1Ms : BitVec 16 := 0
  /-- STEP2_MS (RO, reset 0). -/
  step2Ms : BitVec 16 := 0
  /-- STEP3_MS (RO, reset 0). -/
  step3Ms : BitVec 16 := 0
  /-- STEP4_MS (RO, reset 0). -/
  step4Ms : BitVec 16 := 0
  /-- STEP5_MS (RO, reset 0). -/
  step5Ms : BitVec 16 := 0
  /-- STEP6_MS (RO, reset 0). -/
  step6Ms : BitVec 16 := 0
  /-- STEP7_MS (RO, reset 0). -/
  step7Ms : BitVec 16 := 0
  /-- STEP8_MS (RO, reset 0). -/
  step8Ms : BitVec 16 := 0
  /-- STEP9_MS (RO, reset 0). -/
  step9Ms : BitVec 16 := 0
  /-- TOTAL_MS (RO, reset 0). -/
  totalMs : BitVec 32 := 0
  /-- SLOW_STEPS (RO, reset 0). -/
  slowSteps : BitVec 9 := 0
  /-- STARTS (RO, reset 0). -/
  starts : BitVec 32 := 0
  /-- WARM_STARTS (RO, reset 0). -/
  warmStarts : BitVec 32 := 0
  deriving DecidableEq, Repr

end Sys2Proof.Machine
end

