-- ==== Sys2Proof/Machine/SMap.lean ====
section
/-! DEFINITION. Sparse memories as plain data in one canonical form: keys strictly rising, and no entry
equal to what an unlisted key reads as (log entry 4). -/

namespace Sys2Proof.Machine

/-- A sparse memory: a list of keys and values. -/
abbrev SMap (α : Type) := List (Nat × α)

/-- The value at a key; what no entry lists reads as `d`. -/
def SMap.get {α : Type} (d : α) : SMap α → Nat → α
  | [], _ => d
  | (k, v) :: m, a => if a = k then v else SMap.get d m a

/-- The memory with `a` set to `v`, in canonical form: writing what an unlisted key reads as removes the entry. -/
def SMap.set {α : Type} [DecidableEq α] (d : α) : SMap α → Nat → α → SMap α
  | [], a, v => if v = d then [] else [(a, v)]
  | (k, w) :: m, a, v =>
    if a < k then (if v = d then (k, w) :: m else (a, v) :: (k, w) :: m)
    else if a = k then (if v = d then m else (a, v) :: m)
    else (k, w) :: SMap.set d m a v

/-- The keys from `b` on rise strictly and no entry holds `d`. -/
def SMap.wfFrom {α : Type} [DecidableEq α] (d : α) : Nat → SMap α → Bool
  | _, [] => true
  | b, (k, v) :: m => decide (b ≤ k) && decide (v ≠ d) && SMap.wfFrom d (k + 1) m

/-- The canonical form. -/
def SMap.wf {α : Type} [DecidableEq α] (d : α) (m : SMap α) : Bool := SMap.wfFrom d 0 m

/-- The memory with values written one after another from `a` on. -/
def SMap.setRange {α : Type} [DecidableEq α] (d : α) (m : SMap α) (a : Nat) : List α → SMap α
  | [] => m
  | v :: vs => SMap.setRange d (SMap.set d m a v) (a + 1) vs

/-- The `n` values from `a` on. -/
def SMap.getRange {α : Type} (d : α) (m : SMap α) (a n : Nat) : List α :=
  (List.range n).map fun i => SMap.get d m (a + i)

/-- The memory with every entry from `lo` up to but not including `hi` dropped: that span reads as unlisted. -/
def SMap.clear {α : Type} (m : SMap α) (lo hi : Nat) : SMap α :=
  m.filter fun e => !(decide (lo ≤ e.1) && decide (e.1 < hi))

/-- The memory with only the entries from `lo` up to but not including `hi` kept. -/
def SMap.keep {α : Type} (m : SMap α) (lo hi : Nat) : SMap α :=
  m.filter fun e => decide (lo ≤ e.1) && decide (e.1 < hi)

/-- The module's byte memories: an unlisted byte reads as zero (R257 for the Granary; log entry 4). -/
abbrev Memory := SMap Byte

/-- The canonical form of a byte memory. -/
abbrev Memory.wf (m : Memory) : Bool := SMap.wf 0 m

/-- One byte of a memory. -/
def Memory.byte (m : Memory) (a : Nat) : Byte := SMap.get 0 m a

/-- Bytes written from `a` on. -/
def Memory.store (m : Memory) (a : Nat) (bs : List Byte) : Memory := SMap.setRange 0 m a bs

/-- The `n` bytes from `a` on. -/
def Memory.load (m : Memory) (a n : Nat) : List Byte := SMap.getRange 0 m a n

/-- A span of a memory cleared to zero. -/
def Memory.zero (m : Memory) (a n : Nat) : Memory := SMap.clear m a (a + n)

/-- Spans of a memory moved, each given by its base, its length and its new base: the places left and taken hold nothing else. -/
def Memory.move (m : Memory) (moves : List (Nat × Nat × Nat)) : Memory :=
  let cells := moves.flatMap fun e => (SMap.keep m e.1 (e.1 + e.2.1)).map fun c => (c.1 - e.1 + e.2.2, c.2)
  let left := moves.foldl (fun (a : Memory) e => (a.zero e.1 e.2.1).zero e.2.2 e.2.1) m
  cells.foldl (fun (a : Memory) c => SMap.set 0 a c.1 c.2) left

end Sys2Proof.Machine
end

