-- ==== Sys2Proof/Machine/CtlState.lean ====
section
/-! DEFINITION. The state of the control plane as plain data: benches and leases, tables, Timekeeper,
Clocksmith, Tally, Bellows, roll call, configuration store and sideband. -/

namespace Sys2Proof.Machine

/-! ### Benches (chapter 12) -/

/-- An open table transaction of a bench (R344). -/
structure Txn where
  cls    : Nat
  sub    : Option SubId
  length : Nat
  /-- STAGE_ADDR, an internal address inside the table store. -/
  addr   : Nat
  /-- Bytes of the table store reserved from `addr` on. -/
  room   : Nat
  /-- WEIGHT class: bytes of the table covered so far, in ascending order with no gap. -/
  covered : Nat := 0
  deriving DecidableEq, Repr

/-- A command packet as it lies in a Post slot or a COMMAND datagram: its words, and for a datagram its CMD_NUM. -/
abbrev RawPacket := List Word

/-- A bench: its record, windows, session and leases (R310 to R327). -/
structure Bench where
  stat      : BnchStat := {}
  /-- The packets in the slots from POST_HEAD to POST_TAIL, oldest first. -/
  post      : List RawPacket := []
  /-- The replies in the slots from REPLY_HEAD to REPLY_TAIL, oldest first. -/
  replies   : List (List Word) := []
  /-- The Bulk window, 262,144 words; a word no host has written reads zero (log entry 4). -/
  bulk      : SMap Word := []
  txn       : Option Txn := none
  monitor   : Bool := false
  timeoutS  : BitVec 16 := 10
  /-- The module's real time at the last HEARTBEAT or grant, in ns. -/
  lastHb    : Nat := 0
  /-- LEASE_WARN was set since then. -/
  warned    : Bool := false
  /-- A PROTO_CODE was recorded since the last beat. -/
  protoSeen : Bool := false
  /-- AUTH_FAIL advanced since the last beat. -/
  authSeen  : Bool := false
  /-- A command whose reply waits for its end: opcode and TAG (MODE_REQUEST, R355). -/
  executing : Option (BitVec 8 × Word) := none
  /-- COMMAND datagrams held until their turn, with their CMD_NUM (R321). -/
  held      : List (BitVec 16 × RawPacket) := []
  /-- The replies of the last 16 executed COMMAND datagrams, newest first (R321). -/
  stored    : List (BitVec 16 × List Word) := []
  /-- The last SEQ accepted from the session, and the last SEQ the module has sent in it (R320). -/
  lastSeq   : Nat := 0
  ownSeq    : Nat := 0
  /-- Where bench datagrams go: the sender of the last datagram accepted for the session (R318). -/
  peer      : Option Peer := none
  /-- Real time of the last accepted datagram, ns (R323). -/
  lastDgram : Nat := 0
  /-- Real time of the next repeated NOTIFY, ns (R321). -/
  notifyAt  : Option Nat := none
  deriving DecidableEq, Repr

/-- A PCI Express function: what its host sets outside the bench records (R308, R317). -/
structure PcieFunc where
  busMaster : Bool := false
  /-- MSI-X vectors masked by the host; the standard's state after reset: masked. -/
  masked    : BitVec 16 := 0xFFFF
  /-- The Pending Bit Array. -/
  pba       : BitVec 16 := 0
  /-- Address, upper address and data of the MSI-X table: word `k` of entry `v` under `4 * v + k` (Table 12-3). -/
  msixTable : SMap Word := []
  deriving DecidableEq, Repr

/-- The host attachment: benches, functions, leases, keys and the shared records. -/
structure BenchBlock where
  benches   : Vector Bench 4 := Vector.ofFn fun b => { stat := { bench := BitVec.ofNat 2 b.val } }
  funcs     : Vector PcieFunc 2 := Vector.replicate 2 {}
  obsHolder : Vector (Option BenchId) 4 := Vector.replicate 4 none
  timeHolder  : Option BenchId := none
  storeHolder : Option BenchId := none
  workHolder  : Option BenchId := none
  lapses    : BitVec 32 := 0
  health    : BnchHealth := {}
  mgmt      : Vector BnchMgmt 2 := Vector.replicate 2 {}
  /-- A write of BNCH_MGMT that takes effect once its reply has been sent (R331). -/
  mgmtNext  : Option (PortId × BnchMgmt) := none
  /-- The 32-byte keys of the key slots; an empty list is an empty slot (R322). -/
  keys      : Vector (List Byte) 8 := Vector.replicate 8 []
  /-- The last SEQ accepted under each key slot since the always-on island powered up (R320). -/
  keySeq    : Vector Nat 8 := Vector.replicate 8 0
  /-- SESSION_IDs used since the always-on island powered up (R324). -/
  usedIds   : List Word := []
  /-- The bench after the last one served (R314). -/
  turn      : BenchId := 0
  /-- Benches take commands: step 9 of the roll call has ended (R429). -/
  serving   : Bool := false
  /-- The level of PERST_N (R447). -/
  perstHigh : Bool := true
  deriving DecidableEq, Repr

/-! ### Tables (R342 to R345) -/

/-- Where a committed table stands. -/
inductive TableWhere where
  | inForce | pending
  deriving DecidableEq, Repr

/-- One committed table: its identity word (R345), length, CRC and body words. -/
structure TableEntry where
  cls      : Nat
  identity : Word
  length   : Nat
  crc      : Word
  body     : List Word
  standing : TableWhere := .inForce
  /-- Bytes of the table store it keeps, rounded up to 4 KiB; tables loaded from the configuration store keep none. -/
  room     : Nat := 0
  /-- Where in the table store. -/
  addr     : Nat := 0
  /-- COEF: the bank its coefficients were written into (R102). -/
  bank     : Bool := false
  deriving DecidableEq, Repr

/-! ### Timekeeper (chapter 11) -/

/-- A captured edge or PTP message (R294, R297, Table 11-14). -/
structure Capture where
  /-- The timestamp in 2^-16 ns. -/
  at16   : Nat
  source : Fin 4
  port   : Bool := false
  dir    : Bool := false
  /-- PTP message bytes, at most 64 of them held. -/
  msg    : List Byte := []
  /-- PTP message bytes held, before the fill with zeros. -/
  len    : Nat := 0
  deriving DecidableEq, Repr

/-- A timer: its record and its exact next instant (R291). -/
structure Timer where
  reg  : TimeTimer := { action := 0 }
  /-- The next instant in 2^-16 ns. -/
  next : Nat := 0
  deriving DecidableEq, Repr

/-- The last Sync captured on a port, as a Delay_Req needs it (R298). -/
structure SyncSeen where
  /-- 0: EtherType 0x88F7; 4: UDP over IPv4; 6: UDP over IPv6. -/
  transport : Nat
  /-- The 802.1Q tag control word, where the Sync carried one. -/
  vlan      : Option (BitVec 16)
  /-- Destination MAC and IP address of the Delay_Req: the multicast address, or the Sync's unicast source. -/
  dstMac    : BitVec 48
  dstIp     : BitVec 128
  deriving DecidableEq, Repr

/-- The Timekeeper, the beat and the timers. -/
structure TimeBlock where
  /-- Timekeeper time in units of 2^-32 ns, modulo 2^48 seconds (R280). -/
  tk        : Nat := 0
  /-- Base increment, in 2^-32 ns (INC_INT and INC_FRAC of TIME_STAT read it). -/
  incBase   : Nat := 4 * 2 ^ 32
  slewInc   : Nat := 0
  /-- Ticks of the slew still to run; 0 when none runs (R281). -/
  slewLeft  : Nat := 0
  /-- Real time of the last TIME_INCREMENT since the cold start, ns. -/
  lastInc   : Option Nat := none
  stat      : TimeStat := {}
  cfg       : TimeCfg := {}
  timers    : Vector Timer 8 := (Vector.replicate 8 {}).set 0 { reg := { action := 5 } }
  /-- Capture queues: PPS_IN_A, PPS_IN_B, TRIG_IN, PTP; oldest first. -/
  captures  : Vector (List Capture) 4 := Vector.replicate 4 []
  /-- Real time of the last accepted edge of each source, in quarter ns. -/
  lastEdge  : Vector (Option Nat) 3 := Vector.replicate 3 none
  /-- A capture was dropped since the last beat. -/
  capDropped : Bool := false
  /-- The next beat: its number and the instant at which it starts, in 2^-16 ns; none until the first beat after a start
  or a step is due. -/
  nextBeat  : Option (Nat × Nat) := none
  /-- b_j and k_b of the current beat are taken from this instant, in 2^-16 ns. -/
  beatAt    : Nat := 0
  lastSync  : Vector (Option SyncSeen) 2 := Vector.replicate 2 none
  dreqSeq   : BitVec 16 := 0
  /-- The last instant at which a Delay_Req was sent, in 2^-16 ns (R298). -/
  lastDreq  : Option Nat := none
  /-- The last whole second for which PPS_OUT pulsed. -/
  lastPps   : Option Nat := none
  deriving DecidableEq, Repr

/-! ### Clocksmith (chapter 11) -/

/-- A reference source (Table 11-7, words 2 to 4). -/
structure RefSource where
  qstate : BitVec 3 := 0
  f100   : Bool := false
  qual   : Nat := 0
  /-- The last offset, 0.001 ppm. -/
  offset : Int := 0
  deriving DecidableEq, Repr

/-- The Clocksmith. -/
structure ClockBlock where
  stat     : ClksStat := {}
  srcs     : Vector RefSource 3 := Vector.replicate 3 {}
  /-- The estimate E, 0.001 ppm. -/
  est      : Int := 0
  /-- The source a switch in progress goes to, and when it began, real time in ns (R277). -/
  incoming : Option (Fin 3) := none
  switchAt : Nat := 0
  /-- Consecutive measurements, 10 ms each, in which the qualified sources of each rank agree (Table 11-3). -/
  agree    : Vector Nat 3 := Vector.replicate 3 0
  /-- Holdover was entered because no disputed source lies within 2 ppm; the rank (R276). -/
  disputeHold : Option (Fin 3) := none
  /-- Real time at which HOLDOVER was entered, ns. -/
  holdAt   : Nat := 0
  /-- Real time of the last measurement, ns. -/
  lastMeasure : Nat := 0
  deriving DecidableEq, Repr

/-! ### Tally (chapter 15) -/

/-- A Tally source: configuration in force, record, stamps and grace timer. -/
structure TallySource where
  cfg    : TalyCfg := {}
  reg    : TalySrc := {}
  /-- Stamps of its events since it last cleared, monotonic ms, newest first. -/
  stamps : List Nat := []
  /-- Monotonic ms at which the grace timer expires; none while it is stopped. -/
  grace  : Option Nat := none
  /-- The sub-array the newest event names. -/
  sub    : Option SubId := none
  /-- WINDOW_MS as the newest event found it (R401). -/
  window : BitVec 16 := 1000
  deriving DecidableEq, Repr

/-- The entry of a source that no TALLY table has named (Table 15-4); FOREMAN_WDOG has GRACE_MS 1000 and FALLBACK
CHIP_RESET. -/
def defaultEntry (i : SourceId) : TalyCfg :=
  if i.val = 0x70 then { source := 0x70, graceMs := 1000, fallback := 4 } else { source := BitVec.ofNat 8 i.val }

/-- The Tally. -/
structure TallyBlock where
  srcs     : Vector TallySource 256 := Vector.ofFn fun i => { cfg := defaultEntry i }
  stat     : TalyStat := {}
  /-- Real time of the last cold start, ns: the monotonic count runs from it (R388). -/
  monoBase : Nat := 0
  /-- Monotonic ms of the last chip reset the Tally took (R395). -/
  lastChip : Option Nat := none
  /-- Entries of a committed TALLY table, in force from the next beat (Table 13-7). -/
  queued   : List TalyCfg := []
  /-- Octets that a block reset has put into full training (R397). -/
  resetting : BitVec 16 := 0
  deriving DecidableEq, Repr

/-! ### Bellows (chapter 16) -/

/-- A band of a ride-through curve (Table 16-3). -/
structure Band where
  lo    : Nat
  hi    : Nat
  maxUs : Nat
  deriving DecidableEq, Repr

/-- A step of a rail sequence (Table 16-6). -/
structure SeqStep where
  op      : Nat
  target  : Nat
  timeout : Nat
  arg     : Nat
  deriving DecidableEq, Repr

/-- What the Bellows does when a sequence ends. -/
inductive AfterSeq where
  /-- Nothing further. -/
  | nothing
  /-- The MODE_REQUEST of a bench completes in this mode. -/
  | mode (m : BitVec 4) (by' : Option BenchId)
  /-- Roll-call step 1 ends. -/
  | rollCall
  /-- The shutdown ends in DORMANT. -/
  | dormant
  deriving DecidableEq, Repr

/-- A sequence in progress (R416, R417). -/
structure SeqRun where
  id      : Fin 6
  /-- The steps not yet done, the running one first. -/
  left    : List SeqStep
  /-- The number of the running step. -/
  index   : Nat
  /-- Real time at which the running step began, ns. -/
  since   : Nat
  /-- RAILS_DOWN after a timeout: the remaining steps do not wait (R417). -/
  forced  : Bool := false
  after   : AfterSeq
  deriving DecidableEq, Repr

/-- An island's gating (R419): 0 OFF, 1 POWERING_UP, 2 ON, 3 SHUTTING_DOWN. -/
structure Island where
  state   : Fin 4 := 0
  target  : Bool := false
  /-- Real time at which the present power-up or shutdown began, ns. -/
  since   : Nat := 0
  /-- ISLAND_GATE was raised for the present power-up. -/
  gated   : Bool := false
  deriving DecidableEq, Repr

/-- A supply event in progress (R404, R405, R407). -/
structure SupplyEvent where
  /-- Real time of its start, ns. -/
  start    : Nat
  /-- The event has ended, and RIDE goes on until the bank is charged (R412). -/
  past     : Bool := false
  /-- Modes: the mode RIDE was entered from, where RIDE was entered. -/
  rodeFrom : Option (BitVec 4) := none
  /-- Islands whose latest request was OFF when it began: RESTORE does not power them (R412, R419). -/
  offBefore : BitVec 79 := 0
  /-- The band of the ride-through curve that the input was last seen in, the earliest its stay there can have begun, and when the
  input was last seen, ns (R407). -/
  band     : Option Nat := none
  bandAt   : Nat := 0
  lastAt   : Nat := 0
  /-- What the bank has given, in units of 5e-11 J: microfarads times squares of 10 mV. -/
  drawn    : Nat := 0
  deriving DecidableEq, Repr

/-- The Bellows. -/
structure BellowsBlock where
  cfg      : BellCfg := {}
  stat     : BellStat := {}
  /-- BELL_EVENT, index 0 the newest. -/
  events   : Vector BellEvent 16 := Vector.replicate 16 {}
  event    : Option SupplyEvent := none
  curve    : List Band := []
  curveNext : Option (List Band) := none
  /-- The sequence tables by SEQ_ID. -/
  seqs     : Vector (List SeqStep) 6 := Vector.replicate 6 []
  running  : Option SeqRun := none
  islands  : Vector Island 79 := Vector.replicate 79 {}
  /-- Rails whose supply is on, in the order of Table 16-5. -/
  rails    : BitVec 12 := 0
  /-- An orderly shutdown is in progress. -/
  falling  : Bool := false
  /-- Real time of the last bank test, ns. -/
  lastTest : Nat := 0
  /-- Real time RIDE was entered, ns. -/
  rideAt   : Nat := 0
  /-- Real time at which the input was last seen outside the range that ends an event or allows a restart, ns. -/
  goodSince : Nat := 0
  /-- Real time at which the input was last seen at 59.0 V or above, ns (R403). -/
  highAt   : Nat := 0
  /-- The straps sampled when the always-on island powered up. -/
  straps   : Straps := ⟨0, 0, 0, false⟩
  /-- The input feeds the module: the always-on island is powered. -/
  alive    : Bool := false
  /-- The module is DORMANT after an orderly shutdown (R415). -/
  down     : Bool := false
  deriving DecidableEq, Repr

/-! ### Roll call and store (chapter 17) -/

/-- A copy header with the right MAGIC and HDR_CRC (Table 17-5). UNIT_BYTES and UNIT_CRC describe the bytes of the unit area,
whose layout the spec does not give; the area itself is held beside the header. -/
structure CopyHeader where
  seq        : Word
  imageBytes : Nat
  deriving DecidableEq, Repr

/-- What a unit area holds (R435). -/
structure UnitArea where
  /-- Granary training values were present; the values themselves are analogue settings the spec does not lay out. -/
  trained  : Bool := false
  /-- For each lane the far transmitter's taps and the eye metric (LANE_STAT words 1 and 3). -/
  taps     : List (BitVec 32 × BitVec 16) := []
  retired  : BitVec 42 := 0
  mgmt     : List BnchMgmt := []
  deriving DecidableEq, Repr

/-- One copy of the store. The factory image of a copy is valid and its bytes are Satisin's own (log entry 40). -/
structure StoreCopy where
  factory : Bool := false
  header  : Option CopyHeader := none
  area    : UnitArea := {}
  /-- The image area as STORE_WRITE programmed it; an erased byte reads 0xFF. -/
  image   : SMap Byte := []
  /-- Bytes programmed since their sector was erased. -/
  written : SMap Bool := []
  /-- Sectors erased since FIRST (R437). -/
  erased  : List Nat := []
  /-- Sectors in which some byte was programmed twice since FIRST. -/
  spoiled : List Nat := []
  /-- STORE_WRITE with FIRST has begun an image that is not yet activated. -/
  writing : Bool := false
  deriving DecidableEq, Repr

/-- An owner fuse slot (R438). -/
structure OwnerSlot where
  digest      : BitVec 384
  rootAllowed : Bool
  deriving DecidableEq, Repr

/-- The configuration store, the fuses and the roll call. -/
structure StartBlock where
  reg       : BellStart := {}
  copyA     : StoreCopy := { factory := true }
  copyB     : StoreCopy := {}
  /-- Burned owner slots, lowest first, at most four. -/
  owners    : List OwnerSlot := []
  /-- MIN_SECURITY, the number of burned positions of the thermometer code. -/
  minSecurity : Nat := 0
  /-- ID_INFO fields that step 3 of the roll call fills (R429). -/
  fwVersion : BitVec 32 := 0
  storeSeq  : BitVec 32 := 0
  storeCopy : Bool := false
  recovery  : Bool := false
  idValid   : Bool := false
  /-- A step has ended and the roll call waits for a supply event to end before step 5 (R431). -/
  waiting   : Bool := false
  /-- Real time at which the roll call and the running step began, ns. -/
  rollAt    : Nat := 0
  stepAt    : Nat := 0
  /-- Real time at which the always-on island powered up, ns. -/
  aonAt     : Nat := 0
  /-- A restart asked for by STORE_ACTIVATE, to be made after its reply: the start cause. -/
  restart   : Option (BitVec 4) := none
  /-- Stored taps of lanes and the copy of training values that starts use (R52, R258). -/
  area      : UnitArea := {}
  deriving DecidableEq, Repr

/-! ### Sideband (chapter 18) -/

/-- The I2C sideband and the cable contacts. -/
structure SideBlock where
  page    : BitVec 2 := 0
  word    : Nat := 0
  /-- CBL_PRESENT_N of each octet is high. -/
  cblHigh : BitVec 16 := 0xFFFF
  cable3v3 : BitVec 16 := 0
  deriving DecidableEq, Repr

end Sys2Proof.Machine
end

