-- ==== Sys2Proof/Machine/LaneState.lean ====
section
/-! DEFINITION. The state of the serial lanes, the packet formats, the parser and the egress formatter
as plain data (chapters 02 and 03). -/

namespace Sys2Proof.Machine

/-! ### Lanes (chapter 02) -/

/-- A frame being received: the SOF payload and the data blocks so far, newest first (R32). -/
structure RxFrame where
  sof  : BitVec 64
  data : List (BitVec 64)
  deriving DecidableEq, Repr

/-- How a received frame ended (Table 02-4). -/
inductive FrameEnd where
  | good | crcWrong | malformed
  deriving DecidableEq, Repr

/-- A frame whose end has been received and not yet acted on: its SEQ, its packet and how it ended. -/
structure EndedFrame where
  seq    : BitVec 12
  packet : List Byte
  how    : FrameEnd
  deriving DecidableEq, Repr

/-- A frame a PLF transmitter holds until it is released (R42): its SEQ, packet, and the format that built it. -/
structure TxFrame where
  seq    : BitVec 12
  packet : List Byte
  deriving DecidableEq, Repr

/-- What the tap search of R49 does next. -/
inductive Search where
  /-- Not training. -/
  | idle
  /-- The preset has been requested; `steps` of stored taps follow: taps 0 to 2 for c(-2), c(-1), c(1), and INC. -/
  | presets (steps : List (Fin 3 × Bool))
  /-- Trying tap number `tap` of (c(-1), c(1), c(-2)) in direction `inc`; `m0` is the metric before the step. -/
  | trying (tap : Fin 3) (inc : Bool) (m0 : Nat) (round : Nat) (improved : Bool)
  /-- The step did not help and its opposite has been requested. -/
  | undoing (tap : Fin 3) (inc : Bool) (round : Nat) (improved : Bool)
  /-- DONE has been sent. -/
  | done
  deriving DecidableEq, Repr

/-- A lane. -/
structure Lane where
  stat : LaneStat := {}
  cnt  : LaneCnt := {}
  eye  : LaneEye := {}
  /-- The points measured, newest last, and the points still to measure, in scan order. -/
  eyePts  : List Word := []
  eyeLeft : List (Int × Int) := []
  /-- The descrambler: the last 58 received bits, newest in bit 0 (R29). -/
  descr   : BitVec 58 := 0
  /-- HUNT: consecutive valid headers. LOCK: headers and invalid headers of the window (R35). -/
  valid   : Nat := 0
  winLen  : Nat := 0
  winBad  : Nat := 0
  /-- Real time since which the receiver is in HUNT with the lane UP, ns (R36, R59). -/
  huntAt  : Option Nat := none
  frame   : Option RxFrame := none
  /-- The elastic buffer: blocks waiting to be read, oldest first, at most 32 (R38). -/
  elastic : List (BitVec 2 × BitVec 64) := []
  /-- A frame whose end FRAME_END acts on; the next block received acts on it first. -/
  ended   : Option EndedFrame := none
  /-- E, the expected sequence number (R40). -/
  expect  : BitVec 12 := 0
  /-- The SEQ of the first frame after SYNC becomes E, whatever it is (R51). -/
  fresh   : Bool := true
  /-- SEQ of the last frame delivered in order. -/
  lastSeq : Option (BitVec 12) := none
  nakPending : Bool := false
  /-- The last ACK (or, while a NAK is pending, NAK) sent and when, ns (R41). -/
  lastAck : Option (BitVec 64) := none
  ackAt   : Nat := 0
  /-- Consecutive replay requests without a delivery (R44). -/
  requests : Nat := 0
  rxSinceFill : Nat := 0
  /-- Real time of the last FILLER sent, ns (R39). -/
  fillAt  : Nat := 0
  /-- Frames held as transmitter, oldest first, and the next SEQ. -/
  held    : List TxFrame := []
  nextSeq : BitVec 12 := 0
  /-- Real time of the last release, or of the first held frame, ns. -/
  releaseAt : Nat := 0
  /-- Training: search position, the current TRAIN_REQ and when it was sent, DONE received. -/
  search  : Search := .idle
  req     : BitVec 64 := 0
  reqAt   : Nat := 0
  /-- A status for the current request is awaited. -/
  waiting : Bool := false
  reqNum  : BitVec 8 := 0
  peerDone : Bool := false
  /-- As responder: the last REQ_NUM applied and the stored TRAIN_STS. -/
  applied : Option (BitVec 8) := none
  sts     : BitVec 64 := 0
  /-- Real time at which the present step of Table 02-7 began, ns. -/
  stepAt  : Nat := 0
  /-- Warm bring-up from stored taps. -/
  warm    : Bool := false
  /-- RETRAIN is in progress: since when; SYNC reached from it does not renumber. -/
  retrainAt : Option Nat := none
  /-- The far end has sent READY. -/
  peerReady : Bool := false
  /-- LANE_TAG was raised for the present SYNC (R51). -/
  tagRaised : Bool := false
  /-- Real times of the latest bad frames, newest first, ns (Table 02-8). -/
  badTimes : List Nat := []
  faultAt  : Nat := 0
  /-- Far-end remote fault on an Ethernet lane (R58). -/
  remoteFault : Bool := false
  /-- Near-end loopback (Table 02-9): where in the outputs it began, and how much of what this lane has sent since
  its own receiver has taken. -/
  loopFrom : Nat := 0
  loopGot  : Nat := 0
  deriving DecidableEq, Repr

/-- A pending octet change and the sub-arrays whose boundary it still waits for (R27). -/
structure OctetChange where
  enable : Bool
  dir    : Bool
  pers   : Bool
  layout : BitVec 3
  waits  : List SubId
  deriving DecidableEq, Repr

/-- An octet. -/
structure Octet where
  cfg    : LaneOctCfg := {}
  ingr   : LaneIngrCnt := {}
  change : Option OctetChange := none
  deriving DecidableEq, Repr

/-- An ingress packet delivered by a lane and not yet parsed. -/
structure Arrival where
  lane  : LaneId
  /-- Over Ethernet the whole frame, over PLF the packet. -/
  bytes : List Byte
  udp   : Bool
  deriving DecidableEq, Repr

/-- The octet settings after a cold start (R26). -/
def Octet.cold (o : OctetId) : Octet :=
  { cfg := { dir := decide (12 ≤ o.val), pers := decide (12 ≤ o.val) } }

/-- A lane after a cold start: Ethernet lanes have no taps (Table 02-10). -/
def Lane.cold (l : LaneId) : Lane :=
  { stat := { ownTaps := if l.val < 96 then 0x00400000 else 0 } }

/-- The serial lanes. -/
structure LaneBlock where
  lanes    : Vector Lane 128 := Vector.ofFn Lane.cold
  octets   : Vector Octet 16 := Vector.ofFn Octet.cold
  /-- Packets delivered and not yet parsed, oldest first. -/
  arrivals : List Arrival := []
  deriving DecidableEq, Repr

/-! ### Formats (chapter 03) -/

/-- An ingress FMT table (Table 03-3). -/
structure FmtIn where
  udp         : Bool
  octetMask   : BitVec 16
  sub         : SubId
  chanBase    : Nat
  skew        : Nat
  inputs      : Nat
  samples     : Nat
  statusEvery : Nat
  udpPort     : Nat
  acceptMcast : Bool
  wireIpv6    : Bool
  wireTagged  : Bool
  deriving DecidableEq, Repr

/-- An egress FMT table (Table 03-3). -/
structure FmtOut where
  kind       : Nat
  sub        : SubId
  destBase   : Nat
  destCount  : Nat
  destMode   : Nat
  payloadMax : Nat
  exact      : Bool
  sourceId   : Word
  dscp       : Nat
  hops       : Nat
  countA     : Nat
  countB     : Nat
  beamQueue  : Nat
  deriving DecidableEq, Repr

/-- An FMT table of any kind but the address table. -/
inductive Fmt where
  | ingress (f : FmtIn)
  | egress (f : FmtOut)
  deriving DecidableEq, Repr

/-- A packet in egress staging (R82, R84). -/
structure Staged where
  fmt    : Fin 64
  dest   : Nat
  seq    : Word
  bytes  : List Byte
  deriving DecidableEq, Repr

/-- An egress port: its queue and token bucket (R84). -/
structure EgressPort where
  queue  : List Staged := []
  /-- Tokens in tenths of a bit, and when they were counted, ns. -/
  tokens : Nat := 0
  at'    : Nat := 0
  deriving DecidableEq, Repr

/-- A packet whose producer waits because egress staging has no room for it (R84): its port. -/
structure Blocked where
  port : LaneId
  pkt  : Staged
  deriving DecidableEq, Repr

/-- A wait of the producer of a format: since when, ns, and whether EGRESS_STALL was raised for it (R84). -/
structure Stall where
  fmt   : Fin 64
  since : Nat
  told  : Bool
  deriving DecidableEq, Repr

/-- Formats, counters and egress staging. -/
structure FormatBlock where
  fmts    : Vector (Option Fmt) 64 := Vector.replicate 64 none
  /-- Committed formats that wait for a boundary of the sub-array that uses the table they replace (R75), oldest first: an
  ingress format applies to every packet from a raw index on, up to that of the next one (R22); an egress format waits for a
  Loom span boundary. -/
  waiting : List (Fin 64 × Fmt × SubId × Option Nat) := []
  /-- The address table: 128 port entries and 256 destination entries of 8 words; empty before the first commit. -/
  addr    : List Word := []
  /-- STREAM_SEQ by FMT_ID × 256 + destination entry (R82). -/
  seqs    : SMap Word := []
  egr     : Vector LaneEgrCnt 64 := Vector.replicate 64 {}
  ports   : Vector EgressPort 128 := Vector.replicate 128 {}
  /-- Packets waiting for room in staging, oldest first, and the waits of their producers (R84). -/
  blocked : List Blocked := []
  stalls  : List Stall := []
  deriving DecidableEq, Repr

/-! ### The parser -/

/-- One coarse sample as the parser files it: value, the INPUT_INVALID bit and NOISE_CAL of its packet (R66). -/
structure Coarse where
  re      : Int
  im      : Int
  invalid : Bool
  cal     : Bool
  deriving DecidableEq, Repr

/-- A slot of S_q coarse samples of every input and coarse channel (R72): keys (input × C + channel) × S_q + t. -/
structure Slot where
  q     : Nat
  cells : SMap (Option Coarse)
  deriving DecidableEq, Repr

/-- The parser of one sub-array. -/
structure Parser where
  /-- F, the front index (R72). -/
  front   : Nat := 0
  /-- k_s, once a start is accepted. -/
  start   : Option Nat := none
  /-- The next slot to pass. -/
  next    : Nat := 0
  slots   : List Slot := []
  /-- Slots passed to the Sieve and not yet taken by every slice, oldest first, with the slices still to take them. -/
  passed  : List (Slot × List SliceId) := []
  /-- Sample packets accepted since the last status packet, by block × 128 + group (R69). -/
  since   : SMap Nat := []
  /-- Real time of the last accepted sample packet, ns (R74). -/
  lastOk  : Nat := 0
  /-- Real time since which every sample packet has been FUTURE, ns; raised once (R73). -/
  future  : Option Nat := none
  jumped  : Bool := false
  /-- F advances by time (R74). -/
  silent  : Bool := false
  deriving DecidableEq, Repr

end Sys2Proof.Machine
end

