-- ==== Sys2Proof/Machine/DataState.lean ====
section
/-! DEFINITION. The state of the front end and the Cellar as plain data: sub-arrays, Sieve, Mill, Assay, Cellar
and Shelf (chapters 04 to 06). -/

namespace Sys2Proof.Machine

/-- Values that hold from a fine-sample index on, in the order in which they were scheduled (R22). -/
abbrev Sched (α : Type) := List (Nat × α)

/-- A sub-array (Table 13-9) and what its commands have scheduled. -/
structure ObsSub where
  /-- 0 FREE, 1 DEFINED, 2 ALIGN, 3 OBSERVE. -/
  state : BitVec 4 := 0
  epoch : TimeEpoch := {}

  /-- The span at whose boundary the observation stops (R351). -/
  stopAt : Option Nat := none
  /-- The observation has passed its stop boundary and completes its output (R202). -/
  stopping : Bool := false
  deriving DecidableEq, Repr

/-! ### Sieve (chapter 04) -/

/-- A beat update for one input: integer delay, FD of R127, and PHASE and RATE of each coarse channel (R94). -/
structure InUpd where
  d   : Nat
  fd  : Int
  rot : List (Nat × Int)
  deriving DecidableEq, Repr

/-- A beat update of a sub-array, with the record fields that take effect at the beat (R94, R97, R109). -/
structure Update where
  kb       : Nat
  slip     : Bool
  calHold  : Bool
  /-- MODEL_STALE and STALE_INVALID are both set. -/
  invalid  : Bool
  fdelayEn : Bool
  ins      : List InUpd
  /-- XFADE_LOG2 from this beat on. -/
  xfade    : Nat := 10
  deriving DecidableEq, Repr

/-- A coarse sample the DC blocker has taken: the sample, the mean it subtracted, its DCB_SHIFT, and whether CAL_HOLD kept
the mean (R88). -/
structure DcTaken where
  x     : Cplx
  mean  : Cplx
  shift : Nat
  hold  : Bool
  deriving DecidableEq, Repr

/-- One (input, coarse channel) stream: the means, the coarse samples the DC blocker has not seen (oldest first), the
last ones it has taken and the last rotated aligned samples (both newest first). -/
structure Stream where
  mRe : Int := 0
  mIm : Int := 0
  raw : List (Option Coarse) := []
  dc  : List (Option DcTaken) := []
  win : List (Option Cplx) := []
  deriving DecidableEq, Repr

/-- One input of a sub-array in its slice's Sieve. -/
structure SieveIn where
  d        : Nat := 0
  /-- How many of the sub-array's beat updates have been applied. -/
  seen     : Nat := 0
  /-- The next aligned index and the next raw index of the DC blocker. -/
  na       : Nat := 0
  dcNext   : Nat := 0
  /-- Aligned indices below this one are invalid after a step of the delay (R92). -/
  badUntil : Nat := 0
  /-- The next fine sample. -/
  fineN    : Nat := 0
  /-- Synchronising resets passed. -/
  resets   : Nat := 0
  streams  : List Stream := []
  deriving DecidableEq, Repr

/-- A synchronising reset: k_r, DCB_SHIFT from there on (R109), and the fine samples it withholds (R105). -/
structure SyncReset where
  kr     : Nat
  shift  : Nat
  nLo    : Nat
  nFirst : Nat
  deriving DecidableEq, Repr

/-- A cross-fade: its first fine sample, its length and the bank it leaves (R104). Until it starts, the length follows
XFADE_LOG2 (R109). -/
structure Fade where
  n0   : Nat
  len  : Nat
  leaves : Bool
  deriving DecidableEq, Repr

/-- A DELAY_LOAD that waits for its beat: its time in 2^-16 ns, the set, and the coefficients of each input as binary64
codes (R353). -/
structure DelayLoad where
  at16 : Nat
  set  : Nat
  ins  : List (Nat × List Nat)
  deriving DecidableEq, Repr

/-- The Sieve of a sub-array. -/
structure SieveSub where
  cfg      : SievCfg := {}
  stat     : SievStat := {}
  /-- XFADE_LOG2 in force before the first beat update (R109). -/
  xfade    : Nat := 10
  /-- OUT_SHIFT by fine sample (R22). -/
  outShift : Sched Nat := [(0, 17)]
  /-- Beat updates since the observation was armed, oldest first. -/
  updates  : List Update := []
  ins      : SMap SieveIn := []
  /-- DELAY_LOADs pending, at most 16 (R353). -/
  loads    : List DelayLoad := []
  /-- Resets asked for and not yet reached: k_r and whether RESYNC_AT asked. -/
  wanted   : List (Nat × Bool) := []
  resets   : List SyncReset := []
  /-- Freezes and thaws by aligned index, oldest first, with the blocks that stay frozen from there on (R89). -/
  frozen   : Sched Nat := []
  /-- The DCB_FREEZE waiting to take effect: k_f, mask, on; and the time from which it counts. -/
  freezeAsk : Option (Nat × Nat × Bool) := none
  /-- Cross-fades scheduled, the first one running or pending. -/
  fades    : List Fade := []
  /-- A swap waits for the next beat. -/
  swapAsk  : Bool := false
  /-- A swap waits for the time it names, in 2^-16 ns, while no start index is set. -/
  swapAt   : Option Nat := none
  /-- Bank k holds coefficients of the sub-array. -/
  bankFull : Vector Bool 2 := Vector.replicate 2 false
  /-- Fine samples below this one have been counted in SUPPRESSED. -/
  suppTo   : Nat := 0
  /-- A slice has returned from gating and its reset waits for the next beat (R108). -/
  returned : List SliceId := []
  deriving DecidableEq, Repr

/-! ### Mill (chapter 05) -/

/-- A frame: its tag and, when it is not a null frame, its branch values. -/
structure Frame where
  sub   : SubId
  input : Nat
  chan  : Nat
  n     : Nat
  null  : Bool
  data  : List Cplx
  deriving DecidableEq, Repr

/-- A frame slot of an engine (R119). -/
structure MillSlot where
  frame  : Option Frame := none
  m      : Nat := 0
  p      : Nat := 0
  /-- The shift of the present pass, once an instruction has used one. -/
  sUsed  : Option Nat := none
  e      : Nat := 0
  /-- UNLOADs done, and the bins they gave. -/
  unloads : Nat := 0
  bins   : List (Nat × Cplx) := []
  deriving DecidableEq, Repr

/-- A loop level: first and last address of its body and the runs still to come after this one (R117). -/
structure LoopLevel where
  first : Nat
  last  : Nat
  left  : Nat
  deriving DecidableEq, Repr

/-- A resident kernel (Table 05-5). -/
structure Kernel where
  id    : Nat
  pLog2 : Nat
  rate  : Nat
  entry : Nat
  count : Nat
  ags   : List Word
  code  : List Word
  coef  : List Word
  deriving DecidableEq, Repr

/-- An engine. -/
structure Engine where
  stat   : MillStat := {}
  kernel : Option Kernel := none
  queue  : List Frame := []
  /-- The frame whose vectors LOAD is writing: vectors done and its slot. -/
  loading : Option (Frame × Nat × Fin 16) := none
  mem    : SMap Cplx := []
  pc     : Nat := 0
  loops  : List LoopLevel := []
  /-- Executions of each instruction since the outermost active loop was entered. -/
  counts : SMap Nat := []
  /-- The registers of the generators: register 16 g + f. -/
  regs   : SMap Nat := []
  slots  : Vector MillSlot 16 := Vector.replicate 16 {}
  cycle  : Nat := 0
  /-- Writes pending: word address and the cycle in which the write is done. -/
  writes : List (Nat × Nat) := []
  /-- Real time since which the present LOAD waits for input, ns. -/
  waitAt : Option Nat := none
  /-- Spans in a row in which the engine faulted, and whether it has faulted in the present one (R123). -/
  faultRun  : Nat := 0
  faultNow  : Bool := false
  /-- A spare serves in its place since it faulted (R123). -/
  replaced  : Bool := false
  /-- The smallest and largest frame exponent of the span in progress. -/
  expNow    : Option (Nat × Nat) := none
  deriving DecidableEq, Repr

/-! ### Assay (chapter 05) -/

/-- What reaches the Assay of a slice: a finished frame with its exponent and bins, or a frame that bypassed the
engines and becomes markers (R112). -/
structure AssayIn where
  sub   : SubId
  input : Nat
  chan  : Nat
  n     : Nat
  valid : Bool
  e     : Nat
  bins  : List Cplx
  deriving DecidableEq, Repr

/-- A requantisation curve (Table 05-9): FORMAT and thresholds. -/
structure Curve where
  wide : Bool
  ts   : List Nat
  deriving DecidableEq, Repr

/-- The Assay of a sub-array. -/
structure AssaySub where
  cfg    : AssyCfg := {}
  stat   : AssyStat := {}
  /-- The gain both copies were filled with, and the groups that differ, by input × 2^18 + group (R130, R131). -/
  fill   : BitVec 16 := 0x3A00
  active : SMap (BitVec 16) := []
  shadow : SMap (BitVec 16) := []
  /-- The fine sample from which the shadow copy is active (R131). -/
  gainAt : Option Nat := none
  /-- The curve by fine sample (R128). -/
  curve  : Sched Curve := []
  /-- Statistics of the spans in progress, by span × 4096 + input. -/
  acc    : SMap AssyLevels := []
  levels : SMap AssyLevels := []
  /-- The next span of which the front-end span boundary has not been reached (R22). -/
  span   : Nat := 1
  deriving DecidableEq, Repr

/-! ### Cellar and Shelf (chapter 06) -/

/-- A bay: the span it holds and whether it is frozen. -/
structure Bay where
  span   : Option Nat := none
  frozen : Bool := false
  deriving DecidableEq, Repr

/-- An open granule of a combine buffer: sub-array, span, granule of the bay, fine sample, and its bytes. -/
structure OpenGran where
  sub   : SubId
  span  : Nat
  index : Nat
  n     : Nat
  bytes : List (Option Byte)
  deriving DecidableEq, Repr

/-- A span being written: its bay and the granules already written. -/
structure OpenSpan where
  span    : Nat
  bay     : Nat
  written : SMap Bool := []
  deriving DecidableEq, Repr

/-- An overrun that waits for the end of a staging copy before its units are condemned (R141). -/
structure Overrun where
  /-- The span that is overrun, the span that has taken its bay, and the bay. -/
  old : Nat
  new : Nat
  bay : Nat
  deriving DecidableEq, Repr

/-- A staging unit in a Shelf buffer: its span and number, whether its copy has ended, and whether it is staged
again (R149). -/
structure Staging where
  span   : Nat
  unit   : Nat
  staged : Bool
  again  : Bool := false
  deriving DecidableEq, Repr

/-- The Cellar and the Shelf region of a sub-array. -/
structure CellarSub where
  cfg    : CellCfg := {}
  stat   : CellStat := {}
  bays   : List Bay := []
  /-- Spans opened and not yet available, oldest first. -/
  opened : List OpenSpan := []
  /-- The next span to open; spans below `avail` have become available. -/
  next   : Nat := 0
  avail  : Nat := 0
  /-- Spans not yet available for which both conditions of A_s hold, with the real time since which they do, ns (R138). -/
  ready  : List (Nat × Nat) := []
  /-- A_s of the available spans that the Loom has not finished: span and real time, ns. -/
  availAt : List (Nat × Nat) := []
  overrun : Option Overrun := none
  /-- Condemned units: span, first unit and end of a run. -/
  condemned : List (Nat × Nat × Nat) := []
  /-- The next unit of the running span to stage, and the two buffers. -/
  stageNext : Nat := 0
  buffers : Vector (Option Staging) 2 := Vector.replicate 2 none
  /-- HALVES, SHELF_BASE and SHELF_UNIT that an OBS_DEFINE gave it while a span ran: they take their place at the next Loom
  span boundary (R148; log entry 62). -/
  shelfNext : Option (Bool × Nat × Nat) := none
  deriving DecidableEq, Repr

/-- The shared parts of the front end and the Cellar. -/
structure FrontBlock where
  /-- The two coefficient banks (R101). -/
  banks   : Vector (SMap Int) 2 := Vector.replicate 2 []
  mill    : Vector MillCfg 4 := Vector.replicate 4 {}
  engines : Vector Engine 32 := Vector.replicate 32 {}
  /-- User kernels and the vendor kernels that a committed table has replaced (R125). -/
  kernels : List Kernel := []
  assayIn : Vector (List AssayIn) 4 := Vector.replicate 4 []
  assay   : Vector AssaySub 4 := Vector.replicate 4 {}
  /-- Requantisation curves that a committed table has replaced or added (R129). -/
  curves  : Vector (Option Curve) 16 := Vector.replicate 16 none
  combine : Vector (List OpenGran) 4 := Vector.replicate 4 []
  capture : CellCapt := {}
  deriving DecidableEq, Repr

end Sys2Proof.Machine
end

