-- ==== Sys2Proof/Machine/LoomState.lean ====
section
/-! DEFINITION. The state of the Loom, the Ledger and the beams as plain data (chapters 07 to 09). -/

namespace Sys2Proof.Machine

/-! ### Loom (chapter 07) -/

/-- A plan (Table 07-2). -/
structure Plan where
  sLog2  : Nat
  custom : Bool
  corr   : BitVec 40
  beam   : BitVec 40
  /-- The block positions in job order. -/
  order  : List (Nat × Nat)
  deriving DecidableEq, Repr

/-- A correlation job (R158), with the tiles on which it has failed its check and whether it is run again. -/
structure Job where
  sub   : SubId
  span  : Nat
  unit  : Nat
  f     : Nat
  chunk : Nat
  slice : Nat
  i     : Nat
  j     : Nat
  failed : List TileId := []
  /-- The tile it was last taken from; another takes the redo (R172). -/
  avoid : Option TileId := none
  again : Bool := false
  /-- RIDE abandoned it (R179). -/
  rode  : Bool := false
  deriving DecidableEq, Repr

/-- A beam job (R219), with the fine sample it starts from. -/
structure BeamJob where
  sub   : SubId
  span  : Nat
  unit  : Nat
  f     : Nat
  chunk : Nat
  j     : Nat
  start : Nat := 0
  failed : List TileId := []
  avoid : Option TileId := none
  again : Bool := false
  deriving DecidableEq, Repr

/-- A dump in the pending area: its job, the entries, and the check row and column (R160, R189). -/
structure Dump where
  job     : Job
  /-- When the job started and when its dump began, ns. -/
  start   : Nat
  since   : Nat
  entries : List Cplx
  row     : List Cplx
  col     : List Cplx
  deriving DecidableEq, Repr

/-- A beam job in flight on a tile: the Shelf buffer of its unit, when it began, ns, and the fine sample of the chunk at which
its check fails, 4096 for none (R218, R220). -/
structure BeamRun where
  job   : BeamJob
  buf   : Fin 2
  start : Nat
  stop  : Nat
  deriving DecidableEq, Repr

/-- Why a tile is in a self-test. -/
inductive TileTest where
  | none | suspect | spare | restore
  deriving DecidableEq, Repr

/-- A physical tile. -/
structure Tile where
  reg    : LoomTile := { logical := 63 }
  /-- The job it computes and when the job started, ns. -/
  job    : Option (Job × Nat) := none
  dump   : Option Dump := none
  /-- The beam job it computes. -/
  beam   : Option BeamRun := none
  test   : TileTest := .none
  /-- Real time of its last CHECK failure, ns (Table 07-3). -/
  lastCheck : Option Nat := none
  /-- TILE_RETIRE waits for the boundary (R176). -/
  retire : Bool := false
  /-- A TILE_RESTORE waits for the self-test: bench and TAG of its reply. -/
  asked  : Option (BenchId × Word) := none
  /-- A restored tile joins its plan at that plan's next boundary (R176). -/
  joins  : Bool := false
  /-- Real time of its last self-test as a spare, ns (R180). -/
  testedAt : Nat := 0
  deriving DecidableEq, Repr

/-- A span whose fine channels are still to fold: the uncut channels, the next to fold, whether it was known to be
the last of its integration when it started, that integration, and the closed integration that its folds give to output
(R201): all fixed at its start. -/
structure SpanFold where
  span  : Nat
  lo    : Nat
  hi    : Nat
  next  : Nat
  final : Bool
  integ : Nat
  due   : Option Nat := none
  deriving DecidableEq, Repr

/-- The Loom of a sub-array. -/
structure LoomSub where
  cfg      : LoomCfg := {}
  stat     : LoomStat := {}
  plan     : Option Plan := none
  planNext : Option Plan := none
  /-- CUT_FROM and CUT_TARGET in force (R182). -/
  cutFrom  : Nat := 0
  target   : Nat := 10000
  /-- Cut channels in the order in which they were cut: true for the top (R174, R175). -/
  cuts     : List Bool := []
  /-- The span running, and the next span to start. -/
  running  : Option Nat := none
  next     : Nat := 0
  /-- Real time at which every job of the running span was settled, ns. -/
  finishAt : Option Nat := none
  queue    : List Job := []
  beamQueue : List BeamJob := []
  folds    : List SpanFold := []
  /-- Real time since which a tile waits for a staged unit, or for a Ledger set, ns (R169). -/
  shelfIdle  : Option Nat := none
  ledgerIdle : Option Nat := none
  deriving DecidableEq, Repr

/-! ### Ledger (chapter 08) -/

/-- What a fine channel holds of an integration: first span and number of spans (R198). -/
structure Hold where
  first : Nat
  count : Nat
  deriving DecidableEq, Repr

/-- An integration in progress or with output still due (R197, R201). -/
structure Integ where
  number : Nat
  first  : Nat
  /-- Spans it holds, once it is closed. -/
  spans  : Option Nat := none
  shift  : Nat
  /-- Fine channels whose entries hold spans of it. -/
  chans  : SMap (Option Hold) := []
  /-- Tiles withheld: fine channel and position (R209). -/
  withheld : List (Nat × Nat) := []
  /-- The counts of the INTEGRATION metadata (Table 03-8). -/
  outChans : Nat := 0
  satTiles : Nat := 0
  packets  : Nat := 0
  events   : Nat := 0
  compactSat : Bool := false
  /-- Fine channels below this one have had their turn of output (R203); every one has, and the INTEGRATION metadata
  is sent. -/
  out      : Nat := 0
  sent     : Bool := false
  deriving DecidableEq, Repr

/-- The Ledger of a sub-array. -/
structure LedgerSub where
  cfg    : LedgCfg := {}
  stat   : LedgStat := {}
  /-- Integrations with something still to accumulate or output, oldest first; the last accumulates. -/
  integs : List Integ := []
  number : Nat := 0
  /-- Pending drain boundaries, rising (R200). -/
  drains : List Nat := []
  /-- The fine channel of a span that each SRAM set accumulates. -/
  sets   : Vector (Option (Nat × Nat)) 2 := Vector.replicate 2 none
  /-- Valid fine samples of the running span, by ((fine channel × 8 + chunk) × 8 + eighth) × 4096 + local input (R163). -/
  valid  : SMap Nat := []
  /-- WREC_GROUP_LOG2 of the running span (R207). -/
  group  : Nat := 0
  /-- The sub-array had a weight-record format when the running span started, so its counts are kept (R207). -/
  counting : Bool := false
  deriving DecidableEq, Repr

/-! ### Beams (chapter 09) -/

/-- A WEIGHT table that is committed and not yet switched to: first beam, beams, first group, groups (R225). -/
structure WeightSpan where
  beam   : Nat
  beams  : Nat
  group  : Nat
  groups : Nat
  deriving DecidableEq, Repr

/-- A reader cursor of a beam format (R233). -/
structure Cursor where
  fmt   : Fin 64
  /-- The first fine sample of the observation, the first channel and the beam of its next packet. -/
  next  : Nat
  chan  : Nat := 0
  beam  : Nat := 0
  /-- The next span whose values enter its detected sums. -/
  read  : Nat
  /-- Detected sums by (sum × 2^24 + fine channel) × 1024 + beam, and the flags by sum × 2^24 + fine channel (R234). -/
  sums  : SMap Nat := []
  bad   : SMap Bool := []
  deriving DecidableEq, Repr

/-- The beams of a sub-array. -/
structure BeamSub where
  cfg    : LoomBeamCfg := {}
  stat   : LoomBeamStat := {}
  /-- Selector bits: key weight group × 128 + beam / 8; true names copy 1 (R224). -/
  sel    : SMap Bool := []
  ready  : List WeightSpan := []
  /-- A WEIGHT_LOAD waits for the first beat at or after this time, in 2^-16 ns. -/
  loadAt : Option Nat := none
  /-- The span and weight group whose active copy the weight cache holds last (R228). -/
  cached : Option (Nat × Nat) := none
  /-- The curve in force, and the one that takes effect at the next boundary (R231, R238). -/
  curve  : Option (List Nat) := none
  /-- Store sets: entries by beam × 4096 + fine sample of the chunk. -/
  store  : Vector (SMap Cplx) 2 := Vector.replicate 2 []
  /-- The unit each set belongs to: span and unit. -/
  owner  : Vector (Option (Nat × Nat)) 2 := Vector.replicate 2 none
  /-- Lost fine samples: span, fine channel, fine sample of the span from and to, first and last row group. -/
  lost   : List (Nat × Nat × Nat × Nat × Nat × Nat) := []
  /-- EMPTY and PARTIAL of the units staged: span, fine channel × 32768 + fine sample; 1 PARTIAL, 2 EMPTY (R230). -/
  flags  : SMap (Fin 3) := []
  /-- Spans started and not yet whole in the turn, with their uncut fine channels; their units written. -/
  started : List (Nat × Nat × Nat) := []
  written : List (Nat × Nat) := []
  /-- Spans written whole into the turn, with the uncut fine channels of each. -/
  turned : List (Nat × Nat × Nat) := []
  /-- Real time since which a beam tile waits for a store set, ns (R221). -/
  storeIdle : Option Nat := none
  /-- Real time since which a beam tile waits for the weight cache, ns (R221, R228). -/
  weightIdle : Option Nat := none
  cursors : List Cursor := []
  deriving DecidableEq, Repr

/-- The shared parts of the Loom. -/
structure LoomBlock where
  tiles    : Vector Tile 42 := Vector.replicate 42 {}
  lost     : List LoomLost := []
  lostTotal : BitVec 32 := 0
  /-- Beam curves (R231). -/
  curves   : Vector (Option (List Nat)) 8 := Vector.replicate 8 none
  deriving DecidableEq, Repr

end Sys2Proof.Machine
end

