-- ==== Sys2Proof/Machine/MemState.lean ====
section
/-! DEFINITION. The state of the Granary, the Exchange, the Drayman and the Baler as plain data (chapters 10 and 14). -/

namespace Sys2Proof.Machine

/-- Folds of a granule that its channel gathers: the granule, the real time of the last of them (ns), their entries, whether
all were STORE, and the accesses issued for them (R250). -/
structure OpenFold where
  granule : Nat
  since   : Nat
  seen    : BitVec 4 := 0
  stores  : Bool := true
  read    : Bool := false
  wrote   : Bool := false
  deriving DecidableEq, Repr

/-- A Granary channel. -/
structure GranChan where
  stat    : GranStat := {}
  /-- The check cache: pages, the most recently touched first, and whether the check granule is to be written back (R244). -/
  cache   : List (Nat × Bool) := []
  /-- Real time of the last request and of the last SRE, ns. -/
  lastReq : Nat := 0
  sreAt   : Nat := 0
  /-- Granules of which some but not all entries have been folded (R250). -/
  folds   : List OpenFold := []
  deriving DecidableEq, Repr

/-- A region (Table 10-6). -/
structure Region where
  kind  : Nat
  sub   : Nat
  base  : Nat
  bytes : Nat
  deriving DecidableEq, Repr

/-- A row of GRAN_REPAIR (R269). -/
structure RepairRow where
  chan  : BitVec 5
  sub   : BitVec 2
  bank  : BitVec 4
  state : BitVec 2
  auto  : Bool
  row   : BitVec 19
  deriving DecidableEq, Repr

/-- The SCRATCH region (Table 10-6). -/
def scratchRegion : Region := ⟨6, 0, 0x3EFC0000000, 0x40000000⟩

/-- The masks M_0 to M_10 of Table 10-3. -/
def defaultMasks : List Nat :=
  [0x04210801, 0x08421002, 0x10842004, 0x21084008, 0x02108010, 0x08888820, 0x11111040, 0x00001880, 0x00006100,
   0x00018200, 0x00060400]

/-- The Granary. -/
structure Granary where
  cfg     : GranCfg := {}
  chans   : Vector GranChan 32 := Vector.replicate 32 {}
  freeze  : GranFreeze := {}
  masks   : List Nat := defaultMasks
  /-- Regions by rising base. -/
  regions : List Region := [scratchRegion]
  repair  : List RepairRow := []
  /-- Training values of the last full training are held in the always-on island (R255). -/
  trained : Bool := false
  /-- Real time of the last MR4 reading of each channel is not kept; a reading names its channel. Bank groups whose
  repair resource is used: channel × 64 + subchannel × 16 + bank group (R260). -/
  used    : List Nat := []
  deriving DecidableEq, Repr

/-- A lock of the Exchange: its owner, target and the real time of its grant, ns (R367). -/
structure ExchLock where
  owner  : MasterId
  target : Nat
  since  : Nat
  deriving DecidableEq, Repr

/-- Why a burst waits at its master port: another master's lock (R367), the order of its master's requests (R364), or a full
queue of a bridge (R365). -/
inductive HoldCause where
  | lock | order | bridge
  deriving DecidableEq, Repr

/-- A burst that waits at its master port: since when, and why. -/
structure HeldBurst where
  burst : Burst
  since : Nat
  cause : HoldCause
  deriving DecidableEq, Repr

/-- The Exchange. -/
structure Exchange where
  ctrl  : ExchCtrl := {}
  stat  : ExchStat := {}
  ports : Vector ExchPort 8 := Vector.replicate 8 {}
  locks : List ExchLock := []
  /-- Masters whose lock was broken: their next LOCK or UNLOCK access is refused (R368). -/
  broken : List MasterId := []
  /-- Bursts held at their master ports, oldest first (R364, R365, R367). Those of port M7 stand in the upstream queue of
  bridge A, which takes four. -/
  held  : List HeldBurst := []
  /-- Requests of the blocks behind bridge A for which its upstream queue has no place, oldest first (R365). -/
  upWait : List Burst := []
  /-- The master port that each target port granted last (R361). -/
  turn  : Vector MasterId 12 := Vector.replicate 12 7
  /-- The downstream queues of bridges A and B, oldest first, each of at most eight requests (R365). -/
  down  : Vector (List Burst) 2 := Vector.replicate 2 []
  deriving DecidableEq, Repr

/-- A Drayman channel: its record, the descriptor in progress and the rings last used on each side (R373). -/
structure Dray where
  reg  : DrayChan := {}
  /-- The eight words of the descriptor in progress. -/
  desc : List Word := []
  srcRing : Option (Nat × Nat) := none
  dstRing : Option (Nat × Nat) := none
  deriving DecidableEq, Repr

/-- Channels 12 to 15 are host channels (Table 14-13). -/
def Dray.cold (c : DrayId) : Dray := { reg := { host := decide (12 ≤ c.val) } }

/-- A job of the Baler that is running: its bench, when its last byte is coded, and its reply; a job whose session has closed ends
without one (R323, R354). -/
structure BaleRun where
  bench    : BenchId
  endsAt   : Nat
  raw      : Nat
  stream   : Nat
  results  : List Word
  answered : Bool := false
  deriving DecidableEq, Repr

/-- The Exchange, the Drayman and the Baler. -/
structure MoveBlock where
  exch : Exchange := {}
  dray : Vector Dray 16 := Vector.ofFn Dray.cold
  bale : BaleStat := {}
  baleRun : Option BaleRun := none
  deriving DecidableEq, Repr

end Sys2Proof.Machine
end

