-- ==== Sys2Proof/Machine/State.lean ====
section
/-! DEFINITION. The state of the module as plain data, the reasons a step can stop, and the state after reset. -/

namespace Sys2Proof.Machine

/-- What leaves the module, or is signalled to a part outside the model. -/
inductive Output where
  /-- A reply written into the Reply window of a bench (R310). -/
  | reply (b : BenchId) (words : List Word)
  /-- An MSI-X message (R317). -/
  | msix (f : FuncId) (vec : Fin 16)
  /-- A bench datagram sent from a management port (R318). -/
  | datagram (port : PortId) (peer : Peer) (bytes : List Byte)
  /-- A frame forwarded to, or sent by, a management port (R295, R298). -/
  | mgmtFrame (port : PortId) (bytes : List Byte)
  /-- A control block of a lane's transmitter, before scrambling (R29, R30). -/
  | laneBlock (l : LaneId) (payload : BitVec 64)
  /-- A PLF frame of an egress lane: SEQ, the packet padded to whole blocks, and the CRC (R32, R34). -/
  | laneFrame (l : LaneId) (seq : BitVec 12) (packet : List Byte) (crc : Word)
  /-- An Ethernet frame of an egress port, without preamble, with FCS (R82). -/
  | ethFrame (port : LaneId) (bytes : List Byte)
  /-- A pulse on TRIG_OUT, from an instant in 2^-16 ns, for a number of ticks (R292). -/
  | pulse (pin : Fin 4) (at16 : Nat) (ticks : Nat)
  /-- A pulse on PPS_OUT at a whole second, with its width in microseconds (R292). -/
  | pps (sec : Nat) (widthUs : Nat)
  /-- An event pulse on a line of the Drayman (R375). -/
  | eventLine (line : Fin 32)
  /-- The Foreman fault handler is entered (R394). -/
  | trap (src : SourceId) (detail : Word)
  /-- A Foreman core is reset (Table 15-1). -/
  | coreReset (core : Nat)
  /-- The response to a burst: code of Table 14-4 and the bytes read (R360). -/
  | response (m : MasterId) (code : BitVec 2) (bytes : List Byte)
  /-- The error response of a channel controller to the block that asked (R246). -/
  | granError (src : GranSource)
  /-- The I2C sideband acknowledges or not (R449). -/
  | i2cAck (ok : Bool)
  /-- Bytes of an I2C read (R449). -/
  | i2cBytes (bytes : List Byte)
  deriving DecidableEq, Repr

/-- The module. -/
structure State where
  /-- Commands waiting, first in first out. -/
  pending   : List Instr := []
  /-- The model's own count of real time since the always-on island powered up, ns (log entry 2). -/
  now       : Nat := 0
  /-- Free values drawn so far (log entry 3). -/
  freeCount : Nat := 0
  /-- Everything that has left the module, newest last. -/
  out       : List Output := []
  /-- Memory by internal address (Table 14-1). -/
  mem       : Memory := []
  bench     : BenchBlock := {}
  tables    : List TableEntry := []
  time      : TimeBlock := {}
  clock     : ClockBlock := {}
  tally     : TallyBlock := {}
  bell      : BellowsBlock := {}
  start     : StartBlock := {}
  side      : SideBlock := {}
  lane      : LaneBlock := {}
  fmt       : FormatBlock := {}
  parser    : Vector Parser 4 := Vector.replicate 4 {}
  obs       : Vector ObsSub 4 := Vector.replicate 4 {}
  sieve     : Vector SieveSub 4 := Vector.replicate 4 {}
  cellar    : Vector CellarSub 4 := Vector.replicate 4 {}
  front     : FrontBlock := {}
  loom      : Vector LoomSub 4 := Vector.replicate 4 {}
  ledger    : Vector LedgerSub 4 := Vector.replicate 4 {}
  beam      : Vector BeamSub 4 := Vector.replicate 4 {}
  tiles     : LoomBlock := {}
  gran      : Granary := {}
  move      : MoveBlock := {}
  /-- The counters whose advance a beat reports, as they stood at the last beat (R287). -/
  snap      : List (List (Option Nat)) := []
  deriving DecidableEq, Repr

/-- Why a step stops with a fault. -/
inductive Fault where
  /-- Raised by GRANARY_ACCESS of an address outside the Granary's logical space: no channel controller can be
  given such a request (R241). Safe: the model stops where the spec describes no access. -/
  | noAddress
  deriving DecidableEq, Repr

/-- Why a step is refused. -/
inductive Refusal where
  /-- A command whose meaning has not been written. Safe: nothing is claimed of it. -/
  | notModelled (mnemonic : String)
  deriving DecidableEq, Repr

/-- The module before the 48 V input is applied: DORMANT, every record at its cold-start value, the factory
image in store copy A, no command waiting. A POWER_UP starts it (R426). -/
def State.reset : State := {}

end Sys2Proof.Machine
end

