-- ==== Sys2Proof/Machine/Ops.lean ====
section
/-! DEFINITION. The named operations on the state that every block shares: output, free values, times,
benches, lanes, islands and modes. -/

namespace Sys2Proof.Machine

/-! ### Output and free values -/

/-- Something leaves the module. -/
def State.emit (s : State) (o : Output) : State := { s with out := s.out ++ [o] }

/-- Several things leave the module in order. -/
def State.emits (s : State) (os : List Output) : State := { s with out := s.out ++ os }

/-- A free 32-bit value (log entry 3). -/
def State.freeWord (s : State) : Word := Config.freeWord s.freeCount

/-- The state after a free value has been drawn. -/
def State.drawn (s : State) (n : Nat := 1) : State := { s with freeCount := s.freeCount + n }

/-! ### Times -/

/-- Units of 2^-16 ns in a second. -/
def sec16 : Nat := 1000000000 * 2 ^ 16

/-- Timekeeper time in units of 2^-16 ns: SEC, NS and FRAC (R280). -/
def State.time16 (s : State) : Nat := s.time.tk / 2 ^ 16

/-- The seconds of a time in 2^-16 ns. -/
def secOf (t : Nat) : Nat := t / sec16

/-- The nanoseconds of a time in 2^-16 ns. -/
def nsOf (t : Nat) : Nat := t % sec16 / 2 ^ 16

/-- The fraction of a time in 2^-16 ns. -/
def fracOf (t : Nat) : Nat := t % 2 ^ 16

/-- A time from its three parts. -/
def time16Of (sec ns frac : Nat) : Nat := sec * sec16 + ns * 2 ^ 16 + frac

/-- The three words of a time (R337). -/
def timeWords (t : Nat) : List Word :=
  [BitVec.ofNat 32 (secOf t),
   putAt (BitVec.ofNat 16 (secOf t / 2 ^ 32)) 0 ||| putAt (BitVec.ofNat 16 (fracOf t)) 16,
   BitVec.ofNat 32 (nsOf t)]

/-- The Tally's monotonic millisecond count (R388). -/
def State.monoMs (s : State) : Nat := (s.now - s.tally.monoBase) / 1000000

/-! ### The parts of the state -/

/-- A change of one bench. -/
def State.onBench (s : State) (b : BenchId) (f : Bench → Bench) : State :=
  { s with bench := { s.bench with benches := vmod s.bench.benches b f } }

/-- A change of one bench's record. -/
def State.onBnch (s : State) (b : BenchId) (f : BnchStat → BnchStat) : State :=
  s.onBench b fun x => { x with stat := f x.stat }

/-- A bench. -/
def State.benchOf (s : State) (b : BenchId) : Bench := s.bench.benches[b]

/-- A change of one lane. -/
def State.onLane (s : State) (l : LaneId) (f : Lane → Lane) : State :=
  { s with lane := { s.lane with lanes := vmod s.lane.lanes l f } }

/-- A change of one lane's LANE_STAT. -/
def State.onLaneStat (s : State) (l : LaneId) (f : LaneStat → LaneStat) : State :=
  s.onLane l fun x => { x with stat := f x.stat }

/-- A change of one lane's counters. -/
def State.onLaneCnt (s : State) (l : LaneId) (f : LaneCnt → LaneCnt) : State :=
  s.onLane l fun x => { x with cnt := f x.cnt }

/-- A lane. -/
def State.laneOf (s : State) (l : LaneId) : Lane := s.lane.lanes[l]

/-- The octet of a lane (R23). -/
def octetOf (l : LaneId) : OctetId := ⟨l.val / 8, by omega⟩

/-- The position of a lane in its octet (R23). -/
def posOf (l : LaneId) : Nat := l.val % 8

/-- Lane `n` of an octet. -/
def laneAt (o : OctetId) (n : Fin 8) : LaneId := ⟨8 * o.val + n.val, by omega⟩

/-- A change of one octet. -/
def State.onOctet (s : State) (o : OctetId) (f : Octet → Octet) : State :=
  { s with lane := { s.lane with octets := vmod s.lane.octets o f } }

/-- An octet. -/
def State.octet (s : State) (o : OctetId) : Octet := s.lane.octets[o]

/-- The settings of a lane's octet. -/
def State.cfgOf (s : State) (l : LaneId) : LaneOctCfg := (s.octet (octetOf l)).cfg

/-- A change of one Tally source. -/
def State.onSource (s : State) (i : SourceId) (f : TallySource → TallySource) : State :=
  { s with tally := { s.tally with srcs := vmod s.tally.srcs i f } }

/-- A Tally source. -/
def State.source (s : State) (i : SourceId) : TallySource := s.tally.srcs[i]

/-- A change of one timer. -/
def State.onTimer (s : State) (t : TimerId) (f : Timer → Timer) : State :=
  { s with time := { s.time with timers := vmod s.time.timers t f } }

/-- A change of TIME_STAT. -/
def State.onTimeStat (s : State) (f : TimeStat → TimeStat) : State :=
  { s with time := { s.time with stat := f s.time.stat } }

/-- A change of CLKS_STAT. -/
def State.onClks (s : State) (f : ClksStat → ClksStat) : State :=
  { s with clock := { s.clock with stat := f s.clock.stat } }

/-- A change of BELL_STAT. -/
def State.onBellStat (s : State) (f : BellStat → BellStat) : State :=
  { s with bell := { s.bell with stat := f s.bell.stat } }

/-- A change of one island. -/
def State.onIsland (s : State) (i : IslandId) (f : Island → Island) : State :=
  { s with bell := { s.bell with islands := vmod s.bell.islands i f } }

/-- An island. -/
def State.island (s : State) (i : IslandId) : Island := s.bell.islands[i]

/-- An island is ON. -/
def State.islandOn (s : State) (i : IslandId) : Bool := (s.island i).state == 2

/-- A change of one parser. -/
def State.onParser (s : State) (i : SubId) (f : Parser → Parser) : State :=
  { s with parser := vmod s.parser i f }

/-- A change of one sub-array. -/
def State.onObs (s : State) (i : SubId) (f : ObsSub → ObsSub) : State :=
  { s with obs := vmod s.obs i f }

/-- A change of one sub-array's Sieve. -/
def State.onSieve (s : State) (i : SubId) (f : SieveSub → SieveSub) : State :=
  { s with sieve := vmod s.sieve i f }

/-- A change of one sub-array's Cellar. -/
def State.onCellar (s : State) (i : SubId) (f : CellarSub → CellarSub) : State :=
  { s with cellar := vmod s.cellar i f }

/-- A change of one sub-array's Loom. -/
def State.onLoom (s : State) (i : SubId) (f : LoomSub → LoomSub) : State := { s with loom := vmod s.loom i f }

/-- A change of one sub-array's LOOM_STAT. -/
def State.onLoomStat (s : State) (i : SubId) (f : LoomStat → LoomStat) : State :=
  s.onLoom i fun x => { x with stat := f x.stat }

/-- A change of one sub-array's Ledger. -/
def State.onLedger (s : State) (i : SubId) (f : LedgerSub → LedgerSub) : State := { s with ledger := vmod s.ledger i f }

/-- A change of one sub-array's LEDG_STAT. -/
def State.onLedgStat (s : State) (i : SubId) (f : LedgStat → LedgStat) : State :=
  s.onLedger i fun x => { x with stat := f x.stat }

/-- A change of one sub-array's beams. -/
def State.onBeam (s : State) (i : SubId) (f : BeamSub → BeamSub) : State := { s with beam := vmod s.beam i f }

/-- A change of one sub-array's LOOM_BEAM_STAT. -/
def State.onBeamStat (s : State) (i : SubId) (f : LoomBeamStat → LoomBeamStat) : State :=
  s.onBeam i fun x => { x with stat := f x.stat }

/-- A change of one physical tile. -/
def State.onTile (s : State) (t : TileId) (f : Tile → Tile) : State :=
  { s with tiles := { s.tiles with tiles := vmod s.tiles.tiles t f } }

/-- A change of one tile's LOOM_TILE. -/
def State.onTileReg (s : State) (t : TileId) (f : LoomTile → LoomTile) : State :=
  s.onTile t fun x => { x with reg := f x.reg }

/-- A physical tile. -/
def State.tile (s : State) (t : TileId) : Tile := s.tiles.tiles[t]

/-- A change of one engine. -/
def State.onEngine (s : State) (e : EngineId) (f : Engine → Engine) : State :=
  { s with front := { s.front with engines := vmod s.front.engines e f } }

/-- An engine. -/
def State.engine (s : State) (e : EngineId) : Engine := s.front.engines[e]

/-- A change of one sub-array's Assay. -/
def State.onAssay (s : State) (i : SubId) (f : AssaySub → AssaySub) : State :=
  { s with front := { s.front with assay := vmod s.front.assay i f } }

/-- A change of one sub-array's ASSY_STAT. -/
def State.onAssyStat (s : State) (i : SubId) (f : AssyStat → AssyStat) : State :=
  s.onAssay i fun x => { x with stat := f x.stat }

/-- A change of one sub-array's SIEV_STAT. -/
def State.onSievStat (s : State) (i : SubId) (f : SievStat → SievStat) : State :=
  s.onSieve i fun x => { x with stat := f x.stat }

/-- A change of one sub-array's CELL_STAT. -/
def State.onCellStat (s : State) (i : SubId) (f : CellStat → CellStat) : State :=
  s.onCellar i fun x => { x with stat := f x.stat }

/-- A change of one Granary channel. -/
def State.onChan (s : State) (c : ChanId) (f : GranChan → GranChan) : State :=
  { s with gran := { s.gran with chans := vmod s.gran.chans c f } }

/-- A change of one Granary channel's GRAN_STAT. -/
def State.onGranStat (s : State) (c : ChanId) (f : GranStat → GranStat) : State :=
  s.onChan c fun x => { x with stat := f x.stat }

/-- A change of the Exchange. -/
def State.onExch (s : State) (f : Exchange → Exchange) : State := { s with move := { s.move with exch := f s.move.exch } }

/-- A change of EXCH_STAT. -/
def State.onExchStat (s : State) (f : ExchStat → ExchStat) : State := s.onExch fun x => { x with stat := f x.stat }

/-- A change of one Drayman channel. -/
def State.onDray (s : State) (c : DrayId) (f : Dray → Dray) : State :=
  { s with move := { s.move with dray := vmod s.move.dray c f } }

/-- A change of one Drayman channel's record. -/
def State.onDrayReg (s : State) (c : DrayId) (f : DrayChan → DrayChan) : State :=
  s.onDray c fun x => { x with reg := f x.reg }

/-- The value of a schedule at an index: the last one scheduled whose start is at or before it. -/
def Sched.at' {α : Type} (x : Sched α) (n : Nat) (d : α) : α :=
  x.foldl (fun a e => if e.1 ≤ n then e.2 else a) d

/-! ### Sub-arrays (Table 13-9) -/

abbrev saFree : BitVec 4 := 0
abbrev saDefined : BitVec 4 := 1
abbrev saAlign : BitVec 4 := 2
abbrev saObserve : BitVec 4 := 3

/-- The state of a sub-array. -/
def State.saState (s : State) (i : SubId) : BitVec 4 := s.obs[i].state

/-- A sub-array is in ALIGN or OBSERVE. -/
def State.active (s : State) (i : SubId) : Bool := s.saState i == saAlign || s.saState i == saObserve

/-- The defined sub-arrays. -/
def State.defined (s : State) : List SubId := (allFin 4).filter fun i => s.saState i != saFree

/-- The input blocks of a sub-array, rising (BLOCK_MASK of CELL_CFG). -/
def State.blocks (s : State) (i : SubId) : List Nat := bitsOf 32 s.cellar[i].cfg.blockMask.toNat

/-- The number of coarse channels of a sub-array. -/
def State.coarse (s : State) (i : SubId) : Nat := s.sieve[i].cfg.coarseChannels.toNat

/-- The sub-array that owns an input block, when one does. -/
def State.blockOwner (s : State) (b : Nat) : Option SubId :=
  (allFin 4).find? fun i => s.saState i != saFree && s.cellar[i].cfg.blockMask.getLsbD b

/-- EPOCH of a sub-array in 2^-16 ns (R284). -/
def TimeEpoch.epoch16 (e : TimeEpoch) : Nat :=
  time16Of (e.epochSecLo.toNat + e.epochSecHi.toNat * 2 ^ 32) e.epochNs.toNat e.epochFrac.toNat

/-- PERIOD of a sub-array in 2^-32 ns (R284). -/
def TimeEpoch.period32 (e : TimeEpoch) : Nat := e.periodNs.toNat * 2 ^ 32 + e.periodFrac.toNat

/-- A number divided by `2 ^ 16` and rounded half to even. -/
def half16 (v : Nat) : Nat := (shrEven (Int.ofNat v) 16).toNat

/-- T(k), computed exactly and rounded half to even to 2^-16 ns (R284). -/
def TimeEpoch.timeOf (e : TimeEpoch) (k : Nat) : Nat := half16 (e.epoch16 * 2 ^ 16 + k * e.period32)

/-- The smallest `k` of which T(k) lies at or after a time in 2^-16 ns (R285, R94): T rises with `k`, and rounding
moves it by at most half a unit, so `k` is one of two neighbours. -/
def TimeEpoch.indexAt (e : TimeEpoch) (t : Nat) : Nat :=
  if t ≤ e.timeOf 0 then 0
  else
    let k := (t * 2 ^ 16 - e.epoch16 * 2 ^ 16 - 2 ^ 15) / e.period32
    if t ≤ e.timeOf k then k else if t ≤ e.timeOf (k + 1) then k + 1 else k + 2

/-! ### Modes (Table 16-8) -/

/-- The operating mode. -/
def State.mode (s : State) : BitVec 4 := s.bell.stat.mode

/-- The codes of the operating modes (Table 16-8). -/
abbrev modeDormant : BitVec 4 := 0
abbrev modeStandby : BitVec 4 := 1
abbrev modeProvision : BitVec 4 := 2
abbrev modeAlign : BitVec 4 := 3
abbrev modeObserve : BitVec 4 := 4
abbrev modeRide : BitVec 4 := 5
abbrev modeHold : BitVec 4 := 6
abbrev modeWorkshop : BitVec 4 := 7

/-- The inputs of a sub-array, by rising number: local block and row (R136). -/
def State.inputs (s : State) (i : SubId) : List Nat := (s.blocks i).flatMap fun b => (List.range 128).map fun a => 128 * b + a

/-- n_b, the blocks of a sub-array. -/
def State.nb (s : State) (i : SubId) : Nat := (s.blocks i).length

/-- The local number of a block in a sub-array (R136). -/
def State.localBlock (s : State) (i : SubId) (b : Nat) : Nat := ((s.blocks i).filter fun x => decide (x < b)).length

/-- The local number of an input: local block and row. -/
def State.localInput (s : State) (i : SubId) (input : Nat) : Nat := 128 * s.localBlock i (input / 128) + input % 128

/-- P, the length of the fine transform of a sub-array. -/
def State.fineLen (s : State) (i : SubId) : Nat := 2 ^ s.sieve[i].cfg.pLog2.toNat

/-- C_f, the fine channels of a sub-array. -/
def State.fineChans (s : State) (i : SubId) : Nat := s.cellar[i].cfg.fineChannels.toNat

/-- D_f, coarse samples per fine sample (Table 04-3). -/
def State.decim (s : State) (i : SubId) : Nat :=
  let c := s.sieve[i].cfg
  if c.firMode then (c.decimM1.toNat + 1) * 2 ^ c.pLog2.toNat else 2 ^ c.pLog2.toNat

/-- W_c, coarse samples in the window of a fine sample (Table 04-3). -/
def State.window (s : State) (i : SubId) : Nat :=
  let c := s.sieve[i].cfg
  let p := 2 ^ c.pLog2.toNat
  if c.firMode then (p - 1) * (c.decimM1.toNat + 1) + c.dtapsM1.toNat + 1 else c.taps.toNat * p

/-- k_s, the start index of a sub-array. -/
def State.ks (s : State) (i : SubId) : Nat := (s.parser[i].start).getD 0

/-- The timestamp of fine sample `n` of a sub-array, in 2^-16 ns (R98). -/
def State.fineTime (s : State) (i : SubId) (n : Nat) : Nat := s.obs[i].epoch.timeOf (s.ks i + n * s.decim i)

/-- The first fine sample whose timestamp is at or after a time in 2^-16 ns. -/
def State.fineAt (s : State) (i : SubId) (t : Nat) : Nat :=
  let k := s.obs[i].epoch.indexAt t
  (k - s.ks i + s.decim i - 1) / s.decim i

/-- The bytes of one stored fine sample (R136). -/
def State.sampleBytes (s : State) (i : SubId) : Nat := if s.cellar[i].cfg.format then 2 else 1

/-- RIDE and HOLD hold the Loom (R179). -/
def State.loomHeld (s : State) : Bool := s.mode == modeRide || s.mode == modeHold

end Sys2Proof.Machine
end

