-- ==== Sys2Proof/Machine/Flags.lean ====
section
/-! DEFINITION. Interrupt bits, bench datagrams, protocol errors, Tally events and the mode: the flags
every block sets (R317, R319, R321, R388 to R390, R421). -/

namespace Sys2Proof.Machine

/-! ### Where a bench lives (Table 12-1, R318) -/

/-- The PCI Express function of a bench. -/
def benchFunc (b : BenchId) : Option FuncId := if h : b.val < 2 then some ⟨b.val, h⟩ else none

/-- The management port of a bench. -/
def benchPort (b : BenchId) : Option PortId := if b.val < 2 then none else some ⟨b.val - 2, by omega⟩

/-- The bench of a function. -/
def funcBench (f : FuncId) : BenchId := ⟨f.val, by omega⟩

/-- The bench of a management port. -/
def portBench (p : PortId) : BenchId := ⟨p.val + 2, by omega⟩

/-! ### Bench datagrams (R319, R320) -/

/-- The header of a bench datagram (Table 12-6). -/
def dgramHeader (type bench slot words : Nat) (session : Word) (seq cmd : Nat) (offset aux : Word) : List Byte :=
  beBytes 2 0x5342 ++ [0x01, BitVec.ofNat 8 type, BitVec.ofNat 8 bench, BitVec.ofNat 8 slot] ++
  beBytes 2 words ++ beBytes 4 session.toNat ++ beBytes 8 seq ++ beBytes 2 cmd ++ [0, 0] ++
  beBytes 4 offset.toNat ++ beBytes 4 aux.toNat

/-- The tag: the first 16 bytes of HMAC-SHA-256 under the key of a slot (R320). -/
def State.tagOf (s : State) (slot : Fin 8) (msg : List Byte) : List Byte := (hmac256 s.bench.keys[slot] msg).take 16

/-- A bench datagram to the session's peer, with the module's next SEQ (R318, R320). A bench with no peer sends none. -/
def State.sendDatagram (s : State) (b : BenchId) (type cmd : Nat) (offset aux : Word) (payload : List Word) : State :=
  let x := s.benchOf b
  match benchPort b, x.peer with
  | some port, some peer =>
    let msg := dgramHeader type b.val x.stat.keySlot.toNat payload.length x.stat.sessionId (x.ownSeq + 1) cmd offset aux
      ++ payload.flatMap fun w => beBytes 4 w.toNat
    let slot : Fin 8 := ⟨x.stat.keySlot.toNat, x.stat.keySlot.isLt⟩
    (s.onBench b fun y => { y with ownSeq := y.ownSeq + 1 }).emit (.datagram port peer (msg ++ s.tagOf slot msg))
  | _, _ => s

/-! ### Interrupt bits (R317) -/

/-- The message of a vector, or its pending bit while the function may not send it (R308, R317): Bus Master
Enable clear, the vector masked, or the link down. -/
def State.sendMsix (s : State) (f : FuncId) (vec : Fin 16) : State :=
  let x := s.bench.funcs[f]
  if x.busMaster && !x.masked.getLsbD vec.val && (s.benchOf (funcBench f)).stat.linkUp then s.emit (.msix f vec)
  else { s with bench := { s.bench with funcs := vset s.bench.funcs f
                                          { x with pba := x.pba ||| (1 <<< vec.val : BitVec 16) } } }

/-- One NOTIFY datagram, counted where it is sent: a bench that knows no peer sends none. The next repeats 1 s later (R321, R329). -/
def State.notify (s : State) (b : BenchId) : State :=
  let t := s.sendDatagram b 0x07 0 0 (putAt (s.benchOf b).stat.irqStatus 0) []
  t.onBench b fun x =>
    { x with
      notifyAt := some (s.now + 1000000000)
      stat := { x.stat with notifySent := if x.peer.isSome then x.stat.notifySent + 1 else x.stat.notifySent } }

/-- An enabled bit of a bench is set: its message or its NOTIFY (R317, R321). -/
def State.announce (s : State) (b : BenchId) (n : Fin 6) : State :=
  match benchFunc b with
  | some f => s.sendMsix f ⟨n.val, by omega⟩
  | none => s.notify b

/-- The module sets an interrupt bit; its message leaves when the bit becomes set while enabled (R317). -/
def State.setIrq (s : State) (b : BenchId) (n : Fin 6) : State :=
  if (s.benchOf b).stat.irqStatus.getLsbD n.val then s
  else
    let t := s.onBnch b fun x => { x with irqStatus := x.irqStatus ||| (1 <<< n.val : BitVec 6) }
    if (s.benchOf b).stat.irqEnable.getLsbD n.val then t.announce b n else t

/-- The host clears interrupt bits by writing ones; pending messages of cleared bits are dropped, and NOTIFY
stops when no enabled bit is left (R317, R321). -/
def State.clearIrq (s : State) (b : BenchId) (ones : BitVec 6) : State :=
  let t := s.onBench b fun x =>
    let left := x.stat.irqStatus &&& ~~~ones
    { x with stat := { x.stat with irqStatus := left },
             notifyAt := if left &&& x.stat.irqEnable = 0 then none else x.notifyAt }
  match benchFunc b with
  | some f => { t with bench := { t.bench with funcs := vmod t.bench.funcs f fun x =>
                                   { x with pba := x.pba &&& ~~~(ones.setWidth 16) } } }
  | none => t

/-- A write of IRQ_ENABLE: each bit that becomes enabled while already set is announced (R317). -/
def State.writeIrqEnable (s : State) (b : BenchId) (v : BitVec 6) : State :=
  let x := s.benchOf b
  let t := s.onBench b fun y =>
    { y with stat := { y.stat with irqEnable := v },
             notifyAt := if y.stat.irqStatus &&& v = 0 then none else y.notifyAt }
  (allFin 6).foldl (fun u n =>
    if v.getLsbD n.val && !x.stat.irqEnable.getLsbD n.val && x.stat.irqStatus.getLsbD n.val then u.announce b n else u) t

/-- Interrupt bits of a bench (Table 12-5). -/
abbrev irqReply : Fin 6 := 0
abbrev irqTally : Fin 6 := 1
abbrev irqLeaseWarn : Fin 6 := 2
abbrev irqLeaseLapsed : Fin 6 := 3
abbrev irqMode : Fin 6 := 4
abbrev irqProto : Fin 6 := 5

/-- A protocol error is recorded (R311, R321, Table 12-12). -/
def State.protoError (s : State) (b : BenchId) (code : BitVec 8) : State :=
  (s.onBench b fun x => { x with protoSeen := true, stat := { x.stat with protoCode := code } }).setIrq b irqProto

/-! ### Leases (R325) -/

/-- A bench holds OBSERVATION of a sub-array. -/
def State.holdsObs (s : State) (b : BenchId) (i : SubId) : Bool := s.bench.obsHolder[i] == some b

/-- A bench holds OBSERVATION of some sub-array. -/
def State.holdsAnyObs (s : State) (b : BenchId) : Bool := (allFin 4).any fun i => s.holdsObs b i

/-- A bench holds TIME. -/
def State.holdsTime (s : State) (b : BenchId) : Bool := s.bench.timeHolder == some b

/-- A bench holds STORE. -/
def State.holdsStore (s : State) (b : BenchId) : Bool := s.bench.storeHolder == some b

/-- A bench holds WORKSHOP. -/
def State.holdsWork (s : State) (b : BenchId) : Bool := s.bench.workHolder == some b

/-- A bench holds any lease. -/
def State.holdsAny (s : State) (b : BenchId) : Bool :=
  s.holdsAnyObs b || (s.benchOf b).monitor || s.holdsTime b || s.holdsStore b || s.holdsWork b

/-! ### Tally events (R386 to R390) -/

/-- A bench is named by the LEASES of a source: bit c - 1 names class c of Table 12-8; the OBSERVATION bit names
the holder of the event's sub-array, or every holder (R390). -/
def State.named (s : State) (leases : BitVec 5) (sub : Option SubId) (b : BenchId) : Bool :=
  (leases.getLsbD 0 && (match sub with
    | some i => s.holdsObs b i
    | none => s.holdsAnyObs b)) ||
  (leases.getLsbD 1 && (s.benchOf b).monitor) || (leases.getLsbD 2 && s.holdsTime b) ||
  (leases.getLsbD 3 && s.holdsStore b) || (leases.getLsbD 4 && s.holdsWork b)

/-- The primary reaction's interrupts (R390). -/
def State.tallyIrqs (s : State) (leases : BitVec 5) (sub : Option SubId) : State :=
  (allFin 4).foldl (fun t b => if s.named leases sub b then t.setIrq b irqTally else t) s

/-- Events among the stamps within a window of `w` ms that ends at `m` (R388). -/
def inWindow (w : BitVec 16) (stamps : List Nat) (m : Nat) : Nat :=
  (stamps.filter fun k => decide (m - k < w.toNat)).length

/-- The THRESHOLD-th most recent event lies less than WINDOW_MS before the newest (R388). -/
def severeNow (c : TalyCfg) (stamps : List Nat) (m : Nat) : Bool := decide (c.threshold.toNat ≤ inWindow c.windowMs stamps m)

/-- A warm start's reset is in progress: the Foreman does not run yet (R399, steps 1 to 3 of the roll call). -/
def State.inReset (s : State) : Bool :=
  s.start.reg.kind && decide (1 ≤ s.start.reg.step.toNat ∧ s.start.reg.step.toNat ≤ 3)

/-- The primary reaction: a source becomes SEVERE (R390). -/
def TallySource.severe (y : TallySource) (m : Nat) : TallySource :=
  { y with reg := { y.reg with state := 2, severeSeen := true }, grace := some (m + y.cfg.graceMs.toNat) }

/-- A source below SEVERE takes a newest event: SEVERE with the primary reaction at its threshold, else ACTIVE (R388 to R390). -/
def State.judge (s : State) (i : SourceId) (y : TallySource) : State :=
  if y.cfg.enable && severeNow y.cfg y.stamps s.monoMs then (s.onSource i fun _ => y.severe s.monoMs).tallyIrqs y.cfg.leases y.sub
  else s.onSource i fun _ => { y with reg := { y.reg with state := 1 } }

/-- An event on a source: counted, stamped, and the primary reaction when the source becomes SEVERE (R388 to R390).
Events during a warm start's reset are not counted (R399). -/
def State.raise (s : State) (i : SourceId) (detail : Word) (sub : Option SubId := none) : State :=
  if s.inReset then s else
  let x := s.source i
  let m := s.monoMs
  let stamps := (m :: x.stamps).take 255
  let t16 := s.time16
  let reg := { x.reg with
    events := x.reg.events + 1, lastDetail := detail, lastSecLo := BitVec.ofNat 32 (secOf t16),
    lastSecHi := BitVec.ofNat 16 (secOf t16 / 2 ^ 32), lastNs := BitVec.ofNat 30 (nsOf t16) }
  let y := { x with stamps := stamps, sub := sub, reg := reg, window := x.cfg.windowMs }
  if 2 ≤ x.reg.state.toNat then s.onSource i fun _ => y else s.judge i y

/-- A source returns to QUIET: the grace timer stops, the steps and the stamps are forgotten (R391). -/
def TallySource.quieted (x : TallySource) (recovered : Bool) : TallySource :=
  { x with
    stamps := [], grace := none
    reg := { x.reg with state := 0, step := 0, held := false
                        recoveries := if recovered then satInc x.reg.recoveries else x.reg.recoveries } }

/-- A source clears. Events stamped in the same millisecond are counted after the clear: they start a new window (R391). -/
def State.clearTo (s : State) (i : SourceId) (recovered : Bool) : State :=
  let x := s.source i
  let y := x.quieted recovered
  match x.stamps.filter fun k => k == s.monoMs with
  | [] => s.onSource i fun _ => y
  | again => s.judge i { y with stamps := again }

/-- The Tally sources of Table 15-1 and Table 16-12 by name. -/
abbrev srcLaneRetrain : SourceId := 0x00
abbrev srcLaneFault : SourceId := 0x01
abbrev srcLaneTag : SourceId := 0x02
abbrev srcLaneFill : SourceId := 0x03
abbrev srcLaneElastic : SourceId := 0x04
abbrev srcIngressJump : SourceId := 0x05
abbrev srcEgressStall : SourceId := 0x06
abbrev srcSieveLate : SourceId := 0x10
abbrev srcDelayRange : SourceId := 0x11
abbrev srcDelayStale : SourceId := 0x12
abbrev srcSieveSat : SourceId := 0x13
abbrev srcMillFault : SourceId := 0x18
abbrev srcMillOverrun : SourceId := 0x19
abbrev srcMillSat : SourceId := 0x1A
abbrev srcAssayClip : SourceId := 0x1B
abbrev srcAssayQsat : SourceId := 0x1C
abbrev srcCellarOverrun : SourceId := 0x20
abbrev srcShelfEcc : SourceId := 0x21
abbrev srcCellarRmw : SourceId := 0x22
abbrev srcLoomCheck : SourceId := 0x28
abbrev srcTileFail : SourceId := 0x29
abbrev srcLoomSpare : SourceId := 0x2A
abbrev srcLoomCut : SourceId := 0x2B
abbrev srcLoomJobLost : SourceId := 0x2C
abbrev srcBeamJobLost : SourceId := 0x2D
abbrev srcBeamTurnOverrun : SourceId := 0x2E
abbrev srcBeamClip : SourceId := 0x2F
abbrev srcLedgerSat : SourceId := 0x30
abbrev srcLedgerCsat : SourceId := 0x31
abbrev srcLedgerEcc : SourceId := 0x32
abbrev srcLedgerCorr : SourceId := 0x33
abbrev srcGranFreeze : SourceId := 0x38
abbrev srcGranTrain : SourceId := 0x39
abbrev srcGranHot : SourceId := 0x3A
abbrev srcGranRetry : SourceId := 0x3B
abbrev srcClkDisq : SourceId := 0x40
abbrev srcClkSwitch : SourceId := 0x41
abbrev srcClkHoldover : SourceId := 0x42
abbrev srcClkDispute : SourceId := 0x43
abbrev srcTimeFreeRun : SourceId := 0x44
abbrev srcBeatLate : SourceId := 0x45
abbrev srcBeatSlip : SourceId := 0x46
abbrev srcTimeCaptureOvf : SourceId := 0x47
abbrev srcTimerRefused : SourceId := 0x48
abbrev srcBenchLapse : SourceId := 0x50
abbrev srcBenchProto : SourceId := 0x51
abbrev srcBenchAuth : SourceId := 0x52
abbrev srcCmdInternal : SourceId := 0x53
abbrev srcExchError : SourceId := 0x58
abbrev srcExchLockBreak : SourceId := 0x59
abbrev srcExchMasterReset : SourceId := 0x5A
abbrev srcDrayError : SourceId := 0x5B
abbrev srcBaleCheck : SourceId := 0x5C
abbrev srcSupplySag : SourceId := 0x60
abbrev srcSupplySwell : SourceId := 0x61
abbrev srcSupplyDropout : SourceId := 0x62
abbrev srcSupplyLoss : SourceId := 0x63
abbrev srcSupplyTransient : SourceId := 0x64
abbrev srcBankLow : SourceId := 0x65
abbrev srcRailFault : SourceId := 0x66
abbrev srcRailSeq : SourceId := 0x67
abbrev srcThermalWarn : SourceId := 0x68
abbrev srcThermalCrit : SourceId := 0x69
abbrev srcIslandGate : SourceId := 0x6A
abbrev srcForemanWdog : SourceId := 0x70

/-- The source numbers that Table 15-1 and Table 16-12 assign (R386). -/
def assignedSource (n : Nat) : Bool :=
  decide (n ≤ 0x06) || (decide (0x10 ≤ n) && decide (n ≤ 0x13)) || (decide (0x18 ≤ n) && decide (n ≤ 0x1C)) ||
  (decide (0x20 ≤ n) && decide (n ≤ 0x22)) || (decide (0x28 ≤ n) && decide (n ≤ 0x33)) ||
  (decide (0x38 ≤ n) && decide (n ≤ 0x3B)) || (decide (0x40 ≤ n) && decide (n ≤ 0x48)) ||
  (decide (0x50 ≤ n) && decide (n ≤ 0x53)) || (decide (0x58 ≤ n) && decide (n ≤ 0x5C)) ||
  (decide (0x60 ≤ n) && decide (n ≤ 0x6A)) || decide (n = 0x70)

/-- The sources with a block reset (Table 15-1, Table 16-12). -/
def hasBlockReset (n : Nat) : Bool :=
  decide (n ≤ 0x04) || decide (n = 0x18) || decide (n = 0x28) || decide (n = 0x5B) || decide (n = 0x5C) ||
  decide (n = 0x67) || decide (n = 0x6A) || decide (n = 0x70)

/-! ### The mode (R421) -/

/-- HELD sources restart their grace timers when the module leaves HOLD (R396). -/
def State.releaseHeld (s : State) : State :=
  let m := s.monoMs
  { s with tally := { s.tally with srcs := s.tally.srcs.map fun x =>
      if x.reg.held then { x with reg := { x.reg with held := false }, grace := some (m + x.cfg.graceMs.toNat) } else x } }

/-- Near-end loopback ends on leaving WORKSHOP (Table 02-9). -/
def State.clearLoopback (s : State) : State :=
  { s with lane := { s.lane with octets := s.lane.octets.map fun o => { o with cfg := { o.cfg with loopback := false } } } }

/-- The mode changes: PREV_MODE is recorded and IRQ_STATUS.MODE set on every open bench (R421). -/
def State.setMode (s : State) (m : BitVec 4) : State :=
  if s.mode = m then s
  else
    let old := s.mode
    let t := s.onBellStat fun x => { x with mode := m, prevMode := old }
    let t := if old = modeHold then t.releaseHeld else t
    let t := if old = modeWorkshop then t.clearLoopback else t
    (allFin 4).foldl (fun u b => if (s.benchOf b).stat.isOpen then u.setIrq b irqMode else u) t

end Sys2Proof.Machine
end

