-- ==== Sys2Proof/Machine/Granary.lean ====
section
/-! DEFINITION. The Granary: mapping, inline check, serving requests, freezes, self-refresh, training and regions
(chapter 10). The shares of R249 are
bandwidth, and every request here is served in the instant of its row. -/

namespace Sys2Proof.Machine

/-! ### HOLD (Table 16-9) -/

/-- A request for HOLD: from any mode but DORMANT; an event being ridden goes on with RIDE_IN_HOLD. -/
def State.requestHold (s : State) : State :=
  if s.mode = modeDormant ∨ s.mode = modeHold then s
  else (s.onBellStat fun x => { x with rideInHold := s.bell.event.isSome }).setMode modeHold

/-! ### Mapping (R241, R242) -/

/-- The Granary's logical space. -/
def granBase : Nat := 0x20000000000
def granEnd : Nat := 0x3F000000000

/-- The page of a logical granule. -/
def pageOf (g : Nat) : Nat := g / 31

/-- Hashed bit k of a page number. -/
def hashBit (mask p : Nat) : Bool := popCount 30 (mask &&& p) % 2 == 1

/-- The eleven hashed bits of a page as a number: channel in bits 4 to 0, subchannel 6 to 5, bank 10 to 7. -/
def State.hashOf (s : State) (p : Nat) : Nat := maskOf 11 fun k => hashBit (s.gran.masks.getD k 0) p

/-- The channel that holds a page. -/
def State.chanOf (s : State) (p : Nat) : ChanId := ⟨s.hashOf p % 32, Nat.mod_lt _ (by decide)⟩

/-- A mask breaks R242. -/
def badMask (k m : Nat) : Bool := !m.testBit k || m % 2 ^ 11 != 2 ^ k || decide (2 ^ 30 ≤ m)

/-! ### The inline check (R244) -/

/-- CRC-16 with polynomial 0x8BB7, most significant bit first. -/
def crc16Step (c : BitVec 16) (b : Byte) : BitVec 16 :=
  (List.range 8).foldl (fun x _ => if x.getLsbD 15 then (x <<< 1) ^^^ 0x8BB7 else x <<< 1) (c ^^^ (b.setWidth 16 <<< 8))

/-- CRC-16 of bytes. -/
def crc16 (bs : List Byte) : BitVec 16 := bs.foldl crc16Step 0

/-- The check value of a data granule. -/
def granCheck (g : Nat) (data : List Byte) : BitVec 16 := crc16 (leBytes 8 g ++ data)

/-- The address of a logical granule. -/
def granAddr (g : Nat) : Nat := granBase + 64 * g

/-- The check granule of a page as its data stand: what R244 keeps current. -/
def State.checkGranule (s : State) (p : Nat) : List Byte :=
  let body := (List.range 31).flatMap fun q =>
    leBytes 2 (granCheck (31 * p + q) (s.mem.load (granAddr (31 * p + q)) 64)).toNat
  body ++ leBytes 2 (crc16 (leBytes 8 p ++ body)).toNat

/-! ### The check cache (R244) -/

/-- A page is touched: its check granule is fetched unless it is cached, and the 65th page is evicted, its check
granule written back when it has changed. -/
def GranChan.touch (c : GranChan) (p : Nat) (write : Bool) : GranChan :=
  let hit := c.cache.any fun e => e.1 == p
  let dirty := write || c.cache.any fun e => e.1 == p && e.2
  let all := (p, dirty) :: c.cache.filter fun e => e.1 != p
  let out := all.drop 64
  let back := (out.filter fun e => e.2).length
  { c with cache := all.take 64
           stat := { c.stat with
             checkAccesses := c.stat.checkAccesses + BitVec.ofNat 64 ((if hit then 0 else 1) + back) } }

/-- Every dirty check granule is written back. -/
def GranChan.writeBack (c : GranChan) : GranChan :=
  { c with
    cache := c.cache.map fun e => (e.1, false)
    stat := { c.stat with
      checkAccesses := c.stat.checkAccesses + BitVec.ofNat 64 (c.cache.filter fun e => e.2).length } }

/-! ### Channel states (Table 10-10) -/

abbrev gsOff : BitVec 3 := 0
abbrev gsTraining : BitVec 3 := 1
abbrev gsFilling : BitVec 3 := 2
abbrev gsActive : BitVec 3 := 3
abbrev gsSelf : BitVec 3 := 4
abbrev gsFrozen : BitVec 3 := 5
abbrev gsFault : BitVec 3 := 6

/-- A channel. -/
def State.chan (s : State) (c : ChanId) : GranChan := s.gran.chans[c]

/-- The Granary serves requests: every quadrant runs and no channel is in FAULT (R256). -/
def State.granServes (s : State) : Bool :=
  s.gran.chans.toList.all fun c => c.stat.state == gsActive || c.stat.state == gsSelf || c.stat.state == gsFrozen

/-- Automatic self-refresh is on and how long a channel must be idle for it, ns: 1 µs whatever AUTO_SR says while a
supply event is ridden (R252, R410). -/
def State.srIdleNs (s : State) : Option Nat :=
  if s.bell.event.isSome then some 1000
  else if s.gran.cfg.autoSr then some (s.gran.cfg.srIdleUs.toNat * 1000) else none

/-- How long a request waits for a channel in self-refresh that has been there for some time, ns (R253). -/
def srWait (since : Nat) : Nat := (15 - since) + 460

/-- A channel leaves self-refresh for a request. -/
def GranChan.exit (c : GranChan) (since : Nat) : GranChan :=
  { c with stat := { c.stat with state := gsActive, srWaitMax := BitVec.ofNat 16 (max c.stat.srWaitMax.toNat (srWait since)) } }

/-- A request reaches a channel: it leaves self-refresh, or abandons an entry whose SRE is not yet issued (R252, R253). -/
def State.reach (s : State) (c : ChanId) : State :=
  let now := s.now
  let idle := s.srIdleNs
  s.onChan c fun x =>
    let y :=
      if x.stat.state = gsSelf then x.exit (now - x.sreAt)
      else
        match idle with
        | some t =>
          if x.stat.state = gsActive ∧ x.lastReq + t ≤ now ∧ 0 < x.lastReq then
            { x.writeBack with stat := { x.writeBack.stat with srAbandoned := x.stat.srAbandoned + 1 } }
          else x
        | none => x
    { y with lastReq := now }

/-- A request to a frozen channel is completed with an error response (R246). -/
def State.reject (s : State) (c : ChanId) : State :=
  s.onGranStat c fun x => { x with frozenReject := x.frozenReject + 1 }

/-! ### Accesses of the module's own blocks -/

/-- One read of a granule: the bytes, or an error response (R246). -/
def State.granuleRead (s : State) (g : Nat) : State × Option (List Byte) :=
  let p := pageOf g
  let c := s.chanOf p
  if (s.chan c).stat.state = gsFrozen then (s.reject c, none)
  else
    let t := (s.reach c).onChan c fun x =>
      { x.touch p false with stat := { (x.touch p false).stat with reads := x.stat.reads + 1 } }
    (t, some (s.mem.load (granAddr g) 64))

/-- One write of bytes inside a granule: a partial write reads the granule first (R245). Answers false on an error response. -/
def State.granuleWrite (s : State) (g off : Nat) (data : List Byte) : State × Bool :=
  let p := pageOf g
  let c := s.chanOf p
  if (s.chan c).stat.state = gsFrozen then (s.reject c, false)
  else
    let whole := data.length == 64
    let t := (s.reach c).onChan c fun x =>
      let y := x.touch p true
      { y with stat := { y.stat with writes := y.stat.writes + 1, reads := if whole then y.stat.reads else y.stat.reads + 1 } }
    ({ t with mem := t.mem.store (granAddr g + off) data }, true)

/-- One write of the strobed bytes of a granule: one request, a partial write unless every byte is strobed (R245, R360). -/
def State.granuleStrobed (s : State) (g : Nat) (bs : List (Option Byte)) : State × Bool :=
  if bs.all Option.isNone then (s, true)
  else if bs.length = 64 ∧ bs.all Option.isSome then s.granuleWrite g 0 (bs.filterMap id)
  else
    let c := s.chanOf (pageOf g)
    if (s.chan c).stat.state = gsFrozen then (s.reject c, false)
    else
      let t := (s.reach c).onChan c fun x =>
        let y := x.touch (pageOf g) true
        { y with stat := { y.stat with writes := y.stat.writes + 1, reads := y.stat.reads + 1 } }
      ({ t with mem := bs.zipIdx.foldl (fun (m : Memory) e => match e.1 with
          | some b => m.store (granAddr g + e.2) [b]
          | none => m) t.mem }, true)

/-- The granules that a range of a logical address and a length meets: granule, first byte, bytes. -/
def granulesOf (a n : Nat) : List (Nat × Nat × Nat) :=
  let o := a - granBase
  (List.range ((o + n + 63) / 64 - o / 64)).map fun k =>
    let g := o / 64 + k
    let lo := max o (64 * g)
    (g, lo - 64 * g, min (o + n) (64 * g + 64) - lo)

/-- Bytes written to the Granary from a logical address on; false where some granule met a frozen channel. -/
def State.granWrite (s : State) (a : Nat) (data : List Byte) : State × Bool :=
  let o := a - granBase
  (granulesOf a data.length).foldl (fun r e =>
    let part := (data.drop (64 * e.1 + e.2.1 - o)).take e.2.2
    let w := r.1.granuleWrite e.1 e.2.1 part
    (w.1, r.2 && w.2)) (s, true)

/-- Bytes with their strobes written to the Granary, granule by granule. -/
def State.granStrobed (s : State) (a : Nat) (data : List (Option Byte)) : State × Bool :=
  let o := a - granBase
  (granulesOf a data.length).foldl (fun r e =>
    let part := (data.drop (64 * e.1 + e.2.1 - o)).take e.2.2
    let w := r.1.granuleStrobed e.1 (List.replicate e.2.1 none ++ part)
    (w.1, r.2 && w.2)) (s, true)

/-- Bytes read from the Granary; none where some granule met a frozen channel. -/
def State.granRead (s : State) (a n : Nat) : State × Option (List Byte) :=
  (granulesOf a n).foldl (fun r e =>
    let w := r.1.granuleRead e.1
    (w.1, match r.2, w.2 with
      | some bs, some d => some (bs ++ (d.drop e.2.1).take e.2.2)
      | _, _ => none)) (s, some [])

/-! ### Folds (R191, R194) -/

/-- The largest value of a part of a DRAM ledger entry. -/
def pin64 : Int := (2 : Int) ^ 63 - 1

/-- One part of the DRAM adder: saturation at ±(2^63 - 1), and a pinned part stays pinned. -/
def addPinned (a b : Int) : Int := if a = pin64 ∨ a = -pin64 then a else clampInt (-pin64) pin64 (a + b)

/-- The bytes of an entry (R196). -/
def entryBytes (v : Cplx) : List Byte := leBytes 8 (codeOf 64 v.1) ++ leBytes 8 (codeOf 64 v.2)

/-- An entry from its bytes. -/
def entryOf (bs : List Byte) : Cplx := (signedOf 64 (leAt bs 0 8), signedOf 64 (leAt bs 8 8))

/-- The entry that a fold leaves in memory, when it writes one (Table 08-2). -/
def foldResult (kind : FoldKind) (old v : Cplx) : Option Cplx :=
  match kind with
  | .store => some v
  | .add => some (addPinned old.1 v.1, addPinned old.2 v.2)
  | .swap => some v
  | .direct | .take | .flush => none

/-- A fold of the entries of one granule in one read and one write (R250). Answers the old entries; none on an error response. -/
def State.granuleFold (s : State) (g : Nat) (kind : FoldKind) (vs : List Cplx) : State × Option (List Cplx) :=
  let p := pageOf g
  let c := s.chanOf p
  if (s.chan c).stat.state = gsFrozen then (s.reject c, none)
  else
    let old := (List.range 4).map fun k => entryOf (s.mem.load (granAddr g + 16 * k) 16)
    let new := (List.range 4).filterMap fun k => foldResult kind (old.getD k (0, 0)) (vs.getD k (0, 0))
    let writes : Bool := new.length == 4
    let reads : Bool := kind != .store
    let t := (s.reach c).onChan c fun x =>
      let y := x.touch p writes
      { y with stat := { y.stat with writes := if writes then y.stat.writes + 1 else y.stat.writes
                                     reads := if reads then y.stat.reads + 1 else y.stat.reads } }
    (if writes then { t with mem := t.mem.store (granAddr g) (new.flatMap entryBytes) } else t, some old)

/-! ### Uncorrectable errors (R246) -/

/-- The row of a page is added to GRAN_REPAIR with AUTO, unless it is listed there (R247). A full list takes no more. -/
def State.listRow (s : State) (p : Nat) : State :=
  let h := s.hashOf p
  let r : RepairRow := ⟨BitVec.ofNat 5 h, BitVec.ofNat 2 (h / 32), BitVec.ofNat 4 (h / 128), 0, true, BitVec.ofNat 19 (p / 2048)⟩
  if (s.gran.repair.any fun x => x.chan == r.chan && x.sub == r.sub && x.bank == r.bank && x.row == r.row) ∨
      16 ≤ s.gran.repair.length then s
  else { s with gran := { s.gran with repair := s.gran.repair ++ [r] } }

/-- The channel of a granule freezes (R246, R247). -/
def State.freezeChan (s : State) (g : Nat) (src : GranSource) (op : BitVec 2) (rd : ReadOutcome) : State :=
  let p := pageOf g
  let h := s.hashOf p
  let c := s.chanOf p
  let f := s.gran.freeze
  let t16 := s.time16
  let source : BitVec 3 := match src with
    | .cellarWriter => 0 | .shelf => 1 | .ledgerFold => 2 | .beamEngine => 3 | .exchange => 4 | .internal => 5
  let granule : BitVec 5 := if rd.checkGranule then 31 else BitVec.ofNat 5 (g % 31)
  let rec' : GranFreeze :=
    { f with valid := true, warmKept := false, channel := BitVec.ofNat 5 h, subchannel := BitVec.ofNat 2 (h / 32)
             bank := BitVec.ofNat 4 (h / 128), granule := granule, source := source
             op := if rd.checkGranule then 3 else op, row := BitVec.ofNat 19 (p / 2048)
             logical := if rd.checkGranule then 0 else BitVec.ofNat 44 (granAddr g)
             storedCheck := rd.stored, computedCheck := rd.computed, diffBits := rd.diffBits
             secLo := BitVec.ofNat 32 (secOf t16), secHi := BitVec.ofNat 16 (secOf t16 / 2 ^ 32)
             ns := BitVec.ofNat 30 (nsOf t16) }
  let f' := if !f.valid || f.warmKept then rec' else f
  let f' := { f' with freezes := satInc f.freezes, frozenMask := f.frozenMask ||| (1 <<< c.val : BitVec 32) }
  let s := { s with gran := { s.gran with freeze := f' } }
  let s := s.onChan c fun x => { x.writeBack with stat := { x.writeBack.stat with state := gsFrozen } }
  let s := s.listRow p
  (s.raise srcGranFreeze (BitVec.ofNat 32 c.val)).requestHold

/-- A read that matched on its second or third try (R245). -/
def State.retried (s : State) (p : Nat) (n : Nat) : State :=
  let h := s.hashOf p
  s.onGranStat (s.chanOf p) fun x =>
    { x with retryOk := if n = 1 then x.retryOk + 1 else x.retryOk, retry2Ok := if n = 2 then x.retry2Ok + 1 else x.retry2Ok
             retrySeen := true
             lastRetry := BitVec.ofNat 25 (h / 32 % 4 + (h / 128) * 4 + p / 2048 * 64) }

/-- The reads of the data and check granule that a mismatch repeats (R245). -/
def State.reread (s : State) (c : ChanId) (n : Nat) : State :=
  s.onGranStat c fun x => { x with reads := x.reads + BitVec.ofNat 64 n, checkAccesses := x.checkAccesses + BitVec.ofNat 64 n }

/-- What a request finds of an outcome: a data granule that it does not read, or a check granule that is in the cache, has no
mismatch to show. -/
def State.fetched (s : State) (g : Nat) (data : Bool) (rd : ReadOutcome) : ReadOutcome :=
  let cached := (s.chan (s.chanOf (pageOf g))).cache.any fun e => e.1 == pageOf g
  if (if rd.checkGranule then !cached else data) then rd else { rd with mismatches := 0 }

/-- A verified read: its retries, or the freeze with an error response (R246); `after` is what follows when some read
matched. -/
def State.verified (s : State) (g : Nat) (src : GranSource) (op : BitVec 2) (rd : ReadOutcome)
    (after : State → State) : State :=
  let p := pageOf g
  let c := s.chanOf p
  let n := rd.mismatches.val
  if n = 0 then after s
  else if n = 3 then
    ((((s.reach c).onChan c fun x =>
      { x.touch p false with stat := { (x.touch p false).stat with reads := x.stat.reads + 1 } }).reread c 2).freezeChan g src op
        rd).emit (.granError src)
  else after ((s.reread c n).retried p n)

/-- The folds of a granule that one more joins: those of the last 64 ns, else new ones (R250). -/
def State.foldGroup (s : State) (g : Nat) : OpenFold :=
  match (s.chan (s.chanOf (pageOf g))).folds.find? fun f => f.granule == g with
  | some f => if s.now ≤ f.since + 64 then f else ⟨g, s.now, 0, true, false, false⟩
  | none => ⟨g, s.now, 0, true, false, false⟩

/-- A fold of an entry comes more than 64 ns after others of its granule that it would have completed. -/
def State.foldSplits (s : State) (g : Nat) (entry : Fin 4) : Bool :=
  (s.chan (s.chanOf (pageOf g))).folds.any fun f =>
    f.granule == g && decide (f.since + 64 < s.now) && !f.seen.getLsbD entry.val

/-- A fold of one entry arriving alone: it is combined with those to the same granule within 64 ns, in one read and one
write, and otherwise executed on its own (R250). The read of a granule whose four entries are STOREd is not made. -/
def State.foldOne (s : State) (g : Nat) (kind : FoldKind) (entry : Fin 4) (v : Cplx) : State :=
  let p := pageOf g
  let c := s.chanOf p
  let a := granAddr g + 16 * entry.val
  let old := entryOf (s.mem.load a 16)
  let new := foldResult kind old v
  let f := s.foldGroup g
  let split := s.foldSplits g entry
  let f' := { f with since := s.now, seen := f.seen ||| (1 <<< entry.val), stores := f.stores && kind == .store, read := true
                     wrote := f.wrote || new.isSome }
  let writes := !f.wrote && new.isSome
  let whole : Bool := f'.seen == 15
  let t := if !f.read || writes then s.reach c else s
  let t := t.onChan c fun x =>
    let y := if !f.read || writes then x.touch p writes else x
    { y with
      folds := (x.folds.filter fun e => e.granule != g) ++ if whole then [] else [f']
      stat := { y.stat with
        writes := y.stat.writes + if writes then 1 else 0
        reads := y.stat.reads + (if f.read then 0 else 1) - if whole && f'.stores then 1 else 0
        foldSplit := y.stat.foldSplit + if split then 1 else 0 } }
  match new with
  | some e => { t with mem := t.mem.store a (entryBytes e) }
  | none => t

/-- GRANARY_ACCESS (R241, R245, R246): a channel controller serves one request. A request to a frozen channel is
rejected with an error response; one that the Granary cannot serve waits, and the state stands. -/
def execGranaryAccess (src : GranSource) (op : GranOp) (addr : BitVec 44) (rd : ReadOutcome) (s : State) :
    Host.Outcome State Fault Refusal :=
  if addr.toNat < granBase ∨ granEnd ≤ addr.toNat then .fault .noAddress
  else
    let g := (addr.toNat - granBase) / 64
    let c := s.chanOf (pageOf g)
    .next (if !s.granServes then s
      else if (s.chan c).stat.state = gsFrozen then (s.reject c).emit (.granError src)
      else
        match op with
        | .read => s.verified g src 0 (s.fetched g true rd) fun t => (t.granuleRead g).1
        | .write data => s.verified g src 1 (s.fetched g false rd) fun t => (t.granuleWrite g 0 (bytesAt data 0 64)).1
        | .partialWrite off data =>
          s.verified g src 1 (s.fetched g true rd) fun t => (t.granuleWrite g off (data.take (64 - off))).1
        | .fold kind entry value =>
          if kind = .direct then s
          else s.verified g src 2 (s.fetched g (!(s.foldGroup g).read) rd) fun t => t.foldOne g kind entry value)

/-! ### Self-refresh (R252, R253) -/

/-- A channel enters self-refresh: dirty check granules are written back, then SRE is issued. A frozen one stays FROZEN. -/
def GranChan.enter (c : GranChan) (now : Nat) : GranChan :=
  let y := c.writeBack
  let shown := if c.stat.state = gsFrozen then gsFrozen else gsSelf
  { y with sreAt := now, stat := { y.stat with state := shown, srEntries := y.stat.srEntries + 1 } }

/-- SR_IDLE (R252): a channel that has been idle long enough enters self-refresh; a frozen channel never does. -/
def execSrIdle (c : ChanId) (s : State) : Host.Outcome State Fault Refusal :=
  let x := s.chan c
  .next (match s.srIdleNs with
    | some t => if x.stat.state = gsActive ∧ x.lastReq + t ≤ s.now then s.onChan c fun y => y.enter s.now else s
    | none => s)

/-- SR_EXIT (R253): a request arrives at a channel in self-refresh. -/
def execSrExit (c : ChanId) (sinceSreNs : Nat) (s : State) : Host.Outcome State Fault Refusal :=
  .next (if (s.chan c).stat.state = gsSelf then
      s.onChan c fun y => { y.exit sinceSreNs with lastReq := s.now }
    else s)

/-- The whole Granary enters self-refresh by a mode change or a start: the frozen channels too, which stay frozen (R253). -/
def State.granSelfRefresh (s : State) : State :=
  { s with gran := { s.gran with chans := s.gran.chans.map fun c =>
      if c.stat.state = gsActive ∨ c.stat.state = gsFrozen then c.enter s.now else c } }

/-- The whole Granary leaves self-refresh. -/
def State.granActive (s : State) : State :=
  { s with gran := { s.gran with chans := s.gran.chans.map fun c =>
      if c.stat.state = gsSelf then { c with lastReq := s.now, stat := { c.stat with state := gsActive } } else c } }

/-! ### Refresh and calibration (R251) -/

/-- REFRESH_RATE_READ (R251): the MR4 code and the temperature of a channel. A code of 12 or more asks for more
than twice the nominal rate (log entry 11). -/
def execRefreshRateRead (c : ChanId) (rate : BitVec 4) (temp : BitVec 16) (s : State) : Host.Outcome State Fault Refusal :=
  let hot := decide (12 ≤ rate.toNat)
  let t := s.onGranStat c fun x => { x with refreshRate := rate, temp := temp, hotSeen := x.hotSeen || hot }
  .next (if (s.chan c).stat.state = gsOff then s
    else if hot then t.raise srcGranHot (BitVec.ofNat 32 c.val) else t)

/-- ZQ_CALIBRATION (R251): calibration and tracking change no state that the spec gives the module. -/
def execZqCalibration (s : State) : Host.Outcome State Fault Refusal := .next s

/-! ### Training and zero-fill (R254 to R257) -/

/-- The channels of a quadrant. -/
def quadChans (q : Fin 4) : List ChanId := (allFin 8).map fun k => ⟨8 * q.val + k.val, by omega⟩

/-- The start in progress is a cold start. -/
def State.coldStart (s : State) : Bool := !s.start.reg.kind

/-- A channel ends its training (R254 to R256). -/
def State.trainChan (s : State) (c : ChanId) (failed : Bool) : State :=
  if (s.chan c).stat.state = gsTraining then
    if failed then
      (s.onGranStat c fun x => { x with state := gsFault }).raise srcGranTrain (BitVec.ofNat 32 c.val)
    else s.onChan c fun x =>
      { x with lastReq := s.now, stat := { x.stat with state := if s.coldStart then gsFilling else gsActive
                                                       trainFull := x.stat.trainFull || s.coldStart } }
  else s

/-- GRANARY_TRAINING_DONE (R254 to R256). -/
def execGranaryTrainingDone (q : Fin 4) (failed : BitVec 8) (s : State) : Host.Outcome State Fault Refusal :=
  .next ((quadChans q).foldl (fun t c => t.trainChan c (failed.getLsbD (c.val % 8))) s)

/-- The data of a quadrant's pages read zero (R257). The check granules follow by R244. -/
def State.zeroQuad (s : State) (q : Fin 4) : State :=
  { s with mem := s.mem.filter fun e =>
      !(decide (granBase ≤ e.1) && decide (e.1 < granEnd) &&
        decide ((s.chanOf (pageOf ((e.1 - granBase) / 64))).val / 8 = q.val)) }

/-- ZERO_FILL_DONE (R257). -/
def execZeroFillDone (q : Fin 4) (s : State) : Host.Outcome State Fault Refusal :=
  .next (if (quadChans q).any fun c => (s.chan c).stat.state == gsFilling then
      (quadChans q).foldl (fun t c =>
        if (t.chan c).stat.state = gsFilling then
          t.onChan c fun x => { x with cache := [], stat := { x.stat with state := gsActive } }
        else t) (s.zeroQuad q)
    else s)

/-- The whole Granary is zero-filled (R259). -/
def State.zeroGranary (s : State) : State := { s with mem := s.mem.zero granBase (granEnd - granBase) }

/-! ### Regions (R262 to R264) -/

/-- A size rounded up to a multiple of 2 MiB. -/
def up2M (n : Nat) : Nat := (n + 0x1FFFFF) / 0x200000 * 0x200000

/-- The free runs between regions, rising: base and length. -/
def freeRuns (rs : List Region) : List (Nat × Nat) :=
  (rs.foldl (fun (a : List (Nat × Nat) × Nat) r =>
    (if a.2 < r.base then a.1 ++ [(a.2, r.base - a.2)] else a.1, max a.2 (r.base + r.bytes))) ([], granBase)).1

/-- A region inserted by rising base. -/
def putRegion (rs : List Region) (r : Region) : List Region :=
  (rs.filter fun x => decide (x.base < r.base)) ++ [r] ++ rs.filter fun x => !decide (x.base < r.base)

/-- First-fit from the bottom. -/
def firstFit (rs : List Region) (n : Nat) : Option Nat := ((freeRuns rs).find? fun e => decide (n ≤ e.2)).map fun e => e.1

/-- Highest-fit below SCRATCH. -/
def highFit (rs : List Region) (n : Nat) : Option Nat :=
  ((freeRuns rs).reverse.find? fun e => decide (n ≤ e.2)).map fun e => e.1 + e.2 - n

/-- A region of a kind of a sub-array. -/
def State.region (s : State) (kind : Nat) (i : SubId) : Option Region :=
  s.gran.regions.find? fun r => r.kind == kind && r.sub == i.val

/-- GRAN_MAP (R268). -/
def State.granMapWords (s : State) : List Word :=
  let rs := s.gran.regions.take 24
  let ws := rs.flatMap fun r =>
    [putAt (BitVec.ofNat 4 r.kind) 0 ||| putAt (BitVec.ofNat 2 r.sub) 4, BitVec.ofNat 32 r.base, BitVec.ofNat 32 (r.base / 2 ^ 32),
     BitVec.ofNat 32 r.bytes, BitVec.ofNat 32 (r.bytes / 2 ^ 32)]
  BitVec.ofNat 32 rs.length :: (ws ++ List.replicate (120 - ws.length) 0)

/-- GRAN_REPAIR (R269). -/
def State.repairWords (s : State) : List Word :=
  let ws := s.gran.repair.flatMap fun r =>
    [putAt r.chan 0 ||| putAt r.sub 5 ||| putAt r.bank 7 ||| putAt r.state 11 ||| bitAt r.auto 13, putAt r.row 0]
  BitVec.ofNat 32 s.gran.repair.length :: (ws ++ List.replicate (32 - ws.length) 0)

end Sys2Proof.Machine
end

