-- ==== Sys2Proof/Machine/Exchange.lean ====
section
/-! DEFINITION. The Exchange: address map, responses, locked sequences and the reset of a master (R358 to R369). -/

namespace Sys2Proof.Machine

/-! ### Address map (Table 14-1) -/

/-- Bases of the memories that have addresses of their own. -/
def foremanBase : Nat := 0x00020000000
def tableBase : Nat := 0x00100000000
def ledgerBase : Nat := 0x00200000000
def shelfBase : Nat := 0x00300000000
def scratchBase : Nat := 0x3EFC0000000
def scratchBytes : Nat := 0x40000000

/-- The target port of an address, and the address at which the target's memory is held in `mem`; the target of a
Granary address is the quadrant of its granule (R360). -/
def State.targetOf (s : State) (m : MasterId) (a : Nat) : Option (Nat × Nat) :=
  if a < 0x800000 then
    if s.move.exch.ctrl.remap then some (1, foremanBase + a) else if a < 0x40000 then some (0, a) else none
  else if 0x10000000 ≤ a ∧ a < 0x10040000 then some (0, a - 0x10000000)
  else if foremanBase ≤ a ∧ a < foremanBase + 0x800000 then some (1, a)
  else if tableBase ≤ a ∧ a < tableBase + 0x1000000 then some (2, a)
  else if ledgerBase ≤ a ∧ a < ledgerBase + 0xE000000 then some (3, a)
  else if shelfBase ≤ a ∧ a < shelfBase + 0x2000000 then some (4, a)
  else if 0x400000000 ≤ a ∧ a < 0x401000000 then some (5, a)
  else if 0xF00000000 ≤ a ∧ a < 0xF80000000 then if m.val = 7 then none else some (6, a)
  else if 0xF80000000 ≤ a ∧ a < 0x1000000000 then if m.val = 7 then none else some (7, a)
  else if granBase ≤ a ∧ a < granEnd then some (8 + (s.chanOf (pageOf ((a - granBase) / 64))).val / 8, a)
  else none

/-- The responses of Table 14-4. -/
abbrev respComplete : BitVec 2 := 0
abbrev respUnmapped : BitVec 2 := 1
abbrev respFault : BitVec 2 := 2
abbrev respLock : BitVec 2 := 3

/-- Bytes of which the spec gives no contents: a fresh free value each (log entry 3). -/
def State.freeBytes (s : State) (n : Nat) : State × List Byte :=
  (s.drawn n, (List.range n).map fun k => Config.freeByte (s.freeCount + k))

/-- A read at a target: its response and bytes. Boot ROM, egress staging and the blocks behind the bridges hold what
the spec does not give (R358). -/
def State.targetRead (s : State) (t a n : Nat) : State × BitVec 2 × List Byte :=
  if t = 0 then (s, respComplete, (List.range n).map fun k => (Config.readOpaque (a + k)).setWidth 8)
  else if t = 5 ∨ t = 6 ∨ t = 7 then
    let r := s.freeBytes n
    (r.1, respComplete, r.2)
  else if 8 ≤ t then
    if !s.granServes then (s, respFault, [])
    else
      match s.granRead a n with
      | (u, some bs) => (u, respComplete, bs)
      | (u, none) => (u, respFault, [])
  else (s, respComplete, s.mem.load a n)

/-- The runs of consecutive bytes whose strobes are on, each with its offset. -/
def strobed (data : List (Option Byte)) : List (Nat × List Byte) :=
  let r := data.foldl (fun (a : List (Nat × List Byte) × Nat × Option (Nat × List Byte)) b =>
    match b, a.2.2 with
    | some v, some (o, bs) => (a.1, a.2.1 + 1, some (o, bs ++ [v]))
    | some v, none => (a.1, a.2.1 + 1, some (a.2.1, [v]))
    | none, some e => (a.1 ++ [e], a.2.1 + 1, none)
    | none, none => (a.1, a.2.1 + 1, none)) ([], 0, none)
  match r.2.2 with
  | some e => r.1 ++ [e]
  | none => r.1

/-- A write at a target: its response. Boot ROM, egress staging and the blocks behind the bridges change nothing the
spec gives (log entry 15). -/
def State.targetWrite (s : State) (t a : Nat) (data : List (Option Byte)) : State × BitVec 2 :=
  if t = 0 ∨ t = 5 ∨ t = 6 ∨ t = 7 then (s, respComplete)
  else if 8 ≤ t then
    if !s.granServes then (s, respFault)
    else
      let r := s.granStrobed a data
      (r.1, if r.2 then respComplete else respFault)
  else ({ s with mem := (strobed data).foldl (fun m e => m.store (a + e.1) e.2) s.mem }, respComplete)

/-- A burst's end is counted: granted, bytes with strobes on, and a response other than COMPLETE (R362). -/
def State.countBurst (s : State) (m : MasterId) (a : Nat) (bytes : Nat) (granted : Bool) (code : BitVec 2) : State :=
  let s := s.onExch fun x =>
    { x with ports := vmod x.ports m fun p =>
        { p with bursts := if granted then p.bursts + 1 else p.bursts, bytes := p.bytes + BitVec.ofNat 64 bytes
                 errors := if code = respComplete then p.errors else p.errors + 1 } }
  if code = respComplete then s
  else s.onExchStat fun x =>
    { x with errSeen := true, unmapped := if code = respUnmapped then x.unmapped + 1 else x.unmapped
             targetFault := if code = respFault then x.targetFault + 1 else x.targetFault
             lockRefused := if code = respLock then x.lockRefused + 1 else x.lockRefused
             lastErrAddr := BitVec.ofNat 44 a, lastErrPort := BitVec.ofNat 4 m.val, lastErrResp := code }

/-- A target port grants a burst of a master port, whose turn comes last from then on (R361). -/
def State.took (s : State) (t : Nat) (m : MasterId) : State :=
  if h : t < 12 then s.onExch fun x => { x with turn := vset x.turn ⟨t, h⟩ m } else s

/-! ### Bridges (R365) -/

/-- The bridge at a target port. -/
def bridgeOf (t : Nat) : Option (Fin 2) := if t = 6 then some 0 else if t = 7 then some 1 else none

/-- A change of a bridge's downstream queue. -/
def State.onDown (s : State) (b : Fin 2) (f : List Burst → List Burst) : State :=
  s.onExch fun x => { x with down := vmod x.down b f }

/-- A request of a bridge's queue ends: it is counted and answered. A read of the blocks behind the bridge brings bytes that
the spec does not give. -/
def State.endBridged (s : State) (u : Burst) (code : BitVec 2) : State :=
  let r := if u.write ∨ code ≠ respComplete then (s, []) else s.freeBytes u.len
  let n := if code ≠ respComplete then 0 else if u.write then (u.data.filter Option.isSome).length else u.len
  (r.1.countBurst u.master u.addr.toNat n true code).emit (.response u.master code r.2)

/-- The bridge completes every request of its queue, in order. -/
def State.drainBridge (s : State) (b : Fin 2) : State :=
  (s.move.exch.down[b]).foldl (fun (t : State) u => t.endBridged u respComplete) (s.onDown b fun _ => [])

/-- What a port's next access comes after: the requests in the queue of the bridge that it reaches, and the port's own writes in a
queue (R364). -/
def State.drainFor (s : State) (m : MasterId) (target : Nat) : State :=
  (allFin 2).foldl (fun (t : State) b =>
    if bridgeOf target = some b ∨ (t.move.exch.down[b]).any (fun u => u.master == m && u.write) then t.drainBridge b else t) s

/-- A read burst of a port, within 1 KiB, its locks already settled. -/
def State.busRead (s : State) (m : MasterId) (a n : Nat) : State × BitVec 2 × List Byte :=
  match s.targetOf m a with
  | none => (s.countBurst m a 0 false respUnmapped, respUnmapped, [])
  | some (t, b) =>
    let r := ((s.drainFor m t).took t m).targetRead t b n
    (r.1.countBurst m a (if r.2.1 = respComplete then n else 0) true r.2.1, r.2.1, r.2.2)

/-- A write burst of a port, within 1 KiB, its locks already settled. -/
def State.busWrite (s : State) (m : MasterId) (a : Nat) (data : List (Option Byte)) : State × BitVec 2 :=
  match s.targetOf m a with
  | none => (s.countBurst m a 0 false respUnmapped, respUnmapped)
  | some (t, b) =>
    let r := ((s.drainFor m t).took t m).targetWrite t b data
    (r.1.countBurst m a (data.filter Option.isSome).length true r.2, r.2)

/-- A range split at every 1 KiB boundary: address and length (R360). -/
def kibPieces (a n : Nat) : List (Nat × Nat) :=
  if n = 0 then [] else
  (List.range ((a + n + 1023) / 1024 - a / 1024)).map fun k =>
    let lo := max a (1024 * (a / 1024 + k))
    (lo, min (a + n) (1024 * (a / 1024 + k) + 1024) - lo)

/-! ### Locked sequences (R367, R368) -/

/-- The lock of a target, when it has one. -/
def State.lockOn (s : State) (t : Nat) : Option ExchLock := s.move.exch.locks.find? fun l => l.target == t

/-- The lock of a master, when it holds one. -/
def State.lockOf (s : State) (m : MasterId) : Option ExchLock := s.move.exch.locks.find? fun l => l.owner == m

/-- EXCH_STAT.LOCK_OWNER and LOCK_TARGET: the lock held longest, or 15. -/
def State.showLock (s : State) : State :=
  let l := s.move.exch.locks.head?
  s.onExchStat fun x =>
    { x with lockOwner := match l with
               | some k => BitVec.ofNat 4 k.owner.val
               | none => 15
             lockTarget := match l with
               | some k => BitVec.ofNat 4 k.target
               | none => 15 }

/-- The bridge that a burst reaches. -/
def State.burstBridge (s : State) (u : Burst) : Option (Fin 2) :=
  (s.targetOf u.master u.addr.toNat).bind fun t => bridgeOf t.1

/-- The pieces of a burst, split at every 1 KiB boundary (R360). -/
def burstPieces (u : Burst) : List Burst :=
  (kibPieces u.addr.toNat (if u.write then u.data.length else u.len)).map fun e =>
    { u with addr := BitVec.ofNat 44 e.1, len := if u.write then u.len else e.2
             data := if u.write then (u.data.drop (e.1 - u.addr.toNat)).take e.2 else u.data, lock := .none }

/-- One burst is served: split at 1 KiB, each piece with its response. A bridge takes the pieces into its queue (R365), and
answers them later. -/
def State.serveBurst (s : State) (u : Burst) : State :=
  match s.burstBridge u with
  | some b => (s.took (6 + b.val) u.master).onDown b fun q => q ++ burstPieces u
  | none =>
    if u.write then
      (kibPieces u.addr.toNat u.data.length).foldl (fun t e =>
        let r := t.busWrite u.master e.1 ((u.data.drop (e.1 - u.addr.toNat)).take e.2)
        r.1.emit (.response u.master r.2 [])) s
    else
      (kibPieces u.addr.toNat u.len).foldl (fun t e =>
        let r := t.busRead u.master e.1 e.2
        r.1.emit (.response u.master r.2.1 (if r.2.1 = respComplete then r.2.2 else []))) s

/-- The targets that a burst reaches. -/
def State.burstTargets (s : State) (u : Burst) : List Nat :=
  let n := if u.write then u.data.length else u.len
  if granBase ≤ u.addr.toNat ∧ u.addr.toNat < granEnd then
    ((granulesOf u.addr.toNat n).map fun e => 8 + (s.chanOf (pageOf e.1)).val / 8).eraseDups
  else
    match s.targetOf u.master u.addr.toNat with
    | some t => [t.1]
    | none => []

/-- A burst must wait for another master's lock (R367). -/
def State.lockWait (s : State) (u : Burst) : Bool :=
  (s.burstTargets u).any fun t => match s.lockOn t with
    | some l => l.owner != u.master
    | none => false

/-- Another master's lock holds accesses of a port to some range: address and length (R367). -/
def State.lockedOut (s : State) (m : MasterId) (rs : List (Nat × Nat)) : Bool :=
  s.move.exch.locks.any fun l => l.owner != m && (rs.flatMap fun e => kibPieces e.1 e.2).any fun e =>
    (s.burstTargets ⟨m, false, BitVec.ofNat 44 e.1, e.2, [], .none⟩).contains l.target

/-- A burst must wait behind bursts of its own master (R364): behind a held write or one in the queue of another target's
bridge, which is not yet visible, and behind any held request to a target of its own. -/
def State.orderWait (s : State) (before : List HeldBurst) (u : Burst) : Bool :=
  (before.any fun h => h.burst.master == u.master && (h.burst.write || (s.burstTargets h.burst).any (s.burstTargets u).contains)) ||
    (allFin 2).any fun b => ((s.burstTargets u).any fun t => bridgeOf t != some b) &&
      (s.move.exch.down[b]).any fun v => v.master == u.master && v.write

/-- A bridge's queue has no place for a burst (R365). -/
def State.bridgeWait (s : State) (u : Burst) : Bool :=
  match s.burstBridge u with
  | some b => !(s.move.exch.down[b]).isEmpty && decide (8 < (s.move.exch.down[b]).length + (burstPieces u).length)
  | none => false

/-- A burst that arrives now must wait. -/
def State.mustWait (s : State) (u : Burst) : Bool := s.lockWait u || s.orderWait s.move.exch.held u || s.bridgeWait u

/-- Why a burst waits behind others. -/
def State.holdCause (s : State) (before : List HeldBurst) (u : Burst) : HoldCause :=
  if s.lockWait u then .lock else if s.orderWait before u then .order else .bridge

/-- A burst is held at its master port. -/
def State.holdBurst (s : State) (u : Burst) : State :=
  s.onExch fun x => { x with held := x.held ++ [⟨u, s.now, s.holdCause s.move.exch.held u⟩] }

/-- A refused LOCK or UNLOCK access. -/
def State.refuseLock (s : State) (u : Burst) : State :=
  (s.countBurst u.master u.addr.toNat 0 false respLock).emit (.response u.master respLock [])

/-- A master's lock is taken off its target. -/
def State.freeLock (s : State) (m : MasterId) : State :=
  (s.onExch fun x => { x with locks := x.locks.filter fun l => l.owner != m }).showLock

/-- A burst that waited is granted (R367, R368): a LOCK access takes its target, one to a target other than the master's own is
refused, an UNLOCK access ends the lock, and the access after a break is refused. -/
def State.grantBurst (s : State) (u : Burst) : State :=
  let m := u.master
  let target := (s.targetOf m u.addr.toNat).map fun e => e.1
  if u.lock ≠ .none ∧ s.move.exch.broken.contains m then
    (s.onExch fun x => { x with broken := x.broken.filter fun k => k != m }).refuseLock u
  else if u.lock = .lock then
    match target, s.lockOf m with
    | some t, some l => if l.target = t then s.serveBurst u else (s.freeLock m).refuseLock u
    | some t, none => ((s.onExch fun x => { x with locks := x.locks ++ [⟨m, t, s.now⟩] }).showLock).serveBurst u
    | none, _ => s.serveBurst u
  else if u.lock = .unlock ∧ (s.lockOf m).map (fun l => l.target) = target ∧ target.isSome then (s.serveBurst u).freeLock m
  else s.serveBurst u

/-- The held bursts that nothing holds any more, oldest first. -/
def State.grantable (s : State) : List HeldBurst → List HeldBurst → List HeldBurst
  | _, [] => []
  | before, h :: rest =>
    (if !s.lockWait h.burst && !s.orderWait before h.burst && !s.bridgeWait h.burst then [h] else []) ++ s.grantable (before ++ [h]) rest

/-- How many master ports come before a burst's own in its target's turn (R361); a burst to the Granary stands at the port of its
first granule. -/
def State.turnOf (s : State) (u : Burst) : Nat × Nat :=
  let t := (s.burstTargets u).head?.getD 12
  (t, if h : t < 12 then (u.master.val + 7 - s.move.exch.turn[t].val) % 8 else 0)

/-- The held burst that is granted next: at the target port of the oldest that can be granted, the master port whose turn it is
(R361). -/
def State.nextGrant (s : State) : Option HeldBurst :=
  let hs := (s.grantable [] s.move.exch.held).map fun h => (h, s.turnOf h.burst)
  match hs with
  | [] => none
  | e :: _ => ((hs.filter fun x => x.2.1 == e.2.1).foldl (fun (b : HeldBurst × Nat × Nat) x => if x.2.2 < b.2.2 then x else b) e).1

/-- The wait of a held burst is counted at its port up to now: ORDER_HOLD_US or LOCK_HOLD_US. -/
def State.countHold (s : State) (h : HeldBurst) : State :=
  let us := BitVec.ofNat 32 ((s.now - h.since) / 1000)
  s.onExch fun x => { x with ports := vmod x.ports h.burst.master fun p =>
    match h.cause with
    | .order => { p with orderHoldUs := p.orderHoldUs + us }
    | .lock => { p with lockHoldUs := p.lockHoldUs + us }
    | .bridge => p }

/-- Bursts that something else holds now wait for it from now on. -/
def State.settleHeld (s : State) : List HeldBurst → List HeldBurst → State
  | before, [] => s.onExch fun x => { x with held := before }
  | before, h :: rest =>
    let why := s.holdCause before h.burst
    if h.cause = why then s.settleHeld (before ++ [h]) rest
    else (s.countHold h).settleHeld (before ++ [{ h with since := s.now, cause := why }]) rest

/-- Bursts that nothing holds any more are granted; `n` bounds the passes. -/
def State.releaseHeldBursts : Nat → State → State
  | 0, s => s
  | n + 1, s =>
    match s.nextGrant with
    | none => s.settleHeld [] s.move.exch.held
    | some h => State.releaseHeldBursts n (((s.countHold h).onExch fun x => { x with held := x.held.erase h }).grantBurst h.burst)

/-- The upstream queue of bridge A has four requests (R365). -/
def State.upFull (s : State) : Bool := decide (4 ≤ (s.move.exch.held.filter fun h => h.burst.master.val == 7).length)

/-- Requests that wait for the upstream queue enter it while it has a place; `n` bounds the passes. -/
def State.feedUp : Nat → State → State
  | 0, s => s
  | n + 1, s =>
    match s.move.exch.upWait with
    | u :: rest =>
      if s.upFull then s
      else
        let t := (s.onExch fun x => { x with upWait := rest }).holdBurst u
        State.feedUp n (t.releaseHeldBursts t.move.exch.held.length)
    | [] => s

/-- Every burst that nothing holds any more proceeds. -/
def State.proceed (s : State) : State :=
  let t := s.releaseHeldBursts s.move.exch.held.length
  t.feedUp t.move.exch.upWait.length

/-- Time has passed at the bridges: they have completed the requests in their queues, and those that waited for a place, or for
their completion, proceed (DESIGN CHOICE, log entry 78). -/
def State.serveBridges (s : State) : State :=
  if (allFin 2).all fun b => (s.move.exch.down[b]).isEmpty then s
  else ((allFin 2).foldl (fun (t : State) b => t.drainBridge b) s).proceed

/-- A master's lock ends, and the requests it held proceed. -/
def State.dropLock (s : State) (m : MasterId) : State := (s.freeLock m).proceed

/-- A target that can be locked (R367). -/
def lockable (t : Nat) : Bool := t == 1 || t == 2 || decide (8 ≤ t)

/-- A LOCK access that is refused at once: from a port or to a target that has no locks, or beside the master's own lock. -/
def State.badLock (s : State) (u : Burst) (t : Nat) : Bool :=
  decide (4 ≤ u.master.val) || !lockable t || (match s.lockOf u.master with
    | some l => l.target != t
    | none => false)

/-- A burst that a master issues (R358 to R368): order between the bursts of this and other masters is the order of the
commands. -/
def State.burst (s : State) (u : Burst) : State :=
  let m := u.master
  let refused := u.lock = .lock ∧ ((s.targetOf m u.addr.toNat).map fun e => s.badLock u e.1) = some true
  if u.lock ≠ .none ∧ s.move.exch.broken.contains m then
    (s.onExch fun x => { x with broken := x.broken.filter fun k => k != m }).refuseLock u
  else if refused then
    if (s.lockOf m).isSome then (s.dropLock m).refuseLock u else s.refuseLock u
  else if u.master.val = 7 ∧ s.upFull then s.onExch fun x => { x with upWait := x.upWait ++ [u] }
  else if s.mustWait u then s.holdBurst u
  else
    let t := s.grantBurst u
    if u.lock = .unlock then t.proceed else t

/-- The 100 µs of a burst to a bridge have passed: where it stands in the queue it leaves it, and it ends with TARGET_FAULT. -/
def State.bridgeTimeout (s : State) (u : Burst) : State :=
  match s.burstBridge u with
  | some b =>
    let t := (s.onDown b fun q => q.erase { u with lock := .none }).endBridged u respFault
    if (s.move.exch.down[b]).contains { u with lock := .none } then t.proceed else t
  | none => s

/-- A lock still held 64 µs after its grant is broken (R368). -/
def State.breakLock (s : State) : State :=
  match s.move.exch.locks.find? fun l => decide (l.since + 64000 ≤ s.now) with
  | some l =>
    let t := s.onExch fun x => { x with broken := l.owner :: x.broken.filter fun k => k != l.owner }
    let t := t.onExchStat fun x => { x with lockBreaks := x.lockBreaks + 1, breakSeen := true }
    (t.dropLock l.owner).raise srcExchLockBreak (BitVec.ofNat 32 l.owner.val)
  | none => s

/-! ### Reset of a master (R369) -/

/-- A master is reset with a burst in flight of which so many beats had been sent, or with none. -/
def State.resetMaster (s : State) (m : MasterId) (inFlight : Option (Burst × Nat)) : State :=
  let s := match inFlight with
    | some (u, k) =>
      if u.write ∧ 64 * k < u.data.length then
        let t := (kibPieces u.addr.toNat (min (64 * k) u.data.length)).foldl (fun (t : State) (e : Nat × Nat) =>
          (t.busWrite m e.1 ((u.data.drop (e.1 - u.addr.toNat)).take e.2)).1) s
        if k = 0 then t else t.onExchStat fun x => { x with strobedOff := x.strobedOff + 1 }
      else if u.write then
        (kibPieces u.addr.toNat u.data.length).foldl (fun (t : State) (e : Nat × Nat) =>
          (t.busWrite m e.1 ((u.data.drop (e.1 - u.addr.toNat)).take e.2)).1) s
      else s
    | none => s
  let s := (allFin 2).foldl (fun (t : State) b => if (t.move.exch.down[b]).any fun v => v.master == m then t.drainBridge b else t) s
  let s := s.onExch fun x =>
    { x with upWait := x.upWait.filter (fun v => v.master != m), held := x.held.filter fun h => h.burst.master != m, broken := x.broken.filter fun k => k != m }
  let s := s.dropLock m
  let s := s.onExchStat fun x => { x with masterResets := x.masterResets + 1, resetSeen := true }
  s.raise srcExchMasterReset (BitVec.ofNat 32 m.val)

end Sys2Proof.Machine
end

