-- ==== Sys2Proof/Machine/Lanes.lean ====
section
/-! DEFINITION. The serial lanes and the link layer: block lock, frames, acknowledgement and replay, tap
training, bring-up, retraining, eye scan and the Ethernet personality (chapter 02). -/

namespace Sys2Proof.Machine

/-! ### Lane states (Table 02-11) -/

abbrev lsOff : BitVec 4 := 0
abbrev lsWait : BitVec 4 := 1
abbrev lsHunt : BitVec 4 := 2
abbrev lsTrain : BitVec 4 := 3
abbrev lsSync : BitVec 4 := 4
abbrev lsUp : BitVec 4 := 5
abbrev lsRetrain : BitVec 4 := 6
abbrev lsFault : BitVec 4 := 7

/-- The state of a lane. -/
def Lane.st (x : Lane) : BitVec 4 := x.stat.state

/-- The lane is UP, or hunts for at most 1 ms from UP (R36): frames, acknowledgements and replays go on (R41, R43). -/
def Lane.isUp (x : Lane) : Bool := x.st == lsUp || x.huntAt.isSome

/-- A lane with its state set and the step of Table 02-7 timed from `now`. -/
def Lane.enter (x : Lane) (st : BitVec 4) (now : Nat) : Lane :=
  { x with stat := { x.stat with state := st }, stepAt := now }

/-- The lane's octet has the Ethernet personality (R24). -/
def State.isEth (s : State) (l : LaneId) : Bool := (s.cfgOf l).pers

/-- The lane's octet is an egress octet (R24). -/
def State.isEgress (s : State) (l : LaneId) : Bool := (s.cfgOf l).dir

/-- The island of an octet (R418). -/
def octetIsland (o : OctetId) : IslandId := ⟨55 + o.val, by omega⟩

/-- The lane can run: its octet is powered and enabled and its LANE_EN bit is set (Table 02-7). -/
def State.laneCanRun (s : State) (l : LaneId) : Bool :=
  (s.cfgOf l).enable && s.islandOn (octetIsland (octetOf l)) && (s.cfgOf l).laneEn.getLsbD (posOf l)

/-- The first lane of the Ethernet port a lane belongs to, under its octet's layout (R58). -/
def State.portOf (s : State) (l : LaneId) : LaneId :=
  match (s.cfgOf l).ethLayout.toNat with
  | 0 => l
  | 1 => ⟨l.val / 2 * 2, by omega⟩
  | 2 => ⟨l.val / 4 * 4, by omega⟩
  | _ => ⟨l.val / 8 * 8, by omega⟩

/-- How many lanes an Ethernet port has under a layout (R58). -/
def portWidth (layout : BitVec 3) : Nat :=
  match layout.toNat with
  | 0 => 1
  | 1 => 2
  | 2 => 4
  | _ => 8

/-! ### Control blocks (Tables 02-2 and 02-3) -/

/-- A control block from its type byte and a field word. -/
def ctrlBlock (type : Nat) (fields : Nat) : BitVec 64 := BitVec.ofNat 64 (type + fields)

/-- An ACK block. -/
def ackBlock (seq : BitVec 12) : BitVec 64 := ctrlBlock 0x2D (seq.toNat <<< 8)

/-- A NAK block. -/
def nakBlock (seq : BitVec 12) : BitVec 64 := ctrlBlock 0x33 (seq.toNat <<< 8)

/-- A LINK block: lane tag, the SEQ expected next and the link state. -/
def linkBlock (tag : Nat) (next : BitVec 12) (st : Nat) : BitVec 64 :=
  ctrlBlock 0x4B (tag <<< 8 + next.toNat <<< 16 + st <<< 28)

/-- A TRAIN_REQ block. -/
def reqBlock (cm2 cm1 c1 preset : Nat) (done : Bool) (num : BitVec 8) : BitVec 64 :=
  ctrlBlock 0x55 (cm2 <<< 8 + cm1 <<< 10 + c1 <<< 12 + preset <<< 16 + (if done then 1 <<< 20 else 0) + num.toNat <<< 24)

/-- A TRAIN_STS block. -/
def stsBlock (cm2 cm1 c1 preset : Nat) (num : BitVec 8) : BitVec 64 :=
  ctrlBlock 0x66 (cm2 <<< 8 + cm1 <<< 10 + c1 <<< 12 + preset <<< 16 + num.toNat <<< 24)

/-- The SOF block of a frame that carries a packet (R33). -/
def sofBlock (seq : BitVec 12) (packet : List Byte) : BitVec 64 :=
  ctrlBlock 0x78 (seq.toNat <<< 8 + (packet.length / 8 - 1) <<< 20)

/-- The EOF block of a frame. -/
def eofBlock (seq : BitVec 12) (crc : Word) : BitVec 64 := ctrlBlock 0x87 (seq.toNat <<< 8 + crc.toNat <<< 32)

/-- The FILLER block. -/
def fillerBlock : BitVec 64 := ctrlBlock 0x99 0

/-- A field of a block payload. -/
def blkField (p : BitVec 64) (lo len : Nat) : Nat := (p.toNat >>> lo) % 2 ^ len

/-- The sequence number field shared by SOF, EOF, ACK and NAK. -/
def blkSeq (p : BitVec 64) : BitVec 12 := BitVec.ofNat 12 (blkField p 8 12)

/-- The eight bytes of a block payload, byte 0 first (R29). -/
def blkBytes (p : BitVec 64) : List Byte := leBytes 8 p.toNat

/-- The frame of a packet as blocks: SOF, the data blocks in byte order, EOF (R32, R33). -/
def frameBlocks (seq : BitVec 12) (packet : List Byte) (crc : Word) : List (BitVec 2 × BitVec 64) :=
  (2, sofBlock seq packet) ::
    ((List.range (packet.length / 8)).map fun k => (1, BitVec.ofNat 64 (leNat ((packet.drop (8 * k)).take 8)))) ++
    [(2, eofBlock seq crc)]

/-- The lane sends a control block on its transmit side. -/
def State.sendBlock (s : State) (l : LaneId) (p : BitVec 64) : State := s.emit (.laneBlock l p)

/-- The lane sends a LINK block with a link state (R51, R54). -/
def State.sendLink (s : State) (l : LaneId) (st : Nat) : State :=
  s.sendBlock l (linkBlock l.val (s.laneOf l).expect st)

/-! ### Eye scan (R54 to R56) -/

/-- A running scan ends with a STATUS code. -/
def Lane.abortScan (x : Lane) (code : BitVec 4) : Lane :=
  if x.eye.status = 1 then { x with eye := { x.eye with status := code }, eyeLeft := [] } else x

/-! ### Training and states (R50 to R54) -/

/-- What a lane forgets when it loses its place in the stream: lock, frame in progress, elastic buffer. A frame that has
ended waits for its action all the same (Table 02-4). -/
def Lane.unlocked (x : Lane) : Lane :=
  { x with
    stat := { x.stat with blockLock := false }, valid := 0, winLen := 0, winBad := 0, frame := none
    elastic := [], rxSinceFill := 0, huntAt := none }

/-- Full training from WAIT_SIGNAL (R50, R53); an eye scan ends with `scan`. A pending NAK and the last ACK stay: only a
delivery ends the one (R40), and the other is repeated when the lane is UP again (R41). -/
def Lane.fullTrain (x : Lane) (now : Nat) (scan : BitVec 4) : Lane :=
  let y := (x.abortScan scan).unlocked
  { y with
    stat := { y.stat with state := lsWait, signal := false, tagOk := false }, stepAt := now, search := .idle
    waiting := false, peerDone := false, applied := none, peerReady := false, retrainAt := none, requests := 0
    badTimes := [] }

/-- A lane that is OFF (Table 02-11): nothing of its receiver is left. -/
def Lane.off (x : Lane) (scan : BitVec 4) : Lane :=
  let y := x.fullTrain 0 scan
  { y with stat := { y.stat with state := lsOff }, ended := none, nakPending := false, lastAck := none }

/-- Full training of one lane; a lane that cannot run goes to OFF. -/
def State.trainLane (s : State) (l : LaneId) (scan : BitVec 4 := 3) : State :=
  if s.laneCanRun l then s.onLane l fun x => x.fullTrain s.now scan else s.onLane l fun x => x.off scan

/-- The taps of preset 1 in the layout of LANE_STAT, or zero on an Ethernet lane (R47, Table 02-10). -/
def presetOneTaps : BitVec 32 := 0x00400000

/-- A lane leaves OFF: its transmitter starts from preset 1 (R47, R50). -/
def State.startLane (s : State) (l : LaneId) (warm : Bool) (scan : BitVec 4 := 3) : State :=
  let eth := s.isEth l
  if s.laneCanRun l then s.onLane l fun x =>
    let y := x.fullTrain s.now scan
    { y with warm := warm
             stat := { y.stat with ownTaps := if eth then 0 else presetOneTaps
                                   peerTaps := if eth then 0 else y.stat.peerTaps } }
  else s.onLane l fun x => x.off scan

/-- All eight lanes of an octet start from OFF (R28, R50). -/
def State.startOctet (s : State) (o : OctetId) (warm : Bool) (scan : BitVec 4 := 3) : State :=
  (allFin 8).foldl (fun t n => t.startLane (laneAt o n) warm scan) s

/-- Full training of all eight lanes of an octet (Table 15-1). -/
def State.trainOctet (s : State) (o : OctetId) : State :=
  (allFin 8).foldl (fun t n => t.trainLane (laneAt o n)) s

/-- A lane of an octet is between WAIT_SIGNAL and SYNC. -/
def State.octetTrains (s : State) (o : OctetId) : Bool :=
  (allFin 8).any fun n => [lsWait, lsHunt, lsTrain, lsSync].contains (s.laneOf (laneAt o n)).st

/-- Every lane of an octet enters OFF. -/
def State.offOctet (s : State) (o : OctetId) (scan : BitVec 4) : State :=
  (allFin 8).foldl (fun t n => t.onLane (laneAt o n) fun x => x.off scan) s

/-- A lane enters RETRAIN (R53, R54). -/
def State.retrainLane (s : State) (l : LaneId) : State :=
  let t := s.onLane l fun x =>
    let y := (x.abortScan 3).unlocked
    { y with
      stat := { y.stat with state := lsRetrain, retrained := true, tagOk := false
                            retrains := satInc y.stat.retrains }
      stepAt := s.now, retrainAt := some s.now, requests := 0, badTimes := [], peerReady := false }
  (t.sendLink l 3).raise srcLaneRetrain (BitVec.ofNat 32 l.val)

/-- A lane enters FAULT (R53). -/
def State.faultLane (s : State) (l : LaneId) : State :=
  let t := s.onLane l fun x =>
    let y := (x.abortScan 3).unlocked
    { y with stat := { y.stat with state := lsFault }, faultAt := s.now, search := .idle, waiting := false
             retrainAt := none }
  t.raise srcLaneFault (BitVec.ofNat 32 l.val)

/-- A replay request more without a delivery; at REPLAY_LIMIT a lane that is UP retrains (R44, Table 02-8). -/
def State.replayRequest (s : State) (l : LaneId) : State :=
  let n := (s.laneOf l).requests + 1
  let t := s.onLane l fun x => { x with requests := n }
  if (s.laneOf l).isUp ∧ (s.cfgOf l).replayLimit.toNat ≤ n then t.retrainLane l else t

/-! ### Acknowledgement (R40, R41) -/

/-- The module sends an ACK. -/
def State.sendAck (s : State) (l : LaneId) (seq : BitVec 12) : State :=
  (s.onLane l fun x => { x with lastAck := some (ackBlock seq), ackAt := s.now }).sendBlock l (ackBlock seq)

/-- The module sends a NAK for the frame after E - 1, counts it, and keeps it pending (R40, R44). -/
def State.sendNak (s : State) (l : LaneId) : State :=
  let p := nakBlock ((s.laneOf l).expect - 1)
  let t := s.onLane l fun x =>
    { x with nakPending := true, lastAck := some p, ackAt := s.now, cnt := { x.cnt with nakSent := x.cnt.nakSent + 1 } }
  (t.sendBlock l p).replayRequest l

/-- A NAK unless one is pending (Table 02-4). -/
def State.nakOnce (s : State) (l : LaneId) : State := if (s.laneOf l).nakPending then s else s.sendNak l

/-- A frame that ended with CRC_ERR or FORM_ERR: more than ERR_LIMIT of them within one second retrain a lane that is UP
(Table 02-8). -/
def State.badFrame (s : State) (l : LaneId) : State :=
  let limit := (s.cfgOf l).errLimit.toNat
  let ts := (s.now :: (s.laneOf l).badTimes).take (limit + 1)
  let t := s.onLane l fun x => { x with badTimes := ts }
  if (s.laneOf l).isUp ∧ limit ≠ 0 ∧ limit < (ts.filter fun k => decide (s.now - k < 1000000000)).length then t.retrainLane l else t

/-- The packet of a delivered frame goes to the parser; only an ingress octet delivers (R25). -/
def State.deliver (s : State) (l : LaneId) (bytes : List Byte) (udp : Bool) : State :=
  if s.isEgress l then s
  else { s with lane := { s.lane with arrivals := s.lane.arrivals ++ [⟨l, bytes, udp⟩] } }

/-- The receiver's action at the end of a frame (Table 02-4, R51). LOST_FRAMES counts the serial difference modulo 4096,
also where the first SEQ after SYNC is not ahead of the last delivered one (log 6). -/
def State.frameEnded (s : State) (l : LaneId) (f : EndedFrame) : State :=
  let x := s.laneOf l
  let s := s.onLane l fun y => { y with ended := none }
  match f.how with
  | .crcWrong =>
    ((s.onLaneCnt l fun c => { c with crcErr := c.crcErr + 1 }).nakOnce l).badFrame l
  | .malformed =>
    ((s.onLaneCnt l fun c => { c with formErr := c.formErr + 1 }).nakOnce l).badFrame l
  | .good =>
    if x.fresh ∨ f.seq = x.expect then
      let lost : BitVec 32 := match x.fresh, x.lastSeq with
        | true, some q => (f.seq - q - 1).setWidth 32
        | _, _ => 0
      let t := s.onLane l fun y =>
        { y with
          expect := f.seq + 1, fresh := false, lastSeq := some f.seq, nakPending := false, requests := 0
          cnt := { y.cnt with rxFrames := y.cnt.rxFrames + 1, lostFrames := y.cnt.lostFrames + lost } }
      (t.sendAck l f.seq).deliver l f.packet false
    else if (x.expect - 1 - f.seq).toNat < 2048 then
      (s.onLaneCnt l fun c => { c with dupFrames := c.dupFrames + 1 }).sendAck l (x.expect - 1)
    else s.nakOnce l

/-- Acts on a frame end that is still waiting. -/
def State.settleFrame (s : State) (l : LaneId) : State :=
  match (s.laneOf l).ended with
  | some f => s.frameEnded l f
  | none => s

/-- A lane enters SYNC and sends READY (R51). A frame that had ended before has its action first, so that the first frame
after SYNC is one received after it. -/
def State.syncLane (s : State) (l : LaneId) : State :=
  ((s.settleFrame l).onLane l fun x =>
    { x.enter lsSync s.now with peerReady := false, tagRaised := false, fresh := true, search := .idle, waiting := false
    }).sendLink l 1

/-- 2048 consecutive blocks without a FILLER (R37, R64). -/
def State.fillGapSeen (s : State) (l : LaneId) : State :=
  (s.onLane l fun x =>
    { x with rxSinceFill := 0, stat := { x.stat with fillBad := true }, cnt := { x.cnt with fillGap := x.cnt.fillGap + 1 }
    }).raise srcLaneFill (BitVec.ofNat 32 l.val)

/-! ### Replay as transmitter (R42, R43) -/

/-- The bytes a frame's CRC covers (R34): SOF payload bytes 1 to 7, then the data blocks. -/
def frameCrc (seq : BitVec 12) (packet : List Byte) : Word :=
  crc32 ((blkBytes (sofBlock seq packet)).drop 1 ++ packet)

/-- A held frame is sent. -/
def State.sendFrame (s : State) (l : LaneId) (f : TxFrame) : State :=
  s.emit (.laneFrame l f.seq f.packet (frameCrc f.seq f.packet))

/-- Held frames are sent again in order and counted (R42, R43). -/
def State.replay (s : State) (l : LaneId) : State :=
  let h := (s.laneOf l).held
  let t := h.foldl (fun u f => u.sendFrame l f) s
  t.onLaneCnt l fun c => { c with txReplay := c.txReplay + BitVec.ofNat 32 h.length }

/-- The held frames after a sequence number at or after theirs releases them, and whether any was released (R42). -/
def heldAfter (held : List TxFrame) (seq : BitVec 12) : List TxFrame × Bool :=
  if held.any fun f => f.seq == seq then ((held.dropWhile fun f => f.seq != seq).drop 1, true) else (held, false)

/-- Frames up to a sequence number are released (R42). -/
def State.release (s : State) (l : LaneId) (seq : BitVec 12) : State :=
  let r := heldAfter (s.laneOf l).held seq
  if r.2 then s.onLane l fun x => { x with held := r.1, releaseAt := s.now, requests := 0 } else s

/-- A received ACK (R43). -/
def State.gotAck (s : State) (l : LaneId) (p : BitVec 64) : State := s.release l (blkSeq p)

/-- A received NAK: frames up to NAK_SEQ are released; on a lane that is UP those after it are replayed and the request
counts (R43, R44). Elsewhere frames wait for the replay after SYNC (R54). -/
def State.gotNak (s : State) (l : LaneId) (p : BitVec 64) : State :=
  let t := s.release l (blkSeq p)
  if (s.laneOf l).isUp then (t.replay l).replayRequest l else t

/-! ### LINK (R51) -/

/-- The EXPECT_TAG of a lane (Table 02-9). -/
def State.expectTag (s : State) (l : LaneId) : Nat :=
  let c := s.cfgOf l
  let n := posOf l
  if n < 4 then fieldOf c.expectTag0 (8 * n) 8 else fieldOf c.expectTag1 (8 * (n - 4)) 8

/-- A lane enters UP (R51): it sends LINK with UP, and held frames are replayed from the far end's NEXT_SEQ (R54). The
bring-up after a start ends here, so a later full training is not a warm one (log 6). -/
def State.upLane (s : State) (l : LaneId) (next : BitVec 12) : State :=
  let t := s.onLane l fun x =>
    let y := x.enter lsUp s.now
    { y with retrainAt := none, huntAt := none, requests := 0, releaseAt := s.now, warm := false, frame := none
             nextSeq := if y.held.isEmpty then next else y.nextSeq
             held := if y.held.any fun f => f.seq == next then y.held.dropWhile fun f => f.seq != next
                     else if next = y.nextSeq then [] else y.held }
  (t.sendLink l 2).replay l

/-- A received LINK block: the tag is recorded and checked, SYNC may end, RETRAIN_REQ retrains (R51, Table 02-8). -/
def State.gotLink (s : State) (l : LaneId) (p : BitVec 64) : State :=
  let tag := blkField p 8 8
  let next : BitVec 12 := BitVec.ofNat 12 (blkField p 16 12)
  let st := blkField p 28 2
  let want := s.expectTag l
  let ok := want = 0xFF ∨ want = tag
  let s := s.onLaneStat l fun x => { x with peerTag := BitVec.ofNat 8 tag, tagOk := decide ok }
  let x := s.laneOf l
  if x.st = lsSync then
    let s := if st = 1 ∨ st = 2 then s.onLane l fun y => { y with peerReady := true } else s
    if ok then
      if (s.laneOf l).peerReady then s.upLane l next else s
    else
      let s := s.onLaneStat l fun y => { y with tagBad := true }
      if x.tagRaised then s
      else (s.onLane l fun y => { y with tagRaised := true }).raise srcLaneTag (BitVec.ofNat 32 l.val)
  else if x.st = lsUp ∧ st = 3 then s.retrainLane l
  else s

/-! ### Tap training (R46 to R49, R52) -/

/-- The four taps: c(-2), c(-1), c(0), c(1). -/
abbrev Taps := Int × Int × Int × Int

/-- Taps from the layout of LANE_STAT (Table 02-10). -/
def tapsOf (w : BitVec 32) : Taps :=
  (signedOf 8 w.toNat, signedOf 8 (w.toNat >>> 8), signedOf 8 (w.toNat >>> 16), signedOf 8 (w.toNat >>> 24))

/-- Taps in the layout of LANE_STAT; c(0) is derived (R46). -/
def tapsWord (cm2 cm1 c1 : Int) : BitVec 32 :=
  let c0 := 64 - cm2.natAbs - cm1.natAbs - c1.natAbs
  BitVec.ofNat 32 (codeOf 8 cm2 + codeOf 8 cm1 <<< 8 + c0 <<< 16 + codeOf 8 c1 <<< 24)

/-- The taps of a preset (Table 02-6). -/
def presetTaps : Nat → BitVec 32
  | 1 => tapsWord 0 0 0
  | 2 => tapsWord 0 (-4) (-8)
  | 3 => tapsWord 0 (-8) (-12)
  | 4 => tapsWord 2 (-12) (-12)
  | 5 => tapsWord 4 (-16) (-12)
  | _ => tapsWord 0 0 0

/-- Taps inside the ranges of Table 02-5. -/
def tapsLegal (cm2 cm1 c1 : Int) : Bool :=
  decide (0 ≤ cm2 ∧ cm2 ≤ 8 ∧ -24 ≤ cm1 ∧ cm1 ≤ 0 ∧ -16 ≤ c1 ∧ c1 ≤ 0 ∧
    32 + cm2.natAbs + cm1.natAbs + c1.natAbs ≤ 64)

/-- What a request code adds to a tap: 0b01 INC, 0b10 DEC, else nothing (Table 02-3); the reserved 0b11 is taken as HOLD
(log 6). -/
def tapMove (code : Nat) : Int := if code = 1 then 1 else if code = 2 then -1 else 0

/-- One step of tap number `k` (0 c(-2), 1 c(-1), 2 c(1)) on taps: the taps after and the status (R47). -/
def stepTap (w : BitVec 32) (k : Nat) (code : Nat) : BitVec 32 × Nat :=
  let t := tapsOf w
  let d := tapMove code
  let cm2 := if k = 0 then t.1 + d else t.1
  let cm1 := if k = 1 then t.2.1 + d else t.2.1
  let c1 := if k = 2 then t.2.2.2 + d else t.2.2.2
  if d = 0 then (w, 0) else if tapsLegal cm2 cm1 c1 then (tapsWord cm2 cm1 c1, 1) else (w, 2)

/-- A received TRAIN_REQ: a new REQ_NUM is applied to the module's own transmitter and its status stored; a
repeated one is answered with the stored status (R47, R48). DONE with DONE sent ends TRAIN (R49). The spec leaves open,
and log 6 settles: PRESET 6 and 7 are no preset; steps of one request act in the order c(-2), c(-1), c(1); an applied preset
reports UPDATED for all three taps. -/
def State.gotTrainReq (s : State) (l : LaneId) (p : BitVec 64) : State :=
  let x := s.laneOf l
  if x.st ≠ lsTrain then s
  else
    let num : BitVec 8 := BitVec.ofNat 8 (blkField p 24 8)
    let preset := blkField p 16 3
    let s :=
      if x.applied = some num then s
      else if 1 ≤ preset ∧ preset ≤ 5 then
        s.onLane l fun y =>
          { y with applied := some num, sts := stsBlock 1 1 1 preset num
                   stat := { y.stat with ownTaps := presetTaps preset } }
      else
        let a := stepTap x.stat.ownTaps 0 (blkField p 8 2)
        let b := stepTap a.1 1 (blkField p 10 2)
        let c := stepTap b.1 2 (blkField p 12 2)
        s.onLane l fun y =>
          { y with applied := some num, sts := stsBlock a.2 b.2 c.2 0 num
                   stat := { y.stat with ownTaps := c.1 } }
    let s := s.sendBlock l (s.laneOf l).sts
    let s := if p.getLsbD 20 then s.onLane l fun y => { y with peerDone := true } else s
    if (s.laneOf l).peerDone ∧ (s.laneOf l).search = .done then s.syncLane l else s

/-- The module sends a new training request. -/
def State.sendReq (s : State) (l : LaneId) (mk : BitVec 8 → BitVec 64) (next : Search) : State :=
  let num := (s.laneOf l).reqNum + 1
  (s.onLane l fun x => { x with reqNum := num, req := mk num, reqAt := s.now, waiting := true, search := next }).sendBlock
    l (mk num)

/-- A request for one step of the tap number used by the search: 0 c(-1), 1 c(1), 2 c(-2) (R49). -/
def stepReq (tap : Fin 3) (inc : Bool) (num : BitVec 8) : BitVec 64 :=
  let code := if inc then 1 else 2
  match tap with
  | 0 => reqBlock 0 code 0 0 false num
  | 1 => reqBlock 0 0 code 0 false num
  | 2 => reqBlock code 0 0 0 false num

/-- The search sends DONE; with DONE received from the far end TRAIN ends (R49). DONE repeats the last REQ_NUM (log 6). -/
def State.searchDone (s : State) (l : LaneId) (metric : BitVec 16) : State :=
  let p := reqBlock 0 0 0 0 true (s.laneOf l).reqNum
  let t := (s.onLane l fun x =>
    { x with search := .done, req := p, waiting := false, stat := { x.stat with eyeMetric := metric } }).sendBlock l p
  if (t.laneOf l).peerDone then t.syncLane l else t

/-- The search goes on after one trial: the other direction, the next tap, or the end of a round (R49). -/
def State.searchNext (s : State) (l : LaneId) (tap : Fin 3) (inc : Bool) (round : Nat) (improved : Bool)
    (metric : BitVec 16) : State :=
  if inc then s.sendReq l (stepReq tap false) (.trying tap false metric.toNat round improved)
  else if h : tap.val < 2 then
    s.sendReq l (stepReq ⟨tap.val + 1, by omega⟩ true) (.trying ⟨tap.val + 1, by omega⟩ true metric.toNat round improved)
  else if !improved ∨ round + 1 = 64 ∨ (s.laneOf l).stepAt + 450000000 < s.now then s.searchDone l metric
  else s.sendReq l (stepReq 0 true) (.trying 0 true metric.toNat (round + 1) false)

/-- The stored taps and metric of a lane, when the unit area holds them (R52). -/
def State.storedTaps (s : State) (l : LaneId) : Option (BitVec 32 × BitVec 16) := s.start.area.taps[l.val]?

/-- The single steps from preset 1 to stored taps, as (tap of c(-2), c(-1), c(1), direction) (R52). -/
def stepsTo (w : BitVec 32) : List (Fin 3 × Bool) :=
  let t := tapsOf w
  List.replicate t.1.natAbs (0, decide (0 ≤ t.1)) ++ List.replicate t.2.1.natAbs (1, decide (0 ≤ t.2.1)) ++
    List.replicate t.2.2.2.natAbs (2, decide (0 ≤ t.2.2.2))

/-- The stored taps and metric that a lane trains from: on a warm start, with START_PRESET 0 (R52, Table 02-9). -/
def State.warmTaps (s : State) (l : LaneId) : Option (BitVec 32 × BitVec 16) :=
  if (s.cfgOf l).startPreset.toNat = 0 ∧ (s.laneOf l).warm then s.storedTaps l else none

/-- A PLF lane enters TRAIN, sends LINK with TRAINING and requests its first preset (R48, R49, R52). -/
def State.enterTrain (s : State) (l : LaneId) : State :=
  let c := s.cfgOf l
  let preset := if c.startPreset.toNat = 0 then 1 else c.startPreset.toNat
  let steps := match s.warmTaps l with
    | some t => stepsTo t.1
    | none => []
  let t := s.onLane l fun x =>
    let y := x.enter lsTrain s.now
    { y with peerDone := false, applied := none, stat := { y.stat with preset := BitVec.ofNat 3 preset } }
  (t.sendLink l 0).sendReq l (fun n => reqBlock 0 0 0 preset false n) (.presets steps)

/-- A warm bring-up skips the search rounds unless the metric falls more than 4 below the stored one (Table 02-7). -/
def State.skipSearch (s : State) (l : LaneId) (metric : BitVec 16) : Bool :=
  match s.warmTaps l with
  | some t => decide (t.2.toNat ≤ metric.toNat + 4)
  | none => false

/-- The tap of LANE_STAT that a search tap names. -/
def searchTap : Fin 3 → Nat
  | 0 => 1
  | 1 => 2
  | 2 => 0

/-- The status of one tap in a TRAIN_STS. -/
def stsOf (p : BitVec 64) (k : Nat) : Nat := blkField p (8 + 2 * k) 2

/-- The far transmitter's taps as a TRAIN_STS confirms them: the preset applied, or each step of the request that was
UPDATED (R61). -/
def confirmTaps (w : BitVec 32) (req sts : BitVec 64) : BitVec 32 :=
  let preset := blkField sts 16 3
  if 1 ≤ preset ∧ preset ≤ 5 then presetTaps preset
  else (List.range 3).foldl (fun v k => if stsOf sts k = 1 then (stepTap v k (blkField req (8 + 2 * k) 2)).1 else v) w

/-- A received TRAIN_STS for the current request: the far taps are confirmed and the search goes on (R48, R49). -/
def State.gotTrainSts (s : State) (l : LaneId) (p : BitVec 64) (metric : BitVec 16) : State :=
  let x := s.laneOf l
  if x.st ≠ lsTrain ∨ !x.waiting ∨ BitVec.ofNat 8 (blkField p 24 8) ≠ x.reqNum then s
  else
    let s := s.onLane l fun y =>
      { y with waiting := false, stat := { y.stat with peerTaps := confirmTaps y.stat.peerTaps x.req p } }
    match x.search with
    | .presets steps =>
      match steps with
      | (k, inc) :: rest =>
        let code := if inc then 1 else 2
        let mk (n : BitVec 8) : BitVec 64 := match k with
          | 0 => reqBlock code 0 0 0 false n
          | 1 => reqBlock 0 code 0 0 false n
          | 2 => reqBlock 0 0 code 0 false n
        s.sendReq l mk (.presets rest)
      | [] =>
        if s.skipSearch l metric then s.searchDone l metric
        else s.sendReq l (stepReq 0 true) (.trying 0 true metric.toNat 0 false)
    | .trying tap inc m0 round improved =>
      if stsOf p (searchTap tap) = 1 then
        if m0 + 2 ≤ metric.toNat then s.searchNext l tap inc round true metric
        else s.sendReq l (stepReq tap (!inc)) (.undoing tap inc round improved)
      else s.searchNext l tap inc round improved metric
    | .undoing tap inc round improved =>
      s.searchNext l tap inc round improved metric
    | .idle => s
    | .done => s

/-! ### Blocks (R29 to R38) -/

/-- The self-synchronising descrambler x^58 + x^39 + 1: payload bit 0 first (R29). -/
def descramble (st : BitVec 58) (p : BitVec 64) : BitVec 58 × BitVec 64 :=
  (List.range 64).foldl (fun a i =>
    let b := p.getLsbD i
    let o := b ^^ a.1.getLsbD 38 ^^ a.1.getLsbD 57
    ((a.1 <<< 1) ||| (if b then 1 else 0), a.2 ||| (if o then (1 : BitVec 64) <<< i else 0))) (st, 0)

/-- The packet of a frame's data blocks, which are kept newest first. -/
def RxFrame.packet (f : RxFrame) : List Byte := f.data.reverse.flatMap blkBytes

/-- The frame in progress ends. Its action (Table 02-4) waits for FRAME_END; in a lane that is not UP a frame is no frame
of the stream, and what it carried is absent (R28, R51). -/
def State.endFrame (s : State) (l : LaneId) (f : RxFrame) (how : FrameEnd) : State :=
  s.onLane l fun x => { x with frame := none, ended := if x.st = lsUp then some ⟨blkSeq f.sof, f.packet, how⟩ else x.ended }

/-- The frame in progress ends as malformed (R32, R38). -/
def State.breakFrame (s : State) (l : LaneId) : State :=
  match (s.laneOf l).frame with
  | some f => s.endFrame l f .malformed
  | none => s

/-- A TRAIN_STS that arrives as a block: the eye metric measured then is not among the row's operands, so it is a free
value (log 3). -/
def State.stsBlockSeen (s : State) (l : LaneId) (p : BitVec 64) : State :=
  if (s.laneOf l).st = lsTrain then s.drawn.gotTrainSts l p (s.freeWord.setWidth 16) else s

/-- A block outside any frame (R30, R32). -/
def State.blockOutside (s : State) (l : LaneId) (hdr : BitVec 2) (p : BitVec 64) : State :=
  if hdr = 1 then s.onLaneCnt l fun c => { c with unkCtrl := c.unkCtrl + 1 }
  else if hdr = 2 then
    match blkField p 0 8 with
    | 0x78 => s.onLane l fun x => { x with frame := some ⟨p, []⟩ }
    | 0x87 => s
    | 0x1E => s
    | 0x99 => s
    | 0x2D => s.gotAck l p
    | 0x33 => s.gotNak l p
    | 0x4B => s.gotLink l p
    | 0x55 => s.gotTrainReq l p
    | 0x66 => s.stsBlockSeen l p
    | _ => s.onLaneCnt l fun c => { c with unkCtrl := c.unkCtrl + 1 }
  else s

/-- The CRC of a frame in progress with its data complete (R34). -/
def RxFrame.crc (f : RxFrame) : Word := crc32 ((blkBytes f.sof).drop 1 ++ f.packet)

/-- One block read from the elastic buffer by the framer (R32). -/
def State.framer (s : State) (l : LaneId) (hdr : BitVec 2) (p : BitVec 64) : State :=
  let s := s.settleFrame l
  match (s.laneOf l).frame with
  | none => s.blockOutside l hdr p
  | some f =>
    let n := blkField f.sof 20 7 + 1
    if hdr = 1 ∧ f.data.length < n then s.onLane l fun x => { x with frame := some { f with data := p :: f.data } }
    else if hdr = 2 ∧ blkField p 0 8 = 0x87 ∧ blkSeq p = blkSeq f.sof ∧ f.data.length = n then
      let how := if BitVec.ofNat 32 (blkField p 32 32) = f.crc then FrameEnd.good else FrameEnd.crcWrong
      s.endFrame l f how
    else
      let s := (s.breakFrame l).settleFrame l
      s.blockOutside l hdr p

/-- `n` blocks are read from the elastic buffer with the module's own clock (R38). -/
def State.readBlocks (l : LaneId) : Nat → State → State
  | 0, s => s
  | n + 1, s =>
    match (s.laneOf l).elastic with
    | [] => s
    | (h, p) :: rest => State.readBlocks l n ((s.onLane l fun x => { x with elastic := rest }).framer l h p)

/-- A block is written into the elastic buffer; FILLER and IDLE are deleted before it (R38), so one inside a frame does not
break the frame (log 6). -/
def State.writeElastic (s : State) (l : LaneId) (hdr : BitVec 2) (p : BitVec 64) : State :=
  if hdr = 2 ∧ (blkField p 0 8 = 0x99 ∨ blkField p 0 8 = 0x1E) then s
  else if (s.laneOf l).elastic.length < 32 then s.onLane l fun x => { x with elastic := x.elastic ++ [(hdr, p)] }
  else
    ((s.onLaneCnt l fun c => { c with elasticOvf := c.elasticOvf + 1 }).breakFrame l).raise srcLaneElastic
      (BitVec.ofNat 32 l.val)

/-- Block lock is lost (R35): the lane hunts, from UP for at most 1 ms (R36). A retraining lane keeps retraining, also from
its SYNC (R53). -/
def State.loseLock (s : State) (l : LaneId) : State :=
  s.onLane l fun x =>
    let y := x.unlocked
    let up := decide (x.st = lsUp)
    let y := if up ∨ x.st = lsSync then y.abortScan 3 else y
    { y with
      stat := { y.stat with lockLost := true, state := if x.retrainAt.isSome then lsRetrain else lsHunt }
      cnt := { y.cnt with lockLoss := y.cnt.lockLoss + 1 }, huntAt := if up then some s.now else none
      stepAt := if x.retrainAt.isSome then x.stepAt else s.now }

/-- Block lock is gained: HUNT of the bring-up leads to TRAIN, a hunt from UP back to UP, RETRAIN to SYNC (R35, R36, R53). -/
def State.gainLock (s : State) (l : LaneId) : State :=
  let x := s.laneOf l
  let s := s.onLane l fun y =>
    { y with stat := { y.stat with blockLock := true }, valid := 0, winLen := 0, winBad := 0, rxSinceFill := 0 }
  if x.st = lsHunt then
    if x.huntAt.isSome then s.onLane l fun y => { y with stat := { y.stat with state := lsUp }, huntAt := none }
    else s.enterTrain l
  else if x.st = lsRetrain then s.syncLane l
  else s

/-- A 66-bit block, its payload `d` descrambled, on a PLF lane whose clock is recovered (R35 to R38). -/
def State.gotPlain (s : State) (l : LaneId) (hdr : BitVec 2) (d : BitVec 64) (reads : Nat) : State :=
  let s := if 2048 ≤ (s.laneOf l).rxSinceFill then s.fillGapSeen l else s
  let s := s.onLaneCnt l fun c => { c with rxBlocks := c.rxBlocks + 1 }
  let x := s.laneOf l
  let good := hdr = 1 ∨ hdr = 2
  if x.stat.blockLock then
    let bad := x.winBad + (if good then 0 else 1)
    let s := if good then s else s.onLaneCnt l fun c => { c with badHdr := c.badHdr + 1 }
    if bad = 16 then s.loseLock l
    else
      let wrap := x.winLen + 1 = 64
      let fill := hdr = 2 ∧ blkField d 0 8 = 0x99
      let s := s.onLane l fun y =>
        { y with winLen := if wrap then 0 else y.winLen + 1, winBad := if wrap then 0 else bad
                 rxSinceFill := if fill then 0 else y.rxSinceFill + 1 }
      State.readBlocks l reads (s.writeElastic l hdr d)
  else if good then
    if x.valid + 1 = 64 then s.gainLock l else s.onLane l fun y => { y with valid := y.valid + 1 }
  else s.onLane l fun y => { y with valid := 0 }

/-- A 66-bit block arrives as it stands on the lane: the receiver descrambles it (R29). -/
def State.gotBlock (s : State) (l : LaneId) (hdr : BitVec 2) (payload : BitVec 64) (reads : Nat) : State :=
  let d := descramble (s.laneOf l).descr payload
  (s.onLane l fun x => { x with descr := d.1 }).gotPlain l hdr d.2 reads

/-! ### Near-end loopback (Table 02-9) -/

/-- The blocks that an output puts on a lane. -/
def blocksOn (l : LaneId) : Output → List (BitVec 2 × BitVec 64)
  | .laneBlock k p => if k = l then [(2, p)] else []
  | .laneFrame k seq packet crc => if k = l then frameBlocks seq packet crc else []
  | _ => []

/-- The Ethernet frame that an output puts on a port. -/
def framesOn (l : LaneId) : Output → List (List Byte)
  | .ethFrame k frame => if k = l then [frame] else []
  | _ => []

/-- The octet of a lane is looped: its receivers hear its own transmitters and nothing of the far end. -/
def State.looped (s : State) (l : LaneId) : Bool := (s.cfgOf l).loopback

/-- What a lane has sent since its loopback began and its receiver has not yet taken. -/
def State.loopRest (s : State) (l : LaneId) {α : Type} (f : Output → List α) : List α :=
  ((s.out.drop (s.laneOf l).loopFrom).flatMap f).drop (s.laneOf l).loopGot

/-- The receiver takes one item of what its own transmitter sent. -/
def State.loopTook (s : State) (l : LaneId) : State := s.onLane l fun x => { x with loopGot := x.loopGot + 1 }

/-- A looped PLF lane receives the next block it sent itself, or an IDLE where it has sent no other (Table 02-2). -/
def State.gotLooped (s : State) (l : LaneId) (reads : Nat) : State :=
  match s.loopRest l (blocksOn l) with
  | b :: _ => (s.loopTook l).gotPlain l b.1 b.2 reads
  | [] => s.gotPlain l 2 0x1E reads

/-- A PLF lane's receiver runs: the clock is recovered and the lane is not OFF, waiting or in FAULT. -/
def State.plfRuns (s : State) (l : LaneId) : Bool :=
  !s.isEth l && (decide (2 ≤ (s.laneOf l).st.toNat) && decide ((s.laneOf l).st.toNat ≤ 6))

/-- A PLF lane's receiver runs and hears the far end. -/
def State.receiving (s : State) (l : LaneId) : Bool := s.plfRuns l && !s.looped l

/-- A PLF lane's transmitter runs: it does whenever the lane is not OFF (R39, R47; log 6). -/
def State.transmitting (s : State) (l : LaneId) : Bool := !s.isEth l && (s.laneOf l).st != lsOff

/-! ### The commands -/

/-- FRAME_END (R40). -/
def execFrameEnd (l : LaneId) (s : State) : Host.Outcome State Fault Refusal := .next (s.settleFrame l)

/-- ACK (R43): the frames held as egress transmitter are released. -/
def execAck (l : LaneId) (p : BitVec 64) (s : State) : Host.Outcome State Fault Refusal :=
  .next (if s.receiving l then s.gotAck l p else s)

/-- NAK (R43, R44). -/
def execNak (l : LaneId) (p : BitVec 64) (s : State) : Host.Outcome State Fault Refusal :=
  .next (if s.receiving l then s.gotNak l p else s)

/-- LINK (R51). -/
def execLink (l : LaneId) (p : BitVec 64) (s : State) : Host.Outcome State Fault Refusal :=
  .next (if s.receiving l then s.gotLink l p else s)

/-- TRAIN_REQ (R48). -/
def execTrainReq (l : LaneId) (p : BitVec 64) (s : State) : Host.Outcome State Fault Refusal :=
  .next (if s.receiving l then s.gotTrainReq l p else s)

/-- TRAIN_STS (R49). -/
def execTrainSts (l : LaneId) (p : BitVec 64) (metric : BitVec 16) (s : State) : Host.Outcome State Fault Refusal :=
  .next (if s.receiving l then s.gotTrainSts l p metric else s)

/-- TRAIN_REQ_RESEND (R48): no status within 10 µs. -/
def execTrainReqResend (l : LaneId) (s : State) : Host.Outcome State Fault Refusal :=
  let x := s.laneOf l
  .next (if x.st = lsTrain ∧ x.waiting ∧ x.reqAt + 10000 ≤ s.now then
    (s.onLane l fun y => { y with reqAt := s.now }).sendBlock l x.req else s)

/-- TRAIN_TIMEOUT (R49): 450 ms in TRAIN have passed. The eye metric at that end is no operand of the row: a free value
(log 3). -/
def execTrainTimeout (l : LaneId) (s : State) : Host.Outcome State Fault Refusal :=
  let x := s.laneOf l
  .next (if x.st = lsTrain ∧ !s.isEth l ∧ x.search ≠ .done ∧ x.stepAt + 450000000 < s.now then
    s.drawn.searchDone l (s.freeWord.setWidth 16) else s)

/-- ACK_REPEAT (R41): 1 µs since the last ACK or NAK. -/
def execAckRepeat (l : LaneId) (s : State) : Host.Outcome State Fault Refusal :=
  let x := s.laneOf l
  .next (if x.isUp ∧ !s.isEth l ∧ x.ackAt + 1000 ≤ s.now then
    match x.lastAck with
    | none => s
    | some p => if x.nakPending then s.sendNak l else (s.onLane l fun y => { y with ackAt := s.now }).sendBlock l p
    else s)

/-- REPLAY_TIMEOUT (R43): nothing released for 2 µs while frames are held. -/
def execReplayTimeout (l : LaneId) (s : State) : Host.Outcome State Fault Refusal :=
  let x := s.laneOf l
  .next (if x.isUp ∧ !s.isEth l ∧ !x.held.isEmpty ∧ x.releaseAt + 2000 ≤ s.now then
    (((s.onLane l fun y => { y with releaseAt := s.now, cnt := { y.cnt with replayTmo := y.cnt.replayTmo + 1 } }).replay l)
      ).replayRequest l else s)

/-- FILLER (R39): 1024 blocks of 66 bits at 106.25 Gb/s have been sent since the last one. -/
def execFiller (l : LaneId) (s : State) : Host.Outcome State Fault Refusal :=
  let x := s.laneOf l
  .next (if s.transmitting l ∧ 1024 * 66 * 100 ≤ (s.now - x.fillAt) * 10625 then
    (s.onLane l fun y => { y with fillAt := s.now }).sendBlock l fillerBlock else s)

/-- FILL_GAP (R37). -/
def execFillGap (l : LaneId) (s : State) : Host.Outcome State Fault Refusal :=
  .next (if s.plfRuns l ∧ 2048 ≤ (s.laneOf l).rxSinceFill then s.fillGapSeen l else s)

/-- BLOCK_RECEIVED (R35). On an Ethernet lane the transcoded blocks are only counted (Table 02-12). -/
def execBlockReceived (l : LaneId) (hdr : BitVec 2) (payload : BitVec 64) (reads : Nat) (s : State) :
    Host.Outcome State Fault Refusal :=
  .next (if s.receiving l then s.gotBlock l hdr payload reads
    else if s.plfRuns l then s.gotLooped l reads
    else if s.isEth l ∧ 2 ≤ (s.laneOf l).st.toNat then s.onLaneCnt l fun c => { c with rxBlocks := c.rxBlocks + 1 }
    else s)

/-- HUNT_TIMEOUT (R36). -/
def execHuntTimeout (l : LaneId) (s : State) : Host.Outcome State Fault Refusal :=
  .next (match (s.laneOf l).huntAt with
    | some t => if !s.isEth l ∧ t + 1000000 < s.now then s.retrainLane l else s
    | none => s)

/-- SIGNAL_DETECTED (R50). -/
def execSignalDetected (l : LaneId) (s : State) : Host.Outcome State Fault Refusal :=
  .next (if (s.laneOf l).st = lsWait then
    s.onLane l fun x => let y := x.enter lsHunt s.now; { y with stat := { y.stat with signal := true } } else s)

/-- The limit of a bring-up step in ns (Table 02-7). A SYNC held back by a wrong tag has none (R51), nor has
Ethernet training, which follows the standard's time-outs (R59). -/
def State.stepLimit (s : State) (l : LaneId) : Option Nat :=
  let x := s.laneOf l
  if x.st = lsWait then some 20000000
  else if x.st = lsHunt ∧ x.huntAt.isNone then some 50000000
  else if x.st = lsTrain ∧ !s.isEth l then
    some (if (s.warmTaps l).isSome then 60000000 else 500000000)
  else if x.st = lsSync ∧ x.retrainAt.isNone ∧ !x.tagRaised then some 1000000
  else none

/-- LANE_BRINGUP_TIMEOUT (R50). -/
def execLaneBringupTimeout (l : LaneId) (s : State) : Host.Outcome State Fault Refusal :=
  .next (match s.stepLimit l with
    | some d => if (s.laneOf l).stepAt + d < s.now then s.faultLane l else s
    | none => s)

/-- RETRAIN_TIMEOUT (R53). -/
def execRetrainTimeout (l : LaneId) (s : State) : Host.Outcome State Fault Refusal :=
  .next (match (s.laneOf l).retrainAt with
    | some t => if t + 200000000 < s.now then s.trainLane l else s
    | none => s)

/-- LANE_FAULT_RETRY (R53). -/
def execLaneFaultRetry (l : LaneId) (s : State) : Host.Outcome State Fault Refusal :=
  let x := s.laneOf l
  .next (if x.st = lsFault ∧ x.faultAt + 10000000000 ≤ s.now then s.trainLane l else s)

/-- The run of zero-error points, in the units of the offsets (log 6), through the origin of one line of the scan: its extent, or 0xFFFF where the line
was not scanned (Table 02-13). Points are (offset, errors), offsets rising. -/
def openRun (pts : List (Int × Nat)) : BitVec 16 :=
  if pts.isEmpty then 0xFFFF
  else
    let up := (pts.filter fun p => decide (0 ≤ p.1)).takeWhile fun p => p.2 == 0
    let down := (pts.filter fun p => decide (p.1 ≤ 0)).reverse.takeWhile fun p => p.2 == 0
    match up.getLast?, down.getLast? with
    | some a, some b => BitVec.ofNat 16 (a.1 - b.1).natAbs
    | _, _ => 0

/-- The measured points as (H, V, errors). -/
def eyePoints (ws : List Word) : List (Int × Int × Nat) :=
  ws.map fun w => (signedOf 8 w.toNat, signedOf 8 (w.toNat >>> 8), w.toNat >>> 16)

/-- EYE_SCAN_POINT (R55, R63): an opening is known once its row or column has no point left. -/
def execEyeScanPoint (l : LaneId) (errors : Nat) (s : State) : Host.Outcome State Fault Refusal :=
  let x := s.laneOf l
  .next (match x.eye.status == 1, x.eyeLeft with
    | true, (h, v) :: rest =>
      let pts := x.eyePts ++ [BitVec.ofNat 32 (codeOf 8 h + codeOf 8 v <<< 8 + (min errors 65535) <<< 16)]
      let done := rest.isEmpty
      let e := eyePoints pts
      let row := if rest.any fun q => q.2 == 0 then x.eye.openH else openRun ((e.filter fun q => q.2.1 == 0).map fun q => (q.1, q.2.2))
      let col := if rest.any fun q => q.1 == 0 then x.eye.openV else openRun ((e.filter fun q => q.1 == 0).map fun q => (q.2.1, q.2.2))
      s.onLane l fun y =>
        { y with eyePts := pts, eyeLeft := rest
                 eye := { y.eye with
                   pointsDone := y.eye.pointsDone + 1, status := if done then 2 else 1
                   openH := row, openV := col } }
    | _, _ => s)

/-! ### Ethernet (R58, R59) -/

/-- An Ethernet lane goes UP. -/
def State.ethUp (s : State) (l : LaneId) : State :=
  s.onLane l fun x => { x.enter lsUp s.now with huntAt := none, warm := false }

/-- ETH_ALIGN_LOSS (R59). -/
def execEthAlignLoss (l : LaneId) (s : State) : Host.Outcome State Fault Refusal :=
  .next (if s.isEth l ∧ (s.laneOf l).st = lsUp then
    (s.onLane l fun x =>
      { x with stat := { x.stat with lockLost := true }, cnt := { x.cnt with lockLoss := x.cnt.lockLoss + 1 } }).trainLane l
    else s)

/-- ETH_PCS_ALIGNED (R59): on to standard training when ETH_TRAIN is set, else UP. -/
def execEthPcsAligned (l : LaneId) (s : State) : Host.Outcome State Fault Refusal :=
  .next (if s.isEth l ∧ (s.laneOf l).st = lsHunt then
    let t := s.onLaneStat l fun x => { x with blockLock := true }
    if (s.cfgOf l).ethTrain then t.onLane l fun x => x.enter lsTrain s.now else t.ethUp l
    else s)

/-- ETH_TRAIN_DONE (R59). -/
def execEthTrainDone (l : LaneId) (ok : Bool) (s : State) : Host.Outcome State Fault Refusal :=
  .next (if s.isEth l ∧ (s.laneOf l).st = lsTrain then (if ok then s.ethUp l else s.faultLane l) else s)

/-- A PAUSE or PFC frame: MAC control with opcode 0x0001 or 0x0101 (R58). -/
def isPause (frame : List Byte) : Bool :=
  decide (beAt frame 12 2 = 0x8808) && (decide (beAt frame 14 2 = 0x0001) || decide (beAt frame 14 2 = 0x0101))

/-- The FCS of an Ethernet frame is right: the CRC-32 of the bytes before it, least significant byte first. -/
def fcsOk (frame : List Byte) : Bool :=
  let body := frame.take (frame.length - 4)
  decide (leNat (frame.drop (frame.length - 4)) = (crc32 body).toNat)

/-- The FEC's counts: symbol errors on the lane, codewords on the port's first lane (Table 02-12). An uncorrectable codeword
counts in the word that PLF lanes use for FILL_GAP and raises no LANE_FILL (log 6). -/
def State.fecSeen (s : State) (l : LaneId) (fec : FecReport) : State :=
  (s.onLaneCnt l fun c => { c with badHdr := c.badHdr + BitVec.ofNat 32 fec.symErrors }).onLaneCnt (s.portOf l) fun c =>
    { c with unkCtrl := c.unkCtrl + BitVec.ofNat 32 fec.corrected, fillGap := c.fillGap + BitVec.ofNat 32 fec.uncorrectable }

/-- The lanes of the port whose first lane is `l`. -/
def State.portLanes (s : State) (l : LaneId) : List LaneId :=
  (List.range (portWidth (s.cfgOf l).ethLayout)).filterMap fun k =>
    if h : l.val + k < 128 then some ⟨l.val + k, h⟩ else none

/-- Every lane of a port is enabled: a disabled one takes the port down (Table 02-9). -/
def State.portEnabled (s : State) (l : LaneId) : Bool :=
  (s.portLanes l).all fun k => (s.cfgOf l).laneEn.getLsbD (posOf k)

/-- An Ethernet port receives: every lane is enabled and UP (R58, Table 02-9). -/
def State.ethPortRuns (s : State) (l : LaneId) : Bool :=
  s.portEnabled l && (s.portLanes l).all fun k => (s.laneOf k).st == lsUp

/-- A received frame other than PAUSE and PFC is counted in RX_DISCARD on an egress port (R58). -/
def State.ethDiscard (s : State) (l : LaneId) : State :=
  if s.isEgress l then s.onLaneCnt (s.portOf l) fun c => { c with dupFrames := c.dupFrames + 1 } else s

/-- A frame from an Ethernet port, its codewords correct (R58, Table 02-12). -/
def State.ethFrame (s : State) (l : LaneId) (frame : List Byte) : State :=
  let p := s.portOf l
  if frame.length < 64 ∨ 9216 < frame.length then (s.onLaneCnt p fun c => { c with formErr := c.formErr + 1 }).ethDiscard l
  else if !fcsOk frame then (s.onLaneCnt p fun c => { c with crcErr := c.crcErr + 1 }).ethDiscard l
  else
    let s := s.onLaneCnt p fun c => { c with rxFrames := c.rxFrames + 1 }
    if isPause frame then s.onLaneCnt p fun c => { c with nakSent := c.nakSent + 1 }
    else (s.ethDiscard l).deliver p frame true

/-- ETH_FRAME_RECEIVED (R58): counted on the port's first lane (Table 02-12); a codeword beyond correction marks its frame bad.
A looped port receives the next frame it sent itself, and nothing of the far end. -/
def execEthFrameReceived (l : LaneId) (frame : List Byte) (fec : FecReport) (s : State) : Host.Outcome State Fault Refusal :=
  let p := s.portOf l
  .next (if s.isEth l ∧ s.ethPortRuns p then
      (if s.looped l then
        match s.loopRest p (framesOn p) with
        | own :: _ => (s.loopTook p).ethFrame l own
        | [] => s
      else if fec.uncorrectable ≠ 0 then (s.fecSeen l fec).ethDiscard l
      else (s.fecSeen l fec).ethFrame l frame)
    else s)

/-- REMOTE_FAULT (R58): recorded on the port's first lane; the formatter reads it. A looped port hears none. -/
def execRemoteFault (l : LaneId) (on : Bool) (s : State) : Host.Outcome State Fault Refusal :=
  .next (if s.isEth l ∧ s.isEgress l ∧ !s.looped l then s.onLane (s.portOf l) fun x => { x with remoteFault := on } else s)

/-! ### Islands and octet changes (R27, R28, R419) -/

/-- A gating request: the latest one is the target; it starts at once unless the island is on its way (R419). -/
def State.askIsland (s : State) (i : IslandId) (on : Bool) : State :=
  s.onIsland i fun x =>
    if x.target = on then x
    else if x.state = 0 ∧ on then { x with target := on, state := 1, since := s.now, gated := false }
    else if x.state = 2 ∧ !on then { x with target := on, state := 3, since := s.now }
    else { x with target := on }

/-- One lane of an octet change: a frame that has ended has its action, no egress frame is held where the octet is no egress
PLF octet (Table 02-1), and the taps are those of the personality (Table 02-10). -/
def State.turnLane (s : State) (c : OctetChange) (l : LaneId) : State :=
  (s.settleFrame l).onLane l fun x =>
    { x with
      held := if c.enable && c.dir && !c.pers then x.held else []
      stat := { x.stat with ownTaps := if c.pers then 0 else presetOneTaps
                            peerTaps := if c.pers then 0 else x.stat.peerTaps } }

/-- An octet change starts (R28): the fields of Table 02-9 are written and every lane enters OFF; the lanes of an
enabled octet train from WAIT_SIGNAL, at once or when its island is up. -/
def State.applyOctet (s : State) (o : OctetId) (c : OctetChange) : State :=
  let t := ((allFin 8).foldl (fun (t : State) n => t.turnLane c (laneAt o n)) s).onOctet o fun x =>
    { x with change := none, cfg := { x.cfg with enable := c.enable, dir := c.dir, pers := c.pers, ethLayout := c.layout } }
  let t := (t.offOctet o 4).askIsland (octetIsland o) c.enable
  if c.enable then t.startOctet o false 4 else t

/-- A sub-array has reached a Loom span boundary, or is no longer concerned: the changes that waited for it alone start (R27). -/
def State.octetsPast (s : State) (i : SubId) : State :=
  (allFin 16).foldl (fun (t : State) o =>
    match (t.octet o).change with
    | some c =>
      let left := c.waits.filter fun j => j != i
      if left.isEmpty then t.applyOctet o c
      else t.onOctet o fun x => { x with change := some { c with waits := left } }
    | none => t) s

end Sys2Proof.Machine
end

