-- ==== Sys2Proof/Machine/Formats.lean ====
section
/-! DEFINITION. FMT tables, egress packets, routing, staging and sending (chapter 03, R65, R75 to R84). -/

namespace Sys2Proof.Machine

/-! ### FMT bodies (Tables 03-2 and 03-3). A fault is given as its byte offset from the start of the table. -/

/-- The byte offset of a body word: the body follows the 16-byte header. -/
def bodyAt (w : Nat) : Nat := 16 + 4 * w

/-- Word `k` of a body; words past the end read as zero. -/
def bw (body : List Word) (k : Nat) : Word := body.getD k 0

/-- An ingress FMT body (Table 03-3, R68). -/
def parseFmtIn (udp : Bool) (body : List Word) : Except Nat FmtIn :=
  let f : FmtIn :=
    { udp := udp, octetMask := (bw body 1).setWidth 16, sub := ⟨fieldOf (bw body 1) 16 2, by
        unfold fieldOf; exact Nat.mod_lt _ (by decide)⟩
      chanBase := fieldOf (bw body 2) 0 16, skew := fieldOf (bw body 2) 16 16
      inputs := fieldOf (bw body 3) 0 8, samples := fieldOf (bw body 3) 8 16, statusEvery := fieldOf (bw body 3) 24 8
      udpPort := fieldOf (bw body 4) 0 16, acceptMcast := flagOf (bw body 4) 16
      wireIpv6 := flagOf (bw body 4) 17, wireTagged := flagOf (bw body 4) 18 }
  if body.length ≠ 5 then .error (bodyAt (min body.length 5))
  else if f.skew < 256 ∨ 16384 < f.skew then .error (bodyAt 2)
  else if ¬ (f.inputs = 1 ∨ f.inputs = 2 ∨ f.inputs = 4 ∨ f.inputs = 8) ∨ f.samples = 0 then .error (bodyAt 3)
  else if !udp ∧ f.inputs * f.samples ≠ 500 then .error (bodyAt 3)
  else if udp ∧ 8192 < 24 + 2 * f.inputs * f.samples then .error (bodyAt 3)
  else .ok f

/-- An egress FMT body (Table 03-3, R75, R76). -/
def parseFmtOut (kind : Nat) (body : List Word) : Except Nat FmtOut :=
  let f : FmtOut :=
    { kind := kind, sub := ⟨fieldOf (bw body 1) 0 2, by unfold fieldOf; exact Nat.mod_lt _ (by decide)⟩
      destBase := fieldOf (bw body 1) 8 8, destCount := fieldOf (bw body 1) 16 8 + 1, destMode := fieldOf (bw body 1) 24 2
      payloadMax := fieldOf (bw body 2) 0 16, exact := flagOf (bw body 2) 16, sourceId := bw body 3
      dscp := fieldOf (bw body 4) 0 6, hops := fieldOf (bw body 4) 8 8
      countA := fieldOf (bw body 5) 0 16, countB := fieldOf (bw body 5) 16 16, beamQueue := fieldOf (bw body 6) 0 24 }
  let beam := kind = 3 ∨ kind = 4
  if body.length ≠ 7 then .error (bodyAt (min body.length 7))
  else if f.destMode = 3 ∨ (f.destMode = 2 ∧ ¬ beam) then .error (bodyAt 1)
  else if 256 < f.destBase + f.destCount then .error (bodyAt 1)
  else if f.payloadMax % 16 ≠ 0 ∨ f.payloadMax < 64 ∨ 8192 < f.payloadMax then .error (bodyAt 2)
  else if beam ∧ (f.countA = 0 ∨ f.countB = 0 ∨ f.payloadMax < f.countA * f.countB * (if kind = 3 then 2 else 4)) then
    .error (bodyAt 5)
  else if kind = 5 ∧ (f.countA = 0 ∨ f.countB ≠ 0 ∨ f.payloadMax < f.countA * 512) then .error (bodyAt 5)
  else if (kind = 2 ∨ kind = 7) ∧ (f.countA ≠ 0 ∨ f.countB ≠ 0) then .error (bodyAt 5)
  else .ok f

/-- An address table body: length, and a bucket depth of at least 9 KiB in every port entry (R75, Table 03-4). -/
def checkAddr (body : List Word) : Except Nat (List Word) :=
  if body.length ≠ 3073 then .error (bodyAt (min body.length 3073))
  else if fieldOf (bw body 0) 8 6 ≠ 0 then .error (bodyAt 0)
  else
    match (List.range 128).find? fun p => decide (fieldOf (bw body (8 + 8 * p)) 16 16 < 9) with
    | some p => .error (bodyAt (8 + 8 * p))
    | none => .ok (body.drop 1)

/-- The FMT table of a body of any kind but the address table. -/
def parseFmt (body : List Word) : Except Nat Fmt :=
  match fieldOf (bw body 0) 0 8 with
  | 0 => (parseFmtIn false body).map .ingress
  | 1 => (parseFmtIn true body).map .ingress
  | 2 => (parseFmtOut 2 body).map .egress
  | 3 => (parseFmtOut 3 body).map .egress
  | 4 => (parseFmtOut 4 body).map .egress
  | 5 => (parseFmtOut 5 body).map .egress
  | 7 => (parseFmtOut 7 body).map .egress
  | _ => .error (bodyAt 0)

/-- The sub-array a format serves. -/
def Fmt.sub : Fmt → SubId
  | .ingress f => f.sub
  | .egress f => f.sub

/-- The KIND of a format. -/
def Fmt.kind : Fmt → Nat
  | .ingress f => if f.udp then 1 else 0
  | .egress f => f.kind

/-- The ingress formats in force of a sub-array, by rising FMT_ID. -/
def State.ingressFmts (s : State) (i : SubId) : List FmtIn :=
  s.fmt.fmts.toList.filterMap fun o => match o with
    | some (.ingress f) => if f.sub = i then some f else none
    | _ => none

/-- The egress formats in force of one kind of a sub-array, by rising FMT_ID. -/
def State.egressFmts (s : State) (i : SubId) (kind : Nat) : List (Fin 64 × FmtOut) :=
  (allFin 64).filterMap fun n => match s.fmt.fmts[n] with
    | some (.egress f) => if f.sub = i ∧ f.kind = kind then some (n, f) else none
    | _ => none

/-- S_q, the slot length of a sub-array (R72). -/
def State.slotLen (s : State) (i : SubId) : Nat := (s.ingressFmts i).foldl (fun a f => Nat.lcm a f.samples) 1

/-- SKEW of a sub-array, the largest among its ingress formats (R72). -/
def State.skewOf (s : State) (i : SubId) : Nat := (s.ingressFmts i).foldl (fun a f => max a f.skew) 0

/-! ### The address table (Table 03-4) -/

/-- Word `w` of port entry `p`. -/
def State.portWord (s : State) (p w : Nat) : Word := bw s.fmt.addr (8 * p + w)

/-- Word `w` of destination entry `d`. -/
def State.destWord (s : State) (d w : Nat) : Word := bw s.fmt.addr (1024 + 8 * d + w)

/-- The bytes of a MAC address held in two words, first on the wire first (R77). -/
def macBytes (lo hi : Word) : List Byte := leBytes 4 lo.toNat ++ leBytes 2 hi.toNat

/-- The egress lane a destination entry names. -/
def State.destPort (s : State) (d : Nat) : LaneId :=
  ⟨fieldOf (s.destWord d 2) 16 7, by unfold fieldOf; exact Nat.mod_lt _ (by decide)⟩

/-! ### Ports -/

/-- An Ethernet egress port can send: every lane UP and no remote fault; with UNIDIR the receiver's state does not
matter (R58). -/
def State.ethPortUp (s : State) (l : LaneId) : Bool :=
  if (s.cfgOf l).unidir then s.portEnabled l && (s.portLanes l).all fun k => (s.laneOf k).st != lsOff
  else s.ethPortRuns l && !(s.laneOf l).remoteFault

/-- A PLF egress lane takes packets: UP, or retraining from UP (R43). -/
def State.plfPortUp (s : State) (l : LaneId) : Bool := (s.laneOf l).isUp || (s.laneOf l).retrainAt.isSome

/-- Packets may be queued for an egress lane; otherwise they are discarded as for a port that is down (R28, R84). -/
def State.portOpen (s : State) (l : LaneId) : Bool :=
  let c := s.cfgOf l
  !s.fmt.addr.isEmpty && c.enable && c.dir &&
    (if c.pers then s.portOf l == l && s.ethPortUp l else s.plfPortUp l)

/-! ### Building packets (R78, R82) -/

/-- A change of one format's counters. -/
def State.onEgr (s : State) (n : Fin 64) (f : LaneEgrCnt → LaneEgrCnt) : State :=
  { s with fmt := { s.fmt with egr := vmod s.fmt.egr n f } }

/-- A change of one egress port. -/
def State.onPort (s : State) (l : LaneId) (f : EgressPort → EgressPort) : State :=
  { s with fmt := { s.fmt with ports := vmod s.fmt.ports l f } }

/-- Bytes a port holds in staging (R84). -/
def EgressPort.bytes (p : EgressPort) : Nat := p.queue.foldl (fun a q => a + q.bytes.length) 0

/-- The size of egress staging (R84). -/
def stagingBytes : Nat := 16777216

/-- Bytes of egress staging in use. -/
def State.egressBytes (s : State) : Nat := s.fmt.ports.foldl (fun a p => a + p.bytes) 0

/-- Staging has room for a packet: no other one waits for room before it (R84). -/
def State.stagingRoom (s : State) (len : Nat) : Bool := s.fmt.blocked.isEmpty && decide (s.egressBytes + len ≤ stagingBytes)

/-- A packet takes its place in the queue of its port. -/
def State.stage (s : State) (l : LaneId) (q : Staged) : State := s.onPort l fun p => { p with queue := p.queue ++ [q] }

/-- The producer of a packet waits with it (R84). -/
def State.block (s : State) (l : LaneId) (q : Staged) : State :=
  { s with fmt := { s.fmt with
      blocked := s.fmt.blocked ++ [⟨l, q⟩]
      stalls := if s.fmt.stalls.any fun x => x.fmt == q.fmt then s.fmt.stalls else s.fmt.stalls ++ [⟨q.fmt, s.now, false⟩] } }

/-- Milliseconds of a wait up to now. -/
def State.waitedMs (s : State) (w : Stall) : Nat := (s.now - w.since) / 1000000

/-- The wait of a format ends once none of its packets waits any more: its milliseconds count in STALL_MS. -/
def State.endStall (s : State) (n : Fin 64) : State :=
  if s.fmt.blocked.any fun b => b.pkt.fmt == n then s
  else
    match s.fmt.stalls.find? fun w => w.fmt == n with
    | some w =>
      ({ s with fmt := { s.fmt with stalls := s.fmt.stalls.filter fun x => x.fmt != n } }).onEgr n fun c =>
        { c with stallMs := c.stallMs + BitVec.ofNat 32 (s.waitedMs w) }
    | none => s

/-- The first waiting packets that now have room enter staging, `n` of them at most; one whose port has gone down is
discarded (R84). -/
def State.stageBlocked : Nat → State → State
  | 0, s => s
  | n + 1, s =>
    match s.fmt.blocked with
    | [] => s
    | b :: rest =>
      let up := s.portOpen b.port
      if up && decide (stagingBytes < s.egressBytes + b.pkt.bytes.length) then s
      else
        let t := { s with fmt := { s.fmt with blocked := rest } }
        let t := if up then t.stage b.port b.pkt
          else t.onEgr b.pkt.fmt fun c => { c with portDownDrop := c.portDownDrop + 1 }
        State.stageBlocked n (t.endStall b.pkt.fmt)

/-- Staging has been freed: waiting packets enter it. -/
def State.unblock (s : State) : State := State.stageBlocked s.fmt.blocked.length s

/-- A producer of a sub-array waits for staging (R84): it builds nothing more until its packets have entered. -/
def State.stalled (s : State) (i : SubId) : Bool :=
  s.fmt.stalls.any fun w => match s.fmt.fmts[w.fmt] with
    | some f => f.sub == i
    | none => false

/-- The counters of a format as read: STALL_MS runs on during a wait (R85). -/
def State.egrOf (s : State) (n : Fin 64) : LaneEgrCnt :=
  match s.fmt.stalls.find? fun w => w.fmt == n with
  | some w => { s.fmt.egr[n] with stallMs := s.fmt.egr[n].stallMs + BitVec.ofNat 32 (s.waitedMs w) }
  | none => s.fmt.egr[n]

/-- The destination entry of a packet (Table 03-3, DEST_MODE). -/
def FmtOut.destOf (f : FmtOut) (fine beam : Nat) : Nat :=
  match f.destMode with
  | 1 => f.destBase + fine % f.destCount
  | 2 => f.destBase + beam % f.destCount
  | _ => f.destBase

/-- The 64-byte header of an egress packet (Table 03-5); `kindFields` are bytes 16 to 47. -/
def egressHeader (kind flags : Nat) (sub : SubId) (fmtId : Fin 64) (len : Nat) (source seq : Word)
    (kindFields : List Byte) (t16 : Nat) : List Byte :=
  [BitVec.ofNat 8 kind, 0x01] ++ beBytes 2 flags ++ [BitVec.ofNat 8 sub.val, BitVec.ofNat 8 fmtId.val] ++
  beBytes 2 len ++ beBytes 4 source.toNat ++ beBytes 4 seq.toNat ++
  (kindFields ++ List.replicate (32 - kindFields.length) 0) ++
  beBytes 6 (secOf t16) ++ beBytes 4 (nsOf t16) ++ beBytes 2 (fracOf t16) ++ [0, 0, 0, 0]

/-- One packet is built: it takes its STREAM_SEQ and is counted; it is staged at its port, or discarded where the
port is down, or where a beam packet finds BEAM_QUEUE bytes waiting (R82, R84). Where staging has no room the producer waits
with it; of a beam packet, which the formatter may discard, the spec names no wait: it is counted in QUEUE_DROP (log 73). -/
def State.buildPacket (s : State) (n : Fin 64) (f : FmtOut) (kind flags fine beam : Nat) (kindFields : List Byte)
    (t16 : Nat) (payload : List Byte) : State :=
  let d := f.destOf fine beam
  let key := n.val * 256 + d
  let seq := SMap.get (0 : Word) s.fmt.seqs key
  let s := { s with fmt := { s.fmt with seqs := SMap.set 0 s.fmt.seqs key (seq + 1) } }
  let s := s.onEgr n fun c => { c with pktsBuilt := c.pktsBuilt + 1 }
  let l := s.destPort d
  if !s.portOpen l then s.onEgr n fun c => { c with portDownDrop := c.portDownDrop + 1 }
  else
    let q : Staged := ⟨n, d, seq, egressHeader kind flags f.sub n payload.length f.sourceId seq kindFields t16 ++ payload⟩
    let room := s.stagingRoom q.bytes.length
    if (f.kind = 3 ∨ f.kind = 4) ∧ (f.beamQueue ≤ s.fmt.ports[l].bytes ∨ !room) then
      s.onEgr n fun c => { c with queueDrop := c.queueDrop + 1 }
    else if room then s.stage l q
    else s.block l q

/-- A metadata packet through every metadata format of a sub-array; it goes to DEST_BASE (R76, R81). -/
def State.metadata (s : State) (i : SubId) (subtype : Nat) (t16 : Nat) (payload : List Byte) : State :=
  (s.egressFmts i 7).foldl (fun t e =>
    t.buildPacket e.1 { e.2 with destMode := 0 } 0x40 0 0 0 (beBytes 2 subtype) t16 payload) s

/-- The EVENT metadata packet: CODE, SPAN, DETAIL (Table 03-8). -/
def State.event (s : State) (i : SubId) (code span detail : Nat) : State :=
  s.metadata i 3 s.time16 (leBytes 4 code ++ leBytes 8 span ++ leBytes 4 detail)

/-! ### Frames (R82) -/

/-- The one's-complement sum of 16-bit words in network order; an odd last byte is padded with zero. -/
def sum16 : List Byte → Nat
  | [] => 0
  | [a] => a.toNat * 256
  | a :: b :: rest => a.toNat * 256 + b.toNat + sum16 rest

/-- A sum folded to 16 bits and complemented. -/
def checksum16 (v : Nat) : Nat :=
  let a := v % 65536 + v / 65536
  let b := a % 65536 + a / 65536
  let c := b % 65536 + b / 65536
  65535 - c

/-- A UDP datagram with its checksum over the pseudo-header; a computed zero is sent as 0xFFFF. -/
def udpDatagram (srcIp dstIp : List Byte) (src dst : Nat) (payload : List Byte) : List Byte :=
  let len := payload.length + 8
  let head := beBytes 2 src ++ beBytes 2 dst ++ beBytes 2 len
  let c := checksum16 (sum16 (srcIp ++ dstIp) + 17 + len + sum16 (head ++ [0, 0] ++ payload))
  head ++ beBytes 2 (if c = 0 then 0xFFFF else c) ++ payload

/-- An IPv4 packet: IHL 5, DF set (R82). -/
def ipv4Packet (srcIp dstIp : List Byte) (dscp ttl ident : Nat) (body : List Byte) : List Byte :=
  let a := [0x45, BitVec.ofNat 8 (dscp * 4)] ++ beBytes 2 (20 + body.length) ++ beBytes 2 ident ++ beBytes 2 0x4000 ++
    [BitVec.ofNat 8 ttl, 17]
  a ++ beBytes 2 (checksum16 (sum16 (a ++ [0, 0] ++ srcIp ++ dstIp))) ++ srcIp ++ dstIp ++ body

/-- An IPv6 packet with flow label 0 (R82). -/
def ipv6Packet (srcIp dstIp : List Byte) (dscp hops : Nat) (body : List Byte) : List Byte :=
  beBytes 4 (6 <<< 28 + (dscp * 4) <<< 20) ++ beBytes 2 body.length ++ [17, BitVec.ofNat 8 hops] ++ srcIp ++ dstIp ++ body

/-- An Ethernet frame from its addresses, optional tag, EtherType and body, with FCS. -/
def etherFrame (dst src : List Byte) (tag : Option Nat) (etherType : Nat) (body : List Byte) : List Byte :=
  let f := dst ++ src ++ (match tag with
    | some v => beBytes 2 0x8100 ++ beBytes 2 v
    | none => []) ++ beBytes 2 etherType ++ body
  let f := f ++ List.replicate (60 - f.length) 0
  f ++ leBytes 4 (crc32 f).toNat

/-- The frame that carries a staged packet from an Ethernet port (R82). -/
def State.frameOf (s : State) (l : LaneId) (q : Staged) : List Byte :=
  let d := q.dest
  let f : FmtOut := match s.fmt.fmts[q.fmt] with
    | some (.egress f) => f
    | _ => ⟨0, 0, 0, 1, 0, 64, false, 0, 0, 0, 0, 0, 0⟩
  let w0 := s.destWord d 0
  let dst := macBytes (s.destWord d 1) (s.destWord d 2)
  let src := macBytes (s.portWord l.val 0) (s.portWord l.val 1)
  let tag := if flagOf w0 31 then some (fieldOf w0 28 3 <<< 13 + fieldOf w0 16 12) else none
  let ip6 := flagOf (s.destWord d 2) 23
  let srcIp := if ip6 then wordsBytes ((List.range 4).map fun k => s.portWord l.val (3 + k)) else wordBytes (s.portWord l.val 2)
  let dstIp := if ip6 then wordsBytes ((List.range 4).map fun k => s.destWord d (3 + k)) else wordBytes (s.destWord d 3)
  let udp := udpDatagram srcIp dstIp (fieldOf (s.destWord d 7) 0 16) (fieldOf w0 0 16) q.bytes
  if ip6 then etherFrame dst src tag 0x86DD (ipv6Packet srcIp dstIp f.dscp f.hops udp)
  else etherFrame dst src tag 0x0800 (ipv4Packet srcIp dstIp f.dscp f.hops (q.seq.toNat % 65536) udp)

/-! ### Sending (R84) -/

/-- The tokens of a port in tenths of a bit at an instant: RATE tenths of a Gb/s fill a bucket of BURST KiB. -/
def EgressPort.tokensAt (p : EgressPort) (rate burst now : Nat) : Nat :=
  min (burst * 1024 * 8 * 10) (p.tokens + rate * (now - p.at'))

/-- Blocks that a PLF transmitter holds: SOF, data and EOF of every held frame (R42). -/
def heldBlocks (held : List TxFrame) : Nat := held.foldl (fun a f => a + f.packet.length / 8 + 2) 0

/-- Bytes padded with zeros to a multiple of eight (R82). -/
def pad8 (bs : List Byte) : List Byte := bs ++ List.replicate ((8 - bs.length % 8) % 8) 0

/-- The packets waiting at a port that is down are discarded and counted (R28, R84). -/
def State.dropQueue (s : State) (l : LaneId) : State :=
  let q := s.fmt.ports[l].queue
  let s := s.onPort l fun p => { p with queue := [] }
  (q.foldl (fun t e => t.onEgr e.fmt fun c => { c with portDownDrop := c.portDownDrop + 1 }) s).unblock

/-- A packet has gone out: header and payload bytes count (Table 03-10). -/
def State.sentPacket (s : State) (q : Staged) : State :=
  s.onEgr q.fmt fun c => { c with bytesSent := c.bytesSent + BitVec.ofNat 64 q.bytes.length }

/-- The first packet waiting at a port is sent, where the port is up and its pace or window allows it (R42, R84). A packet
of more than 1024 bytes fits no PLF frame (R33): one that an octet change has left at a PLF lane is discarded as for a port
that is down (log 73). -/
def State.sendNext (s : State) (l : LaneId) : State :=
  match s.fmt.ports[l].queue with
  | [] => s
  | q :: rest =>
    if !s.portOpen l then s.dropQueue l
    else if s.isEth l then
      let frame := s.frameOf l q
      let rate := fieldOf (s.portWord l.val 7) 0 16
      let burst := fieldOf (s.portWord l.val 7) 16 16
      let have' := s.fmt.ports[l].tokensAt rate burst s.now
      let need := frame.length * 8 * 10
      if rate ≠ 0 ∧ have' < need then s
      else
        let s := s.onPort l fun p => { p with queue := rest, tokens := if rate = 0 then p.tokens else have' - need, at' := s.now }
        (((s.emit (.ethFrame l frame)).sentPacket q).onLaneCnt l fun c => { c with txReplay := c.txReplay + 1 }).unblock
    else
      let x := s.laneOf l
      let packet := pad8 q.bytes
      if 1024 < packet.length then
        ((s.onPort l fun p => { p with queue := rest }).onEgr q.fmt fun c => { c with portDownDrop := c.portDownDrop + 1 }).unblock
      else if !x.isUp ∨ 512 < heldBlocks x.held + packet.length / 8 + 2 then s
      else
        let f : TxFrame := ⟨x.nextSeq, packet⟩
        let s := s.onPort l fun p => { p with queue := rest }
        let s := s.onLane l fun y =>
          { y with held := y.held ++ [f], nextSeq := y.nextSeq + 1, releaseAt := if y.held.isEmpty then s.now else y.releaseAt }
        ((s.sendFrame l f).sentPacket q).unblock

/-- EGRESS_FRAME_SEND (R84). -/
def execEgressFrameSend (port : LaneId) (s : State) : Host.Outcome State Fault Refusal := .next (s.sendNext port)

/-- A producer has waited more than 100 ms, `ms` of them told by the row, and EGRESS_STALL was not raised for this wait. -/
def State.stallDue (s : State) (ms : Nat) (w : Stall) : Bool :=
  !w.told && decide (100 < ms) && decide (w.since + ms * 1000000 ≤ s.now)

/-- EGRESS_STALL (R84): the producer of a format has waited for staging for `waitedMs`, more than 100; raised once for a
wait. -/
def execEgressStall (n : Fin 64) (waitedMs : Nat) (s : State) : Host.Outcome State Fault Refusal :=
  let told := s.fmt.stalls.map fun (w : Stall) => if w.fmt == n then { w with told := true } else w
  .next (if s.fmt.stalls.any fun w => w.fmt == n && s.stallDue waitedMs w then
    ({ s with fmt := { s.fmt with stalls := told } }).raise srcEgressStall (BitVec.ofNat 32 n.val)
    else s)

end Sys2Proof.Machine
end

