-- ==== Sys2Proof/Machine/Parser.lean ====
section
/-! DEFINITION. The ingress parser: tests, the arrival window, slots, status relay and silence (R66 to R74). A
sample's index is its packet's counter, whenever it arrives (R10, R11). -/

namespace Sys2Proof.Machine

/-- A change of an octet's ingress counters. -/
def State.onIngr (s : State) (o : OctetId) (f : LaneIngrCnt → LaneIngrCnt) : State :=
  s.onOctet o fun x => { x with ingr := f x.ingr }

/-! ### UDP (R71) -/

/-- What is left of an accepted UDP frame: its destination port and payload; none where a test of the frame alone
fails (EtherType, IP header, UDP checksum) together with the addresses it names. -/
structure UdpFrame where
  dstMac  : List Byte
  v6      : Bool
  dstIp   : List Byte
  dstPort : Nat
  payload : List Byte
  deriving DecidableEq, Repr

/-- The UDP part of a frame is whole and its checksum is right, or zero in IPv4 (R71). -/
def udpPart (v6 : Bool) (srcIp dstIp body : List Byte) : Option (Nat × List Byte) :=
  let len := beAt body 4 2
  let seg := body.take len
  let c := beAt body 6 2
  if len < 8 ∨ body.length < len then none
  else if c = 0 ∧ !v6 then some (beAt body 2 2, seg.drop 8)
  else if checksum16 (sum16 (srcIp ++ dstIp) + 17 + len + sum16 seg) = 0 then some (beAt body 2 2, seg.drop 8)
  else none

/-- A frame, FCS included, taken apart by the tests of R71 that need no address of the port. -/
def parseUdp (frame : List Byte) : Option UdpFrame :=
  let body := frame.take (frame.length - 4)
  let dst := body.take 6
  let tagged := beAt body 12 2 = 0x8100
  let et := if tagged then beAt body 16 2 else beAt body 12 2
  let ip := body.drop (if tagged then 18 else 14)
  if et = 0x0800 then
    let total := beAt ip 2 2
    if beAt ip 0 1 ≠ 0x45 ∨ total < 20 ∨ ip.length < total ∨ beAt ip 6 2 % 0x4000 ≠ 0 ∨ beAt ip 9 1 ≠ 17 ∨
        checksum16 (sum16 (ip.take 20)) ≠ 0 then none
    else
      let d := (ip.drop 16).take 4
      (udpPart false ((ip.drop 12).take 4) d ((ip.take total).drop 20)).map fun r => ⟨dst, false, d, r.1, r.2⟩
  else if et = 0x86DD then
    let len := beAt ip 4 2
    if beAt ip 0 1 / 16 ≠ 6 ∨ beAt ip 6 1 ≠ 17 ∨ ip.length < 40 + len then none
    else
      let d := (ip.drop 24).take 16
      (udpPart true ((ip.drop 8).take 16) d ((ip.drop 40).take len)).map fun r => ⟨dst, true, d, r.1, r.2⟩
  else none

/-- The frame's addresses are the port's own or multicast, and its UDP port is the format's (R71). A port has addresses of its
own once an address table is committed. -/
def State.addrOk (s : State) (l : LaneId) (u : UdpFrame) (f : FmtIn) : Bool :=
  let p := (s.portOf l).val
  let table := !s.fmt.addr.isEmpty
  let own := table && decide (u.dstMac = macBytes (s.portWord p 0) (s.portWord p 1))
  let mcastMac := (u.dstMac.headD 0).getLsbD 0
  let ip := if u.v6 then wordsBytes ((List.range 4).map fun k => s.portWord p (3 + k)) else wordBytes (s.portWord p 2)
  let mcastIp := if u.v6 then u.dstIp.headD 0 == 0xFF else (u.dstIp.headD 0).toNat / 16 == 14
  (own || (mcastMac && f.acceptMcast)) && (table && decide (u.dstIp = ip) || mcastIp) &&
    u.dstPort == f.udpPort

/-! ### Tests (R71) -/

/-- Why an ingress packet is discarded (Table 03-9). -/
inductive Discard where
  | malformed | noSubarray | outOfSet | misaligned | late | future | dup | statusExcess | addrDrop
  deriving DecidableEq, Repr

/-- A discarded packet is counted by its cause. -/
def State.discard (s : State) (o : OctetId) (d : Discard) : State :=
  s.onIngr o fun c =>
    match d with
    | .malformed => { c with malformed := c.malformed + 1 }
    | .noSubarray => { c with noSubarray := c.noSubarray + 1 }
    | .outOfSet => { c with outOfSet := c.outOfSet + 1 }
    | .misaligned => { c with misaligned := c.misaligned + 1 }
    | .late => { c with late := c.late + 1 }
    | .future => { c with future := c.future + 1 }
    | .dup => { c with dup := c.dup + 1 }
    | .statusExcess => { c with statusExcess := c.statusExcess + 1 }
    | .addrDrop => { c with addrDrop := c.addrDrop + 1 }

/-- The format of an FMT_ID for a packet of a sample counter: the last committed one of those whose raw index it has
reached (R22). -/
def State.fmtAt (s : State) (n : Fin 64) (counter : Nat) : Option Fmt :=
  match (s.fmt.waiting.filter fun e => e.1 == n && (match e.2.2.2 with
      | some k => decide (k ≤ counter)
      | none => false)).getLast? with
  | some e => some e.2.1
  | none => s.fmt.fmts[n]

/-- The formats of the arrival octet's personality that name the octet, by rising FMT_ID, for a packet of a sample counter. -/
def State.octetFmts (s : State) (o : OctetId) (counter : Nat) : List FmtIn :=
  (allFin 64).filterMap fun n => match s.fmtAt n counter with
    | some (.ingress f) => if f.octetMask.getLsbD o.val ∧ f.udp = (s.octet o).cfg.pers then some f else none
    | _ => none

/-- The length of a packet of a kind under a format (R66, R68). -/
def FmtIn.length (f : FmtIn) (kind : Nat) : Nat := if kind = 1 then 24 + 2 * f.inputs * f.samples else 80

/-- A packet that passed the tests both kinds share: its format, sub-array and header fields. -/
structure Parsed where
  fmt   : FmtIn
  sub   : SubId
  block : Nat
  group : Nat
  chan  : Nat
  flags : Nat
  count : Nat
  bytes : List Byte
  deriving DecidableEq, Repr

/-- The tests of VERSION, KIND, block, length and GROUP, and over UDP of the addresses (R71). `kind` is the kind
the row names. Among formats of one sub-array and octet the lowest FMT_ID whose length fits is taken. -/
def State.parsePacket (s : State) (l : LaneId) (bytes : List Byte) (kind : Nat) : Except Discard Parsed :=
  let o := octetOf l
  let taken : Except Discard (List Byte × List FmtIn) :=
    if s.isEth l then
      match parseUdp bytes with
      | none => .error .addrDrop
      | some u =>
        let fs := (s.octetFmts o (beAt u.payload 8 8)).filter fun f => s.addrOk l u f
        if fs.isEmpty then .error .addrDrop else .ok (u.payload, fs)
    else .ok (bytes, s.octetFmts o (beAt bytes 8 8))
  match taken with
  | .error d => .error d
  | .ok (p, fs) =>
    let block := beAt p 2 1
    if p.length < 24 ∨ beAt p 1 1 ≠ 1 ∨ beAt p 0 1 ≠ kind then .error .malformed
    else
      match s.blockOwner block with
      | none => .error .noSubarray
      | some i =>
        let mine := fs.filter fun f => f.sub == i
        match (mine.find? fun f => f.length kind == p.length), mine.head? with
        | some f, _ =>
          if 128 / f.inputs ≤ beAt p 3 1 then .error .malformed
          else .ok ⟨f, i, block, beAt p 3 1, beAt p 4 2, beAt p 6 2, beAt p 8 8, p⟩
        | none, some _ => .error .malformed
        | none, none => .error .noSubarray

/-! ### Slots (R72) -/

/-- The key of a coarse sample in its slot: input, processed coarse channel, position. -/
def slotKey (c sq input chan t : Nat) : Nat := (input * c + chan) * sq + t

/-- The inputs' slices hold a passed slot until each has taken it. -/
def everySlice : List SliceId := allFin 4

/-- Slot `q` as filed so far. -/
def Parser.slot (p : Parser) (q : Nat) : Slot :=
  match p.slots.find? fun e => e.q == q with
  | some e => e
  | none => ⟨q, []⟩

/-- The parser with a slot replaced. -/
def Parser.putSlot (p : Parser) (e : Slot) : Parser :=
  { p with slots := e :: p.slots.filter fun x => x.q != e.q }

/-- The next slot is passed to the Sieve. -/
def Parser.passOne (p : Parser) : Parser :=
  { p with passed := p.passed ++ [(p.slot p.next, everySlice)], slots := p.slots.filter fun x => x.q != p.next
           next := p.next + 1 }

/-- Slots that the window has left behind are passed, `n` of them. -/
def Parser.passMany : Nat → Parser → Parser
  | 0, p => p
  | n + 1, p => Parser.passMany n p.passOne

/-- Complete slots at the front are passed; `n` bounds how many. -/
def Parser.passFull (full : Nat) : Nat → Parser → Parser
  | 0, p => p
  | n + 1, p => if full ≤ (p.slot p.next).cells.length then Parser.passFull full n p.passOne else p

/-- Passing after the front index may have moved (R72): first the slots the window has left behind, then the complete
ones. -/
def State.passSlots (s : State) (i : SubId) : State :=
  let sq := s.slotLen i
  let full := (s.blocks i).length * 128 * s.coarse i * sq
  s.onParser i fun p =>
    let q := Parser.passMany ((p.front - s.skewOf i) / sq - p.next) p
    if full = 0 then q else Parser.passFull full (q.slots.length) q

/-- The coarse samples of a sample packet with their keys in the slot (R66, R67). -/
def packetCells (p : Parsed) (c sq : Nat) : List (Nat × Coarse) :=
  (List.range (p.fmt.samples * p.fmt.inputs)).map fun n =>
    let t := n / p.fmt.inputs
    let k := n % p.fmt.inputs
    let input := 128 * p.block + p.fmt.inputs * p.group + k
    (slotKey c sq input (p.chan - p.fmt.chanBase) ((p.count + t) % sq),
     { re := signedOf 8 (leAt p.bytes (24 + 2 * n) 1), im := signedOf 8 (leAt p.bytes (25 + 2 * n) 1)
       invalid := p.flags.testBit k, cal := p.flags.testBit 9 })

/-- One sample packet that passed the shared tests: the tests of channel, alignment and window, then filing (R71 to R73). -/
def State.fileSamples (s : State) (l : LaneId) (p : Parsed) : State :=
  let o := octetOf l
  let i := p.sub
  let c := s.coarse i
  let sq := s.slotLen i
  let x := s.parser[i]
  let q := p.count / sq
  let markFuture (t : State) : State :=
    t.onParser i fun y => { y with future := match y.future with
                                             | some a => some a
                                             | none => some s.now }
  let notFuture (t : State) : State := t.onParser i fun y => { y with future := none, jumped := false }
  if p.chan < p.fmt.chanBase ∨ c ≤ p.chan - p.fmt.chanBase then s.discard o .outOfSet
  else if p.count % p.fmt.samples ≠ 0 then s.discard o .misaligned
  else
    match x.start with
    | none => (notFuture s).discard o .late
    | some ks =>
      if !s.active i ∨ p.count < ks ∨ q < x.next then (notFuture s).discard o .late
      else if x.front + 2 ^ 24 ≤ p.count then (markFuture s).discard o .future
      else
        let cells := packetCells p c sq
        let slot := x.slot q
        if cells.any fun e => (SMap.get none slot.cells e.1).isSome then (notFuture s).discard o .dup
        else
          let slot' : Slot := { slot with cells := cells.foldl (fun m e => SMap.set none m e.1 (some e.2)) slot.cells }
          let key := p.block * 128 + p.group
          let t := (notFuture s).onIngr o fun y =>
            { y with pktsOk := y.pktsOk + 1
                     overrange := if p.flags.testBit 8 then y.overrange + 1 else y.overrange
                     flagged := if p.flags % 2 ^ p.fmt.inputs ≠ 0 then y.flagged + 1 else y.flagged }
          let t := t.onParser i fun y =>
            { y.putSlot slot' with
              front := max y.front (p.count + p.fmt.samples), lastOk := s.now, silent := false
              since := SMap.set 0 y.since key (SMap.get 0 y.since key + 1) }
          t.passSlots i

/-- The packet is no longer waiting in the lane's arrivals. -/
def State.takeArrival (s : State) (l : LaneId) (bytes : List Byte) : State :=
  { s with lane := { s.lane with arrivals := s.lane.arrivals.eraseP fun a => a.lane == l && decide (a.bytes = bytes) } }

/-- The islands that run through a supply event discard sample packets (R410). -/
def State.riding (s : State) : Bool := s.bell.event.isSome

/-- INGRESS_SAMPLE_PACKET (R71 to R73). During a supply event every sample packet is discarded and counted (R410). -/
def execIngressSamplePacket (l : LaneId) (bytes : List Byte) (s : State) : Host.Outcome State Fault Refusal :=
  let s := s.takeArrival l bytes
  .next (if s.isEgress l then s
    else if s.riding then s.onBellStat fun x => { x with rideDiscard := x.rideDiscard + 1 }
    else
      match s.parsePacket l bytes 1 with
      | .error d => s.discard (octetOf l) d
      | .ok p => s.fileSamples l p)

/-- An accepted status packet is relayed: its 80 bytes, the arrival octet and lane (R69, Table 03-8). -/
def State.relay (s : State) (l : LaneId) (p : Parsed) : State :=
  let lane := if s.isEth l then s.portOf l else l
  s.metadata p.sub 2 s.time16 (p.bytes ++ [BitVec.ofNat 8 (octetOf l).val, BitVec.ofNat 8 lane.val, 0, 0, 0, 0, 0, 0])

/-- INGRESS_STATUS_PACKET (R69). -/
def execIngressStatusPacket (l : LaneId) (bytes : List Byte) (s : State) : Host.Outcome State Fault Refusal :=
  let s := s.takeArrival l bytes
  let o := octetOf l
  .next (if s.isEgress l then s
    else
      match s.parsePacket l bytes 2 with
      | .error d => s.discard o d
      | .ok p =>
        let key := p.block * 128 + p.group
        if SMap.get 0 s.parser[p.sub].since key < p.fmt.statusEvery then s.discard o .statusExcess
        else
          let t := s.onIngr o fun y => { y with statusOk := y.statusOk + 1 }
          let t := t.onParser p.sub fun y => { y with since := SMap.set 0 y.since key 0 }
          t.relay l p)

/-- INGRESS_JUMP (R73): every sample packet of the sub-array has been FUTURE for 1 s. -/
def execIngressJump (i : SubId) (s : State) : Host.Outcome State Fault Refusal :=
  let p := s.parser[i]
  .next (match p.future with
    | some t =>
      if !p.jumped ∧ t + 1000000000 ≤ s.now then
        (s.onParser i fun y => { y with jumped := true }).raise srcIngressJump (BitVec.ofNat 32 i.val) (some i)
      else s
    | none => s)

/-- The parser's part of a beat: with no sample packet accepted for 100 ms in OBSERVE, F advances by time (R74). -/
def State.parserBeat (s : State) (i : SubId) : State :=
  let p := s.parser[i]
  if s.saState i = saObserve ∧ p.lastOk + 100000000 ≤ s.now then
    let e := s.obs[i].epoch
    let k := e.indexAt (s.time16 - 100000000 * 2 ^ 16)
    let t := s.onParser i fun y => { y with front := max y.front k, silent := true }
    let t := if p.silent then t else t.raise srcIngressJump (BitVec.ofNat 32 (2 ^ 31 + i.val)) (some i)
    t.passSlots i
  else s

end Sys2Proof.Machine
end

