-- ==== Sys2Proof/Machine/Cellar.lean ====
section
/-! DEFINITION. The Cellar: bays, the writer, availability, overrun and captures (R135 to R147). -/

namespace Sys2Proof.Machine

/-! ### Events of a sub-array -/

/-- The EVENT metadata of a sub-array, also marked in the integration in progress (Table 03-8, EVENTS). -/
def State.subEvent (s : State) (i : SubId) (code span detail : Nat) : State :=
  let t := s.event i code span detail
  t.onLedger i fun x =>
    { x with integs := match x.integs.reverse with
        | [] => []
        | q :: rest => ({ q with events := q.events ||| 2 ^ (code - 1) } :: rest).reverse }

/-! ### Layout (R135, R136) -/

/-- Fine samples of a span. -/
def spanLen : Nat := 32768

/-- S, the bytes of a brick. -/
def State.brick (s : State) (i : SubId) : Nat := 8192 * s.sampleBytes i

/-- The offset of a fine sample of an input from its bay's base: `beta` is the local block, `a` the row. -/
def State.cellarOff (s : State) (i : SubId) (f n beta a : Nat) : Nat :=
  let m := n % spanLen
  ((f * 512 + m / 64) * s.nb i + beta) * s.brick i + (m % 64 * 128 + a) * s.sampleBytes i

/-- The address of a bay. -/
def State.bayAddr (s : State) (i : SubId) (m : Nat) : Nat :=
  s.cellar[i].cfg.base.toNat + m * s.cellar[i].cfg.bayBytes.toNat

/-- The granules of a bay. -/
def State.bayGranules (s : State) (i : SubId) : Nat := s.cellar[i].cfg.bayBytes.toNat / 64

/-- The marker code of one fine sample (R12). -/
def State.marker (s : State) (i : SubId) : List Byte := if s.cellar[i].cfg.format then [0x80, 0x80] else [0x88]

/-- Bytes that have not arrived hold the marker code, whose bytes are all alike. -/
def State.filled (s : State) (i : SubId) (bytes : List (Option Byte)) : List Byte :=
  bytes.map fun b => b.getD ((s.marker i).headD 0)

/-- Granules that a combine buffer holds: 16 MiB. -/
def combineRoom : Nat := 262144

/-- The combine buffer of a slice. -/
def State.combine (s : State) (sl : SliceId) : List OpenGran := s.front.combine[sl]

/-- A change of the combine buffer of a slice. -/
def State.onCombine (s : State) (sl : SliceId) (f : List OpenGran → List OpenGran) : State :=
  { s with front := { s.front with combine := vmod s.front.combine sl f } }

/-! ### What the Loom has done with a span -/

/-- The Loom has finished a span (R168). -/
def State.loomDone (s : State) (i : SubId) (span : Nat) : Bool :=
  let x := s.loom[i]
  decide (span < x.next) && (x.running != some span || x.finishAt.isSome)

/-- Coarse channels cut from the top. -/
def LoomSub.top (x : LoomSub) : Nat := (x.cuts.filter fun b => b).length

/-- Coarse channels cut from the bottom. -/
def LoomSub.bottom (x : LoomSub) : Nat := (x.cuts.filter fun b => !b).length

/-- The uncut fine channels: first and end (R174). -/
def State.uncut (s : State) (i : SubId) : Nat × Nat :=
  let x := s.loom[i]
  let per := s.fineLen i
  (x.bottom * per, (s.coarse i - x.top) * per)

/-- h, the staging units of a chunk (R16, R148). -/
def State.halves (s : State) (i : SubId) : Nat := if s.cellar[i].cfg.halves then 2 else 1

/-- The staging units of a span. -/
def State.unitsOf (s : State) (i : SubId) : Nat := s.fineChans i * 8 * s.halves i

/-- The fine channel, chunk and half of a unit. -/
def State.unitParts (s : State) (i : SubId) (u : Nat) : Nat × Nat × Nat :=
  let h := s.halves i
  (u / (8 * h), u / h % 8, u % h)

/-- A unit is condemned (R141). -/
def CellarSub.isCondemned (x : CellarSub) (span u : Nat) : Bool :=
  x.condemned.any fun e => e.1 == span && decide (e.2.1 ≤ u) && decide (u < e.2.2)

/-! ### Opening a span (R139 to R141, R144) -/

/-- The bay that holds a span. -/
def CellarSub.bayOf (x : CellarSub) (span : Nat) : Option Nat := x.bays.findIdx? fun b => b.span == some span

/-- A span has lost its bay to the span whose first write waits for the end of a staging copy (R141). -/
def CellarSub.losing (x : CellarSub) (span : Nat) : Bool :=
  match x.overrun with
  | some v => v.old == span
  | none => false

/-- The bay from which a staging copy of a span reads: the one it holds, or the one whose next span waits for the copy. -/
def CellarSub.sourceBay (x : CellarSub) (span : Nat) : Option Nat :=
  match x.overrun with
  | some v => if v.old = span then some v.bay else x.bayOf span
  | none => x.bayOf span

/-- The bay that R140 assigns: the lowest-numbered empty live bay, else the live bay of the oldest span. -/
def CellarSub.pick (x : CellarSub) : Option Nat :=
  match x.bays.findIdx? fun b => !b.frozen && b.span.isNone with
  | some m => some m
  | none =>
    let live := (x.bays.zipIdx).filterMap fun e => if e.1.frozen then none else e.1.span.map fun sp => (sp, e.2)
    match live with
    | [] => none
    | e :: es => some (es.foldl (fun (a : Nat × Nat) b => if b.1 < a.1 then b else a) e).2

/-- A copy into the Shelf is in progress from the bay of a span. -/
def CellarSub.copying (x : CellarSub) (span : Nat) : Bool :=
  x.buffers.toList.any fun b => match b with
    | some g => g.span == span && !g.staged
    | none => false

/-- The spans of the capture window, with their places in it. -/
def CellCapt.place (c : CellCapt) (i : SubId) (span : Nat) : Option Nat :=
  if c.state = 1 ∧ c.subarray.toNat = i.val ∧ c.firstSpan.toNat ≤ span ∧ span < c.firstSpan.toNat + c.count.toNat then
    some (span - c.firstSpan.toNat)
  else none

/-- The capture record with the bay of a place of the window. -/
def CellCapt.setBay (c : CellCapt) (m a : Nat) : CellCapt :=
  if h : m < 6 then { c with bayAddr := c.bayAddr.set m (BitVec.ofNat 44 a) } else c

/-- LIVE_BAYS counts the bays that are not frozen. -/
def State.showBays (s : State) (i : SubId) : State :=
  s.onCellar i fun x =>
    { x with stat := { x.stat with liveBays := BitVec.ofNat 4 (x.bays.filter fun b => !b.frozen).length } }

/-- A bay that is assigned a span of the window freezes (R144). -/
def State.freezeBay (s : State) (i : SubId) (span m : Nat) : State :=
  match s.front.capture.place i span with
  | some k =>
    let a := s.bayAddr i m
    let t := { s with front := { s.front with capture := s.front.capture.setBay k a } }
    (t.onCellar i fun x => { x with bays := x.bays.modify m fun b => { b with frozen := true } }).showBays i
  | none => s

/-- Bay `m` is assigned to a span; a span of the capture window freezes it (R140, R144). -/
def State.takeBay (s : State) (i : SubId) (span m : Nat) : State :=
  (s.onCellar i fun x => { x with bays := x.bays.modify m fun b => { b with span := some span } }).freezeBay i span m

/-- The first write of a span in its bay opens it (R139). -/
def State.openAt (s : State) (i : SubId) (span m : Nat) : State :=
  s.onCellar i fun x =>
    { x with opened := x.opened ++ [⟨span, m, []⟩], next := span + 1, overrun := none
             stat := { x.stat with writeSpan := BitVec.ofNat 64 span } }

/-- Span `next` takes bay `m` and is open. -/
def State.assign (s : State) (i : SubId) (m : Nat) : State :=
  (s.takeBay i s.cellar[i].next m).openAt i s.cellar[i].next m

/-- The units of an overrun span that are condemned: every one whose copy has not completed. -/
def State.unstaged (s : State) (i : SubId) (old : Nat) : List (Nat × Nat × Nat) :=
  let n := s.unitsOf i
  if s.loom[i].running = some old then [(old, s.cellar[i].stageNext, n)] else [(old, 0, n)]

/-- The chunks of uncut fine channels that have a condemned unit among some runs of units. -/
def State.condemnedChunks (s : State) (i : SubId) (runs : List (Nat × Nat × Nat)) : Nat :=
  let h := s.halves i
  let (lo, hi) := s.uncut i
  ((List.range (s.fineChans i * 8)).filter fun k =>
    decide (lo * 8 ≤ k) && decide (k < hi * 8) &&
      runs.any fun e => (List.range h).any fun d => decide (e.2.1 ≤ k * h + d) && decide (k * h + d < e.2.2)).length

/-- The open granules of a span leave the combine buffers. -/
def State.dropGranules (s : State) (i : SubId) (span : Nat) : State :=
  (allFin 4).foldl (fun (u : State) sl =>
    u.onCombine sl fun gs => gs.filter fun g => !(g.sub == i && g.span == span)) s

/-- The Cellar condemns the unstaged units of an overrun span (R141). A span overrun before it is available is no longer
written: its open granules are dropped, and its later bytes are late (log entry 75). -/
def State.condemn (s : State) (i : SubId) (old : Nat) : State :=
  let runs := s.unstaged i old
  let n := s.condemnedChunks i runs
  let t := (s.dropGranules i old).onCellar i fun x =>
    { x with condemned := x.condemned ++ runs, opened := x.opened.filter fun o => o.span != old
             stat := { x.stat with overrunSpans := x.stat.overrunSpans + 1, overrunSeen := true
                                   condemnedChunks := x.stat.condemnedChunks + BitVec.ofNat 32 n } }
  (t.raise srcCellarOverrun (BitVec.ofNat 32 i.val) (some i)).subEvent i 7 old n

/-- The writer opens the next span. Where a staging copy from the bay is in progress, the bay is reassigned at once, and the
first write, which opens the span, waits for the end of the copy (R139 to R141). -/
def State.openSpan (s : State) (i : SubId) : State :=
  let x := s.cellar[i]
  match x.overrun, x.pick with
  | some _, _ => s
  | none, none => s
  | none, some m =>
    match (x.bays.getD m {}).span with
    | none => s.assign i m
    | some old =>
      if s.loomDone i old then s.assign i m
      else if x.copying old then (s.takeBay i x.next m).onCellar i fun y => { y with overrun := some ⟨old, x.next, m⟩ }
      else (s.condemn i old).assign i m

/-- Spans are opened in turn up to one, at most `n` of them. -/
def State.openTo (i : SubId) (span : Nat) : Nat → State → State
  | 0, s => s
  | n + 1, s => if s.cellar[i].next ≤ span then State.openTo i span n (s.openSpan i) else s

/-! ### Writing granules (R137) -/

/-- An open span. -/
def CellarSub.openOf (x : CellarSub) (span : Nat) : Option OpenSpan := x.opened.find? fun o => o.span == span

/-- A granule of an open span is written whole. -/
def State.putGranule (s : State) (i : SubId) (span bay index : Nat) (bytes : List Byte) : State :=
  let t := (s.granWrite (s.bayAddr i bay + 64 * index) bytes).1
  t.onCellar i fun x =>
    { x with opened := x.opened.map fun o =>
        if o.span = span then { o with written := SMap.set false o.written index true } else o }

/-- An open granule leaves the combine buffer for its bay, where its span is open; otherwise it waits (R139). -/
def State.writeOut (s : State) (sl : SliceId) (g : OpenGran) : State :=
  let t := State.openTo g.sub g.span (g.span + 1 - s.cellar[g.sub].next) s
  match t.cellar[g.sub].openOf g.span with
  | some o =>
    (t.putGranule g.sub g.span o.bay g.index (t.filled g.sub g.bytes)).onCombine sl fun gs =>
      gs.filter fun x => !(x.sub == g.sub && x.span == g.span && x.index == g.index)
  | none => t

/-- A granule has all its bytes. -/
def OpenGran.full (g : OpenGran) : Bool := g.bytes.all fun b => b.isSome

/-- The open granule of the lowest fine-sample index. -/
def lowest : List OpenGran → Option OpenGran
  | [] => none
  | g :: gs => some (gs.foldl (fun (a : OpenGran) x => if x.n < a.n then x else a) g)

/-- Bytes placed in a granule. -/
def OpenGran.put (g : OpenGran) (off : Nat) (data : List Byte) : OpenGran :=
  { g with bytes := (g.bytes.zipIdx).map fun e =>
      if off ≤ e.2 ∧ e.2 < off + data.length then some (data.getD (e.2 - off) 0) else e.1 }

/-- The fine samples of a granule that waits for its span's bay are written once the bay is assigned. -/
def State.flushFull (s : State) (i : SubId) : State :=
  (allFin 4).foldl (fun (t : State) sl =>
    (((t.combine sl).filter fun g => g.sub == i && g.full)).foldl (fun (u : State) g => u.writeOut sl g) t) s

/-- The byte goes into its open granule; a full granule is written, and a full buffer writes out the lowest one. -/
def State.combineWrite (s : State) (sl : SliceId) (mine : OpenGran → Bool) (i : SubId) (span index n off : Nat)
    (data : List Byte) : State :=
  let t :=
    if (s.combine sl).any mine then s
    else
      let u := if combineRoom ≤ (s.combine sl).length then
          match lowest (s.combine sl) with
          | some g => s.writeOut sl g
          | none => s
        else s
      u.onCombine sl fun gs => gs ++ [⟨i, span, index, n, List.replicate 64 none⟩]
  let t := t.onCombine sl fun gs => gs.map fun g => if mine g then g.put off data else g
  match (t.combine sl).find? mine with
  | some g => if g.full then t.writeOut sl g else t
  | none => t

/-- One fine sample of one input and fine channel reaches the writer of its slice (R136 to R138). -/
def State.cellarWrite (s : State) (i : SubId) (input f n : Nat) (data : List Byte) : State :=
  let span := n / spanLen
  let x := s.cellar[i]
  let off := s.cellarOff i f n (s.localBlock i (input / 128)) (input % 128)
  let index := off / 64
  let sl : SliceId := ⟨input / 128 % 4, Nat.mod_lt _ (by decide)⟩
  let mine (g : OpenGran) : Bool := g.sub == i && g.span == span && g.index == index
  if span < x.avail ∨ (span < x.next ∧ (x.openOf span).isNone) then
    s.onCellStat i fun y => { y with lateFs := y.lateFs + 1, lateSeen := true }
  else
    match x.openOf span with
    | some o =>
      if SMap.get false o.written index then
        ((s.granWrite (s.bayAddr i o.bay + off) data).1).onCellStat i fun y =>
          { y with rmwGranules := y.rmwGranules + 1, rmwSeen := true }
      else s.combineWrite sl mine i span index n (off % 64) data
    | none => s.combineWrite sl mine i span index n (off % 64) data

/-! ### Availability (R138) -/

/-- Every (input, coarse channel) stream has dealt, or reported withheld, invalid or absent, fine sample `n`. -/
def State.streamsPast (s : State) (i : SubId) (n : Nat) : Bool :=
  (s.inputs i).all fun a => decide (n < (SMap.get ({} : SieveIn) s.sieve[i].ins a).fineN)

/-- Both conditions of A_s hold for a span. -/
def State.spanFilled (s : State) (i : SubId) (span : Nat) : Bool :=
  s.active i && decide (span + 2 ≤ s.cellar[i].next) && s.streamsPast i (spanLen * (span + 1))

/-- The instant since which both conditions hold is kept, for every span not yet available. -/
def State.noteFilled (s : State) (i : SubId) : State :=
  let x := s.cellar[i]
  let new := ((List.range (x.next - x.avail)).map fun k => x.avail + k).filter fun span =>
    !(x.ready.any fun e => e.1 == span) && s.spanFilled i span
  if new.isEmpty then s else s.onCellar i fun y => { y with ready := y.ready ++ new.map fun span => (span, s.now) }

/-- PENDING counts the available spans that the Loom has not finished. -/
def State.showPending (s : State) (i : SubId) : State :=
  let n := ((List.range s.cellar[i].avail).filter fun sp => !s.loomDone i sp).length
  s.onCellStat i fun x => { x with pending := BitVec.ofNat 4 n }

/-- Every granule of the span that is not yet written is written, marker codes where nothing arrived. -/
def State.closeSpan (s : State) (i : SubId) (o : OpenSpan) : State :=
  let left := (List.range (s.bayGranules i)).filter fun k => !SMap.get false o.written k
  let held (t : State) (k : Nat) : List (Option Byte) :=
    match ((allFin 4).flatMap fun sl => t.combine sl).find? fun g => g.sub == i && g.span == o.span && g.index == k with
    | some g => g.bytes
    | none => List.replicate 64 none
  let t := left.foldl (fun (t : State) k => t.putGranule i o.span o.bay k (t.filled i (held t k))) s
  let short := left.filter fun k => !((held s k).all fun b => b.isSome)
  (t.dropGranules i o.span).onCellStat i fun x => { x with markerGranules := x.markerGranules + BitVec.ofNat 64 short.length }

/-- The capture counts a span of its window that has become available, and is FROZEN with the last (R144). -/
def State.captureSpan (s : State) (i : SubId) (span : Nat) : State :=
  match s.front.capture.place i span with
  | none => s
  | some _ =>
    let c := s.front.capture
    let done := c.done + 1
    if done = c.count then
      ({ s with front := { s.front with capture := { c with done := done, state := 2 } } }).subEvent i 8
        c.firstSpan.toNat done.toNat
    else { s with front := { s.front with capture := { c with done := done } } }

/-- A span becomes available (R138): what is left of it is written, unless it has been overrun and holds no bay. -/
def State.makeAvailable (s : State) (i : SubId) (span : Nat) : State :=
  let t := match s.cellar[i].openOf span with
    | some o => s.closeSpan i o
    | none => s
  let now := s.now
  let t := t.onCellar i fun x =>
    { x with opened := x.opened.filter (fun y => y.span != span), avail := span + 1
             ready := x.ready.filter (fun e => e.1 != span), availAt := x.availAt ++ [(span, now)] }
  ((t.captureSpan i span).showPending i).noteFilled i

/-- A_s of the next span to become available has come: 100 µs since both its conditions hold. -/
def State.spanDue (s : State) (i : SubId) : Bool :=
  s.cellar[i].ready.any fun e => e.1 == s.cellar[i].avail && decide (e.2 + 100000 ≤ s.now)

/-- SPAN_AVAILABLE (R138). -/
def execSpanAvailable (i : SubId) (s : State) : Host.Outcome State Fault Refusal :=
  .next (if s.spanDue i then s.makeAvailable i s.cellar[i].avail else s)

/-! ### Captures (R143 to R147) -/

/-- s_T, the span whose first fine sample has the latest timestamp at or before a time. -/
def State.spanAt (s : State) (i : SubId) (t : Nat) : Option Nat :=
  if t < s.fineTime i 0 then none
  else
    let k := s.fineAt i (t + 1)
    some ((k - 1) / spanLen)

/-- The window of an accepted trigger: its record, and the bays frozen at once (R143, R144). -/
def State.startCapture (s : State) (i : SubId) (t16 first k : Nat) : State :=
  let x := s.cellar[i]
  let t0 := s.fineTime i (first * spanLen)
  let c : CellCapt :=
    { state := 1, subarray := BitVec.ofNat 2 i.val, count := BitVec.ofNat 4 k, format := x.cfg.format
      firstSpan := BitVec.ofNat 64 first, trigSecLo := BitVec.ofNat 32 (secOf t16)
      trigSecHi := BitVec.ofNat 16 (secOf t16 / 2 ^ 32), trigNs := BitVec.ofNat 30 (nsOf t16)
      blockMask := x.cfg.blockMask, fineChannels := x.cfg.fineChannels, bayBytes := x.cfg.bayBytes
      span0SecLo := BitVec.ofNat 32 (secOf t0), span0SecHi := BitVec.ofNat 16 (secOf t0 / 2 ^ 32)
      span0Ns := BitVec.ofNat 30 (nsOf t0) }
  let t := { s with front := { s.front with capture := c } }
  (List.range k).foldl (fun (u : State) m =>
    let u := match u.cellar[i].bayOf (first + m) with
      | some b => u.freezeBay i (first + m) b
      | none => u
    if first + m < u.cellar[i].avail then u.captureSpan i (first + m) else u) t

/-- Every frozen bay of a sub-array returns to the ring. -/
def State.thawBays (s : State) (i : SubId) : State :=
  (s.onCellar i fun x => { x with bays := x.bays.map fun b => { b with frozen := false } }).showBays i

/-- CELLAR_RELEASE: every frozen bay returns at once and the capture is gone (R145). Granary space kept for a capture
that outlived its sub-array returns too. -/
def State.releaseCapture (s : State) : State :=
  let t := { s with front := { s.front with capture := {} }
                    gran := { s.gran with regions := s.gran.regions.filter fun (r : Region) => r.kind != 5 } }
  (allFin 4).foldl (fun (u : State) i => u.thawBays i) t

/-- A FILLING capture of a sub-array that stops before its window is complete (R144). -/
def State.cutCapture (s : State) (i : SubId) (announce : Bool) : State :=
  let c := s.front.capture
  if c.state = 1 ∧ c.subarray.toNat = i.val then
    let avail := s.cellar[i].avail
    let c' := (List.range 6).foldl (fun (a : CellCapt) m =>
      if avail ≤ c.firstSpan.toNat + m then a.setBay m 0 else a) { c with state := 2, isShort := true }
    let t := { s with front := { s.front with capture := c' } }
    let t := t.onCellar i fun x =>
      { x with bays := x.bays.map fun b =>
          match b.span with
          | some sp => if avail ≤ sp then { b with frozen := false } else b
          | none => b }
    let t := t.showBays i
    if announce then t.subEvent i 8 c.firstSpan.toNat c.done.toNat else t
  else s

end Sys2Proof.Machine
end

