-- ==== Sys2Proof/Machine/Shelf.lean ====
section
/-! DEFINITION. The Shelf and the Loom's input stage: staging units, decoding, valid counts, jobs of a unit and when a
span is settled (R12, R13, R148, R149, R156, R158, R163, R168, R219, R230). -/

namespace Sys2Proof.Machine

/-! ### The input stage (R156) -/

/-- A staged 4+4 byte: valid, value, and whether it is an odd code. -/
def decode4 (b : Byte) : Bool × Cplx × Bool :=
  let re := signedOf 4 (b.toNat / 16)
  let im := signedOf 4 b.toNat
  if re = -8 ∨ im = -8 then (false, (0, 0), b != 0x88) else (true, (re, im), false)

/-- A staged 8+8 sample. -/
def decode8 (r i : Byte) : Bool × Cplx × Bool :=
  if r = 0x80 ∨ i = 0x80 then (false, (0, 0), !(r == 0x80 && i == 0x80))
  else (true, (signedOf 8 r.toNat, signedOf 8 i.toNat), false)

/-- A staged sample from its bytes. -/
def decodeSample (wide : Bool) (bs : List Byte) : Bool × Cplx × Bool :=
  if wide then decode8 (bs.getD 0 0) (bs.getD 1 0) else decode4 (bs.getD 0 0)

/-- N, the inputs of a sub-array. -/
def State.nInputs (s : State) (i : SubId) : Nat := 128 * s.nb i

/-- The address of a Shelf buffer. -/
def State.shelfAddr (s : State) (i : SubId) (n : Fin 2) : Nat :=
  shelfBase + s.cellar[i].cfg.shelfBase.toNat + n.val * s.cellar[i].cfg.shelfUnit.toNat

/-- Fine samples of a unit. -/
def State.unitLen (s : State) (i : SubId) : Nat := 4096 / s.halves i

/-- The staged sample of a local input at a fine sample of the unit in a buffer. -/
def State.shelfSample (s : State) (i : SubId) (n : Fin 2) (t input : Nat) : Bool × Cplx × Bool :=
  let b := s.sampleBytes i
  let off := (t / 64 * s.nb i + input / 128) * s.brick i + (t % 64 * 128 + input % 128) * b
  decodeSample s.cellar[i].cfg.format (s.mem.load (s.shelfAddr i n + off) b)

/-! ### Which unit is next (R149) -/

/-- The next unit of a span to stage from one on: neither condemned nor of a cut fine channel. -/
def State.nextUnit (s : State) (i : SubId) (span from' : Nat) : Option Nat :=
  let (lo, hi) := s.uncut i
  let per := 8 * s.halves i
  let x := s.cellar[i]
  ((List.range (hi * per - from')).map fun k => from' + k).find? fun u => decide (lo * per ≤ u) && !x.isCondemned span u

/-- The unit a buffer holds completely staged. -/
def State.stagedAt (s : State) (i : SubId) (span u : Nat) : Option (Fin 2) :=
  (allFin 2).find? fun n => match s.cellar[i].buffers[n] with
    | some g => g.span == span && g.unit == u && g.staged
    | none => false

/-- A change of a buffer. -/
def State.setBuffer (s : State) (i : SubId) (n : Fin 2) (g : Option Staging) : State :=
  s.onCellar i fun x => { x with buffers := vset x.buffers n g }

/-- A copy into some buffer is in progress. -/
def CellarSub.anyCopy (x : CellarSub) : Bool :=
  x.buffers.toList.any fun b => match b with
    | some g => !g.staged
    | none => false

/-- Two ranges overlap. -/
def overlaps (a n b m : Nat) : Bool := decide (a < b + m) && decide (b < a + n)

/-- The Shelf region of a sub-array: its base and its bytes. -/
def CellarSub.region (x : CellarSub) : Nat × Nat := (x.cfg.shelfBase.toNat, 2 * x.cfg.shelfUnit.toNat)

/-- The Shelf region of a sub-array reaches into one that another sub-array gives up at its next boundary (log entry 62). -/
def State.shelfTaken (s : State) (i : SubId) : Bool :=
  let r := s.cellar[i].region
  (allFin 4).any fun j => j != i && s.cellar[j].shelfNext.isSome &&
    overlaps r.1 r.2 s.cellar[j].region.1 s.cellar[j].region.2

/-- A free buffer takes the next unit of the running span, one copy at a time. No copy begins from a bay that the writer has
reassigned (R141). -/
def State.fillBuffers (s : State) (i : SubId) : State :=
  let x := s.cellar[i]
  match s.loom[i].running, (allFin 2).find? fun n => x.buffers[n].isNone with
  | some span, some n =>
    if x.anyCopy ∨ s.loom[i].finishAt.isSome ∨ x.losing span ∨ s.shelfTaken i then s
    else
      match s.nextUnit i span x.stageNext with
      | some u => (s.setBuffer i n (some ⟨span, u, false, false⟩)).onCellar i fun y => { y with stageNext := u + 1 }
      | none => s
  | _, _ => s

/-! ### Settling (R149, R168) -/

/-- The tiles that hold a job or a dump of a sub-array for which `f` holds. -/
def State.tilesBusy (s : State) (i : SubId) (f : Job → Bool) : Bool :=
  s.tiles.tiles.toList.any fun t =>
    (match t.job with
     | some (j, _) => j.sub == i && f j
     | none => false) ||
    (match t.dump with
     | some d => d.job.sub == i && f d.job
     | none => false)

/-- The beam jobs of a sub-array in flight. -/
def State.beamsFlying (s : State) (i : SubId) : List BeamJob :=
  s.tiles.tiles.toList.filterMap fun t =>
    match t.beam with
    | some r => if r.job.sub = i then some r.job else none
    | none => none

/-- A unit has a beam job that is not settled. -/
def State.beamBusy (s : State) (i : SubId) (span u : Nat) : Bool :=
  (s.loom[i].beamQueue ++ s.beamsFlying i).any fun j => j.span == span && j.unit == u

/-- A unit has a job that is not settled. -/
def State.unitBusy (s : State) (i : SubId) (span u : Nat) : Bool :=
  let x := s.loom[i]
  x.queue.any (fun j => j.span == span && j.unit == u) || s.beamBusy i span u ||
    s.tilesBusy i fun j => j.span == span && j.unit == u

/-- Buffers whose every job is settled are released, and the next unit is staged. -/
def State.releaseBuffers (s : State) (i : SubId) : State :=
  let t := (allFin 2).foldl (fun (t : State) n =>
    match t.cellar[i].buffers[n] with
    | some g => if g.staged && !t.unitBusy i g.span g.unit then t.setBuffer i n none else t
    | none => t) s
  t.fillBuffers i

/-- Every job of the running span is settled. -/
def State.spanSettled (s : State) (i : SubId) (span : Nat) : Bool :=
  let x := s.loom[i]
  !s.cellar[i].anyCopy && x.queue.isEmpty && x.beamQueue.isEmpty && !s.tilesBusy i (fun _ => true) &&
    (s.beamsFlying i).isEmpty && (s.nextUnit i span s.cellar[i].stageNext).isNone

/-- FINE_CHAN: the lowest fine channel with jobs not committed. -/
def State.showFine (s : State) (i : SubId) : State :=
  let x := s.loom[i]
  let inTiles := s.tiles.tiles.toList.flatMap fun t =>
    (match t.job with
     | some (j, _) => if j.sub = i then [j.f] else []
     | none => []) ++
    (match t.dump with
     | some d => if d.job.sub = i then [d.job.f] else []
     | none => [])
  let staging := s.cellar[i].buffers.toList.filterMap fun b => b.map fun g => (s.unitParts i g.unit).1
  let next := match x.running with
    | some span => ((s.nextUnit i span s.cellar[i].stageNext).map fun u => (s.unitParts i u).1).toList
    | none => []
  match x.queue.map (fun j => j.f) ++ inTiles ++ staging ++ next with
  | [] => s
  | f :: fs => s.onLoomStat i fun y => { y with fineChan := BitVec.ofNat 24 (fs.foldl min f) }

/-- The Loom finishes the running span at the instant at which every job of it is settled (R168). -/
def State.noteFinished (s : State) (i : SubId) : State :=
  let x := s.loom[i]
  match x.running with
  | some span =>
    if x.finishAt.isNone ∧ s.spanSettled i span then
      let a := ((s.cellar[i].availAt.find? fun e => e.1 == span).map fun e => e.2).getD s.now
      let lag := (s.now - a) / 1000
      let t := s.onLoom i fun y => { y with finishAt := some s.now }
      let t := t.onCellar i fun y =>
        { y with availAt := y.availAt.filter (fun e => e.1 != span)
                 condemned := y.condemned.filter (fun e => span < e.1)
                 stat := { y.stat with maxLag := satNat 32 (max y.stat.maxLag.toNat lag) } }
      t.showPending i
    else s
  | none => s

/-- What follows whenever a job is settled or a unit is condemned. -/
def State.settled (s : State) (i : SubId) : State := ((s.releaseBuffers i).showFine i).noteFinished i

/-! ### Jobs of a unit (R158, R219) -/

/-- s, the slices of a chunk: at least 2 where units are half chunks (R158). A plan with s = 1 whose sub-array's units a
later OBS_DEFINE halves runs with 2 (log entry 62). -/
def State.slicesOf (s : State) (i : SubId) (p : Plan) : Nat := max (2 ^ p.sLog2) (s.halves i)

/-- The correlation jobs of a unit in queue order. -/
def State.jobsOf (s : State) (i : SubId) (span u : Nat) : List Job :=
  match s.loom[i].plan with
  | none => []
  | some p =>
    let (f, c, half) := s.unitParts i u
    let per := s.slicesOf i p / s.halves i
    (List.range per).flatMap fun k => p.order.map fun e =>
      { sub := i, span := span, unit := u, f := f, chunk := c, slice := half * per + k, i := e.1, j := e.2 }

/-- Beams of a sub-array. -/
def State.beams (s : State) (i : SubId) : Nat := s.beam[i].cfg.beams.toNat

/-- The beam jobs of a unit. -/
def State.beamJobsOf (s : State) (i : SubId) (span u : Nat) : List BeamJob :=
  let (f, c, _) := s.unitParts i u
  (List.range (s.beams i * s.nb i / 128)).map fun j => { sub := i, span := span, unit := u, f := f, chunk := c, j := j }

/-! ### The valid counts and flags of a unit (R163, R230) -/

/-- The key of the valid count of a fine channel, chunk, piece of 512 fine samples and local input. -/
def validKey (f c piece input : Nat) : Nat := ((f * 8 + c) * 8 + piece) * 4096 + input

/-- Valid fine samples of a local input in a piece of a staged unit. -/
def State.pieceValid (s : State) (i : SubId) (n : Fin 2) (piece input : Nat) : Nat :=
  ((List.range 512).filter fun t => (s.shelfSample i n (512 * piece + t) input).1).length

/-- The counts of a staged unit, added to the Ledger's; none are kept without a weight-record format (R207). -/
def State.countValid (s : State) (i : SubId) (n : Fin 2) (u : Nat) : State :=
  let (f, c, half) := s.unitParts i u
  let pieces := s.unitLen i / 512
  if !s.ledger[i].counting then s
  else s.onLedger i fun x =>
    { x with valid := (List.range pieces).foldl (fun (m : SMap Nat) p =>
        (List.range (s.nInputs i)).foldl (fun (m : SMap Nat) a =>
          SMap.set 0 m (validKey f c (half * pieces + p) a) (s.pieceValid i n p a)) m) x.valid }

/-- EMPTY (2) and PARTIAL (1) of each fine sample of a unit, kept where the sub-array has beams. -/
def State.markFlags (s : State) (i : SubId) (n : Fin 2) (u : Nat) : State :=
  if s.beams i = 0 then s
  else
    let (f, c, half) := s.unitParts i u
    let nIn := s.nInputs i
    s.onBeam i fun x =>
      { x with flags := (List.range (s.unitLen i)).foldl (fun (m : SMap (Fin 3)) t =>
          let v := ((List.range nIn).filter fun a => (s.shelfSample i n t a).1).length
          SMap.set 0 m (f * spanLen + c * 4096 + half * s.unitLen i + t) (if v = 0 then 2 else if v < nIn then 1 else 0)) x.flags }

/-- Codes of a staged unit that enter as zero without being the marker (R156). -/
def State.oddCodes (s : State) (i : SubId) (n : Fin 2) : Nat :=
  (List.range (s.unitLen i)).foldl (fun a t =>
    a + ((List.range (s.nInputs i)).filter fun k => (s.shelfSample i n t k).2.2).length) 0

/-- Microseconds since an instant. -/
def usSince (now : Nat) (t : Option Nat) : BitVec 32 :=
  match t with
  | some a => BitVec.ofNat 32 ((now - a) / 1000)
  | none => 0

/-- The wait for a staged unit ends (R169). -/
def State.endShelfWait (s : State) (i : SubId) : State :=
  s.onLoom i fun x =>
    { x with shelfIdle := none, stat := { x.stat with shelfWait := x.stat.shelfWait + usSince s.now x.shelfIdle } }

/-- The copy of a unit into a buffer ends (R149). The copy waits while a frozen channel answers it with errors. -/
def State.stageUnit (s : State) (i : SubId) (n : Fin 2) (g : Staging) : State :=
  let (f, c, half) := s.unitParts i g.unit
  let size := s.cellar[i].cfg.shelfUnit.toNat
  match s.cellar[i].sourceBay g.span with
  | none => s
  | some bay =>
    let a := s.bayAddr i bay + (f * 512 + 64 * c) * s.nb i * s.brick i + half * size
    let r := s.granRead a size
    match r.2 with
    | none => r.1
    | some data =>
      let t := { r.1 with mem := r.1.mem.store (r.1.shelfAddr i n) data }
      let t := (t.setBuffer i n (some { g with staged := true })).endShelfWait i
      if g.again then t
      else
        let t := ((t.countValid i n g.unit).markFlags i n g.unit).onLoomStat i fun x =>
          { x with oddCodes := x.oddCodes + BitVec.ofNat 32 (t.oddCodes i n) }
        let jobs := t.jobsOf i g.span g.unit
        let beams := t.beamJobsOf i g.span g.unit
        t.onLoom i fun x => { x with queue := x.queue ++ jobs, beamQueue := x.beamQueue ++ beams }

/-- UNIT_STAGED (R149): the copy in progress ends; a unit staged again comes first. -/
def execUnitStaged (i : SubId) (s : State) : Host.Outcome State Fault Refusal :=
  let copies := (allFin 2).filterMap fun n => match s.cellar[i].buffers[n] with
    | some g => if g.staged then none else some (n, g)
    | none => none
  let pick := match copies.find? fun e => e.2.again with
    | some e => some e
    | none => copies.head?
  .next (match pick with
    | some (n, g) => ((s.stageUnit i n g).settled i)
    | none => s)

/-- CONDEMN (R141): once no staging copy from the bay is in progress, the overrun span is condemned and the writer opens the
span that has taken its bay. -/
def execCondemn (i : SubId) (s : State) : Host.Outcome State Fault Refusal :=
  .next (match s.cellar[i].overrun with
    | some v =>
      if s.cellar[i].copying v.old then s
      else (((((s.condemn i v.old).openAt i v.new v.bay).flushFull i).noteFilled i).settled i)
    | none => s)

/-! ### Uncorrectable Shelf errors (R149, R177, R178, R222, R237) -/

/-- A tile without its jobs of some units, and the correlation jobs taken from it. -/
def Tile.takeUnits (t : Tile) (mine : SubId → Nat → Nat → Bool) : Tile × List Job :=
  let a := match t.job with
    | some (j, _) => if mine j.sub j.span j.unit then [j] else []
    | none => []
  let b := match t.dump with
    | some d => if mine d.job.sub d.job.span d.job.unit then [d.job] else []
    | none => []
  let beam := match t.beam with
    | some r => if mine r.job.sub r.job.span r.job.unit then none else some r
    | none => none
  ({ t with job := if a.isEmpty then t.job else none, dump := if b.isEmpty then t.dump else none, beam := beam }, a ++ b)

/-- The jobs of some units of a sub-array that are computing or dumping are abandoned; their dumps are discarded (R189).
Answers the correlation jobs. -/
def State.abandonUnits (s : State) (i : SubId) (mine : Nat → Nat → Bool) : State × List Job :=
  (allFin 42).foldl (fun (r : State × List Job) t =>
    let hasDump := match (r.1.tile t).dump with
      | some d => d.job.sub == i && mine d.job.span d.job.unit
      | none => false
    let (tile, js) := (r.1.tile t).takeUnits fun j span u => j == i && mine span u
    let s' := r.1.onTile t fun _ => tile
    (if hasDump then s'.onLedgStat i fun x => { x with dumpsDiscarded := x.dumpsDiscarded + 1 } else s', r.2 ++ js)) (s, [])

/-- The order of jobs in a queue (R162). -/
def Job.before (p : Plan) (a b : Job) : Bool :=
  let k (j : Job) : Nat := (j.unit * 8 + j.slice) * 1024 + (p.order.findIdx fun e => e.1 == j.i && e.2 == j.j)
  decide (k a < k b)

/-- A job inserted in queue order. -/
def insertJob (p : Plan) (j : Job) : List Job → List Job
  | [] => [j]
  | x :: xs => if Job.before p j x then j :: x :: xs else x :: insertJob p j xs

/-- A beam job inserted in queue order (R221). -/
def insertBeam (j : BeamJob) : List BeamJob → List BeamJob
  | [] => [j]
  | x :: xs => if j.unit < x.unit ∨ (j.unit = x.unit ∧ j.j < x.j) then j :: x :: xs else x :: insertBeam j xs

/-- The beam store set of a unit is cleared, and the fine samples its beams had lost are to be formed again. -/
def State.clearStore (s : State) (i : SubId) (span u : Nat) : State :=
  let (f, c, _) := s.unitParts i u
  s.onBeam i fun x =>
    { x with store := Vector.ofFn fun k => if x.owner[k] = some (span, u) then [] else x.store[k]
             lost := x.lost.filter fun e =>
               !(e.1 == span && e.2.1 == f && decide (c * 4096 ≤ e.2.2.1) && decide (e.2.2.1 < (c + 1) * 4096)) }

/-- The unit in a buffer is staged again from its bay: the jobs not settled run again from the restaged unit, and every
beam job of the unit from fine sample 0 (R149, R177, R237). -/
def State.restage (s : State) (i : SubId) (n : Fin 2) (g : Staging) : State :=
  let t := s.setBuffer i n (some { g with staged := false, again := true })
  let (t, js) := t.abandonUnits i fun span u => span == g.span && u == g.unit
  let t := t.onLoom i fun x =>
    match x.plan with
    | some p => { x with queue := js.foldl (fun q j => insertJob p j q) x.queue }
    | none => x
  let bs := t.beamJobsOf i g.span g.unit
  let t := t.onLoom i fun x =>
    let rest := x.beamQueue.filter fun j => !(j.span == g.span && j.unit == g.unit)
    { x with beamQueue := bs.foldl (fun q j => insertBeam j q) rest }
  (t.clearStore i g.span g.unit).onCellStat i fun x => { x with shelfRestage := x.shelfRestage + 1 }

/-- The valid fine samples of a lost job's slice leave the counts of its two blocks, at most once (R178, R208). -/
def State.dropValid (s : State) (i : SubId) (j : Job) : State :=
  let pieces := match s.loom[i].plan with
    | some p => 8 / s.slicesOf i p
    | none => 8
  s.onLedger i fun x =>
    { x with valid := (List.range pieces).foldl (fun (m : SMap Nat) k =>
        [j.i, j.j].foldl (fun (m : SMap Nat) b =>
          let a := validKey j.f j.chunk (j.slice * pieces + k) (128 * b)
          SMap.clear m a (a + 128)) m) x.valid }

/-- A correlation job is lost (R178): by its third failure, or with its unit while the Loom is held. -/
def State.loseJob (s : State) (i : SubId) (j : Job) (held : Bool) : State :=
  let blk (k : Nat) : BitVec 5 := BitVec.ofNat 5 ((s.blocks i).getD k 0)
  let e : LoomLost :=
    { span := BitVec.ofNat 64 j.span, fineChan := BitVec.ofNat 24 j.f, chunk := BitVec.ofNat 3 j.chunk
      slice := BitVec.ofNat 3 j.slice, subarray := BitVec.ofNat 2 i.val, blockI := blk j.i, blockJ := blk j.j, cause := held }
  let t := s.dropValid i j
  let t := { t with tiles := { t.tiles with lost := (e :: t.tiles.lost).take 16, lostTotal := t.tiles.lostTotal + 1 } }
  (t.onLoomStat i fun x => { x with lost := x.lost + 1, lostSeen := true }).raise srcLoomJobLost (BitVec.ofNat 32 i.val) (some i)

/-- A beam job is lost: the uncommitted fine samples of its beams become marker codes (R222). -/
def State.loseBeam (s : State) (i : SubId) (j : BeamJob) : State :=
  let t := s.onBeam i fun x =>
    { x with lost := x.lost ++ [(j.span, j.f, j.chunk * 4096 + j.start, (j.chunk + 1) * 4096, 16 * j.j, 16 * j.j + 15)]
             stat := { x.stat with lost := x.stat.lost + 1, lostSeen := true } }
  t.raise srcBeamJobLost (BitVec.ofNat 32 i.val) (some i)

/-- Every beam value of a chunk is a marker with its flag set (R230). -/
def State.markLost (s : State) (i : SubId) (span f c : Nat) : State :=
  if s.beams i = 0 then s
  else s.onBeam i fun x =>
    { x with lost := x.lost ++ [(span, f, c * 4096, (c + 1) * 4096, 0, s.beams i / 8 * s.nb i - 1)] }

/-- The unit in a buffer can not be staged again: its whole chunk, both halves of it, is treated as condemned (R142, R149).
Its jobs that are not settled are dropped, or lost while the Loom is held (R178, R222; log entry 75). -/
def State.loseUnit (s : State) (i : SubId) (g : Staging) : State :=
  let h := s.halves i
  let (f, c, _) := s.unitParts i g.unit
  let k := g.unit / h
  let mine (span u : Nat) : Bool := span == g.span && u / h == k
  let gone := (s.loom[i].queue.filter fun j => mine j.span j.unit) ++ (s.abandonUnits i mine).2
  let beams := (s.loom[i].beamQueue ++ s.beamsFlying i).filter fun j => mine j.span j.unit
  let t := ((s.abandonUnits i mine).1).onLoom i fun x =>
    { x with queue := x.queue.filter (fun j => !mine j.span j.unit)
             beamQueue := x.beamQueue.filter fun j => !mine j.span j.unit }
  let t := if s.loomHeld then beams.foldl (fun (u : State) j => u.loseBeam i j) (gone.foldl (fun (u : State) j => u.loseJob i j true) t)
    else t
  let t := t.onLedger i fun x => { x with valid := SMap.clear x.valid (validKey f c 0 0) (validKey f c 8 0) }
  let again := (List.range h).any fun d => s.cellar[i].isCondemned g.span (k * h + d)
  ((t.clearStore i g.span g.unit).markLost i g.span f c).onCellar i fun x =>
    { x with condemned := x.condemned ++ [(g.span, k * h, (k + 1) * h)]
             buffers := x.buffers.map fun b => b.filter fun o => !mine o.span o.unit
             stat := { x.stat with condemnedChunks := if again then x.stat.condemnedChunks else x.stat.condemnedChunks + 1 } }

/-- SHELF_ECC (R149): the unit of an uncorrectable word is staged again while its bay holds its span, and is lost otherwise. -/
def execShelfEcc (i : SubId) (site : ShelfSite) (s : State) : Host.Outcome State Fault Refusal :=
  .next (match site with
    | .corrected => s.onCellStat i fun x => { x with shelfCorr := x.shelfCorr + 1 }
    | .buffer n =>
      match s.cellar[i].buffers[n] with
      | some g =>
        if !g.staged then s
        else
          let t := s.onCellStat i fun x => { x with shelfErrSeen := true }
          let t := t.raise srcShelfEcc (BitVec.ofNat 32 i.val) (some i)
          if (t.cellar[i].bayOf g.span).isSome then t.restage i n g else (t.loseUnit i g).settled i
      | none => s)

/-! ### The Shelf's layout (R16, R148; log entry 62) -/

/-- The whole-chunk buffers of every defined sub-array exceed the Shelf. -/
def State.shelfTight (s : State) : Bool :=
  decide (0x2000000 < s.defined.foldl (fun (a : Nat) j => a + 8192 * (s.nInputs j) * s.sampleBytes j) 0)

/-- HALVES and SHELF_UNIT of a sub-array (R148). -/
def State.shelfUnit (s : State) (i : SubId) : Bool × Nat :=
  let half := s.shelfTight && s.cellar[i].cfg.format
  (half, 4096 * s.nInputs i * s.sampleBytes i / if half then 2 else 1)

/-- The lowest place for `n` entries below a limit beside ranges that are taken. -/
def fitIn (taken : List (Nat × Nat)) (n limit : Nat) : Option Nat :=
  (0 :: taken.map fun e => e.1 + e.2).foldl (fun (a : Option Nat) c =>
    if c + n ≤ limit ∧ !(taken.any fun e => overlaps c n e.1 e.2) then
      match a with
      | some b => some (min b c)
      | none => some c
    else a) none

/-- Sub-arrays placed one after another, each as low as it can. -/
def placeAll (limit : Nat) : List (SubId × Nat) → List (Nat × Nat) → List (SubId × Nat) → Option (List (SubId × Nat))
  | [], _, out => some out
  | (j, n) :: rest, taken, out =>
    match fitIn taken n limit with
    | some b => placeAll limit rest ((b, n) :: taken) ((j, b) :: out)
    | none => none

/-- The regions of a list of sub-arrays: those that stay keep their place, and the others take the lowest places beside them;
where they find none, all are placed afresh, each on top of the one before. -/
def layout (limit : Nat) (stay : List (SubId × Nat × Nat)) (move : List (SubId × Nat)) : Option (List (SubId × Nat)) :=
  match placeAll limit move (stay.map fun e => e.2) (stay.map fun e => (e.1, e.2.1)) with
  | some l => some l
  | none => placeAll limit ((stay.map fun e => (e.1, e.2.2)) ++ move) [] []

/-- The Shelf place a sub-array has, or is to have at its next boundary. -/
def CellarSub.shelfPlace (x : CellarSub) : Bool × Nat × Nat :=
  x.shelfNext.getD (x.cfg.halves, x.cfg.shelfBase.toNat, x.cfg.shelfUnit.toNat)

/-- Condemned runs in units of another number of halves: a chunk stays condemned where any part of it was. -/
def regroup (was now : Nat) (runs : List (Nat × Nat × Nat)) : List (Nat × Nat × Nat) :=
  runs.map fun e => (e.1, e.2.1 / was * now, (e.2.2 + was - 1) / was * now)

/-- A Shelf place is taken at once. -/
def State.writeShelf (s : State) (i : SubId) (p : Bool × Nat × Nat) : State :=
  let runs := if s.cellar[i].cfg.halves = p.1 then s.cellar[i].condemned
    else regroup (s.halves i) (if p.1 then 2 else 1) s.cellar[i].condemned
  (s.onCellar i fun x =>
    { x with shelfNext := none, condemned := runs
             cfg := { x.cfg with halves := p.1, shelfBase := BitVec.ofNat 25 p.2.1, shelfUnit := BitVec.ofNat 25 p.2.2 } }).onLoom i
      fun x => { x with cfg := { x.cfg with halves := p.1 } }

/-- A Shelf place is given: at once, or at the next Loom span boundary where a span runs. -/
def State.giveShelf (s : State) (i : SubId) (p : Bool × Nat × Nat) : State :=
  let c := s.cellar[i].cfg
  if s.loom[i].running.isNone then s.writeShelf i p
  else s.onCellar i fun x => { x with shelfNext := if (c.halves, c.shelfBase.toNat, c.shelfUnit.toNat) = p then none else some p }

/-- Every buffer that may take a unit does. -/
def State.fillAll (s : State) : State := (allFin 4).foldl (fun (t : State) i => t.fillBuffers i) s

/-- The Shelf place that waits for a boundary of a sub-array is taken. -/
def State.applyShelf (s : State) (i : SubId) : State :=
  match s.cellar[i].shelfNext with
  | some p => (s.writeShelf i p).fillAll
  | none => s

/-- The Shelf regions of every defined sub-array (R148): one whose unit stays keeps its place. They always fit. -/
def State.layShelf (s : State) : State :=
  let subs := s.defined
  let stay := (subs.filter fun j => s.cellar[j].shelfPlace.2.2 == (s.shelfUnit j).2).map fun j =>
    (j, s.cellar[j].shelfPlace.2.1, 2 * (s.shelfUnit j).2)
  let move := (subs.filter fun j => s.cellar[j].shelfPlace.2.2 != (s.shelfUnit j).2).map fun j => (j, 2 * (s.shelfUnit j).2)
  ((layout 0x2000000 stay move).getD []).foldl (fun (t : State) e => t.giveShelf e.1 ((s.shelfUnit e.1).1, e.2, (s.shelfUnit e.1).2)) s

end Sys2Proof.Machine
end

