-- ==== Sys2Proof/Machine/Ledger.lean ====
section
/-! DEFINITION. The Ledger: SRAM sets, folds, integrations, drains, output tiles and weight records (R188 to R210). -/

namespace Sys2Proof.Machine

/-! ### Sets (R193, R196) -/

/-- P, the block positions of a sub-array. -/
def State.positions (s : State) (i : SubId) : Nat := s.nb i * (s.nb i + 1) / 2

/-- The index of position (I, J) in ascending order. -/
def posIndex (nb a b : Nat) : Nat := a * nb - a * (a - 1) / 2 + (b - a)

/-- The positions in ascending order. -/
def posList (nb : Nat) : List (Nat × Nat) :=
  (List.range nb).flatMap fun a => (List.range (nb - a)).map fun k => (a, a + k)

/-- Entries of an output tile as the Loom dumps it. -/
def tileEntries : Nat := 16384

/-- The address of an entry of a position in the SRAM set of a fine channel. -/
def State.setAddr (s : State) (i : SubId) (f p e : Nat) : Nat :=
  let c := s.ledger[i].cfg
  ledgerBase + c.sramBase.toNat + f % 2 * c.setBytes.toNat + (p * tileEntries + e) * 12

/-- The bytes of an SRAM entry: 48 bits for each part, lowest first. -/
def setBytesOf (v : Cplx) : List Byte := leBytes 6 (codeOf 48 v.1) ++ leBytes 6 (codeOf 48 v.2)

/-- An SRAM entry from its bytes. -/
def setEntryOf (bs : List Byte) : Cplx := (signedOf 48 (leAt bs 0 6), signedOf 48 (leAt bs 6 6))

/-- The entries of a position in the set of a fine channel. -/
def State.setTile (s : State) (i : SubId) (f p : Nat) : List Cplx :=
  (List.range tileEntries).map fun e => setEntryOf (s.mem.load (s.setAddr i f p e) 12)

/-- The set a fine channel uses. -/
def setOf (f : Nat) : Fin 2 := ⟨f % 2, Nat.mod_lt _ (by decide)⟩

/-- The set of a fine channel accumulates that channel of a span. -/
def State.ownsSet (s : State) (i : SubId) (span f : Nat) : Bool := s.ledger[i].sets[setOf f] == some (span, f)

/-- The adders commit a dump into the set of its fine channel (R189). -/
def State.commitDump (s : State) (i : SubId) (f p : Nat) (entries : List Cplx) : State :=
  let mem := entries.zipIdx.foldl (fun (m : Memory) e =>
    let a := s.setAddr i f p e.2
    let old := setEntryOf (m.load a 12)
    m.store a (setBytesOf (old.1 + e.1.1, old.2 + e.1.2))) s.mem
  ({ s with mem := mem }).onLedgStat i fun x => { x with entries := x.entries + BitVec.ofNat 64 tileEntries }

/-- The wait for a Ledger set ends (R169). -/
def State.endLedgerWait (s : State) (i : SubId) : State :=
  s.onLoom i fun x =>
    { x with ledgerIdle := none, stat := { x.stat with ledgerWait := x.stat.ledgerWait + usSince s.now x.ledgerIdle } }

/-- The set of a fine channel reads zero again and is released. -/
def State.releaseSet (s : State) (i : SubId) (span f : Nat) : State :=
  if s.ownsSet i span f then
    let t := { s with mem := s.mem.zero (s.setAddr i f 0 0) s.ledger[i].cfg.setBytes.toNat }
    (t.onLedger i fun x => { x with sets := vset x.sets (setOf f) none }).endLedgerWait i
  else s

/-- Both sets of a sub-array are cleared. -/
def State.clearSets (s : State) (i : SubId) : State :=
  let c := s.ledger[i].cfg
  ({ s with mem := s.mem.zero (ledgerBase + c.sramBase.toNat) (2 * c.setBytes.toNat) }).onLedger i fun x =>
    { x with sets := Vector.replicate 2 none }

/-! ### Folds (R194, R196) -/

/-- The granule of four entries of a position in the DRAM ledger. -/
def State.foldGranule (s : State) (i : SubId) (f p k : Nat) : Nat :=
  (s.ledger[i].cfg.dramBase.toNat - granBase) / 64 + ((f * s.positions i + p) * tileEntries) / 4 + k

/-- A fold of one position by a kind that touches the DRAM ledger. Answers the old entries; none on an error response. -/
def State.foldTile (s : State) (i : SubId) (f p : Nat) (kind : FoldKind) (set : List Cplx) : State × Option (List Cplx) :=
  (List.range (tileEntries / 4)).foldl (fun (r : State × Option (List Cplx)) k =>
    let w := r.1.granuleFold (s.foldGranule i f p k) kind ((set.drop (4 * k)).take 4)
    (w.1, match r.2, w.2 with
      | some a, some b => some (a ++ b)
      | _, _ => none)) (s, some [])

/-- What a fold gives to output for a position: the exact values of R204, or none where it gives none. -/
def State.foldOut (s : State) (i : SubId) (f p : Nat) (kind : FoldKind) (set : List Cplx) : State × Option (List Cplx) :=
  match kind with
  | .direct => (s, some set)
  | .store | .add => ((s.foldTile i f p kind set).1, none)
  | .take =>
    let r := s.foldTile i f p kind set
    (r.1, r.2.map fun old => (old.zip set).map fun e => (addPinned e.1.1 e.2.1, addPinned e.1.2 e.2.2))
  | .swap | .flush => s.foldTile i f p kind set

/-! ### Output tiles (R203 to R205, R209) -/

/-- The entries of a tile that are kept: all of an off-diagonal tile, c ≥ a of a diagonal one. -/
def keptEntries (diag : Bool) (vs : List Cplx) : List Cplx :=
  if diag then (vs.zipIdx.filter fun e => decide (e.2 / 128 ≤ e.2 % 128)).map fun e => e.1 else vs

/-- A part is pinned (R191). -/
def isPinned (v : Int) : Bool := v == pin64 || v == -pin64

/-- The largest compact value. -/
def pin32 : Int := 2147483647

/-- A compact part, and whether it was limited (R204). -/
def compactPart (shift : Nat) (v : Int) : Int × Bool :=
  if isPinned v then (if 0 ≤ v then pin32 else -pin32, true)
  else
    let y := shrEven v shift
    if pin32 < y then (pin32, true) else if y < -pin32 then (-pin32, true) else (y, false)

/-- The bytes of an entry in a format. -/
def visBytes (exact : Bool) (shift : Nat) (v : Cplx) : List Byte :=
  if exact then leBytes 8 (codeOf 64 v.1) ++ leBytes 8 (codeOf 64 v.2)
  else leBytes 4 (codeOf 32 (compactPart shift v.1).1) ++ leBytes 4 (codeOf 32 (compactPart shift v.2).1)

/-- The global block number of a local one. -/
def State.blockNo (s : State) (i : SubId) (k : Nat) : Nat := (s.blocks i).getD k 0

/-- Spans of a whole integration. -/
def State.intSpans (s : State) (i : SubId) : Nat := s.ledger[i].cfg.intSpansM1.toNat + 1

/-- The packets of one output tile through one visibility format. -/
def State.visPackets (s : State) (i : SubId) (q : Integ) (h : Hold) (f a b : Nat) (kept : List Cplx) (satL satC : Bool)
    (e : Fin 64 × FmtOut) : State :=
  let per := e.2.payloadMax / (if e.2.exact then 16 else 8)
  let n := (kept.length + per - 1) / per
  (List.range n).foldl (fun (t : State) k =>
    let part := (kept.drop (k * per)).take per
    let flags := (if e.2.exact then 1 else 0) + (if a = b then 2 else 0) + (if k + 1 = n then 4 else 0) +
      (if satL then 8 else 0) + (if satC && !e.2.exact then 16 else 0) + (if h.count < s.intSpans i then 32 else 0)
    let fields := beBytes 8 q.number ++ beBytes 8 h.first ++ beBytes 4 h.count ++ beBytes 4 f ++
      [BitVec.ofNat 8 (s.blockNo i a), BitVec.ofNat 8 (s.blockNo i b), BitVec.ofNat 8 q.shift, 0] ++
      beBytes 2 (k * per) ++ beBytes 2 part.length
    t.buildPacket e.1 e.2 0x10 flags f 0 fields (s.fineTime i (h.first * spanLen)) (part.flatMap (visBytes e.2.exact q.shift))) s

/-- A change of an integration. -/
def State.onInteg (s : State) (i : SubId) (number : Nat) (f : Integ → Integ) : State :=
  s.onLedger i fun x => { x with integs := x.integs.map fun q => if q.number = number then f q else q }

/-- An output tile is built, or withheld (R205, R209). -/
def State.outputTile (s : State) (i : SubId) (q : Integ) (h : Hold) (f p : Nat) (pos : Nat × Nat) (vs : List Cplx) : State :=
  if q.withheld.any fun e => e.1 == f && e.2 == p then
    s.onLedgStat i fun x =>
      { x with withheldTiles := x.withheldTiles + 1, withheldSeen := true, whIntegration := BitVec.ofNat 64 q.number
               whFineChan := BitVec.ofNat 24 f, whBlockI := BitVec.ofNat 5 (s.blockNo i pos.1)
               whBlockJ := BitVec.ofNat 5 (s.blockNo i pos.2) }
  else
    let kept := keptEntries (pos.1 == pos.2) vs
    let fmts := s.egressFmts i 2
    let satL := kept.any fun v => isPinned v.1 || isPinned v.2
    let satC := (fmts.any fun e => !e.2.exact) &&
      kept.any fun v => (compactPart q.shift v.1).2 || (compactPart q.shift v.2).2
    let n := fmts.foldl (fun a e =>
      let per := e.2.payloadMax / (if e.2.exact then 16 else 8)
      a + (kept.length + per - 1) / per) 0
    let t := fmts.foldl (fun (t : State) e => t.visPackets i q h f pos.1 pos.2 kept satL satC e) s
    let t := t.onInteg i q.number fun x =>
      { x with packets := x.packets + n, compactSat := x.compactSat || satC
               satTiles := if !fmts.isEmpty && (satL || satC) then x.satTiles + 1 else x.satTiles }
    let t := t.onLedgStat i fun x =>
      { x with satTilesLedger := if satL then x.satTilesLedger + 1 else x.satTilesLedger, satLedgerSeen := x.satLedgerSeen || satL
               satTilesCompact := if satC then x.satTilesCompact + 1 else x.satTilesCompact
               satCompactSeen := x.satCompactSeen || satC }
    let t := if satL then t.raise srcLedgerSat (BitVec.ofNat 32 i.val) (some i) else t
    if satC && !((s.ledger[i].integs.find? fun x => x.number == q.number).map fun x => x.compactSat).getD false then
      t.raise srcLedgerCsat (BitVec.ofNat 32 i.val) (some i)
    else t

/-- The integration of a number. -/
def State.integ (s : State) (i : SubId) (number : Nat) : Option Integ := s.ledger[i].integs.find? fun q => q.number == number

/-- A fold of a whole fine channel: position by position, with the output it gives to integration `out`; the tiles of a
read that a frozen channel answered with an error are not built (R210). -/
def State.foldChannel (s : State) (i : SubId) (span f : Nat) (kind : FoldKind) (out : Option (Nat × Hold)) : State :=
  let own := s.ownsSet i span f && kind != FoldKind.flush
  (posList (s.nb i)).zipIdx.foldl (fun (t : State) e =>
    let set := if own then s.setTile i f e.2 else List.replicate tileEntries (0, 0)
    let r := t.foldOut i f e.2 kind set
    match out, r.2 with
    | some (number, h), some vs =>
      match r.1.integ i number with
      | some q => r.1.outputTile i q h f e.2 e.1 vs
      | none => r.1
    | _, _ => r.1) s

/-! ### The output order (R198, R201, R203) -/

/-- Fine channel `f` of an integration has been output. -/
def State.outDone (s : State) (i : SubId) (number f : Nat) (made : Bool) : State :=
  s.onInteg i number fun q => { q with out := f + 1, outChans := if made then q.outChans + 1 else q.outChans }

/-- The channels of an integration up to one that still hold something of it are flushed at their turn. -/
def State.flushTo (s : State) (i : SubId) (number upTo : Nat) : State :=
  match s.integ i number with
  | none => s
  | some q =>
    (List.range (upTo - q.out)).foldl (fun (t : State) k =>
      let f := q.out + k
      match SMap.get none q.chans f with
      | some h => (t.foldChannel i 0 f .flush (some (number, h))).outDone i number f true
      | none => t.outDone i number f false) s

/-- The present logical tiles of a sub-array's plan that correlate. -/
def State.corrTiles (s : State) (i : SubId) : Nat :=
  popCount 32 s.loom[i].cfg.corrTilesLo.toNat + popCount 8 s.loom[i].cfg.corrTilesHi.toNat

/-- The output of an integration is complete: the INTEGRATION metadata follows its last packet (R81). -/
def State.finishInteg (s : State) (i : SubId) (number count : Nat) : State :=
  match s.integ i number with
  | none => s
  | some q =>
    let body := leBytes 8 q.number ++ leBytes 8 q.first ++ leBytes 4 count ++ leBytes 4 q.outChans ++
      leBytes 4 (s.corrTiles i) ++ leBytes 4 q.satTiles ++ leBytes 4 q.events ++ leBytes 4 q.packets
    let t := s.metadata i 1 (s.fineTime i (q.first * spanLen)) body
    t.onLedger i fun x =>
      { x with integs := (x.integs.map fun y => if y.number = number then { y with sent := true } else y).filter (fun y =>
          !(y.sent && y.spans.isSome)) }

/-- The closed integration whose output is due and to which no started span gives it yet: its last span was folded by ADD or
STORE, and the next span to start folds by SWAP (R201). -/
def State.dueInteg (s : State) (i : SubId) : Option Integ :=
  s.ledger[i].integs.find? fun q => q.spans.isSome && !q.sent &&
    !(s.loom[i].folds.any fun w => (w.final && w.integ == q.number) || w.due == some q.number)

/-- The kind of fold of a channel (R198, R201): `held` says that the channel holds spans of its integration, `due` that
its entries hold an integration due for output, `wait` that such an integration has output to come. -/
def foldKindOf (final held due wait : Bool) : FoldKind :=
  if due then .swap
  else if final && !wait then (if held then .take else .direct)
  else if held then .add else .store

/-- The fold of the next fine channel of a span, with the output at its turn. -/
def State.foldNext (s : State) (i : SubId) (w : SpanFold) : State :=
  let f := w.next
  match s.integ i w.integ with
  | none => s.releaseSet i w.span f
  | some q =>
    let due := w.due.bind fun n => s.integ i n
    let hold := SMap.get none q.chans f
    let dueHold := due.bind fun p => SMap.get none p.chans f
    let kind := foldKindOf w.final hold.isSome dueHold.isSome due.isSome
    let hold' : Hold := match hold with
      | some h => { h with count := h.count + 1 }
      | none => ⟨w.span, 1⟩
    let t := match due, dueHold with
      | some p, some h =>
        (((s.flushTo i p.number f).foldChannel i w.span f kind (some (p.number, h)))).outDone i p.number f true
      | _, _ =>
        if kind = FoldKind.take ∨ kind = FoldKind.direct then
          (((s.flushTo i q.number f).foldChannel i w.span f kind (some (q.number, hold')))).outDone i q.number f true
        else s.foldChannel i w.span f kind none
    let t := t.onInteg i q.number fun x => { x with chans := SMap.set none x.chans f (some hold') }
    t.releaseSet i w.span f

/-- Spans that an integration holds when `span` is its last. -/
def Integ.countTo (q : Integ) (span : Nat) : Nat := span + 1 - q.first

/-- What follows the last fold of a span: the integration due is flushed to its end, and so is the span's own when the
span was known to be its last (R198, R201). -/
def State.foldsEnd (s : State) (i : SubId) (w : SpanFold) : State :=
  let all := s.fineChans i
  let t := match w.due.bind fun n => s.integ i n with
    | some p => (s.flushTo i p.number all).finishInteg i p.number ((p.spans).getD 0)
    | none => s
  if w.final then
    match t.integ i w.integ with
    | some q => (t.flushTo i q.number all).finishInteg i q.number (q.countTo w.span)
    | none => t
  else t

/-- Every closed integration is output by FLUSH once the observation has stopped and its folds are done (R202); no output is
built in HOLD (R210). -/
def State.flushStopped (s : State) (i : SubId) : State :=
  if s.obs[i].stopping ∧ s.loom[i].folds.isEmpty ∧ s.mode ≠ modeHold then
    (s.ledger[i].integs.filter fun q => q.spans.isSome && !q.sent).foldl (fun (t : State) q =>
      (t.flushTo i q.number (t.fineChans i)).finishInteg i q.number (q.spans.getD 0)) s
  else s

/-- SWAP_DUE and the drains' fields of LEDG_STAT. -/
def State.showLedger (s : State) (i : SubId) : State :=
  let due := (s.dueInteg i).isSome
  s.onLedger i fun x =>
    let acc := x.integs.find? fun q => q.spans.isNone
    { x with stat := { x.stat with
        drains := BitVec.ofNat 3 x.drains.length, nextDrain := BitVec.ofNat 64 (x.drains.headD 0)
        swapDue := due && !x.cfg.stream
        integration := match acc with
          | some q => BitVec.ofNat 64 q.number
          | none => x.stat.integration
        intFirstSpan := match acc with
          | some q => BitVec.ofNat 64 q.first
          | none => x.stat.intFirstSpan } }

/-! ### Integrations and drains (R197, R199 to R201) -/

/-- A new integration begins with a span; its shift is taken when that span starts. -/
def State.newInteg (s : State) (i : SubId) (first : Nat) : State :=
  s.onLedger i fun x =>
    { x with integs := x.integs ++ [{ number := x.number, first := first, shift := x.cfg.shift.toNat }], number := x.number + 1 }

/-- The integration that accumulates. -/
def State.accInteg (s : State) (i : SubId) : Option Integ := s.ledger[i].integs.find? fun q => q.spans.isNone

/-- The integration in progress closes at the boundary before span `b`, and the next begins with that span. -/
def State.closeInteg (s : State) (i : SubId) (b : Nat) : State :=
  match s.accInteg i with
  | none => s
  | some q =>
    if b ≤ q.first then s
    else
      let t := s.onLedger i fun x =>
        { x with integs := (x.integs.map fun y => if y.number = q.number then { y with spans := some (b - q.first) } else y).filter (fun y =>
            !(y.sent && y.spans.isSome)) }
      if s.obs[i].stopping then t else t.newInteg i b

/-- The number of the integration that ends at the boundary before span `b`, or all ones where none ends (R199). -/
def State.endsAt (s : State) (i : SubId) (b : Nat) : Nat :=
  match s.accInteg i with
  | some q => if q.first < b then q.number % 2 ^ 32 else if q.number = 0 then 0xFFFFFFFF else (q.number - 1) % 2 ^ 32
  | none => 0xFFFFFFFF

/-- The Ledger's part of the boundary before span `b`: stop, drains and the end of an integration (R197, R199, R352). -/
def State.ledgerBoundary (s : State) (i : SubId) (b : Nat) : State :=
  let stop := s.obs[i].stopAt == some b
  let drain := s.ledger[i].drains.contains b
  let whole := match s.accInteg i with
    | some q => decide (s.intSpans i ≤ b - q.first)
    | none => false
  let t := if stop || drain then s.subEvent i 4 b (s.endsAt i b) else s
  let t := if stop then
      (t.onObs i fun o => { o with stopping := true, stopAt := none }).onLedger i fun x => { x with drains := [] }
    else t.onLedger i fun x => { x with drains := x.drains.filter fun d => d != b }
  let t := if stop || drain || whole then t.closeInteg i b else t
  (t.flushStopped i).showLedger i

/-- Span `b` is known to be the last of its integration when it starts (R201). -/
def State.finalKnown (s : State) (i : SubId) (b : Nat) : Bool :=
  s.obs[i].stopAt == some (b + 1) || s.ledger[i].drains.contains (b + 1) ||
    match s.accInteg i with
    | some q => decide (s.intSpans i ≤ b + 1 - q.first)
    | none => false

/-- The folds of a span are fixed when the Loom starts it (R201). -/
def State.startFolds (s : State) (i : SubId) (span : Nat) : State :=
  let (lo, hi) := s.uncut i
  let t := s.onLedger i fun x =>
    { x with integs := x.integs.map fun q => if q.spans.isNone ∧ q.first = span then { q with shift := x.cfg.shift.toNat } else q
             valid := [], group := x.cfg.wrecGroupLog2.toNat, counting := !(s.egressFmts i 5).isEmpty }
  let number := ((t.accInteg i).map fun q => q.number).getD 0
  let due := (s.dueInteg i).map fun q => q.number
  (t.onLoom i fun x => { x with folds := x.folds ++ [⟨span, lo, hi, lo, s.finalKnown i span, number, due⟩] }).showLedger i

/-! ### Weight records (R206, R207) -/

/-- The count of a group of fine channels for a local input. -/
def State.groupCount (s : State) (i : SubId) (g size input : Nat) : Nat :=
  let hi := min ((g + 1) * size) (s.fineChans i)
  (List.range (hi - g * size)).foldl (fun a k =>
    a + (List.range 64).foldl (fun b p => b + SMap.get 0 s.ledger[i].valid (validKey (g * size + k) 0 0 input + p * 4096)) 0) 0

/-- The weight records of a span through every weight-record format; none where no counts of the span were kept. -/
def State.weightRecords (s : State) (i : SubId) (span : Nat) : State :=
  let size := 2 ^ s.ledger[i].group
  let groups := (s.fineChans i + size - 1) / size
  if !s.ledger[i].counting then s
  else (s.egressFmts i 5).foldl (fun (t : State) e =>
    (List.range (s.nb i)).foldl (fun (t : State) k =>
      (List.range ((groups + e.2.countA - 1) / e.2.countA)).foldl (fun (t : State) j =>
        let first := j * e.2.countA
        let n := min e.2.countA (groups - first)
        let fields := beBytes 8 span ++ beBytes 2 first ++ beBytes 2 n ++
          [BitVec.ofNat 8 (s.blockNo i k), BitVec.ofNat 8 size]
        let payload := (List.range n).flatMap fun d => (List.range 128).flatMap fun a =>
          leBytes 4 (s.groupCount i (first + d) size (128 * k + a))
        t.buildPacket e.1 e.2 0x30 0 (first * size) 0 fields (s.fineTime i (span * spanLen)) payload) t) t) s

end Sys2Proof.Machine
end

