-- ==== Sys2Proof/Machine/Beams.lean ====
section
/-! DEFINITION. Beams: weights, the beam store, requantisation, the turn and the reader cursors (R215 to R237). -/

namespace Sys2Proof.Machine

/-! ### Weights (R224, R227) -/

/-- The weight groups of a sub-array. -/
def State.weightGroups (s : State) (i : SubId) : Nat :=
  let g := 2 ^ s.beam[i].cfg.wgroupLog2.toNat
  (s.fineChans i + g - 1) / g

/-- The address of a weight in a copy: weight group, beam, local input (log entry 21). -/
def State.weightAddr (s : State) (i : SubId) (copy : Bool) (g b input : Nat) : Nat :=
  let c := s.beam[i].cfg
  c.weightBase.toNat + (if copy then c.weightBytes.toNat else 0) + ((g * s.beams i + b) * s.nInputs i + input) * 2

/-- A slot of 8 beams and a weight group is covered by a recorded table. -/
def WeightSpan.covers (w : WeightSpan) (g b : Nat) : Bool :=
  decide (w.beam ≤ b) && decide (b < w.beam + w.beams) && decide (w.group ≤ g) && decide (g < w.group + w.groups)

/-- The key of the selector bit of a slot. -/
def selKey (g b : Nat) : Nat := g * 128 + b / 8

/-- A switch is fixed at fine sample n_w and not yet completed (R227). -/
def BeamSub.switching (x : BeamSub) : Bool := x.stat.switchPending && x.loadAt.isNone

/-- The copy in force of a slot for fine sample `n` of the observation (R227). -/
def State.weightCopy (s : State) (i : SubId) (g b n : Nat) : Bool :=
  let x := s.beam[i]
  let now := SMap.get false x.sel (selKey g b)
  if x.switching && decide (x.stat.switchFs.toNat ≤ n) && x.ready.any (fun w => w.covers g b) then !now else now

/-- The weight in force (R215). -/
def State.weight (s : State) (i : SubId) (b g input n : Nat) : Cplx :=
  let a := s.weightAddr i (s.weightCopy i g b n) g b input
  (signedOf 8 (s.mem.byte a).toNat, signedOf 8 (s.mem.byte (a + 1)).toNat)

/-- The selector bits of the recorded slots flip, and no table is ready any more. -/
def State.flipWeights (s : State) (i : SubId) : State :=
  let groups := s.weightGroups i
  let n := s.beams i / 8
  s.onBeam i fun x =>
    { x with
      sel := (List.range groups).foldl (fun (m : SMap Bool) g => (List.range n).foldl (fun (m : SMap Bool) k =>
        if x.ready.any fun w => w.covers g (8 * k) then SMap.set false m (g * 128 + k) (!SMap.get false m (g * 128 + k)) else m) m) x.sel
      ready := []
      stat := { x.stat with weightReady := false, switchPending := false, switches := satInc x.stat.switches } }

/-- The Loom span boundary that ends the span holding n_w completes the switch (R227). -/
def State.endSwitch (s : State) (i : SubId) (span : Nat) : State :=
  if s.beam[i].switching ∧ s.beam[i].stat.switchFs.toNat < (span + 1) * spanLen then s.flipWeights i else s

/-- The weight cache reads the active copy of a group's slots once per span, and the standby copy too in the span that
holds a switch (R228). False where a frozen channel answers. -/
def State.fetchWeights (s : State) (i : SubId) (span g : Nat) : State × Bool :=
  if s.beam[i].cached = some (span, g) then (s, true)
  else
    let both := s.beam[i].switching && decide (s.beam[i].stat.switchFs.toNat / spanLen = span)
    let bytes := 8 * s.nInputs i * 2
    let r := (List.range (s.beams i / 8)).foldl (fun (r : State × Bool) k =>
      let sel := SMap.get false s.beam[i].sel (g * 128 + k)
      let a := r.1.granRead (s.weightAddr i sel g (8 * k) 0) bytes
      let b := if both then a.1.granRead (s.weightAddr i (!sel) g (8 * k) 0) bytes else (a.1, some [])
      (b.1, r.2 && a.2.isSome && b.2.isSome)) (s, true)
    if r.2 then (r.1.onBeam i fun y => { y with cached := some (span, g) }, true) else r

/-! ### Beam jobs (R217 to R220) -/

/-- The sum over a block's inputs for a beam and a fine sample of a staged unit. -/
def State.rowSum (s : State) (i : SubId) (n : Fin 2) (b beta f chunk t : Nat) : Cplx :=
  let g := f / 2 ^ s.beam[i].cfg.wgroupLog2.toNat
  (List.range 128).foldl (fun (a : Cplx) c =>
    let at' := s.loom[i].running.getD 0 * spanLen + chunk * 4096 + t
    let w := s.weight i b g (128 * beta + c) at'
    let x := (s.shelfSample i n t (128 * beta + c)).2.1
    (a.1 + w.1 * x.1 - w.2 * x.2, a.2 + w.1 * x.2 + w.2 * x.1)) (0, 0)

/-- The key of an entry of a beam store set. -/
def storeKey (b t : Nat) : Nat := b * 4096 + t

/-- Fine samples `lo` to `hi` of a beam job are committed: the 128 row sums of each are added into its store set. -/
def State.commitBeam (s : State) (i : SubId) (n : Fin 2) (j : BeamJob) (lo hi : Nat) : State :=
  let nb := s.nb i
  let k : Fin 2 := ⟨j.unit % 2, Nat.mod_lt _ (by decide)⟩
  let add (m : SMap Cplx) (t r d : Nat) : SMap Cplx :=
    let b := 8 * (r / nb) + d
    let v := s.rowSum i n b (r % nb) j.f j.chunk t
    let old := SMap.get (0, 0) m (storeKey b t)
    SMap.set (0, 0) m (storeKey b t) (old.1 + v.1, old.2 + v.2)
  let set := (List.range (hi - lo)).foldl (fun (m : SMap Cplx) t =>
    (List.range 16).foldl (fun (m : SMap Cplx) q =>
      (List.range 8).foldl (fun (m : SMap Cplx) d => add m (lo + t) (16 * j.j + q) d) m) m) s.beam[i].store[k]
  s.onBeam i fun x => { x with store := vset x.store k set, owner := vset x.owner k (some (j.span, j.unit)) }

/-- The sum of a list of complex numbers. -/
def cSum (vs : List Cplx) : Cplx := vs.foldl (fun a v => (a.1 + v.1, a.2 + v.2)) (0, 0)

/-- The check row's output for a row group and a fine sample: for every column the exact sum of the group's eight weights,
times the voltage (R218). -/
def State.checkSum (s : State) (i : SubId) (n : Fin 2) (bg beta f chunk t : Nat) : Cplx :=
  let g := f / 2 ^ s.beam[i].cfg.wgroupLog2.toNat
  let at' := s.loom[i].running.getD 0 * spanLen + chunk * 4096 + t
  (List.range 128).foldl (fun (a : Cplx) c =>
    let w := cSum ((List.range 8).map fun d => s.weight i (8 * bg + d) g (128 * beta + c) at')
    let x := (s.shelfSample i n t (128 * beta + c)).2.1
    (a.1 + w.1 * x.1 - w.2 * x.2, a.2 + w.1 * x.2 + w.2 * x.1)) (0, 0)

/-- A row group of a beam job passes its check at a fine sample: the exact sum of its eight row sums is the check row's output.
An upset puts the first row sum of the job's first group out by one at its fine sample. -/
def State.groupPasses (s : State) (i : SubId) (n : Fin 2) (j : BeamJob) (upset : Option Nat) (q t : Nat) : Bool :=
  let r := 16 * j.j + q
  let bg := r / s.nb i
  let beta := r % s.nb i
  let wrong : Cplx := if upset = some t ∧ q = 0 then (1, 0) else (0, 0)
  cSum (wrong :: (List.range 8).map fun d => s.rowSum i n (8 * bg + d) beta j.f j.chunk t) == s.checkSum i n bg beta j.f j.chunk t

/-- The fine sample at which a beam job fails its check; 4096 where every one passes. -/
def State.beamStop (s : State) (i : SubId) (n : Fin 2) (j : BeamJob) (upset : Option Nat) : Nat :=
  (((List.range (4096 - j.start)).map fun k => j.start + k).find? fun t =>
    !((List.range 16).all fun q => s.groupPasses i n j upset q t)).getD 4096

/-- The fine samples of a beam job in flight that have passed at an instant, one per cycle of 1.65 GHz: up to this one. -/
def BeamRun.upTo (r : BeamRun) (now : Nat) : Nat := min r.stop (r.job.start + (now - r.start) * 33 / 20)

/-- A beam job in flight stops: what has passed stays committed, and the rest of the job is answered. A job with nothing left
is committed (R220). -/
def State.haltBeam (s : State) (t : TileId) : State × Option BeamJob :=
  match (s.tile t).beam with
  | none => (s, none)
  | some r =>
    let upTo := r.upTo s.now
    let u := (s.onTile t fun x => { x with beam := none }).commitBeam r.job.sub r.buf r.job r.job.start upTo
    if upTo = 4096 then
      ((u.onBeamStat r.job.sub fun x => { x with jobs := x.jobs + 1 }).onTileReg t fun x => { x with jobs := x.jobs + 1 }, none)
    else (u, some { r.job with start := upTo })

/-! ### The turn (R232) -/

/-- The base of the half of the turn that holds a span. -/
def State.turnHalf (s : State) (i : SubId) (span : Nat) : Nat :=
  let c := s.beam[i].cfg
  c.turnBase.toNat + span % 2 * (c.turnBytes.toNat / 2)

/-- The address of the values of 32 fine samples of a beam and fine channel. -/
def State.turnAddr (s : State) (i : SubId) (span f b n : Nat) : Nat :=
  s.turnHalf i span + (n / 32 * s.fineChans i + f) * s.beams i * 64 + b * 64 + n % 32 * 2

/-- The address of the flag byte of a fine channel and in-span fine sample. -/
def State.flagAddr (s : State) (i : SubId) (span f n : Nat) : Nat :=
  s.turnHalf i span + s.fineChans i * s.beams i * 65536 + f * 4096 + n / 8

/-- The marker code of a beam value (R230). -/
def beamMarker : List Byte := [0x80, 0x80]

/-- The chunk of a fine channel whose every value is a marker, flags set. -/
def State.markChunk (s : State) (i : SubId) (span f c : Nat) : State :=
  let t := (List.range 128).foldl (fun (t : State) k =>
    (List.range (s.beams i)).foldl (fun (t : State) b =>
      (t.granWrite (s.turnAddr i span f b (c * 4096 + 32 * k)) (List.replicate 64 0x80)).1) t) s
  (t.granWrite (s.flagAddr i span f (c * 4096)) (List.replicate 512 0xFF)).1

/-! ### Requantisation (R229, R230) -/

/-- One part of a beam value through the curve: the number of thresholds at or below its magnitude, with its sign. -/
def requantBeam (curve : List Nat) (v : Int) : Int :=
  let l : Int := ((curve.filter fun (t : Nat) => decide (t ≤ v.natAbs)).length : Nat)
  if v < 0 then -l else l

/-- A beam lost a fine sample (R222). -/
def BeamSub.isLost (x : BeamSub) (span f n lo hi : Nat) : Bool :=
  x.lost.any fun e => e.1 == span && e.2.1 == f && decide (e.2.2.1 ≤ n) && decide (n < e.2.2.2.1) &&
    decide (lo ≤ e.2.2.2.2.2) && decide (e.2.2.2.2.1 < hi)

/-- The value of a beam and fine sample of a unit as its two bytes, whether it is a marker, and the parts at ±127. -/
def State.beamValue (s : State) (i : SubId) (set : SMap Cplx) (span f b n : Nat) : List Byte × Bool × Nat :=
  let x := s.beam[i]
  let nb := s.nb i
  let bg := b / 8
  if SMap.get (0 : Fin 3) x.flags (f * spanLen + n) = 2 ∨ x.isLost span f n (bg * nb) ((bg + 1) * nb) then
    (beamMarker, true, 0)
  else
    let v := SMap.get (0, 0) set (storeKey b (n % 4096))
    let curve := x.curve.getD []
    let re := requantBeam curve v.1
    let im := requantBeam curve v.2
    let at127 (a : Int) : Nat := if a = 127 ∨ a = -127 then 1 else 0
    ([BitVec.ofNat 8 (codeOf 8 re), BitVec.ofNat 8 (codeOf 8 im)], false, at127 re + at127 im)

/-- A unit of the beam store is written into the turn, and its set is cleared and released. -/
def State.writeUnit (s : State) (i : SubId) (k : Fin 2) (span u : Nat) : State :=
  let (f, c, _) := s.unitParts i u
  let set := s.beam[i].store[k]
  let nBeams := s.beams i
  let t := (List.range 128).foldl (fun (t : State) w =>
    (List.range nBeams).foldl (fun (t : State) b =>
      let vs := (List.range 32).map fun d => s.beamValue i set span f b (c * 4096 + 32 * w + d)
      let clip := vs.foldl (fun a v => a + v.2.2) 0
      let t := (t.granWrite (s.turnAddr i span f b (c * 4096 + 32 * w)) (vs.flatMap fun v => v.1)).1
      if clip = 0 then t
      else t.onBeamStat i fun x => { x with clip := x.clip + BitVec.ofNat 32 clip, clipSeen := true }) t) s
  let flag (n : Nat) : Bool :=
    SMap.get (0 : Fin 3) s.beam[i].flags (f * spanLen + n) != 0 || s.beam[i].isLost span f n 0 (nBeams / 8 * s.nb i)
  let bytes := (List.range 512).map fun q => BitVec.ofNat 8 (maskOf 8 fun d => flag (c * 4096 + 8 * q + d))
  let t := (t.granWrite (s.flagAddr i span f (c * 4096)) bytes).1
  t.onBeam i fun x =>
    { x with store := vset x.store k [], owner := vset x.owner k none, written := x.written ++ [(span, u)]
             flags := SMap.clear x.flags (f * spanLen + c * 4096) (f * spanLen + (c + 1) * 4096) }

/-! ### Cursors (R233 to R235) -/

/-- SUM_LEN of a sub-array. -/
def State.sumLen (s : State) (i : SubId) : Nat := s.beam[i].cfg.sumLenM1.toNat + 1

/-- Fine samples of one value of a beam format: SUM_LEN for detected power. -/
def State.valueLen (s : State) (f : FmtOut) : Nat := if f.kind = 4 then s.sumLen f.sub else 1

/-- Fine samples of a packet of a beam format. -/
def State.packetLen (s : State) (f : FmtOut) : Nat := f.countB * s.valueLen f

/-- Fine samples of a cursor's next packet: packets end at multiples of SAMPLE_COUNT values counted from fine sample 0 (R233),
so the first packet of a cursor may be shorter (R234; log entry 76). -/
def State.packetSpan (s : State) (f : FmtOut) (c : Cursor) : Nat := s.packetLen f - c.next % s.packetLen f

/-- The format of a cursor, while it is in force. -/
def State.cursorFmt (s : State) (c : Cursor) : Option FmtOut :=
  match s.fmt.fmts[c.fmt] with
  | some (.egress f) => if f.kind = 3 ∨ f.kind = 4 then some f else none
  | _ => none

/-- The uncut fine channels of a span that is whole in the turn. -/
def BeamSub.cutOf (x : BeamSub) (span : Nat) : Option (Nat × Nat) :=
  (x.turned.find? fun e => e.1 == span).map fun e => e.2

/-- Every channel of a packet is cut in every span it takes fine samples of. -/
def State.allCut (s : State) (i : SubId) (first len ch n : Nat) : Bool :=
  (List.range ((first + len - 1) / spanLen - first / spanLen + 1)).all fun k =>
    match s.beam[i].cutOf (first / spanLen + k) with
    | some (lo, hi) => decide (ch + n ≤ lo) || decide (hi ≤ ch)
    | none => false

/-- A byte of the turn, by span, and whether its fine sample is flagged. -/
def State.turnFlag (s : State) (i : SubId) (f n : Nat) : Bool :=
  (s.mem.byte (s.flagAddr i (n / spanLen) f (n % spanLen))).getLsbD (n % 8)

/-- The cursor after the packet at its place: beams first, then channels, then fine samples (R83). -/
def State.advance (s : State) (f : FmtOut) (c : Cursor) : Cursor :=
  if c.beam + 1 < s.beams f.sub then { c with beam := c.beam + 1 }
  else if c.chan + f.countA < s.fineChans f.sub then { c with beam := 0, chan := c.chan + f.countA }
  else
    let next := c.next + s.packetSpan f c
    let k := next / s.sumLen f.sub
    { c with beam := 0, chan := 0, next := next
             sums := SMap.keep c.sums (k * 2 ^ 34) (2 ^ 128), bad := SMap.keep c.bad (k * 2 ^ 24) (2 ^ 128) }

/-- A cursor takes its place in the list. -/
def State.putCursor (s : State) (i : SubId) (c : Cursor) : State :=
  let t := s.onBeam i fun x => { x with cursors := x.cursors.map fun y => if y.fmt = c.fmt then c else y }
  t.onBeam i fun x =>
    match x.cursors.map fun y => y.next / spanLen with
    | [] => x
    | a :: as => { x with stat := { x.stat with cursorSpan := BitVec.ofNat 64 (as.foldl min a) } }

/-- The payload of a cursor's packet of `m` values and `n` channels, and whether a flag of its pairs is set; reads of the turn are answered by the
Granary, and none stands for an error response. -/
def State.cursorPayload (s : State) (i : SubId) (f : FmtOut) (c : Cursor) (m n : Nat) : State × Option (List Byte × Bool) :=
  if f.kind = 3 then
    let r := (List.range m).foldl (fun (r : State × Option (List Byte)) k =>
      (List.range n).foldl (fun (r : State × Option (List Byte)) d =>
        let at' := c.next + k
        let w := r.1.granRead (s.turnAddr i (at' / spanLen) (c.chan + d) c.beam (at' % spanLen)) 2
        (w.1, match r.2, w.2 with
          | some a, some b => some (a ++ b)
          | _, _ => none)) r) (s, some [])
    let bad := (List.range m).any fun k => (List.range n).any fun d => s.turnFlag i (c.chan + d) (c.next + k)
    (r.1, r.2.map fun bs => (bs, bad))
  else
    let k0 := c.next / s.sumLen i
    let cells := (List.range m).flatMap fun k => (List.range n).map fun d => (k0 + k) * 2 ^ 24 + (c.chan + d)
    (s, some (cells.flatMap fun x => leBytes 4 (SMap.get 0 c.sums (x * 1024 + c.beam)), cells.any fun x => SMap.get false c.bad x))

/-- The packet at a cursor's place is built, where its span is whole and its port holds fewer than BEAM_QUEUE bytes. -/
def State.cursorPacket (s : State) (i : SubId) (f : FmtOut) (c : Cursor) : State :=
  let n := min f.countA (s.fineChans i - c.chan)
  let len := s.packetSpan f c
  let m := len / s.valueLen f
  let dest := f.destOf c.chan c.beam
  let l := s.destPort dest
  if (s.beam[i].cutOf ((c.next + len - 1) / spanLen)).isNone then s
  else if s.allCut i c.next len c.chan n then s.putCursor i (s.advance f c)
  else if s.portOpen l ∧ f.beamQueue ≤ s.fmt.ports[l].bytes then s
  else
    let r := s.cursorPayload i f c m n
    match r.2 with
    | none => r.1
    | some (payload, bad) =>
      let fields := beBytes 8 c.next ++ beBytes 4 c.chan ++ beBytes 2 n ++ beBytes 2 m ++ beBytes 2 c.beam ++ [0, 0] ++
        beBytes 4 (if f.kind = 4 then s.sumLen i else 0)
      (r.1.buildPacket c.fmt f (if f.kind = 3 then 0x20 else 0x21) (if bad then 1 else 0) c.chan c.beam fields
        (s.fineTime i c.next) payload).putCursor i (s.advance f c)

/-- The sub-array whose cursor a format is. -/
def State.cursorSub (s : State) (fmt : Fin 64) : Option SubId :=
  (allFin 4).find? fun i => s.beam[i].cursors.any fun c => c.fmt == fmt

/-- The next packet of a cursor of a sub-array (R233). Cursors build no packets in HOLD. -/
def State.cursorStep (s : State) (i : SubId) (fmt : Fin 64) : State :=
  if s.mode = modeHold then s
  else
    match s.beam[i].cursors.find? fun c => c.fmt == fmt with
    | some c =>
      match s.cursorFmt c with
      | some f => s.cursorPacket i f c
      | none => s
    | none => s

/-- A span's values enter the sums of a detected-power cursor (R234): q_r² + q_i², a marker code adding nothing. -/
def State.absorb (s : State) (i : SubId) (span : Nat) (c : Cursor) : Cursor :=
  match s.cursorFmt c with
  | none => c
  | some f =>
    if f.kind ≠ 4 ∨ c.read ≠ span then c
    else
      let len := s.sumLen i
      let part (b : Byte) : Int := signedOf 8 b.toNat
      let one (c : Cursor) (fc n : Nat) : Cursor :=
        let at' := span * spanLen + n
        if at' < c.next then c
        else
          let k := at' / len * 2 ^ 24 + fc
          let sums := (List.range (s.beams i)).foldl (fun (m : SMap Nat) b =>
            let a := s.turnAddr i span fc b n
            let re := s.mem.byte a
            let im := s.mem.byte (a + 1)
            let v := if re = 0x80 ∨ im = 0x80 then 0 else (part re * part re + part im * part im).toNat
            SMap.set 0 m (k * 1024 + b) (SMap.get 0 m (k * 1024 + b) + v)) c.sums
          { c with sums := sums, bad := if s.turnFlag i fc at' then SMap.set false c.bad k true else c.bad }
      let c := (List.range (s.fineChans i)).foldl (fun (c : Cursor) fc =>
        (List.range spanLen).foldl (fun (c : Cursor) n => one c fc n) c) c
      { c with read := span + 1 }

/-- The packets of a cursor before a fine sample that are not built: STREAM_SEQ passes each, `n` bounds how many. -/
def State.skipPackets (i : SubId) (f : FmtOut) (upTo : Nat) : Nat → State → Cursor → State × Cursor
  | 0, s, c => (s, c)
  | n + 1, s, c =>
    if upTo ≤ c.next then (s, c)
    else
      let ch := min f.countA (s.fineChans i - c.chan)
      let t :=
        if s.allCut i c.next (s.packetSpan f c) c.chan ch then s
        else
          let key := c.fmt.val * 256 + f.destOf c.chan c.beam
          ({ s with fmt := { s.fmt with seqs := SMap.set 0 s.fmt.seqs key (SMap.get (0 : Word) s.fmt.seqs key + 1) } }).onBeamStat i
            fun x => { x with turnSkipped := x.turnSkipped + 1, turnSeen := true }
      State.skipPackets i f upTo n t (s.advance f c)

/-- The adder needs the half that holds `span`: each cursor that has not finished it abandons the rest of it (R235). -/
def State.overrunTurn (s : State) (i : SubId) (span : Nat) : State :=
  let stop := (span + 1) * spanLen
  s.beam[i].cursors.foldl (fun (t : State) c =>
    match t.cursorFmt c with
    | none => t
    | some f =>
      let unfinished := decide (c.next < stop) && (f.kind == 3 || decide (c.next + t.packetSpan f c ≤ stop))
      if unfinished then
        let per := ((t.fineChans i + f.countA - 1) / f.countA) * t.beams i
        let r := State.skipPackets i f stop (per * (spanLen / t.packetLen f + 3)) t c
        let k := (stop + t.sumLen i - 1) / t.sumLen i
        let c' := { r.2 with sums := SMap.keep r.2.sums (k * 2 ^ 34) (2 ^ 128), bad := SMap.keep r.2.bad (k * 2 ^ 24) (2 ^ 128) }
        (r.1.putCursor i c').raise srcBeamTurnOverrun (BitVec.ofNat 32 i.val) (some i)
      else t) s

/-- The first unit of a span is about to be written: the half it takes is given up by every cursor (R235). -/
def State.claimHalf (s : State) (i : SubId) (span : Nat) : State :=
  if s.beam[i].turned.any fun e => e.1 + 2 == span then
    (s.overrunTurn i (span - 2)).onBeam i fun x => { x with turned := x.turned.filter fun e => decide (span < e.1 + 2) }
  else s

/-- A span of which the Loom has finished every job and the adder has written every unit becomes whole: the chunks that
carried no beam job are markers with their flags set (R230, R233, R237). -/
def State.turnSpan (s : State) (i : SubId) : State :=
  match s.beam[i].started with
  | [] => s
  | (span, lo, hi) :: rest =>
    let pending := s.beam[i].owner.toList.any fun o => match o with
      | some (sp, _) => sp == span
      | none => false
    if !s.loomDone i span || pending then s
    else
      let t := s.claimHalf i span
      let t := (List.range (s.fineChans i * 8)).foldl (fun (t : State) k =>
        if s.beam[i].written.contains (span, k) then t else t.markChunk i span (k / 8) (k % 8)) t
      let t := t.onBeam i fun x =>
        { x with started := rest, turned := x.turned ++ [(span, lo, hi)], written := x.written.filter (fun e => e.1 != span)
                 lost := x.lost.filter fun e => e.1 != span }
      t.beam[i].cursors.foldl (fun (u : State) c => u.putCursor i (u.absorb i span c)) t

/-- A unit of the store whose every beam job is settled; the earlier of two. -/
def State.unitReady (s : State) (i : SubId) : Option (Fin 2 × Nat × Nat) :=
  let ready := (allFin 2).filterMap fun k => match s.beam[i].owner[k] with
    | some (span, u) =>
      if s.beamBusy i span u then none else some (k, span, u)
    | none => none
  match ready with
  | [a, b] => if b.2.1 < a.2.1 ∨ (b.2.1 = a.2.1 ∧ b.2.2 < a.2.2) then some b else some a
  | l => l.head?

/-- A unit whose every beam job is settled is requantised and written into the turn (R229). -/
def State.unitStep (s : State) (i : SubId) : State :=
  match s.unitReady i with
  | some (k, span, u) =>
    let t := if s.beam[i].written.any fun e => e.1 == span then s else s.claimHalf i span
    (t.writeUnit i k span u).turnSpan i
  | none => s

/-- The first fine sample of a format's packets from a span on: that of the first detected sum that begins in or after it
(R234). -/
def State.firstPacket (s : State) (f : FmtOut) (span : Nat) : Nat :=
  let len := s.valueLen f
  (span * spanLen + len - 1) / len * len

/-- Every beam format in force of a sub-array has a cursor, a new one from a span on; cursors of other formats go (R233). -/
def State.syncCursors (s : State) (i : SubId) (span : Nat) : State :=
  let fs := s.egressFmts i 3 ++ s.egressFmts i 4
  s.onBeam i fun x =>
    let kept := x.cursors.filter fun c => fs.any fun e => e.1 == c.fmt
    { x with cursors := kept ++ ((fs.filter fun e => !(kept.any fun c => c.fmt == e.1)).map fun e =>
        { fmt := e.1, next := s.firstPacket e.2 span, read := span }) }

end Sys2Proof.Machine
end

