-- ==== Sys2Proof/Machine/Numeric.lean ====
section
/-! DEFINITION. Sines and cosines to the nearest step, and IEEE 754 binary64 arithmetic on exact rationals
(R93, R95; log entries 9 and 10). -/

namespace Sys2Proof.Machine

/-! ### Trigonometry -/

/-- Pi in units of 2^-80, rounded down. -/
def pi80 : Int := 3797952473636338580787993

/-- The cosine series at an angle of at most an eighth of a turn, both in units of 2^-80; `n` further terms. -/
def cosSeries (x2 : Int) : Nat → Nat → Int → Int → Int
  | 0, _, _, acc => acc
  | n + 1, k, t, acc =>
    let t' := -(shrFloor (t * x2) 80) / ((2 * k + 1) * (2 * k + 2) : Nat)
    cosSeries x2 n (k + 1) t' (acc + t')

/-- The sine series, as for the cosine. -/
def sinSeries (x2 : Int) : Nat → Nat → Int → Int → Int
  | 0, _, _, acc => acc
  | n + 1, k, t, acc =>
    let t' := -(shrFloor (t * x2) 80) / ((2 * k + 2) * (2 * k + 3) : Nat)
    sinSeries x2 n (k + 1) t' (acc + t')

/-- Cosine and sine of `a / d` turns for `8 a ≤ d`, in units of 2^-80. -/
def cosSinEighth (a d : Nat) : Int × Int :=
  let x := 2 * pi80 * (a : Int) / (d : Int)
  let x2 := shrFloor (x * x) 80
  (cosSeries x2 14 0 ((2 : Int) ^ 80) ((2 : Int) ^ 80), sinSeries x2 14 0 x x)

/-- Cosine and sine of `a / d` turns for `4 a ≤ d`. -/
def cosSinQuarter (a d : Nat) : Int × Int :=
  if 8 * a ≤ d then cosSinEighth a d
  else
    let r := cosSinEighth (d - 4 * a) (4 * d)
    (r.2, r.1)

/-- Cosine and sine of `a / d` turns, in units of 2^-80, exact at the quarter turns and otherwise within 2^-70. -/
def cosSin (a d : Nat) : Int × Int :=
  let a := a % d
  let q := 4 * a / d
  let r := cosSinQuarter (4 * a - q * d) (4 * d)
  match q with
  | 0 => r
  | 1 => (-r.2, r.1)
  | 2 => (-r.1, -r.2)
  | _ => (r.2, -r.1)

/-- The nearest integer to a value in units of 2^-80 times `2 ^ k`. -/
def nearest80 (v : Int) (k : Nat) : Int := shrHalfUp v (80 - k)

/-! ### Binary64 -/

/-- A finite binary64 value as the rational it is; none stands for an infinity or a NaN. -/
abbrev F64 := Option Rat

/-- A rational rounded to the nearest integer, ties to even. -/
def ratEven (q : Rat) : Int :=
  let f := q.floor
  let r := q - f
  if r < 1 / 2 then f else if 1 / 2 < r then f + 1 else if f % 2 = 0 then f else f + 1

/-- `2 ^ e` for any integer `e`. -/
def pow2 (e : Int) : Rat := if 0 ≤ e then ((2 ^ e.toNat : Nat) : Rat) else 1 / ((2 ^ (-e).toNat : Nat) : Rat)

/-- The largest `e` with `2 ^ e ≤ |q|`, for `q` other than zero. -/
def ratLog2 (q : Rat) : Int :=
  let e : Int := (Nat.log2 q.num.natAbs : Int) - (Nat.log2 q.den : Int)
  let a : Rat := if q < 0 then -q else q
  if a < pow2 e then e - 1 else e

/-- An exact value rounded to binary64, to nearest with ties to even; none where it overflows. -/
def rnd64 (q : Rat) : F64 :=
  if q = 0 then some 0
  else
    let step := pow2 (max (ratLog2 q) (-1022) - 52)
    let v : Rat := (ratEven (q / step) : Rat) * step
    if pow2 1024 ≤ v ∨ v ≤ -(pow2 1024) then none else some v

/-- The value of a binary64 from its bits. -/
def f64OfBits (v : Nat) : F64 :=
  let e : Nat := v / 2 ^ 52 % 2048
  let f : Nat := v % 2 ^ 52
  let sign : Rat := if v.testBit 63 then -1 else 1
  if e = 2047 then none
  else if e = 0 then some (sign * (f : Rat) * pow2 (-1074))
  else some (sign * ((2 ^ 52 + f : Nat) : Rat) * pow2 ((e : Int) - 1075))

/-- The sum of two values, rounded. -/
def f64Add (a b : F64) : F64 := a.bind fun x => b.bind fun y => rnd64 (x + y)

/-- The difference of two values, rounded. -/
def f64Sub (a b : F64) : F64 := a.bind fun x => b.bind fun y => rnd64 (x - y)

/-- The product of two values, rounded. -/
def f64Mul (a b : F64) : F64 := a.bind fun x => b.bind fun y => rnd64 (x * y)

/-- The quotient of two values, rounded; none where the divisor is zero. -/
def f64Div (a b : F64) : F64 := a.bind fun x => b.bind fun y => if y = 0 then none else rnd64 (x / y)

/-- A polynomial by rising powers: each power is the one before times `t`, and the terms are added in rising order
(log entry 10). -/
def f64Poly (t : F64) : List F64 → F64 → F64 → F64
  | [], _, acc => acc
  | a :: rest, p, acc => f64Poly t rest (f64Mul p t) (f64Add acc (f64Mul a p))

/-- The fractional part. -/
def f64Frac (a : F64) : F64 := a.map fun x => x - x.floor

/-- A value rounded half to even to an integer. -/
def f64Even (a : F64) : Option Int := a.map ratEven

end Sys2Proof.Machine
end

