-- ==== Sys2Proof/Machine/Assay.lean ====
section
/-! DEFINITION. The Assay: fine-delay phase, gain, requantisation, statistics and the front-end span boundary
(R22, R126 to R132). -/

namespace Sys2Proof.Machine

/-! ### Values by fine sample (R128) -/

/-- The last beat update that holds from a fine sample of a sub-array on. -/
def State.updateAt (s : State) (i : SubId) (n : Nat) : Option Update :=
  let k := s.ks i + n * s.decim i
  s.sieve[i].updates.foldl (fun a u => if u.kb ≤ k then some u else a) none

/-- The place of an input among a sub-array's inputs in ascending order. -/
def State.inputIndex (s : State) (i : SubId) (input : Nat) : Nat := s.localInput i input

/-- FD of an input for a fine sample, and whether the phase is applied. -/
def State.fineDelay (s : State) (i : SubId) (input n : Nat) : Int × Bool :=
  match s.updateAt i n with
  | some u => (((u.ins[s.inputIndex i input]?).map fun x => x.fd).getD 0, u.fdelayEn)
  | none => (0, s.front.assay[i].cfg.fdelayEn)

/-- The key of a gain group. -/
def gainKey (input group : Nat) : Nat := input * 2 ^ 18 + group

/-- The gain code of a fine channel for a fine sample (R130, R131). -/
def State.gainOf (s : State) (i : SubId) (input f n : Nat) : BitVec 16 :=
  let x := s.front.assay[i]
  let key := gainKey input (f / 2 ^ x.cfg.gainGroupLog2.toNat)
  let new := match x.gainAt with
    | some n0 => decide (n0 ≤ n)
    | none => false
  SMap.get x.fill (if new then x.shadow else x.active) key

/-- Curve 0 of Table 05-9's text: 4+4. -/
def curve0 : Curve := ⟨false, (List.range 7).map fun l => 2048 * (l + 1) - 1024⟩

/-- Curve 1: 8+8. -/
def curve1 : Curve := ⟨true, (List.range 127).map fun l => 256 * (l + 1) - 128⟩

/-- A resident requantisation curve (R129). -/
def State.curve (s : State) (id : Fin 16) : Option Curve :=
  match s.front.curves[id] with
  | some c => some c
  | none => if id = 0 then some curve0 else if id = 1 then some curve1 else none

/-- The CURVE_ID of the curve a sub-array uses: the one ASSY_CFG names where its FORMAT is the sub-array's, else that of the
standard curve of its format. OBS_DEFINE keeps CURVE_ID whatever FORMAT it gives, and the spec does not say what holds then
(DESIGN CHOICE, log entry 74). -/
def State.usedCurve (s : State) (i : SubId) : Fin 16 :=
  let id := s.front.assay[i].cfg.curveId.toFin
  let wide := s.cellar[i].cfg.format
  match s.curve id with
  | some c => if c.wide = wide then id else if wide then 1 else 0
  | none => if wide then 1 else 0

/-- The standard curve of a format (R129). -/
def standardCurve (wide : Bool) : Curve := if wide then curve1 else curve0

/-- The curve a sub-array uses; one of its own format always. -/
def State.ownCurve (s : State) (i : SubId) : Curve :=
  let wide := s.cellar[i].cfg.format
  match s.curve (s.usedCurve i) with
  | some c => if c.wide = wide then c else standardCurve wide
  | none => standardCurve wide

/-- The curve of a sub-array for a fine sample. -/
def State.curveAt (s : State) (i : SubId) (n : Nat) : Curve :=
  (s.front.assay[i].curve).at' n (standardCurve s.cellar[i].cfg.format)

/-! ### Arithmetic (R127) -/

/-- rhe of a rational. -/
def rheDiv (a : Int) (d : Nat) : Int := ratEven (mkRat a d)

/-- θ of fine channel j: -(j - P/2) FD / D_f, in 2^-32 turn. -/
def theta (p df j : Nat) (fd : Int) : Nat := codeOf 32 (rheDiv (-((j : Int) - (p / 2 : Nat)) * fd) df)

/-- Cosine and sine of a 14-bit phase in 2^-14. -/
def cosSin14 (ph : Nat) : Int × Int :=
  let r := cosSin ph 16384
  (nearest80 r.1 14, nearest80 r.2 14)

/-- The fine-delay phase on a bin. -/
def applyPhase (v : Cplx) (theta : Nat) : Cplx :=
  let cs := cosSin14 (theta / 2 ^ 18)
  (shrEven (v.1 * cs.1 - v.2 * cs.2) 14, shrEven (v.1 * cs.2 + v.2 * cs.1) 14)

/-- One part through the gain: its value, and whether it saturated. -/
def applyGain (g : BitVec 16) (e : Nat) (w : Int) : Int × Bool :=
  let q := shrEven (w * (g.toNat % 4096 : Nat) * (2 : Int) ^ e) (g.toNat / 4096 + 12)
  (clampInt (-32767) 32767 q, decide (32767 < q ∨ q < -32767))

/-- One part through the curve. -/
def Curve.part (c : Curve) (q : Int) : Int :=
  let l : Int := ((c.ts.filter fun (t : Nat) => decide (t ≤ q.natAbs)).length : Nat)
  if q < 0 then -l else l

/-- The bytes of a requantised value. -/
def packSample (wide : Bool) (re im : Int) : List Byte :=
  if wide then [BitVec.ofNat 8 (codeOf 8 re), BitVec.ofNat 8 (codeOf 8 im)]
  else [BitVec.ofNat 8 (codeOf 4 re * 16 + codeOf 4 im)]

/-! ### Statistics (Table 05-14) -/

/-- The histogram cell of an output magnitude. -/
def histCell (wide : Bool) (m : Nat) : Nat :=
  if wide then (if m = 0 then 0 else if m < 4 then 1 else if m < 8 then 2 else if m < 16 then 3 else if m < 32 then 4
    else if m < 64 then 5 else if m < 127 then 6 else 7)
  else min m 7

/-- One output part enters the statistics. -/
def AssyLevels.addPart (x : AssyLevels) (wide : Bool) (v : Int) : AssyLevels :=
  let m := v.natAbs
  let cell := histCell wide m
  let full := if wide then 127 else 7
  { x with
    hist := if h : cell < 8 then x.hist.set cell (satInc (x.hist[cell]'h)) else x.hist
    clip := if m = full then satInc x.clip else x.clip }

/-- One valid fine sample enters the statistics: its gained parts and its output parts. -/
def AssyLevels.addSample (x : AssyLevels) (wide : Bool) (qr qi re im : Int) : AssyLevels :=
  let y := { x with validFs := x.validFs + 1, pwr := satNat 64 (x.pwr.toNat + (qr * qr + qi * qi).toNat) }
  (y.addPart wide re).addPart wide im

/-- The key of an input's statistics of a span. -/
def levelKey (span input : Nat) : Nat := span * 4096 + input

/-! ### A frame (R112, R126, R127) -/

/-- One bin of a finished frame: its fine channel's bytes go to the Cellar. -/
def State.assayBin (s : State) (a : AssayIn) (b : Nat) : State :=
  let i := a.sub
  let p := s.fineLen i
  let j := (b + p / 2) % p
  let f := a.chan * p + j
  let g := s.gainOf i a.input f a.n
  if !a.valid ∨ g = 0 then s.cellarWrite i a.input f a.n (s.marker i)
  else
    let fd := s.fineDelay i a.input a.n
    let v := a.bins.getD b (0, 0)
    let w := if fd.2 then applyPhase v (theta p (s.decim i) j fd.1) else v
    let (qr, sr) := applyGain g a.e w.1
    let (qi, si) := applyGain g a.e w.2
    let c := s.curveAt i a.n
    let re := c.part qr
    let im := c.part qi
    let sat := (if sr then 1 else 0) + (if si then 1 else 0)
    let key := levelKey (a.n / spanLen) a.input
    let t := s.onAssay i fun x =>
      { x with acc := SMap.set {} x.acc key ((SMap.get {} x.acc key).addSample c.wide qr qi re im)
               stat := { x.stat with qSat := x.stat.qSat + BitVec.ofNat 32 sat, qsatSeen := x.stat.qsatSeen || decide (0 < sat) } }
    t.cellarWrite i a.input f a.n (packSample s.cellar[i].cfg.format re im)

/-- ASSAY_FRAME (R127): the oldest frame of a slice's Assay. -/
def execAssayFrame (sl : SliceId) (s : State) : Host.Outcome State Fault Refusal :=
  .next (match s.front.assayIn[sl] with
    | [] => s
    | a :: rest =>
      let t := { s with front := { s.front with assayIn := vset s.front.assayIn sl rest } }
      let t := (List.range (s.fineLen a.sub)).foldl (fun (u : State) b => u.assayBin a b) t
      (t.noteFilled a.sub).settled a.sub)

/-! ### Span boundaries of the front end (R22, R131, R132) -/

/-- A frame of a sub-array before a fine sample is still in the engines or waits for the Assay. -/
def State.framesBefore (s : State) (i : SubId) (n : Nat) : Bool :=
  (s.front.engines.toList.any fun e =>
    (e.queue.any fun f => f.sub == i && !f.null && decide (f.n < n)) ||
    (match e.loading with
     | some (f, _, _) => f.sub == i && !f.null && decide (f.n < n)
     | none => false) ||
    e.slots.toList.any fun m => match m.frame with
      | some f => f.sub == i && !f.null && decide (f.n < n)
      | none => false) ||
  s.front.assayIn.toList.any fun q => q.any fun a => a.sub == i && decide (a.n < n)

/-- Every fine sample before `n` has been dealt, withheld or reported, and has passed the Assay. -/
def State.assayPast (s : State) (i : SubId) (n : Nat) : Bool :=
  decide (0 < n) && s.streamsPast i (n - 1) && !s.framesBefore i n

/-- MASKED: the gain groups of the active set coded zero. -/
def State.maskedGroups (s : State) (i : SubId) (set : SMap (BitVec 16)) : Nat :=
  let x := s.front.assay[i]
  let g := 2 ^ x.cfg.gainGroupLog2.toNat
  let groups := (s.fineChans i + g - 1) / g
  (s.inputs i).foldl (fun a input =>
    a + ((List.range groups).filter fun k => SMap.get x.fill set (gainKey input k) == 0).length) 0

/-- The record of an input for the span just ended. -/
def AssaySub.levelOf (x : AssaySub) (span input : Nat) : AssyLevels :=
  { SMap.get ({} : AssyLevels) x.acc (levelKey span input) with span := BitVec.ofNat 64 span }

/-- ASSY_LEVELS of every input is completed, and ASSAY_CLIP raised as needed (R132). -/
def State.completeLevels (s : State) (i : SubId) (span : Nat) : State :=
  let x := s.front.assay[i]
  let ins := s.inputs i
  let alarm := x.cfg.clipAlarm.toNat
  let clips := (ins.filter fun a =>
    let v := x.levelOf span a
    alarm != 0 && decide (alarm * 2 * v.validFs.toNat < v.clip.toNat * 65536)).length
  let t := s.onAssay i fun y =>
    { y with
      levels := ins.foldl (fun (m : SMap AssyLevels) a => SMap.set {} m a (x.levelOf span a)) y.levels
      acc := SMap.keep y.acc (levelKey (span + 1) 0) (2 ^ 128)
      stat := { y.stat with lastSpan := BitVec.ofNat 64 span, clipInputs := BitVec.ofNat 16 clips
                            clipSeen := y.stat.clipSeen || decide (0 < clips) } }
  if 0 < clips then t.raise srcAssayClip (BitVec.ofNat 32 i.val) (some i) else t

/-- The ingress formats that waited for a boundary at or before a raw index take their place (R22, R75). -/
def State.applyIngress (s : State) (i : SubId) (k : Nat) : State :=
  let due (e : Fin 64 × Fmt × SubId × Option Nat) : Bool := e.2.2.1 == i && (match e.2.2.2 with
    | some x => decide (x ≤ k)
    | none => false)
  let fmts := (s.fmt.waiting.filter due).foldl (fun v e => vset v e.1 (some e.2.1)) s.fmt.fmts
  { s with fmt := { s.fmt with fmts := fmts, waiting := s.fmt.waiting.filter fun e => !due e } }

/-- EXP_MIN and EXP_MAX of the engines of a sub-array describe the span just ended. -/
def State.publishExps (s : State) (i : SubId) : State :=
  { s with front := { s.front with engines := s.front.engines.map fun e =>
      if e.stat.state = 1 ∧ e.stat.subarray.toNat = i.val then
        match e.expNow with
        | some (a, b) => { e with expNow := none, stat := { e.stat with expMin := BitVec.ofNat 5 a, expMax := BitVec.ofNat 5 b } }
        | none => e
      else e } }

/-- FRONT_END_SPAN_BOUNDARY (R22, R132): every fine sample of the span before has passed the Assay. OUT_SHIFT, gains and
curves hold by fine sample already; the formats and the statistics follow here. -/
def execFrontEndSpanBoundary (i : SubId) (s : State) : Host.Outcome State Fault Refusal :=
  let x := s.front.assay[i]
  let n := x.span * spanLen
  .next (if s.active i && s.assayPast i n then
      let t := (s.completeLevels i (x.span - 1)).publishExps i
      let t := t.applyIngress i (s.ks i + n * s.decim i)
      let t := t.onAssay i fun y => { y with span := y.span + 1 }
      match x.gainAt with
      | some n0 => if n0 ≤ n then t.onAssyStat i fun y => { y with masked := BitVec.ofNat 32 (s.maskedGroups i x.shadow) } else t
      | none => t
    else s)

/-- The copies are alike again and GAIN_PENDING clears. -/
def State.copyGains (s : State) (i : SubId) : State :=
  let m := s.maskedGroups i s.front.assay[i].shadow
  s.onAssay i fun y =>
    { y with active := y.shadow, gainAt := none, stat := { y.stat with gainPending := false, masked := BitVec.ofNat 32 m } }

/-- GAIN_COPYBACK (R131): the last fine sample of the span before the new gains has passed the Assay; before the first span
there is none. -/
def execGainCopyback (i : SubId) (s : State) : Host.Outcome State Fault Refusal :=
  .next (match s.front.assay[i].gainAt with
    | some n0 => if n0 = 0 ∨ s.assayPast i n0 then s.copyGains i else s
    | none => s)

/-- s_f: the first span of which the Sieve has not yet emitted, withheld or reported any fine sample (R22). -/
def State.frontSpan (s : State) (i : SubId) : Nat :=
  let n := (s.inputs i).foldl (fun a k => max a (SMap.get ({} : SieveIn) s.sieve[i].ins k).fineN) 0
  (n + spanLen - 1) / spanLen

/-- A write of GAIN_COMMIT (R131): the shadow copy is active from the next front-end span boundary on, or at once. False
where the write is refused with BUSY. -/
def State.gainCommit (s : State) (i : SubId) : State × Bool :=
  if s.front.assay[i].stat.gainPending then (s, false)
  else if s.active i then
    (s.onAssay i fun y =>
      { y with gainAt := some (s.frontSpan i * spanLen), stat := { y.stat with gainPending := true } }, true)
  else
    let x := s.front.assay[i]
    let m := s.maskedGroups i x.shadow
    (s.onAssay i fun y =>
      { y with active := x.shadow, shadow := x.active, stat := { y.stat with masked := BitVec.ofNat 32 m } }, true)

/-- GAIN_COMMIT (R131). -/
def execGainCommit (i : SubId) (s : State) : Host.Outcome State Fault Refusal := .next (s.gainCommit i).1

end Sys2Proof.Machine
end

