-- ==== Sys2Proof/Machine/Drayman.lean ====
section
/-! DEFINITION. The Drayman: triggers, descriptors, rings and moves (R370 to R376), and MASTER_RESET. -/

namespace Sys2Proof.Machine

/-- The Drayman's port. -/
def drayPort : MasterId := 4

/-- A Drayman channel. -/
def State.dray (s : State) (c : DrayId) : Dray := s.move.dray[c]

/-- States of a channel (Table 14-13). -/
abbrev dcIdle : BitVec 2 := 0
abbrev dcWaiting : BitVec 2 := 1
abbrev dcMoving : BitVec 2 := 2
abbrev dcError : BitVec 2 := 3

/-- The fields of a descriptor (Table 14-6). -/
structure Descriptor where
  valid   : Bool
  event   : Bool
  barrier : Bool
  chain   : Bool
  wait    : Bool
  srcCirc : Bool
  dstCirc : Bool
  srcLog  : Nat
  dstLog  : Nat
  src     : Nat
  dst     : Nat
  length  : Nat
  next    : Nat
  /-- A reserved bit is set. -/
  reserved : Bool
  deriving DecidableEq, Repr

/-- An address in two words. -/
def addrOf (lo hi : Word) : Nat := lo.toNat + fieldOf hi 0 12 * 2 ^ 32

/-- A descriptor from its eight words. -/
def descriptorOf (w : List Word) : Descriptor :=
  let g (k : Nat) : Word := w.getD k 0
  { valid := flagOf (g 0) 0, event := flagOf (g 0) 1, barrier := flagOf (g 0) 2, chain := flagOf (g 0) 3
    wait := flagOf (g 0) 4, srcCirc := flagOf (g 0) 5, dstCirc := flagOf (g 0) 6
    srcLog := fieldOf (g 0) 8 5, dstLog := fieldOf (g 0) 16 5
    src := addrOf (g 1) (g 2), dst := addrOf (g 3) (g 4), length := (g 5).toNat, next := addrOf (g 6) (g 7)
    reserved := flagOf (g 0) 7 || fieldOf (g 0) 13 3 != 0 || fieldOf (g 0) 21 11 != 0 || fieldOf (g 2) 12 20 != 0 ||
      fieldOf (g 4) 12 20 != 0 || fieldOf (g 7) 12 20 != 0 }

/-- Error codes of a channel (Table 14-13). -/
abbrev deInvalid : BitVec 4 := 1
abbrev deOverlap : BitVec 4 := 2
abbrev deLength : BitVec 4 := 3
abbrev deArea : BitVec 4 := 4
abbrev deUnmapped : BitVec 4 := 5
abbrev deFault : BitVec 4 := 6
abbrev deReset : BitVec 4 := 7
abbrev deLock : BitVec 4 := 8

/-- A channel ends in ERROR (R376). -/
def State.drayError (s : State) (c : DrayId) (code : BitVec 4) (a : Nat) : State :=
  (s.onDrayReg c fun x => { x with state := dcError, errCode := code, errAddr := BitVec.ofNat 44 a, errSeen := true }).raise
    srcDrayError (BitVec.ofNat 32 c.val)

/-- The error code of a response. -/
def draResp (r : BitVec 2) : BitVec 4 := if r = respUnmapped then deUnmapped else if r = respFault then deFault else deLock

/-! ### Areas (R370) -/

/-- A range lies inside another. -/
def within (a n b m : Nat) : Bool := decide (b ≤ a) && decide (a + n ≤ b + m)

/-- A range lies in a region that a host may read: SCRATCH or CELLAR, LEDGER, WEIGHT, TURN and CAPTURE. -/
def State.readable (s : State) (a n : Nat) : Bool := s.gran.regions.any fun r => within a n r.base r.bytes

/-- A range lies in SCRATCH. -/
def inScratch (a n : Nat) : Bool := within a n scratchBase scratchBytes

/-- A descriptor of the channel may lie at an address. -/
def State.descArea (s : State) (c : DrayId) (a : Nat) : Bool :=
  if (s.dray c).reg.host then inScratch a 32
  else inScratch a 32 || within a 32 foremanBase 0x800000 || within a 32 tableBase 0x1000000

/-- The footprint of a side: first byte and length (R374). -/
def footprint (circ : Bool) (log addr len : Nat) : Nat × Nat :=
  if circ then (addr / 2 ^ log * 2 ^ log, 2 ^ log) else (addr, len)

/-- Two footprints overlap. -/
def meets (a b : Nat × Nat) : Bool := decide (a.1 < b.1 + b.2) && decide (b.1 < a.1 + a.2)

/-- The sides of a descriptor of a channel lie where R370 lets them. -/
def State.sidesArea (s : State) (c : DrayId) (d : Descriptor) : Option Nat :=
  let fs := footprint d.srcCirc d.srcLog d.src d.length
  let fd := footprint d.dstCirc d.dstLog d.dst d.length
  if (s.dray c).reg.host then
    if !s.readable fs.1 fs.2 then some d.src else if !inScratch fd.1 fd.2 then some d.dst else none
  else none

/-! ### Moves -/

/-- The bytes of a side in the order of the move, as pieces of linear ranges (R373). -/
def sidePieces (circ : Bool) (log addr cur len : Nat) : List (Nat × Nat) :=
  if circ then
    let base := addr / 2 ^ log * 2 ^ log
    let first := min len (2 ^ log - cur)
    if first = len then [(base + cur, len)] else [(base + cur, first), (base, len - first)]
  else [(addr, len)]

/-- Reads of a channel, piece by piece, from the top where `down` (R374): what was read, in ascending order; it ends at the
first error response, with its address. -/
def State.drayRead (s : State) (ps : List (Nat × Nat)) (down : Bool := false) : State × List Byte × Option (BitVec 2 × Nat) :=
  let parts := ps.flatMap fun e => kibPieces e.1 e.2
  (if down then parts.reverse else parts).foldl (fun r e =>
    match r.2.2 with
    | some _ => r
    | none =>
      let u := r.1.busRead drayPort e.1 e.2
      if u.2.1 = respComplete then (u.1, if down then u.2.2 ++ r.2.1 else r.2.1 ++ u.2.2, none)
      else (u.1, r.2.1, some (u.2.1, e.1))) (s, [], none)

/-- Writes of a channel, piece by piece; `down` runs them from the top (R374). -/
def State.drayWrite (s : State) (ps : List (Nat × Nat)) (data : List Byte) (down : Bool) :
    State × Nat × Option (BitVec 2 × Nat) :=
  let parts := ((ps.flatMap fun e => kibPieces e.1 e.2).foldl (fun (a : List (Nat × List Byte) × List Byte) e =>
    (a.1 ++ [(e.1, a.2.take e.2)], a.2.drop e.2)) ([], data)).1
  (if down then parts.reverse else parts).foldl (fun r e =>
    match r.2.2 with
    | some _ => r
    | none =>
      let u := r.1.busWrite drayPort e.1 (e.2.map some)
      if u.2 = respComplete then (u.1, r.2.1 + e.2.length, none) else (u.1, r.2.1, some (u.2, e.1))) (s, 0, none)

/-- CUR of a side when a descriptor begins (R373): loaded at GO and whenever the ring changes, else carried on. -/
def curOf (circ : Bool) (log addr : Nat) (ring : Option (Nat × Nat)) (cur : Nat) : Nat :=
  if circ then
    if ring = some (addr / 2 ^ log * 2 ^ log, log) then cur else addr % 2 ^ log
  else cur

/-- The ring of a side, where it is circular. -/
def ringOf (circ : Bool) (log addr : Nat) (old : Option (Nat × Nat)) : Option (Nat × Nat) :=
  if circ then some (addr / 2 ^ log * 2 ^ log, log) else old

/-- The first rule of R370 to R374 that a descriptor breaks: code and address. -/
def State.descFault (s : State) (c : DrayId) (at' : Nat) (d : Descriptor) : Option (BitVec 4 × Nat) :=
  let ringBad (circ : Bool) (log : Nat) : Bool := if circ then decide (log < 12) else log != 0
  if !d.valid ∨ d.reserved ∨ d.src % 4 ≠ 0 ∨ d.dst % 4 ≠ 0 ∨ d.length % 4 ≠ 0 ∨ d.length = 0 ∨ d.next % 32 ≠ 0 ∨
      ringBad d.srcCirc d.srcLog ∨ ringBad d.dstCirc d.dstLog ∨ (d.wait ∧ (s.dray c).reg.trigSrc = 0) then
    some (deInvalid, at')
  else if (d.srcCirc ∧ 2 ^ d.srcLog < d.length) ∨ (d.dstCirc ∧ 2 ^ d.dstLog < d.length) then some (deLength, at')
  else
    match s.sidesArea c d with
    | some a => some (deArea, a)
    | none =>
      if (d.srcCirc ∨ d.dstCirc) ∧
          meets (footprint d.srcCirc d.srcLog d.src d.length) (footprint d.dstCirc d.dstLog d.dst d.length) then
        some (deOverlap, at')
      else none

/-- The bytes are copied from the top burst down: both sides linear, overlapping, and DST above SRC (R374). -/
def Descriptor.down (d : Descriptor) : Bool :=
  !d.srcCirc && !d.dstCirc && decide (d.src < d.dst) && meets (d.src, d.length) (d.dst, d.length)

/-- Where the first `n` bytes of a move go, in its order: all of it, or what was read before an error (R374, R376). -/
def Descriptor.dstPieces (d : Descriptor) (cur n : Nat) : List (Nat × Nat) :=
  if d.down then [(d.dst + (d.length - n), n)] else sidePieces d.dstCirc d.dstLog d.dst cur n

/-- The move of a descriptor begins: every byte is read and written; the descriptor completes when its writes are
visible (R373 to R376). At an error response the channel ends in ERROR, and what it had read before is written (log entry
26). -/
def State.beginMove (s : State) (c : DrayId) (d : Descriptor) : State :=
  let x := s.dray c
  let sc := curOf d.srcCirc d.srcLog d.src x.srcRing x.reg.srcCur.toNat
  let dc := curOf d.dstCirc d.dstLog d.dst x.dstRing x.reg.dstCur.toNat
  let s := s.onDray c fun y =>
    { y with srcRing := ringOf d.srcCirc d.srcLog d.src y.srcRing, dstRing := ringOf d.dstCirc d.dstLog d.dst y.dstRing
             reg := { y.reg with state := dcMoving, srcCur := BitVec.ofNat 32 sc, dstCur := BitVec.ofNat 32 dc
                                 pending := if d.wait then y.reg.pending - 1 else y.reg.pending } }
  let r := s.drayRead (sidePieces d.srcCirc d.srcLog d.src sc d.length) d.down
  let w := r.1.drayWrite (d.dstPieces dc r.2.1.length) r.2.1 d.down
  let t := w.1.onDrayReg c fun y => { y with bytes := y.bytes + BitVec.ofNat 64 w.2.1 }
  match w.2.2, r.2.2 with
  | some (code, a), _ => t.drayError c (draResp code) a
  | none, some (code, a) => t.drayError c (draResp code) a
  | none, none => t

/-- A channel begins the descriptor at CUR_DESC: it reads and checks it, and waits for a trigger where it asks for one. -/
def State.startDescriptor (s : State) (c : DrayId) : State :=
  let a := (s.dray c).reg.curDesc.toNat
  if a % 32 ≠ 0 then s.drayError c deInvalid a
  else if !s.descArea c a then s.drayError c deArea a
  else
    let r := s.drayRead [(a, 32)]
    match r.2.2 with
    | some (code, b) => r.1.drayError c (draResp code) b
    | none =>
      let ws := bytesWords r.2.1
      let d := descriptorOf ws
      let s := r.1.onDray c fun y => { y with desc := ws }
      match s.descFault c a d with
      | some (code, b) => s.drayError c code b
      | none =>
        if d.wait ∧ (s.dray c).reg.pending = 0 then s.onDrayReg c fun y => { y with state := dcWaiting }
        else s.beginMove c d

/-- The ranges that the move of a descriptor reads and writes. -/
def State.moveRanges (s : State) (c : DrayId) (d : Descriptor) : List (Nat × Nat) :=
  let x := s.dray c
  sidePieces d.srcCirc d.srcLog d.src (curOf d.srcCirc d.srcLog d.src x.srcRing x.reg.srcCur.toNat) d.length ++
    sidePieces d.dstCirc d.dstLog d.dst (curOf d.dstCirc d.dstLog d.dst x.dstRing x.reg.dstCur.toNat) d.length

/-- The ranges that a channel reaches when it begins the descriptor at CUR_DESC: the descriptor, and its move where it
begins at once. -/
def State.startRanges (s : State) (c : DrayId) : List (Nat × Nat) :=
  let a := (s.dray c).reg.curDesc.toNat
  if a % 32 ≠ 0 ∨ !s.descArea c a then []
  else
    let d := descriptorOf (bytesWords (s.drayRead [(a, 32)]).2.1)
    if (s.descFault c a d).isSome ∨ (d.wait ∧ (s.dray c).reg.pending = 0) then [(a, 32)] else (a, 32) :: s.moveRanges c d

/-- DESCRIPTOR_START (R371, R372): a channel that GO or a chain has put at a descriptor begins it; one that waits for a
trigger goes on once a trigger is pending. While another master's lock holds an access of it, the channel waits (R367). -/
def execDescriptorStart (c : DrayId) (s : State) : Host.Outcome State Fault Refusal :=
  let x := s.dray c
  .next (if x.reg.state = dcMoving ∧ x.desc = [] then
      if s.lockedOut drayPort (s.startRanges c) then s else s.startDescriptor c
    else if x.reg.state = dcWaiting ∧ x.reg.pending ≠ 0 then
      let d := descriptorOf x.desc
      if s.lockedOut drayPort (s.moveRanges c d) then s else s.beginMove c d
    else s)

/-! ### Triggers and event lines (R372, R375) -/

/-- One trigger reaches a channel. -/
def State.trigger (s : State) (c : DrayId) : State :=
  s.onDrayReg c fun x =>
    if x.state = dcIdle then x
    else if x.pending = 255 then { x with trigLost := x.trigLost + 1 }
    else { x with pending := x.pending + 1 }

/-- A pulse on an event line: every channel that TRIG_SRC and TRIG_LINE point at it takes a trigger. -/
def State.pulseLine (s : State) (line : Fin 32) : State :=
  (allFin 16).foldl (fun t c =>
    let x := (t.dray c).reg
    if x.trigSrc = 2 ∧ x.trigLine.toNat = line.val then t.trigger c else t) (s.emit (.eventLine line))

/-- A pulse from a timer whose action is DRAYMAN (R372). -/
def State.timerTrigger (s : State) (c : DrayId) : State :=
  if (s.dray c).reg.trigSrc = 1 then s.trigger c else s

/-- DRAY_TRIGGER (R372): a pulse on an event line, or of a timer with the channel as TARGET, reaches a channel. -/
def execDrayTrigger (c : DrayId) (line : Option (Fin 32)) (s : State) : Host.Outcome State Fault Refusal :=
  .next (match line with
    | none => s.timerTrigger c
    | some l =>
      let x := (s.dray c).reg
      if x.trigSrc = 2 ∧ x.trigLine.toNat = l.val ∧ l.val < 22 then s.trigger c else s)

/-- DESCRIPTOR_COMPLETE (R373, R375): every write of the descriptor is visible. -/
def execDescriptorComplete (c : DrayId) (s : State) : Host.Outcome State Fault Refusal :=
  let x := s.dray c
  .next (if x.reg.state = dcMoving ∧ x.desc ≠ [] then
      let d := descriptorOf x.desc
      let adv (circ : Bool) (log : Nat) (cur : BitVec 32) : BitVec 32 :=
        if circ then BitVec.ofNat 32 ((cur.toNat + d.length) % 2 ^ log) else cur
      let t := s.onDray c fun y =>
        { y with desc := []
                 reg := { y.reg with
                   srcCur := adv d.srcCirc d.srcLog y.reg.srcCur, dstCur := adv d.dstCirc d.dstLog y.reg.dstCur
                   done := y.reg.done + 1, state := if d.chain then dcMoving else dcIdle
                   curDesc := if d.chain then BitVec.ofNat 44 d.next else y.reg.curDesc } }
      if d.event then t.pulseLine ⟨c.val, by omega⟩ else t
    else s)

/-! ### GO, STOP and resets (R376) -/

/-- A write of 1 to GO: refused unless the channel is IDLE or in ERROR. -/
def State.drayGo (s : State) (c : DrayId) : State :=
  let x := (s.dray c).reg
  if x.state = dcIdle ∨ x.state = dcError then
    s.onDray c fun y =>
      { y with desc := [], srcRing := none, dstRing := none
               reg := { y.reg with state := dcMoving, errCode := 0, curDesc := y.reg.descAddr } }
  else s

/-- A write of 1 to STOP. -/
def State.drayStop (s : State) (c : DrayId) : State :=
  s.onDray c fun y => { y with desc := [], reg := { y.reg with state := dcIdle, pending := 0 } }

/-- GO (R376). -/
def execGo (c : DrayId) (s : State) : Host.Outcome State Fault Refusal := .next (s.drayGo c)

/-- STOP (R376). -/
def execStop (c : DrayId) (s : State) : Host.Outcome State Fault Refusal := .next (s.drayStop c)

/-- A Drayman block reset: after R369 every channel is in ERROR with code RESET (R376). -/
def State.resetDrayman (s : State) (inFlight : Option (Burst × Nat)) : State :=
  let s := s.resetMaster drayPort inFlight
  (allFin 16).foldl (fun t c => (t.onDray c fun y => { y with desc := [] }).drayError c deReset 0) s

/-- A master is reset (R369, R376). -/
def State.masterReset (s : State) (m : MasterId) (inFlight : Option (Burst × Nat)) : State :=
  if m.val = 4 then s.resetDrayman inFlight else s.resetMaster m inFlight

end Sys2Proof.Machine
end

