-- ==== Sys2Proof/Machine/Mill.lean ====
section
/-! DEFINITION. The Mill: engines, address generators, loops, butterflies, block exponents, faults, spares and kernels
(R112 to R125). -/

namespace Sys2Proof.Machine

/-! ### Instruction words (Table 05-2) -/

/-- The four words of an instruction. -/
structure MillWord where
  w0 : Word
  w1 : Word
  w2 : Word
  w3 : Word
  deriving DecidableEq, Repr

def MillWord.op (w : MillWord) : Nat := fieldOf w.w0 0 6
def MillWord.rdAg (w : MillWord) : Nat := fieldOf w.w0 6 3
def MillWord.rdPm (w : MillWord) : Nat := fieldOf w.w0 9 3
def MillWord.wrAg (w : MillWord) : Nat := fieldOf w.w0 12 3
def MillWord.wrPm (w : MillWord) : Nat := fieldOf w.w0 15 3
def MillWord.twAg (w : MillWord) : Nat := fieldOf w.w0 18 3
def MillWord.twPm (w : MillWord) : Nat := fieldOf w.w0 21 3
def MillWord.twEn (w : MillWord) : Bool := flagOf w.w0 24
def MillWord.twPos (w : MillWord) : Bool := flagOf w.w0 25
def MillWord.legOrder (w : MillWord) : Bool := flagOf w.w0 26
def MillWord.brOut (w : MillWord) : Bool := flagOf w.w0 27
def MillWord.shift (w : MillWord) : Nat := fieldOf w.w0 28 2
def MillWord.passEnd (w : MillWord) : Nat := fieldOf w.w0 30 2
def MillWord.slot (w : MillWord) : Nat := fieldOf w.w1 0 4
def MillWord.slotLc (w : MillWord) : Bool := flagOf w.w1 4
def MillWord.slotShift (w : MillWord) : Nat := fieldOf w.w1 5 3
def MillWord.outSlot (w : MillWord) : Nat := fieldOf w.w1 8 4
def MillWord.outLc (w : MillWord) : Bool := flagOf w.w1 12
def MillWord.target (w : MillWord) : Nat := fieldOf w.w1 16 12
def MillWord.countM1 (w : MillWord) : Nat := fieldOf w.w2 0 16
def MillWord.reg (w : MillWord) : Nat := fieldOf w.w2 0 7

/-- The opcodes of Table 05-3. -/
abbrev opNop : Nat := 0x00
abbrev opBf4 : Nat := 0x01
abbrev opBf2 : Nat := 0x02
abbrev opMove : Nat := 0x03
abbrev opCmul : Nat := 0x04
abbrev opLoad : Nat := 0x08
abbrev opUnload : Nat := 0x09
abbrev opXfer : Nat := 0x0A
abbrev opLoop : Nat := 0x10
abbrev opJump : Nat := 0x11
abbrev opSetreg : Nat := 0x12

/-- The assigned opcodes. -/
def millOps : List Nat :=
  [opNop, opBf4, opBf2, opMove, opCmul, opLoad, opUnload, opXfer, opLoop, opJump, opSetreg]

/-- An instruction reads a vector. -/
def MillWord.reads (w : MillWord) : Bool := [opBf4, opBf2, opMove, opCmul, opUnload, opXfer].contains w.op

/-- An instruction writes a vector. -/
def MillWord.writes (w : MillWord) : Bool := [opBf4, opBf2, opMove, opCmul, opLoad, opXfer].contains w.op

/-- An instruction uses the coefficient memory. -/
def MillWord.twiddles (w : MillWord) : Bool := w.op == opCmul || ((w.op == opBf4 || w.op == opBf2) && w.twEn)

/-- An instruction is one that Table 05-3 and R116 assign: its opcode and the post-modify codes it uses (Table 05-4). -/
def MillWord.legal (w : MillWord) : Bool :=
  millOps.contains w.op && !(w.reads && decide (5 < w.rdPm)) &&
    !(w.writes && !(w.reads && w.rdAg == w.wrAg) && decide (5 < w.wrPm)) && !(w.twiddles && decide (5 < w.twPm))

/-- An instruction names a frame slot. -/
def MillWord.usesSlot (w : MillWord) : Bool := w.writes || w.op == opUnload

/-- A field of Table 05-2 that the instruction uses is out of its range. -/
def MillWord.outOfRange (w : MillWord) : Bool := w.usesSlot && (decide (6 < w.slotShift) || w.passEnd == 3)

/-- The value is out of the range of its generator register (Table 05-1). -/
def agOutOfRange (f : Nat) (v : Word) : Bool :=
  match f with
  | 8 => decide (4 < v.toNat)
  | 10 => decide (32768 < v.toNat)
  | 11 => decide (15 < v.toNat)
  | 12 => decide (2 < v.toNat)
  | _ => false

/-! ### Kernels (R125) -/

/-- Instruction `pc` of a kernel. -/
def Kernel.instr (k : Kernel) (pc : Nat) : MillWord :=
  ⟨k.code.getD (4 * pc) 0, k.code.getD (4 * pc + 1) 0, k.code.getD (4 * pc + 2) 0, k.code.getD (4 * pc + 3) 0⟩

/-- W_4096^k as a coefficient word (R120). -/
def vendorCoef (k : Nat) : Word :=
  let r := cosSin k 4096
  putAt (BitVec.ofNat 16 (codeOf 16 (nearest80 r.1 14))) 0 ||| putAt (BitVec.ofNat 16 (codeOf 16 (-(nearest80 r.2 14)))) 16

/-- The declared rates of the vendor kernels (Table 05-6). -/
def vendorRate (n : Nat) : Nat := [146127, 115036, 124292, 100356, 106144, 87914, 92029].getD (n - 6) 0

/-- Registers 0 to 15 of a generator of a vendor kernel, one after another the fields that Table 05-7 gives, and OFS1. -/
def vendorAg (ug s1 s2 s3 ofs0 modLen mode : Nat) (ofs1 : Nat := 0) : List Word :=
  [0, BitVec.ofNat 32 ofs0, BitVec.ofNat 32 ofs1, 0, 0, BitVec.ofNat 32 s1, BitVec.ofNat 32 s2, BitVec.ofNat 32 s3,
   BitVec.ofNat 32 ug, 0, BitVec.ofNat 32 modLen, 0, BitVec.ofNat 32 mode, 0, 0, 0]

/-- Word 0 of an instruction of a vendor kernel. -/
def vendorWord (op rd rdPm wr wrPm tw : Nat) (twOn leg br : Bool) (passEnd : Nat) (twPm : Nat := 0) : Word :=
  putAt (BitVec.ofNat 6 op) 0 ||| putAt (BitVec.ofNat 3 rd) 6 ||| putAt (BitVec.ofNat 3 rdPm) 9 |||
  putAt (BitVec.ofNat 3 wr) 12 ||| putAt (BitVec.ofNat 3 wrPm) 15 ||| putAt (BitVec.ofNat 3 tw) 18 |||
  putAt (BitVec.ofNat 3 twPm) 21 |||
  bitAt twOn 24 ||| bitAt twOn 25 ||| bitAt leg 26 ||| bitAt br 27 ||| putAt (BitVec.ofNat 2 passEnd) 30

/-- A LOOP of `n` runs up to `target`. -/
def vendorLoop (target : Nat) (n : Nat := 8) : List Word :=
  [BitVec.ofNat 32 opLoop, putAt (BitVec.ofNat 12 target) 16, BitVec.ofNat 32 (n - 1), 0]

/-- The 64-point vendor kernel (Table 05-7 and its program). -/
def vendorKernel6 : Kernel :=
  { id := 6, pLog2 := 6, rate := vendorRate 6, entry := 0, count := 9
    ags := vendorAg 0 0 4 1 64 512 0 ++ vendorAg 0 0 4 1 64 512 0 ++ vendorAg 4 1 0 16 64 512 0 ++
      vendorAg 2 1 16 4 64 512 0 ++ vendorAg 0 0 4 1 64 512 0 ++ vendorAg 4 64 0 0 0 0 1 ++
      vendorAg 2 256 0 0 0 0 1 ++ vendorAg 0 0 0 0 0 0 0
    code := vendorLoop 1 ++ [vendorWord opXfer 1 1 0 1 0 false false true 1, 0x1010, 0, 0] ++
      vendorLoop 3 ++ [vendorWord opBf4 2 1 2 1 5 true true false 1, 0x10, 0, 0] ++
      vendorLoop 5 ++ [vendorWord opBf4 3 1 3 1 6 true true false 1, 0x10, 0, 0] ++
      vendorLoop 7 ++ [vendorWord opBf4 4 1 4 1 0 false true false 1, 0x10, 0, 0] ++
      [BitVec.ofNat 32 opJump, 0, 0, 0]
    coef := (List.range 4096).map vendorCoef }

/-! The vendor kernels for longer frames: the passes, loops and post-modify codes that R120 and R125 give. Their text is in
no table, and its arrangement is the model's (DESIGN CHOICE, log entry 16). -/

/-- The leg strides of the radix-4 passes of a transform of 2^n points. -/
def vendorStrides (n : Nat) : List Nat := (List.range (n / 2)).map fun p => 2 ^ (n - 2 * (p + 1))

/-- The settings of the twiddle generator of the pass with leg stride `q`, W_4q^(qr): UG_LOG2, S1, OFS0 and OFS1. -/
def vendorTw (q : Nat) : Nat × Nat × Nat × Nat :=
  let k := 1024 / q
  if 32 ≤ q then (4, k, 16 * k, 2 ^ 16 - (q - 16) * k) else (Nat.log2 q, k, 0, 0)

/-- The data generator of the pass with leg stride `q` over eight frames of 2^n words. -/
def vendorData (n q : Nat) : List Word :=
  if 32 ≤ q then vendorAg 4 1 0 q 16 (2 ^ (n + 3)) 0 (3 * q + 16)
  else vendorAg (Nat.log2 q) 1 (if q = 16 then 0 else 4 * q) q 64 (2 ^ (n + 3)) 0

/-- Passes of 128 and 256 points have a twiddle generator each, from generator 5 on; the longer transforms have no room for
that, and set generator 7 before each pass. -/
def vendorTwAg (n p : Nat) : Nat := if n ≤ 8 then 5 + p else 7

/-- The generators: 0 steps in natural order through the frames, for the XFER and for the last pass. -/
def vendorAgs (n : Nat) : List Word :=
  let qs := (vendorStrides n).filter fun q => q != 1
  let tw := (qs.take 3).map vendorTw
  vendorAg 0 0 4 1 64 (2 ^ (n + 3)) 0 ++ (qs.flatMap (vendorData n)) ++ List.replicate (16 * (4 - qs.length)) 0 ++
    if n ≤ 8 then tw.flatMap fun t => vendorAg t.1 t.2.1 0 0 t.2.2.1 0 1 t.2.2.2
    else List.replicate (16 * (2 - (qs.length - 4))) 0 ++ vendorAg 0 0 0 0 0 0 1

/-- One instruction: its words, given its address. -/
abbrev VendorInstr := Nat → List Word

/-- A SETREG. -/
def vendorSet (g f v : Nat) : VendorInstr := fun _ => [BitVec.ofNat 32 opSetreg, 0, BitVec.ofNat 32 (16 * g + f), BitVec.ofNat 32 v]

/-- A LOOP whose body ends `k` instructions further on. -/
def vendorLoopTo (k n : Nat) : VendorInstr := fun pc => vendorLoop (pc + k) n

/-- The radix-4 pass `p`, with leg stride `q`, on the slots from `slot` on. -/
def vendorPass (n slot p q : Nat) : List VendorInstr :=
  let w1 : Word := BitVec.ofNat 32 (slot + 16 + 32 * (n - 6))
  let ag := if q = 1 then 0 else p + 1
  let tw := vendorTwAg n p
  let t := vendorTw q
  let bf (pm : Nat) : VendorInstr := fun _ => [vendorWord opBf4 ag pm ag pm tw (q != 1) true false 2 (if pm = 5 then 5 else 0), w1, 0, 0]
  (if n ≤ 8 ∨ q = 1 then [] else [vendorSet tw 8 t.1, vendorSet tw 5 t.2.1, vendorSet tw 1 t.2.2.1, vendorSet tw 2 t.2.2.2]) ++
    if 32 ≤ q then [vendorLoopTo 2 (2 ^ (n + 1) / q), vendorLoopTo 1 (q / 16), bf 5]
    else [vendorLoopTo 1 (2 ^ (n - 3)), bf 1]

/-- One batch of eight frames: the XFER into the slots from `slot` on, out of the eight others, and the passes. The radix-2
pass of the odd lengths comes last, without twiddles; on pairs the order of its outputs is LEG_ORDER 0. -/
def vendorBatch (n slot : Nat) : List VendorInstr :=
  let w1 : Word := BitVec.ofNat 32 (slot + 16 + 32 * (n - 6) + 256 * (8 - slot) + 4096)
  [vendorLoopTo 1 (2 ^ (n - 3)), fun _ => [vendorWord opXfer 0 1 0 1 0 false false true 2, w1, 0, 0]] ++
    ((vendorStrides n).zipIdx.flatMap fun e => vendorPass n slot e.2 e.1) ++
    if n % 2 = 0 then []
    else [vendorLoopTo 1 (2 ^ (n - 3)),
      fun _ => [vendorWord opBf2 0 1 0 1 0 false false false 2, BitVec.ofNat 32 (slot + 16 + 32 * (n - 6)), 0, 0]]

/-- The program: two batches, each ended by a JUMP, so that a frame is loaded into a slot that holds none (R119). -/
def vendorProgram (n : Nat) : List VendorInstr :=
  let len := (vendorBatch n 0).length + 1
  vendorBatch n 0 ++ [fun _ => [BitVec.ofNat 32 opJump, putAt (BitVec.ofNat 12 len) 16, 0, 0]] ++
    vendorBatch n 8 ++ [fun _ => [BitVec.ofNat 32 opJump, 0, 0, 0]]

/-- A vendor kernel. -/
def vendorKernel (n : Nat) : Kernel :=
  if n = 6 then vendorKernel6
  else
    let prog := vendorProgram n
    { id := n, pLog2 := n, rate := vendorRate n, entry := 0, count := prog.length, ags := vendorAgs n
      code := prog.zipIdx.flatMap fun e => e.1 e.2, coef := (List.range 4096).map vendorCoef }

/-- The resident kernel of a KERNEL_ID (R125). -/
def State.kernel (s : State) (id : Nat) : Option Kernel :=
  match s.front.kernels.find? fun k => k.id == id with
  | some k => some k
  | none => if 6 ≤ id ∧ id ≤ 12 then some (vendorKernel id) else none

/-! ### Generator registers (R116, Table 05-1) -/

/-- The width of register `f` of a generator; zero for a reserved one, whose writes are ignored. -/
def regWidth (f : Nat) : Nat := [15, 16, 16, 16, 16, 15, 15, 15, 3, 15, 16, 4, 2, 0, 0, 0].getD f 0

/-- Register 16g + f. -/
def Engine.reg (x : Engine) (g f : Nat) : Nat := SMap.get 0 x.regs (16 * g + f)

/-- A register written. -/
def Engine.setReg (x : Engine) (r v : Nat) : Engine := { x with regs := SMap.set 0 x.regs r (v % 2 ^ regWidth (r % 16)) }

/-- The low `n` bits of a number reversed. -/
def bitrev (n v : Nat) : Nat :=
  (List.range n).foldl (fun a k => if v.testBit k then a + 2 ^ (n - 1 - k) else a) (v / 2 ^ n * 2 ^ n)

/-- The address that a generator forms for leg `l` of unit `u`, with the DFT index `q`. -/
def Engine.agAddr (x : Engine) (g u l q : Nat) : Nat :=
  let m := 2 ^ x.reg g 8
  let base := x.reg g 0 + (u % m * x.reg g 5 + u / m * x.reg g 6)
  match x.reg g 12 with
  | 0 => bitrev (x.reg g 11) ((base + l * x.reg g 7) % 2 ^ 15)
  | 1 => q * base % 4096
  | _ => (base + l * x.reg g 7) % 4096

/-- The generator after a post-modify code. -/
def Engine.agPost (x : Engine) (g code : Nat) : Engine :=
  let last := match x.loops with
    | l :: _ => l.left == 0
    | [] => false
  let ofs : Int :=
    if code = 0 then 0
    else if code = 5 then signedOf 16 (x.reg g (if last then 2 else 1))
    else signedOf 16 (x.reg g code)
  let b := (x.reg g 0 : Int) + ofs
  let lo : Int := x.reg g 9
  let len : Int := x.reg g 10
  let b := if 0 < len then lo + (b - lo) % len else b
  { x with regs := SMap.set 0 x.regs (16 * g) (b % (if x.reg g 12 = 0 then 2 ^ 15 else 4096)).toNat }

/-! ### Vectors (R114, R115) -/

/-- The lanes of a vector: unit and leg. -/
def lanes : List (Nat × Nat) := (List.range 64).map fun k => (k / 4, k % 4)

/-- The bank of a word. -/
def bankOf (a : Nat) : Nat :=
  let b (k : Nat) : Nat := a / 2 ^ k % 4
  let lo := (a % 16) ^^^ (a / 2 ^ 14 % 2)
  lo + 16 * (b 4 ^^^ b 6 ^^^ b 8 ^^^ b 10 ^^^ b 12)

/-- Cycles beyond the first that a vector access takes: the most words of one bank, less one. -/
def bankExtra (addrs : List Nat) : Nat :=
  let ws := addrs.eraseDups
  ws.foldl (fun a w => max a ((ws.filter fun v => bankOf v == bankOf w).length - 1)) 0

/-- The addresses of a vector; a generator in twiddle mode that names a data vector has no DFT index, and takes free
values (log entry 16). -/
def Engine.vecAddrs (x : Engine) (g : Nat) (free : Nat → Nat) : List Nat :=
  lanes.map fun p => x.agAddr g p.1 p.2 (free (4 * p.1 + p.2))

/-- A vector read. -/
def Engine.readVec (x : Engine) (addrs : List Nat) : List Cplx := addrs.map fun a => SMap.get (0, 0) x.mem (a % 2 ^ 15)

/-- A vector written. -/
def Engine.writeVec (x : Engine) (addrs : List Nat) (vs : List Cplx) : Engine :=
  { x with mem := (addrs.zip vs).foldl (fun (m : SMap Cplx) e => SMap.set (0, 0) m (e.1 % 2 ^ 15) e.2) x.mem }

/-- The engine when a read of a vector issues: it waits for writes pending on its words, then for its banks. -/
def Engine.issueRead (x : Engine) (addrs : List Nat) : Engine :=
  let from' := (x.writes.filter fun w => addrs.contains w.1).foldl (fun a w => max a (w.2 + 1)) x.cycle
  let extra := (from' - x.cycle) + bankExtra addrs
  { x with cycle := x.cycle + extra, writes := x.writes.filter fun w => decide (x.cycle ≤ w.2)
           stat := { x.stat with stallCycles := x.stat.stallCycles + BitVec.ofNat 32 extra } }

/-- The engine when a write of a vector issues: it waits for its banks, and a result of the arithmetic is pending for
6 cycles. -/
def Engine.issueWrite (x : Engine) (addrs : List Nat) (arith : Bool) : Engine :=
  let extra := bankExtra addrs
  { x with cycle := x.cycle + extra
           writes := if arith then x.writes ++ addrs.map fun a => (a, x.cycle + 6) else x.writes
           stat := { x.stat with stallCycles := x.stat.stallCycles + BitVec.ofNat 32 extra } }

/-! ### Coefficients (R114, R120) -/

/-- A complex number multiplied by a coefficient, each part rounded. -/
def twMul (z : Cplx) (w : Word) : Cplx :=
  let wr := signedOf 16 (fieldOf w 0 16)
  let wi := signedOf 16 (fieldOf w 16 16)
  (shrEven (z.1 * wr - z.2 * wi) 14, shrEven (z.1 * wi + z.2 * wr) 14)

/-- A coefficient word; the memory has no word at or above 4096, and there a free value comes (log entry 16). -/
def Kernel.coefAt (k : Kernel) (a : Nat) (free : Nat) : Word :=
  if a < 4096 then k.coef.getD a 0 else BitVec.ofNat 32 free

/-- The coefficients of the values of a vector, one for each lane, `q` giving the DFT index of a lane. -/
def Engine.coefs (x : Engine) (k : Kernel) (g : Nat) (q : Nat → Nat) (free : Nat → Nat) : List Word :=
  lanes.map fun p => k.coefAt (x.agAddr g p.1 p.2 (q (4 * p.1 + p.2))) (free (192 + 4 * p.1 + p.2))

/-- Each value multiplied by its coefficient. -/
def twVec (vs : List Cplx) (cs : List Word) : List Cplx := (vs.zip cs).map fun e => twMul e.1 e.2

/-! ### Butterflies (R120) -/

/-- The radix-4 butterfly. -/
def bf4Of (a0 a1 a2 a3 : Cplx) : List Cplx :=
  [(a0.1 + a1.1 + a2.1 + a3.1, a0.2 + a1.2 + a2.2 + a3.2),
   (a0.1 + a1.2 - a2.1 - a3.2, a0.2 - a1.1 - a2.2 + a3.1),
   (a0.1 - a1.1 + a2.1 - a3.1, a0.2 - a1.2 + a2.2 - a3.2),
   (a0.1 - a1.2 - a2.1 + a3.2, a0.2 + a1.1 - a2.2 - a3.1)]

/-- Two radix-2 butterflies, on legs 0 and 1 and on legs 2 and 3. -/
def bf2Of (a0 a1 a2 a3 : Cplx) : List Cplx :=
  [(a0.1 + a1.1, a0.2 + a1.2), (a0.1 - a1.1, a0.2 - a1.2), (a2.1 + a3.1, a2.2 + a3.2), (a2.1 - a3.1, a2.2 - a3.2)]

/-- A butterfly on each unit of a vector. -/
def unitsMap (f : Cplx → Cplx → Cplx → Cplx → List Cplx) (vs : List Cplx) : List Cplx :=
  (List.range 16).flatMap fun u =>
    f (vs.getD (4 * u) (0, 0)) (vs.getD (4 * u + 1) (0, 0)) (vs.getD (4 * u + 2) (0, 0)) (vs.getD (4 * u + 3) (0, 0))

/-- LEG_ORDER 1: the second and third output of each unit change places. -/
def legSwap (vs : List Cplx) : List Cplx := unitsMap (fun a b c d => [a, c, b, d]) vs

/-- The parts of a vector saturated to ±131,071, and how many did. -/
def satVec (vs : List Cplx) : List Cplx × Nat :=
  (vs.map fun v => (satSym 18 v.1, satSym 18 v.2),
   vs.foldl (fun a v => a + (if satSym 18 v.1 = v.1 then 0 else 1) + (if satSym 18 v.2 = v.2 then 0 else 1)) 0)

/-! ### Slots (R119) -/

/-- X, the executions of the instruction at the program counter since the outermost active loop was entered (R117). -/
def Engine.xIndex (x : Engine) : Nat := if x.loops.isEmpty then 0 else SMap.get 0 x.counts x.pc

/-- The effective slot. -/
def effSlot (slot : Nat) (lc : Bool) (x shift : Nat) : Fin 16 :=
  ⟨(if lc then slot + x / 2 ^ shift else slot) % 16, Nat.mod_lt _ (by decide)⟩

/-- The slot that an instruction names by SLOT. -/
def Engine.slotOf (x : Engine) (w : MillWord) : Fin 16 := effSlot w.slot w.slotLc x.xIndex w.slotShift

/-- The slot that an instruction names by OUT_SLOT. -/
def Engine.outSlotOf (x : Engine) (w : MillWord) : Fin 16 := effSlot w.outSlot w.outLc x.xIndex w.slotShift

/-- A change of one slot. -/
def Engine.onSlot (x : Engine) (n : Fin 16) (f : MillSlot → MillSlot) : Engine := { x with slots := vmod x.slots n f }

/-- The largest magnitude of a vector's parts. -/
def maxPart (vs : List Cplx) : Nat := vs.foldl (fun a v => max a (max v.1.natAbs v.2.natAbs)) 0

/-- PASS_END ends the pass in this execution (Table 05-2). -/
def Engine.passEnds (x : Engine) (w : MillWord) : Bool :=
  w.passEnd == 1 || (w.passEnd == 2 && (x.xIndex + 1) % 2 ^ w.slotShift == 0)

/-- The slot after PASS_END. -/
def MillSlot.endPass (m : MillSlot) : MillSlot :=
  { m with e := m.e + m.sUsed.getD 0, sUsed := none, m := 0
           p := if m.m < 2 ^ 15 then 0 else if m.m < 2 ^ 16 then 1 else 2 }

/-- What one instruction comes to: a fault code, a wait, or the engine after it with a finished frame and a jump. -/
inductive MillRes where
  | fault (code : Nat)
  | wait
  | done (x : Engine) (out : Option (MillSlot × Nat)) (jump : Option Nat)
  deriving DecidableEq, Repr

/-- An instruction is over for slot `n`, whose state it leaves as `m`: the end of a pass follows where it names one. -/
def Engine.passOver (x : Engine) (w : MillWord) (n : Fin 16) (m : MillSlot) (out : Option (MillSlot × Nat)) : MillRes :=
  let m : MillSlot := if x.passEnds w then m.endPass else m
  if 31 < m.e then .fault 5 else .done (x.onSlot n fun _ => m) out none

/-- The slot takes the words an instruction wrote, and the end of a pass. -/
def Engine.wrote (x : Engine) (w : MillWord) (vs : List Cplx) (out : Option (MillSlot × Nat)) : MillRes :=
  let n := x.slotOf w
  let m : MillSlot := x.slots[n]
  x.passOver w n { m with m := max m.m (maxPart vs) } out

/-- The generators after an instruction, in the order read, write, twiddle (R116). -/
def Engine.postAll (x : Engine) (w : MillWord) : Engine :=
  let x := if w.reads then x.agPost w.rdAg w.rdPm else x
  let x := if w.writes ∧ !(w.reads && w.rdAg == w.wrAg) then x.agPost w.wrAg w.wrPm else x
  if w.twiddles then x.agPost w.twAg w.twPm else x

/-- The shared course of BF4, BF2, MOVE and CMUL: read, shift by the slot's rule, compute, saturate, write (R119, R120). -/
def Engine.arith (x : Engine) (w : MillWord) (free : Nat → Nat) (f : List Cplx → List Cplx) : MillRes :=
  let n := x.slotOf w
  let m := x.slots[n]
  let sh := if w.shift = 0 then m.p else w.shift - 1
  if m.sUsed.isSome ∧ m.sUsed ≠ some sh then .fault 4
  else
    let ra := x.vecAddrs w.rdAg free
    let wa := if w.rdAg = w.wrAg then ra else x.vecAddrs w.wrAg fun k => free (64 + k)
    let x := x.issueRead ra
    let vs := (x.readVec ra).map fun v => (shrEven v.1 sh, shrEven v.2 sh)
    let r := satVec (f vs)
    let x := (x.issueWrite wa true).writeVec wa r.1
    let x := { x.onSlot n fun y => { y with sUsed := some sh } with
      stat := { x.stat with satCount := x.stat.satCount + BitVec.ofNat 32 r.2, satSeen := x.stat.satSeen || decide (0 < r.2) } }
    x.wrote w r.1 none

/-- The butterflies with their twiddles and LEG_ORDER: `q` gives the DFT index of an input leg or output. -/
def Engine.butterfly (x : Engine) (k : Kernel) (w : MillWord) (free : Nat → Nat)
    (f : Cplx → Cplx → Cplx → Cplx → List Cplx) (q : Nat → Nat) : MillRes :=
  let cs := x.coefs k w.twAg q free
  x.arith w free fun vs =>
    let vs := if w.twEn ∧ !w.twPos then twVec vs cs else vs
    let ys := unitsMap f vs
    let ys := if w.twEn ∧ w.twPos then twVec ys cs else ys
    if w.legOrder then legSwap ys else ys

/-- The next vector of the frame being loaded: from its branch values, or of the next frame of the queue (R119). -/
def Engine.nextVec (x : Engine) (n : Fin 16) : Except MillRes (Engine × List Cplx) :=
  match x.loading with
  | some (f, k, sl) =>
    if sl ≠ n then .error (.fault 6)
    else .ok ({ x with loading := if f.data.length ≤ 64 * (k + 1) then none else some (f, k + 1, sl) },
      (List.range 64).map fun i => f.data.getD (64 * k + i) (0, 0))
  | none =>
    match x.queue with
    | [] => .error .wait
    | f :: rest =>
      if (x.slots[n]).frame.isSome then .error (.fault 3)
      else
        let y := { x with queue := rest, loading := if f.data.length ≤ 64 then none else some (f, 1, n) }
        .ok (y.onSlot n fun _ => { frame := some { f with data := [] } },
          (List.range 64).map fun i => f.data.getD i (0, 0))

/-- A LOAD after the read of an XFER. -/
def Engine.loadVec (x : Engine) (w : MillWord) (wa : List Nat) (out : Option (MillSlot × Nat)) : MillRes :=
  let n := x.slotOf w
  match x.nextVec n with
  | .error r => r
  | .ok (y, vs) => ((y.issueWrite wa false).writeVec wa vs).wrote w vs out

/-- An UNLOAD: the engine, and the slot of a frame that it finished (R121). -/
def Engine.unloadVec (x : Engine) (k : Kernel) (w : MillWord) (ra : List Nat) : Engine × Option (MillSlot × Nat) :=
  let n := x.outSlotOf w
  let x := x.issueRead ra
  let m := x.slots[n]
  if m.frame.isNone then (x, none)
  else
    let bins := ((x.readVec ra).zipIdx).foldl (fun (b : SMap Cplx) e =>
      let o := 64 * m.unloads + e.2
      SMap.set (0, 0) b (if w.brOut then bitrev k.pLog2 o else o) e.1) m.bins
    let m : MillSlot := { m with unloads := m.unloads + 1, bins := bins }
    if 2 ^ k.pLog2 ≤ 64 * m.unloads then (x.onSlot n fun _ => {}, some (m, 2 ^ k.pLog2)) else (x.onSlot n fun _ => m, none)

/-! ### One instruction of an engine -/

/-- An engine fault (R123): every frame held is lost. -/
def State.millFault (s : State) (e : EngineId) (code : Nat) : State :=
  let x := s.engine e
  let sub : SubId := x.stat.subarray.toFin
  (s.onEngine e fun y =>
    { y with
      queue := [], loading := none, slots := Vector.replicate 16 {}, waitAt := none, faultNow := true
      stat := { y.stat with state := 2, faultCode := BitVec.ofNat 4 code, faultPc := BitVec.ofNat 12 y.pc, faultSeen := true } }).raise
    srcMillFault (BitVec.ofNat 32 e.val) (some sub)

/-- The slice of an engine. -/
def sliceOf (e : EngineId) : SliceId := ⟨e.val / 8, by omega⟩

/-- A finished frame passes to the Assay; null frames are discarded (R121, R122). -/
def State.millOutput (s : State) (e : EngineId) (m : MillSlot) (p : Nat) : State :=
  match m.frame with
  | some f =>
    if f.null then s
    else
      let a : AssayIn := ⟨f.sub, f.input, f.chan, f.n, true, m.e, (List.range p).map fun b => SMap.get (0, 0) m.bins b⟩
      let t := { s with front := { s.front with assayIn := vmod s.front.assayIn (sliceOf e) fun q => q ++ [a] } }
      t.onEngine e fun y =>
        { y with
          stat := { y.stat with frames := y.stat.frames + 1 }
          expNow := match y.expNow with
            | some (lo, hi) => some (min lo m.e, max hi m.e)
            | none => some (m.e, m.e) }
  | none => s

/-- The loop-back after the instruction at `pc`: the innermost level first (R117). -/
def loopBack (pc : Nat) : List LoopLevel → List LoopLevel × Nat
  | [] => ([], pc + 1)
  | l :: ls =>
    if l.last ≠ pc then (l :: ls, pc + 1)
    else if l.left = 0 then loopBack pc ls
    else ({ l with left := l.left - 1 } :: ls, l.first)

/-- The engine after an instruction: its execution counted, its loops, the next address. -/
def Engine.proceed (x : Engine) (jump : Option Nat) : Engine :=
  let counts := if x.loops.isEmpty then x.counts else SMap.set 0 x.counts x.pc (SMap.get 0 x.counts x.pc + 1)
  match jump with
  | some t => { x with counts := counts, pc := t, cycle := x.cycle + 1, waitAt := none }
  | none =>
    let r := loopBack x.pc x.loops
    { x with counts := counts, loops := r.1, pc := r.2, cycle := x.cycle + 1, waitAt := none }

/-- Cycles of an engine's clock, 1.32 GHz, in a time in ns. -/
def millCycles (ns : Nat) : Nat := ns * 132 / 100

/-- The cycles a LOAD has waited enter LOAD_WAIT, and the engine's own count, when it goes on. -/
def Engine.waited (x : Engine) (now : Nat) : Engine :=
  match x.waitAt with
  | some t =>
    let n := millCycles (now - t)
    { x with cycle := x.cycle + n, waitAt := none, stat := { x.stat with loadWait := x.stat.loadWait + BitVec.ofNat 32 n } }
  | none => x

/-- The free values of an instruction, and how many it may use. -/
def State.freeNat (s : State) (k : Nat) : Nat := (Config.freeWord (s.freeCount + k)).toNat

/-- One step of an engine whose next instruction has opcode `op`: nothing happens when the engine does not run or its
next instruction is another; a program counter beyond the kernel and a reserved code fault (Table 05-4). -/
def State.millStep (s : State) (e : EngineId) (op : Nat) (run : Engine → Kernel → MillWord → (Nat → Nat) → MillRes) : State :=
  let x := s.engine e
  match x.kernel with
  | none => s
  | some k =>
    let w := k.instr x.pc
    if x.stat.state ≠ 1 then s
    else if k.count ≤ x.pc ∨ !w.legal then s.millFault e 1
    else if w.op ≠ op then s
    else
      match run (x.waited s.now) k w s.freeNat with
      | .fault code => s.millFault e code
      | .wait => s.onEngine e fun y => { y with waitAt := match y.waitAt with
                                                          | some t => some t
                                                          | none => some s.now }
      | .done y out jump =>
        let y := y.proceed jump
        let t := (s.onEngine e fun _ => y).drawn 256
        match out with
        | some (m, p) => t.millOutput e m p
        | none => t

/-- NOP (R118). -/
def execNop (e : EngineId) (s : State) : Host.Outcome State Fault Refusal :=
  .next (s.millStep e opNop fun x _ _ _ => .done x none none)

/-- BF4 (R120). -/
def execBf4 (e : EngineId) (s : State) : Host.Outcome State Fault Refusal :=
  .next (s.millStep e opBf4 fun x k w free =>
    match x.butterfly k w free bf4Of fun lane => lane % 4 with
    | .done y out j => .done (y.postAll w) out j
    | r => r)

/-- BF2 (R120): the DFT index is the index within the pair. -/
def execBf2 (e : EngineId) (s : State) : Host.Outcome State Fault Refusal :=
  .next (s.millStep e opBf2 fun x k w free =>
    match x.butterfly k w free bf2Of fun lane => lane % 2 with
    | .done y out j => .done (y.postAll w) out j
    | r => r)

/-- MOVE (R118, R119). -/
def execMove (e : EngineId) (s : State) : Host.Outcome State Fault Refusal :=
  .next (s.millStep e opMove fun x _ w free =>
    match x.arith w free fun vs => vs with
    | .done y out j => .done (y.postAll w) out j
    | r => r)

/-- CMUL (R118, R120): a twiddle generator has no DFT index here, and takes free values (log entry 16). -/
def execCmul (e : EngineId) (s : State) : Host.Outcome State Fault Refusal :=
  .next (s.millStep e opCmul fun x k w free =>
    let cs := x.coefs k w.twAg (fun lane => free (128 + lane)) free
    match x.arith w free fun vs => twVec vs cs with
    | .done y out j => .done (y.postAll w) out j
    | r => r)

/-- LOAD (R119). -/
def execLoad (e : EngineId) (s : State) : Host.Outcome State Fault Refusal :=
  .next (s.millStep e opLoad fun x _ w free =>
    match x.loadVec w (x.vecAddrs w.wrAg fun k => free (64 + k)) none with
    | .done y out j => .done (y.postAll w) out j
    | r => r)

/-- UNLOAD (R121). Its PASS_END ends the pass of the slot it unloads, after the vector; the spec names no slot for it (log
entry 16). -/
def execUnload (e : EngineId) (s : State) : Host.Outcome State Fault Refusal :=
  .next (s.millStep e opUnload fun x k w free =>
    let r := x.unloadVec k w (x.vecAddrs w.rdAg free)
    match r.1.passOver w (x.outSlotOf w) (r.1.slots[x.outSlotOf w]) r.2 with
    | .done y out j => .done (y.postAll w) out j
    | q => q)

/-- XFER (R118): the UNLOAD first; the whole instruction waits while the LOAD would wait. -/
def execXfer (e : EngineId) (s : State) : Host.Outcome State Fault Refusal :=
  .next (s.millStep e opXfer fun x k w free =>
    if x.loading.isNone ∧ x.queue.isEmpty then .wait
    else
      let ra := x.vecAddrs w.rdAg free
      let wa := if w.rdAg = w.wrAg then ra else x.vecAddrs w.wrAg fun k => free (64 + k)
      let r := x.unloadVec k w ra
      match r.1.loadVec w wa r.2 with
      | .done y out j => .done (y.postAll w) out j
      | q => q)

/-- LOOP (R117): a fifth level faults; the executions count anew when the outermost loop is entered. -/
def execLoop (e : EngineId) (s : State) : Host.Outcome State Fault Refusal :=
  .next (s.millStep e opLoop fun x _ w _ =>
    if 4 ≤ x.loops.length then .fault 2
    else
      let counts := if x.loops.isEmpty then [] else x.counts
      .done { x with counts := counts, loops := ⟨x.pc + 1, w.target, w.countM1⟩ :: x.loops } none (some (x.pc + 1)))

/-- JUMP (R118). -/
def execJump (e : EngineId) (s : State) : Host.Outcome State Fault Refusal :=
  .next (s.millStep e opJump fun x _ w _ => .done x none (some w.target))

/-- SETREG (R116). -/
def execSetreg (e : EngineId) (s : State) : Host.Outcome State Fault Refusal :=
  .next (s.millStep e opSetreg fun x _ w _ => .done (x.setReg w.reg w.w3.toNat) none none)

/-- NULL_FRAME (R122): the engine has waited 4096 cycles for input. -/
def execNullFrame (e : EngineId) (s : State) : Host.Outcome State Fault Refusal :=
  let x := s.engine e
  .next (match x.kernel, x.waitAt with
    | some k, some t =>
      if x.stat.state = 1 ∧ x.queue.isEmpty ∧ 4096 ≤ millCycles (s.now - t) then
        s.onEngine e fun y =>
          { y with queue := [⟨y.stat.subarray.toFin, 0, 0, 0, true, List.replicate (2 ^ k.pLog2) (0, 0)⟩] }
      else s
    | _, _ => s)

/-! ### Engines of a sub-array (R113, R123, R124) -/

/-- An engine that loads a kernel and begins at ENTRY with every slot empty (R125). -/
def Engine.started (x : Engine) (i : SubId) (k : Kernel) : Engine :=
  let y := { x with
    kernel := some k, queue := [], loading := none, pc := k.entry, loops := [], counts := [], regs := []
    slots := Vector.replicate 16 {}, writes := [], waitAt := none, expNow := none, faultNow := false
    stat := { x.stat with state := 1, subarray := BitVec.ofNat 2 i.val, kernelId := BitVec.ofNat 8 k.id } }
  k.ags.zipIdx.foldl (fun (z : Engine) e => z.setReg e.2 e.1.toNat) y

/-- The engines of a slice. -/
def enginesOf (sl : SliceId) : List EngineId := (allFin 32).filter fun e => sliceOf e == sl

/-- MILL_CFG.ENGINES of a sub-array follows its running engines. -/
def State.showEngines (s : State) (i : SubId) : State :=
  let m := maskOf 32 fun e => (s.front.engines.toList.getD e {}).stat.state != 0 &&
    (s.front.engines.toList.getD e {}).stat.state != 3 && (s.front.engines.toList.getD e {}).stat.subarray.toNat == i.val &&
    !(s.front.engines.toList.getD e {}).replaced
  { s with front := { s.front with mill := vmod s.front.mill i fun c => { c with engines := BitVec.ofNat 32 m } } }

/-- The input blocks of a sub-array on a slice. -/
def State.blocksOn (s : State) (i : SubId) (sl : SliceId) : List Nat := (s.blocks i).filter fun b => b % 4 == sl.val

/-- E, the engines a sub-array needs on a slice (R113); none where no number of the slice's engines is enough. -/
def State.enginesFor (s : State) (i : SubId) (sl : SliceId) (rate : Nat) : Option Nat :=
  let n := 128 * (s.blocksOn i sl).length
  let e := s.obs[i].epoch
  if n = 0 then some 0
  else (List.range 9).find? fun k =>
    decide (1 ≤ k) && decide (n * s.coarse i * 2 ^ 32 * 1000000000 * 8 ≤ k * rate * 1000000 * e.period32)

/-- The lowest-numbered unassigned engine of a slice. -/
def State.spareEngine (s : State) (sl : SliceId) : Option EngineId :=
  (enginesOf sl).find? fun e => (s.engine e).stat.state == 0

/-- A sub-array takes `n` unassigned engines of a slice, the lowest-numbered first. -/
def State.takeEngines (i : SubId) (sl : SliceId) (k : Kernel) : Nat → State → State
  | 0, s => s
  | n + 1, s =>
    match s.spareEngine sl with
    | some e => State.takeEngines i sl k n (s.onEngine e fun x => { x.started i k with faultRun := 0, replaced := false })
    | none => s

/-- An engine that is unassigned, or stays FAULTED, with nothing in it. -/
def Engine.emptied (x : Engine) : Engine :=
  { x with kernel := none, queue := [], loading := none, waitAt := none, slots := Vector.replicate 16 {}
           faultNow := false, expNow := none }

/-- An engine becomes unassigned. -/
def Engine.unassigned (x : Engine) : Engine :=
  { x.emptied with stat := { x.stat with state := 0 }, faultRun := 0, replaced := false }

/-- An engine is assigned to a sub-array. -/
def Engine.serves (x : Engine) (i : SubId) : Bool :=
  (x.stat.state == 1 || x.stat.state == 2) && x.stat.subarray.toNat == i.val

/-- A change of every engine of a sub-array. -/
def State.onEnginesOf (s : State) (i : SubId) (f : Engine → Engine) : State :=
  let g (x : Engine) : Engine := if x.serves i then f x else x
  { s with front := { s.front with engines := s.front.engines.map g } }

/-- The engines of a sub-array become unassigned; one that has faulted in four consecutive spans stays FAULTED (R123). -/
def State.releaseEngines (s : State) (i : SubId) : State :=
  let left (x : Engine) : Engine := if x.stat.state = 2 ∧ 4 ≤ x.faultRun then x.emptied else x.unassigned
  (s.onEnginesOf i left).showEngines i

/-- A sub-array that is defined again, or released, has no engine that stays FAULTED (R123). -/
def State.freeFaulted (s : State) (i : SubId) : State :=
  s.onEnginesOf i Engine.unassigned

/-- The Foreman's action on a faulted engine at a span boundary (R123). -/
def State.recoverEngine (s : State) (i : SubId) (e : EngineId) : State :=
  let x := s.engine e
  if x.stat.subarray.toNat ≠ i.val then s
  else if x.stat.state = 1 then s.onEngine e fun y => { y with faultRun := 0 }
  else if x.stat.state ≠ 2 ∨ x.replaced ∨ !x.faultNow then s
  else
    let run := x.faultRun + 1
    match x.kernel, s.spareEngine (sliceOf e) with
    | none, _ => s
    | some k, some sp =>
      (s.onEngine sp fun y => { y.started i k with faultRun := 0, replaced := false }).onEngine e fun y =>
        { y with replaced := true, faultNow := false, faultRun := run }
    | some k, none =>
      if 4 ≤ run then s.onEngine e fun y => { y with faultNow := false, faultRun := run }
      else s.onEngine e fun y =>
        { y.started i k with faultRun := run, stat := { (y.started i k).stat with restarts := satInc y.stat.restarts } }

/-- Every faulted engine of a sub-array at its span boundary. -/
def State.recoverEngines (s : State) (i : SubId) : State :=
  ((allFin 32).foldl (fun (t : State) e => t.recoverEngine i e) s).showEngines i

/-- Free words of an engine's input queue. -/
def Engine.room (x : Engine) : Nat :=
  8192 - (x.queue.foldl (fun a f => a + f.data.length) 0 + match x.loading with
    | some (f, k, _) => f.data.length - 64 * k
    | none => 0)

/-- The Sieve deals a frame: to the engine of its sub-array with the most free space, else it is dropped (R113, R124). -/
def State.dealFrame (s : State) (sl : SliceId) (f : Frame) : State :=
  let mine := (enginesOf sl).filter fun e =>
    (s.engine e).stat.state == 1 && (s.engine e).stat.subarray.toNat == f.sub.val && decide (f.data.length ≤ (s.engine e).room)
  match mine with
  | [] => s.onAssyStat f.sub fun x => { x with droppedFrames := x.droppedFrames + 1, dropSeen := true }
  | e :: es =>
    let best := es.foldl (fun (a : EngineId) b => if (s.engine a).room < (s.engine b).room then b else a) e
    s.onEngine best fun x => { x with queue := x.queue ++ [f] }

end Sys2Proof.Machine
end

