-- ==== Sys2Proof/Machine/Sieve.lean ====
section
/-! DEFINITION. The Sieve: DC blocker, alignment delay, rotator, filter, cross-fades, synchronising resets and the
dealing of frames (R86 to R94, R98 to R109). Aligned index k is processed with the slot that holds raw index k
(log entry 17). -/

namespace Sys2Proof.Machine

/-! ### Schedules of a sub-array -/

/-- An input of the Sieve. -/
def State.sieveIn (s : State) (i : SubId) (input : Nat) : SieveIn := SMap.get {} s.sieve[i].ins input

/-- The first fine sample that no stream of a sub-array has formed. -/
def State.unformed (s : State) (i : SubId) : Nat := (s.inputs i).foldl (fun a k => max a (s.sieveIn i k).fineN) 0

/-- Every stream has formed the fine samples below `n`. -/
def State.allFormed (s : State) (i : SubId) (n : Nat) : Bool := (s.inputs i).all fun k => decide (n ≤ (s.sieveIn i k).fineN)

/-- The first aligned index that no stream of a sub-array has processed. -/
def State.unaligned (s : State) (i : SubId) : Nat := (s.inputs i).foldl (fun a k => max a (s.sieveIn i k).na) 0

/-- A number divided by another and rounded up. -/
def ceilDiv (a b : Nat) : Nat := (a + b - 1) / b

/-- n_lo of a reset at `kr` (R105). -/
def State.resetLo (s : State) (i : SubId) (kr : Nat) : Nat := ceilDiv (kr + 1 - (s.ks i + s.window i)) (s.decim i)

/-- n_first of a reset at `kr` (R105). -/
def State.resetFirst (s : State) (i : SubId) (kr : Nat) : Nat :=
  ceilDiv (kr + s.sieve[i].cfg.dcbSettle.toNat - s.ks i) (s.decim i)

/-- Fine sample `n` is withheld by one of the resets (R105). -/
def withheld (rs : List SyncReset) (n : Nat) : Bool := rs.any fun r => decide (r.nLo ≤ n) && decide (n < r.nFirst)

/-- A synchronising reset is carried out (R105 to R107): the settling in progress gives way to it. -/
def State.syncReset (s : State) (i : SubId) (kr : Nat) (resync : Bool) : State :=
  let lo := s.resetLo i kr
  let first := s.resetFirst i kr
  let ks := s.ks i
  let t := s.onSieve i fun x =>
    { x with
      resets := (x.resets.map fun r => { r with nFirst := if kr < r.nFirst * s.decim i + ks then min r.nFirst lo else r.nFirst }) ++
        [⟨kr, x.cfg.dcbShift.toNat, lo, first⟩]
      stat := { x.stat with firstEmit := BitVec.ofNat 64 first, lastReset := BitVec.ofNat 64 (kr - ks) } }
  if resync then t.subEvent i 3 (lo / spanLen) (first - lo) else t

/-- FROZEN_BLOCKS after a request: the named blocks freeze or thaw. -/
def freezeMask (old mask : Nat) (on : Bool) : Nat := if on then old ||| mask else old &&& ((2 ^ 32 - 1) ^^^ mask)

/-- What a sub-array's schedules bring in before aligned index `k`: resets and a freeze whose index is reached. -/
def State.reachIndex (s : State) (i : SubId) (k : Nat) : State :=
  let due := s.sieve[i].wanted.filter fun e => decide (e.1 < k)
  let t := s.onSieve i fun x => { x with wanted := x.wanted.filter fun e => !decide (e.1 < k) }
  let t := due.foldl (fun (u : State) e => u.syncReset i e.1 e.2) t
  match t.sieve[i].freezeAsk with
  | some (kf, mask, on) =>
    if kf < k then
      t.onSieve i fun x =>
        let m := freezeMask x.stat.frozenBlocks.toNat mask on
        { x with freezeAsk := none, frozen := x.frozen ++ [(kf, m)], stat := { x.stat with frozenBlocks := BitVec.ofNat 32 m } }
    else t
  | none => t

/-- The block of an input is frozen for the coarse sample that is aligned index `k`'s or, where the input's delay has
shrunk, `behind` before it (R89). Samples already taken that lie at or after raw index k_f - d are done again
(`SieveIn.redo`). -/
def SieveSub.isFrozen (x : SieveSub) (block k behind : Nat) : Bool :=
  (x.frozen.foldl (fun (a : Nat) (e : Nat × Nat) => if e.1 < k ∨ (e.1 = k ∧ behind = 0) then e.2 else a) 0).testBit block

/-! ### The DC blocker (R88, R90) -/

/-- One part: its output and its mean after it. -/
def dcPart (shift : Nat) (move : Bool) (m x : Int) : Int × Int :=
  if shift = 0 then (8 * x, m)
  else
    let e := x * 2 ^ 24 - m
    (shrEven e 21, if move then m + shrFloor e shift else m)

/-- The blocker's output for a sample it has taken. -/
def DcTaken.out (e : DcTaken) : Cplx := ((dcPart e.shift false e.mean.1 e.x.1).1, (dcPart e.shift false e.mean.2 e.x.2).1)

/-- The mean after a sample. -/
def DcTaken.after (e : DcTaken) (frozen : Bool) : Cplx :=
  let move := !frozen && !e.hold
  ((dcPart e.shift move e.mean.1 e.x.1).2, (dcPart e.shift move e.mean.2 e.x.2).2)

/-- A stream takes a sample, or an absent one. -/
def Stream.take (y : Stream) (e : Option DcTaken) (frozen : Bool) : Stream :=
  let m := match e with
    | some t => t.after frozen
    | none => (y.mRe, y.mIm)
  { y with mRe := m.1, mIm := m.2, dc := (e :: y.dc).take 4097 }

/-- One coarse sample of a stream through the blocker. -/
def Stream.dcStep (y : Stream) (shift : Nat) (frozen calHold : Bool) : Stream :=
  let y' := { y with raw := y.raw.tail }
  match y.raw.head?.join with
  | some c =>
    if c.invalid then y'.take none frozen
    else y'.take (some ⟨(c.re, c.im), (y.mRe, y.mIm), shift, calHold && c.cal⟩) frozen
  | none => y'.take none frozen

/-- The last `n` samples a stream has taken are done again, frozen or not: its mean goes back to what it was before the
first of them (R89). -/
def Stream.redo (y : Stream) (n : Nat) (frozen : Bool) : Stream :=
  let again := (y.dc.take n).reverse
  match again.findSome? id with
  | none => y
  | some e =>
    again.foldl (fun (z : Stream) t => z.take (t.map fun u => { u with mean := (z.mRe, z.mIm) }) frozen)
      { y with mRe := e.mean.1, mIm := e.mean.2, dc := y.dc.drop n }

/-- A freeze or thaw that applies from aligned index `k` on holds from raw index k - d on: the samples from there that the
blocker took for earlier aligned indices, at a smaller delay, are done again. -/
def SieveIn.redo (x : SieveIn) (sub : SieveSub) (block k : Nat) : SieveIn :=
  if sub.frozen.any (fun e => e.1 == k) && decide (k < x.dcNext + x.d) then
    { x with streams := x.streams.map fun y => y.redo (x.dcNext + x.d - k) (sub.isFrozen block k 0) }
  else x

/-- The blocker takes every raw index up to `k - d`, `n` of them at most. -/
def SieveIn.dcRun (sub : SieveSub) (block k d shift : Nat) (calHold : Bool) : Nat → SieveIn → SieveIn
  | 0, x => x
  | n + 1, x =>
    if x.dcNext + d ≤ k then
      let fr := sub.isFrozen block k (k - d - x.dcNext)
      SieveIn.dcRun sub block k d shift calHold n
        { x with dcNext := x.dcNext + 1, streams := x.streams.map fun y => y.dcStep shift fr calHold }
    else x

/-- The synchronising resets reached at aligned index `k`: the means of streams that are not frozen clear (R90). -/
def SieveIn.passResets (x : SieveIn) (sub : SieveSub) (block k : Nat) : SieveIn :=
  let due := ((sub.resets.drop x.resets).filter fun r => decide (r.kr ≤ k)).length
  if due = 0 then x
  else
    { x with resets := x.resets + due
             streams := if sub.isFrozen block k 0 then x.streams
               else x.streams.map fun y => { y with mRe := 0, mIm := 0 } }

/-- What of an input outlives the end of an observation: the means of its frozen streams (R90). -/
def SieveIn.onlyMeans (x : SieveIn) (sub : SieveSub) (block : Nat) : SieveIn :=
  { streams := if sub.stat.frozenBlocks.toNat.testBit block then
      x.streams.map fun y => { mRe := y.mRe, mIm := y.mIm } else [] }

/-- The inputs of a sub-array with nothing but the means of their frozen streams. -/
def SieveSub.onlyMeans (x : SieveSub) : SMap SieveIn :=
  x.ins.foldl (fun (m : SMap SieveIn) e => SMap.set {} m e.1 (e.2.onlyMeans x (e.1 / 128))) []

/-! ### Updates (R91 to R94) -/

/-- The updates due at aligned index `k` are applied to an input, in their order; the first ones of a stream bring its
delay without a step. The number of changes is added to the count. -/
def SieveIn.applyUpdates (x : SieveIn) (sub : SieveSub) (idx k : Nat) (first : Bool) : SieveIn × Nat :=
  ((sub.updates.drop x.seen).takeWhile fun u => decide (u.kb ≤ k)).foldl (fun (a : SieveIn × Nat) u =>
    let d := ((u.ins[idx]?).map fun e => e.d).getD a.1.d
    let y := { a.1 with seen := a.1.seen + 1 }
    if d = y.d then (y, a.2)
    else if first then ({ y with d := d }, a.2)
    else
      let n := if y.d < d then d - y.d else y.d - d
      ({ y with d := d, badUntil := if u.slip then y.badUntil else max y.badUntil (k + n) }, a.2 + 1)) (x, 0)

/-- The update in force for an input. -/
def SieveIn.update (x : SieveIn) (sub : SieveSub) : Option Update := (sub.updates.take x.seen).getLast?

/-- The phase of a stream at aligned index `k` (R93). -/
def phaseAt (phase : Nat) (rate : Int) (kb k : Nat) : Nat :=
  codeOf 40 ((phase : Int) * 2 ^ 8 + rate * ((k : Int) - (kb : Int)))

/-- The rotator (R93). -/
def rotate (v : Cplx) (phi : Nat) : Cplx :=
  let cs := cosSin14 (phi / 2 ^ 26 % 2 ^ 14)
  (shrEven (v.1 * cs.1 - v.2 * cs.2) 11, shrEven (v.1 * cs.2 + v.2 * cs.1) 11)

/-- The value of a stream at aligned index `k` (R91): the blocker's output at raw index `k - d`, rotated. -/
def Stream.aligned (y : Stream) (x : SieveIn) (ks k : Nat) (bad : Bool) (rot : Nat × Int) (kb : Nat) : Option Cplx :=
  if bad ∨ k < x.badUntil ∨ k < ks + x.d ∨ x.dcNext + x.d ≤ k then none
  else ((y.dc.getD (x.dcNext + x.d - 1 - k) none)).map fun v => rotate v.out (phaseAt rot.1 rot.2 kb k)

/-! ### The filter (R98 to R104) -/

/-- A coefficient of a bank. -/
def State.bankCoef (s : State) (b : Bool) (a : Nat) : Int := SMap.get 0 (if b then s.front.banks[1] else s.front.banks[0]) a

/-- Coefficient `j` of a sub-array for fine sample `n`: the bank in force, or the blend of a cross-fade (R104). -/
def State.coef (s : State) (i : SubId) (n j : Nat) : Int :=
  let x := s.sieve[i]
  let at' (b : Bool) : Int := s.bankCoef b (x.cfg.coefBase.toNat + j)
  x.fades.foldl (fun a f =>
    if n < f.n0 then a
    else if n < f.n0 + f.len then
      at' f.leaves + rheDiv ((at' (!f.leaves) - at' f.leaves) * ((n - f.n0 + 1 : Nat) : Int)) f.len
    else at' (!f.leaves)) (at' x.stat.activeBank)

/-- The sum of products of coefficients and a part of the window's samples. -/
def dotAt (h : Nat → Int) (v : Nat → Cplx) (js : List (Nat × Nat)) : Cplx :=
  js.foldl (fun a j => (a.1 + h j.1 * (v j.2).1, a.2 + h j.1 * (v j.2).2)) (0, 0)

/-- The branch outputs before the output shift, from the window, oldest sample first (R98). -/
def State.branches (s : State) (i : SubId) (n : Nat) (w : List Cplx) : List Cplx :=
  let c := s.sieve[i].cfg
  let p := s.fineLen i
  let h := s.coef i n
  let v (k : Nat) : Cplx := w.getD k (0, 0)
  if c.firMode then
    (List.range p).map fun b => dotAt h v ((List.range (c.dtapsM1.toNat + 1)).map fun j => (j, b * (c.decimM1.toNat + 1) + j))
  else
    (List.range p).map fun b => dotAt h v ((List.range c.taps.toNat).map fun m => (m * p + b, m * p + b))

/-- Shift and symmetric saturation (Table 04-1): the values, and how many parts saturated. -/
def shiftVec (shift : Nat) (vs : List Cplx) : List Cplx × Nat :=
  satVec (vs.map fun v => (shrEven v.1 shift, shrEven v.2 shift))

/-- What a stream gives for a fine sample: its branch values, none where the window is invalid (R99) or the sample is
withheld (R105); those bypass the engines to the Assay (R112). -/
structure SieveOut where
  n    : Nat
  chan : Nat
  data : Option (List Cplx)
  sats : Nat
  deriving DecidableEq, Repr

/-- A stream's output for fine sample `n`, which a reset may withhold (R105). -/
def State.streamOut (s : State) (i : SubId) (n chan : Nat) (y : Stream) : SieveOut :=
  let w := (y.win ++ List.replicate (s.window i - y.win.length) none).reverse
  if !(withheld s.sieve[i].resets n) && w.all fun v => v.isSome then
    let r := shiftVec ((s.sieve[i].outShift).at' n 17) (s.branches i n (w.map fun v => v.getD (0, 0)))
    ⟨n, chan, some r.1, r.2⟩
  else ⟨n, chan, none, 0⟩

/-! ### One aligned index of an input -/

/-- An input in progress: its state, its outputs (newest first) and the delay changes applied. -/
structure SieveAcc where
  x     : SieveIn
  outs  : List SieveOut := []
  steps : Nat := 0
  deriving DecidableEq, Repr

/-- Aligned index `k` of an input; `row` gives its coarse samples of raw index `k` by channel. -/
def State.sieveIndex (s : State) (i : SubId) (input : Nat) (row : Nat → Option Coarse) (k : Nat) (a : SieveAcc) : SieveAcc :=
  if k < a.x.na then a
  else
    let sub := s.sieve[i]
    let block := input / 128
    let ks := s.ks i
    let x := a.x.passResets sub block k
    let (x, n) := x.applyUpdates sub (s.inputIndex i input) k (k == ks)
    let up := x.update sub
    let calHold := (up.map fun u => u.calHold).getD sub.cfg.calHold
    let shift := ((sub.resets.take x.resets).getLast?.map fun r => r.shift).getD sub.cfg.dcbShift.toNat
    let x := { x with streams := x.streams.zipIdx.map fun (e : Stream × Nat) => { e.1 with raw := e.1.raw ++ [row e.2] } }
    let x := SieveIn.dcRun sub block k x.d shift calHold (k + 1 - x.dcNext) (x.redo sub block k)
    let bad := (up.map fun u => u.invalid).getD false
    let rots := ((up.bind fun u => u.ins[s.inputIndex i input]?).map fun e => e.rot).getD []
    let kb := (up.map fun u => u.kb).getD ks
    let x := { x with na := k + 1, streams := x.streams.zipIdx.map fun e =>
      { e.1 with win := ((e.1.aligned x ks k bad (rots.getD e.2 (0, 0)) kb) :: e.1.win).take (s.window i) } }
    if k + 1 = ks + x.fineN * s.decim i + s.window i then
      let outs := x.streams.zipIdx.map fun e => s.streamOut i x.fineN e.2 e.1
      { x := { x with fineN := x.fineN + 1 }, outs := outs.reverse ++ a.outs, steps := a.steps + n }
    else { a with x := x, steps := a.steps + n }

/-! ### A slot (R72, R98) -/

/-- An input takes the raw indices of a slot. -/
def State.sieveInput (s : State) (i : SubId) (input : Nat) (slot : Slot) : SieveAcc :=
  let sq := s.slotLen i
  let c := s.coarse i
  (List.range sq).foldl (fun (a : SieveAcc) t =>
    let k := slot.q * sq + t
    if k < s.ks i then a
    else s.sieveIndex i input (fun ch => SMap.get none slot.cells (slotKey c sq input ch t)) k a) { x := s.sieveIn i input }

/-- One output of a stream: a frame is dealt, an invalid one bypasses the engines (R112). -/
def State.sieveOut (s : State) (i : SubId) (sl : SliceId) (input : Nat) (o : SieveOut) : State :=
  match o.data with
  | some d =>
    let t := s.onSievStat i fun x =>
      { x with satCount := x.satCount + BitVec.ofNat 32 o.sats, satSeen := x.satSeen || decide (0 < o.sats) }
    t.dealFrame sl ⟨i, input, o.chan, o.n, false, d⟩
  | none =>
    { s with front := { s.front with assayIn := vmod s.front.assayIn sl fun q => q ++ [⟨i, input, o.chan, o.n, false, 0, []⟩] } }

/-- Fine samples withheld are counted once for each index (R106). -/
def State.suppress (s : State) (i : SubId) (from' upTo : Nat) : State :=
  s.onSieve i fun x =>
    let n := ((List.range (upTo - max from' x.suppTo)).filter fun k => withheld x.resets (max from' x.suppTo + k)).length
    { x with suppTo := max x.suppTo upTo, stat := { x.stat with suppressed := x.stat.suppressed + BitVec.ofNat 64 n } }

/-- STATE, XFADE_LEFT and SWAP_PENDING follow the schedules (Table 04-7, Table 04-8). -/
def State.showSieve (s : State) (i : SubId) : State :=
  let x := s.sieve[i]
  let n := s.unformed i
  let settling := match x.resets.getLast? with
    | some r => decide (n ≤ r.nFirst)
    | none => false
  let running := match x.fades with
    | f :: _ => decide (f.n0 < n)
    | [] => false
  let left := match x.fades with
    | f :: _ => if running then f.n0 + f.len - n else 0
    | [] => 0
  let waiting := x.swapAsk || x.swapAt.isSome || (if running then decide (1 < x.fades.length) else decide (0 < x.fades.length))
  s.onSievStat i fun y =>
    { y with
      state := if !s.active i || x.resets.isEmpty then 0 else if settling then 1 else if running then 3 else 2
      xfadeLeft := BitVec.ofNat 16 left, swapPending := waiting }

/-- A slice has taken a slot: it leaves the parser once every slice has. -/
def State.tookSlot (s : State) (i : SubId) (sl : SliceId) (q : Nat) : State :=
  s.onParser i fun p =>
    { p with passed := (p.passed.map fun e => if e.1.q = q then (e.1, e.2.filter fun x => x != sl) else e).filter fun e =>
        !e.2.isEmpty }

/-- The island of a front-end slice. -/
def sliceIsland (sl : SliceId) : IslandId := ⟨42 + sl.val, by omega⟩

/-- The inputs of a sub-array on a slice. -/
def State.inputsOn (s : State) (i : SubId) (sl : SliceId) : List Nat := (s.inputs i).filter fun k => k / 128 % 4 == sl.val

/-- One input of a slot: its state, its delay changes, its outputs. -/
def State.runInput (s : State) (i : SubId) (sl : SliceId) (slot : Slot) (input : Nat) : State :=
  let a := s.sieveInput i input slot
  let from' := (s.sieveIn i input).fineN
  let t := s.onSieve i fun x =>
    { x with ins := SMap.set {} x.ins input a.x, stat := { x.stat with delaySteps := x.stat.delaySteps + BitVec.ofNat 32 a.steps } }
  (a.outs.reverse.foldl (fun (u : State) o => u.sieveOut i sl input o) t).suppress i from' a.x.fineN

/-- SIEVE_SLOT (R98): a slice takes the oldest passed slot it has not taken. A gated slice takes none, and one that has
returned waits for its reset (R108). -/
def execSieveSlot (i : SubId) (sl : SliceId) (s : State) : Host.Outcome State Fault Refusal :=
  .next (match s.parser[i].passed.find? fun e => e.2.contains sl with
    | some (slot, _) =>
      if s.active i ∧ s.islandOn (sliceIsland sl) ∧ !s.sieve[i].returned.contains sl then
        let t := s.reachIndex i ((slot.q + 1) * s.slotLen i)
        let t := (s.inputsOn i sl).foldl (fun (u : State) k => u.runInput i sl slot k) t
        (((t.tookSlot i sl slot.q).showSieve i).noteFilled i).settled i
      else s
    | none => s)

/-! ### Starts, returns and swaps -/

/-- The streams of a sub-array begin at k_s, with its synchronising reset to come (R105). A frozen stream has the mean that
it had before the start (R90). -/
def State.startSieve (s : State) (i : SubId) (ks : Nat) : State :=
  let c := s.coarse i
  s.onSieve i fun x =>
    { x with ins := (s.inputs i).foldl (fun (m : SMap SieveIn) k =>
               let old := (SMap.get ({} : SieveIn) x.ins k).onlyMeans x (k / 128)
               SMap.set {} m k { na := ks, dcNext := ks, streams := (List.range c).map fun ch => old.streams.getD ch {} }) []
             wanted := [(ks, false)], resets := [], suppTo := 0 }

/-- A slice that has returned runs again: the reset of R108 at `kr`, and what its streams missed is reported absent. -/
def State.returnSlice (s : State) (i : SubId) (sl : SliceId) (kr : Nat) : State :=
  let lo := s.resetLo i kr
  let sq := s.slotLen i
  let t := s.onSieve i fun x =>
    { x with returned := x.returned.filter fun e => e != sl
             wanted := (x.wanted.filter fun e => e.1 != kr) ++ [(kr, false)]
             ins := (s.inputsOn i sl).foldl (fun (m : SMap SieveIn) k =>
               let y := SMap.get ({} : SieveIn) m k
               SMap.set {} m k { y with
                 na := max y.na kr, dcNext := max y.dcNext kr, fineN := max y.fineN lo
                 streams := y.streams.map fun z => { z with raw := [], dc := [], win := [] } }) x.ins }
  (t.onParser i fun p =>
    { p with passed := (p.passed.map fun e =>
        if (e.1.q + 1) * sq ≤ kr then (e.1, e.2.filter fun x => x != sl) else e).filter fun e => !e.2.isEmpty }).noteFilled i

/-- A cross-fade to the other bank is put on the schedule, not before fine sample `n` (R103, R104). -/
def State.addFade (s : State) (i : SubId) (n : Nat) : State :=
  let u := s.unformed i
  (s.onSieve i fun x =>
    let n0 := match x.fades.getLast? with
      | some f => max (max n u) (f.n0 + f.len)
      | none => max n u
    let len := 2 ^ (((s.updateAt i n0).map fun u => u.xfade).getD x.xfade)
    let leaves := match x.fades.getLast? with
      | some f => !f.leaves
      | none => x.stat.activeBank
    { x with fades := x.fades ++ [⟨n0, len, leaves⟩] }).showSieve i

/-- A beat update at `kb` gives its XFADE_LOG2 to a cross-fade that has not started and starts at or after it (R109). -/
def State.fitFades (s : State) (i : SubId) (kb log2 : Nat) : State :=
  let n := s.unformed i
  s.onSieve i fun x =>
    { x with fades := x.fades.map fun f =>
        if n ≤ f.n0 ∧ (s.parser[i].start.isNone ∨ kb ≤ s.ks i + f.n0 * s.decim i) then { f with len := 2 ^ log2 } else f }

/-- A swap is pending (R103). -/
def SieveSub.swapWaits (x : SieveSub) (unformed : Nat) : Bool :=
  x.swapAsk || x.swapAt.isSome || x.fades.any fun f => decide (unformed ≤ f.n0)

/-- XFADE_END (R104): every stream has made the last fine sample of the cross-fade. -/
def execXfadeEnd (i : SubId) (s : State) : Host.Outcome State Fault Refusal :=
  .next (match s.sieve[i].fades with
    | f :: rest =>
      if s.active i ∧ s.allFormed i (f.n0 + f.len) then
        (s.onSieve i fun x =>
          { x with fades := rest, stat := { x.stat with activeBank := !f.leaves, standbyValid := true, swaps := x.stat.swaps + 1 }
                   bankFull := (x.bankFull.set 0 true).set 1 true }).showSieve i
      else s
    | [] => s)

end Sys2Proof.Machine
end

