-- ==== Sys2Proof/Machine/Tiles.lean ====
section
/-! DEFINITION. Plans, logical tiles, spares, retirement, the loads and the cut, and leaving an observation
(R164 to R167, R171 to R177, R180, R202, R351, R352, R455). -/

namespace Sys2Proof.Machine

/-! ### Tile states (Table 07-9) -/

abbrev tsFree : BitVec 3 := 0
abbrev tsCorr : BitVec 3 := 1
abbrev tsBeam : BitVec 3 := 2
abbrev tsSpare : BitVec 3 := 3
abbrev tsSuspect : BitVec 3 := 4
abbrev tsFailed : BitVec 3 := 5
abbrev tsRetired : BitVec 3 := 6
abbrev tsTesting : BitVec 3 := 7

/-- The logical number of a tile that has none. -/
abbrev noLogical : BitVec 6 := 63

/-- The physical tile that holds a logical number. -/
def State.holder (s : State) (n : Nat) : Option TileId :=
  (allFin 42).find? fun t => (s.tile t).reg.logical.toNat == n && (s.tile t).reg.state != tsRetired

/-- A logical number is present: a tile holds it (R165, R173, R185). -/
def State.isHeld (s : State) (n : Nat) : Bool := (s.holder n).isSome

/-- A logical number is present and its tile serves under it: a restored tile joins at its plan's next boundary (R176). -/
def State.isPresent (s : State) (n : Nat) : Bool :=
  match s.holder n with
  | some t => !(s.tile t).joins
  | none => false

/-- The present logical numbers as a mask. -/
def State.presentMask (s : State) : Nat := maskOf 40 fun n => s.isPresent n

/-- A plan names a logical tile. -/
def Plan.names (p : Plan) (n : Nat) : Bool := p.corr.getLsbD n || p.beam.getLsbD n

/-- The sub-array whose plan in force names a logical number. -/
def State.planOwner (s : State) (n : Nat) : Option SubId :=
  (allFin 4).find? fun i => match s.loom[i].plan with
    | some p => p.names n
    | none => false

/-- The sub-array of a tile's plan. -/
def State.tileSub (s : State) (t : TileId) : Option SubId :=
  if (s.tile t).reg.logical = noLogical then none else s.planOwner (s.tile t).reg.logical.toNat

/-- The state of a tile in service by the plans in force. -/
def State.roleOf (s : State) (t : TileId) : BitVec 3 :=
  let n := (s.tile t).reg.logical.toNat
  if (s.tile t).joins then tsFree
  else
    match (s.tileSub t).bind fun i => s.loom[i].plan with
    | some p => if p.corr.getLsbD n then tsCorr else tsBeam
    | none => tsFree

/-- Records follow the plans in force: LOOM_TILE.STATE and SUBARRAY, and LOOM_CFG's masks (R165, R182, R184). -/
def State.showTiles (s : State) : State :=
  let t := (allFin 42).foldl (fun (u : State) k =>
    let sub := (s.tileSub k).map fun i => BitVec.ofNat 2 i.val
    u.onTileReg k fun r =>
      { r with subarray := sub.getD 0
               state := if r.state = tsFree ∨ r.state = tsCorr ∨ r.state = tsBeam then s.roleOf k else r.state }) s
  let present := s.presentMask
  (allFin 4).foldl (fun (u : State) i =>
    u.onLoom i fun x =>
      match x.plan with
      | some p =>
        let c := p.corr.toNat &&& present
        let b := p.beam.toNat &&& present
        { x with cfg := { x.cfg with
            sLog2 := BitVec.ofNat 2 p.sLog2, customOrder := p.custom, corrTilesLo := BitVec.ofNat 32 c
            corrTilesHi := BitVec.ofNat 8 (c / 2 ^ 32), beamTilesLo := BitVec.ofNat 32 b
            beamTilesHi := BitVec.ofNat 8 (b / 2 ^ 32) } }
      | none =>
        { x with cfg := { x.cfg with sLog2 := 0, customOrder := false, corrTilesLo := 0, corrTilesHi := 0, beamTilesLo := 0
                                     beamTilesHi := 0 } }) t

/-! ### Loads and the cut (R15, R174, R175) -/

/-- Coarse channels that are not cut. -/
def State.uncutCoarse (s : State) (i : SubId) : Nat := s.coarse i - s.loom[i].cuts.length

/-- Numerator and denominator of u_c over `n` coarse channels. -/
def State.corrLoad (s : State) (i : SubId) (n : Nat) : Nat × Nat :=
  let m := if s.cellar[i].cfg.format then 4 else 1
  (m * s.positions i * (n * s.fineLen i) * 2 ^ 32 * 1000000000,
   s.corrTiles i * 1650000000 * s.decim i * s.obs[i].epoch.period32)

/-- Present beam tiles of the plan in force. -/
def State.beamTiles (s : State) (i : SubId) : Nat :=
  popCount 32 s.loom[i].cfg.beamTilesLo.toNat + popCount 8 s.loom[i].cfg.beamTilesHi.toNat

/-- Numerator and denominator of u_b over `n` coarse channels. -/
def State.beamLoad (s : State) (i : SubId) (n : Nat) : Nat × Nat :=
  (s.beams i * s.nInputs i * (n * s.fineLen i) * 2 ^ 32 * 1000000000,
   s.beamTiles i * 16384 * 1650000000 * s.decim i * s.obs[i].epoch.period32)

/-- A load lies above so many parts per 10,000; without tiles to carry it, a load above zero does. -/
def loadOver (l : Nat × Nat) (limit : Nat) : Bool := decide (limit * l.2 < l.1 * 10000)

/-- A load in parts per 10,000, rounded down; zero without beam tiles. -/
def loadParts (l : Nat × Nat) : BitVec 16 := if l.2 = 0 then 0 else satNat 16 (l.1 * 10000 / l.2)

/-- A load lies above the target with `n` coarse channels uncut. -/
def State.overTarget (s : State) (i : SubId) (n : Nat) : Bool :=
  loadOver (s.corrLoad i n) s.loom[i].target || loadOver (s.beamLoad i n) s.loom[i].target

/-- The channel CUT_FROM cuts next: true for the top (R174). -/
def LoomSub.nextCut (x : LoomSub) : Bool :=
  match x.cutFrom with
  | 0 => true
  | 1 => false
  | _ => x.cuts.length % 2 == 0

/-- Cut channels are restored, the last cut first, while the loads allow it; `n` bounds how many. -/
def State.restoreCuts (i : SubId) : Nat → State → State
  | 0, s => s
  | n + 1, s =>
    if s.loom[i].cuts.isEmpty ∨ s.overTarget i (s.uncutCoarse i + 1) then s
    else State.restoreCuts i n (s.onLoom i fun x => { x with cuts := x.cuts.dropLast })

/-- Channels are cut while a load is above the target; `n` bounds how many. -/
def State.cutMore (i : SubId) : Nat → State → State
  | 0, s => s
  | n + 1, s =>
    if s.uncutCoarse i = 0 ∨ !s.overTarget i (s.uncutCoarse i) then s
    else State.cutMore i n (s.onLoom i fun x => { x with cuts := x.cuts ++ [x.nextCut] })

/-- LOOM_STAT's loads, cut and pending bits follow the state in force (Table 07-6). -/
def State.showLoom (s : State) (i : SubId) : State :=
  let n := s.uncutCoarse i
  let uc := s.corrLoad i n
  let ub := s.beamLoad i n
  let noPlan := s.loom[i].plan.isNone
  let idle := decide (n = 0) || noPlan
  let waiting := (allFin 42).any fun t => (s.tile t).retire && s.tileSub t == some i
  s.onLoom i fun x =>
    { x with stat := { x.stat with
        planPending := x.planNext.isSome, retirePending := waiting, cutActive := !x.cuts.isEmpty
        load := if idle then 0 else loadParts uc, beamLoad := if idle then 0 else loadParts ub
        noMargin := !idle && (loadOver uc 9375 || loadOver ub 9375)
        cutTop := BitVec.ofNat 16 x.top, cutBottom := BitVec.ofNat 16 x.bottom } }

/-- Every sub-array's records after a change of tiles or plans. -/
def State.showAll (s : State) : State := (allFin 4).foldl (fun (t : State) i => t.showLoom i) s.showTiles

/-- The cut at a boundary: restore, then cut further; without a present correlating tile the load is above every target, and
every channel is cut in the order of CUT_FROM. The change is announced with the span after the boundary (R174,
R175). -/
def State.recut (s : State) (i : SubId) (span : Nat) : State :=
  let old := s.loom[i].cuts
  let t := State.cutMore i (s.coarse i) (State.restoreCuts i (s.coarse i) s)
  let n := t.loom[i].cuts.length
  if n = old.length then t
  else ((t.onLoomStat i fun x => { x with cutSeen := true }).raise srcLoomCut (BitVec.ofNat 32 i.val) (some i)).subEvent i 6 span n

/-! ### Spares and retirement (R173, R176) -/

/-- A tile enters FAILED or RETIRED. -/
def State.announceFail (s : State) (t : TileId) : State :=
  (s.onTileReg t fun r => { r with failSeen := true }).raise srcTileFail (BitVec.ofNat 32 t.val) (s.tileSub t)

/-- The lowest-numbered ready spare. -/
def State.readySpare (s : State) : Option TileId := (allFin 42).find? fun t => (s.tile t).reg.state == tsSpare

/-- A ready spare takes an absent logical number. -/
def State.takeSpare (s : State) (n : Nat) : State :=
  if (s.holder n).isSome then s
  else
    match s.readySpare with
    | some t =>
      (s.onTileReg t fun r => { r with state := tsFree, logical := BitVec.ofNat 6 n }).raise srcLoomSpare (BitVec.ofNat 32 t.val)
        (s.planOwner n)
    | none => s

/-- A tile becomes RETIRED, gives up its logical number, and its island is asked to go off (R419). -/
def State.retire (s : State) (t : TileId) : State :=
  let u := if (s.tile t).reg.state = tsRetired then s else s.announceFail t
  (u.askIsland ⟨t.val, by omega⟩ false).onTile t fun x =>
    { x with retire := false, test := .none, job := none, dump := none, beam := none, joins := false
             reg := { x.reg with state := tsRetired, logical := noLogical, subarray := 0
                                 retireSec := BitVec.ofNat 32 (secOf s.time16) } }

/-- A tile is retired at once, and a ready spare takes its number at once. -/
def State.retireNow (s : State) (t : TileId) : State :=
  let n := (s.tile t).reg.logical.toNat
  let u := s.retire t
  (if n < 40 then u.takeSpare n else u).showAll

/-- A job goes back to the head of its queue; another tile takes it next (R172). -/
def State.requeue (s : State) (j : Job) : State :=
  s.onLoom j.sub fun x => { x with queue := j :: x.queue }

/-- A beam job goes back to the head of its queue (R220). -/
def State.requeueBeam (s : State) (j : BeamJob) : State :=
  s.onLoom j.sub fun x => { x with beamQueue := j :: x.beamQueue }

/-- The jobs of a tile, computing and dumping, go back to the head of their queue; its dump is discarded, and a beam job goes
back from its first uncommitted fine sample (R220). -/
def State.returnJobs (s : State) (t : TileId) : State :=
  let x := s.tile t
  let r := s.haltBeam t
  let u := match r.2 with
    | some j => r.1.requeueBeam { j with avoid := some t, again := true }
    | none => r.1
  let u := match x.job with
    | some (j, _) => u.requeue { j with avoid := some t, again := true }
    | none => u
  let u := match x.dump with
    | some d => (u.requeue { d.job with avoid := some t, again := true }).onLedgStat d.job.sub fun y =>
        { y with dumpsDiscarded := y.dumpsDiscarded + 1 }
    | none => u
  u.onTile t fun y => { y with job := none, dump := none }

/-- A tile fails (Table 07-3): FAILED until the boundary of the sub-array that names it, else retired at once. -/
def State.failTile (s : State) (t : TileId) (cause : BitVec 3) : State :=
  let u := s.returnJobs t
  let u := u.onTile t fun x => { x with test := .none, reg := { x.reg with lastCause := cause } }
  let u := u.announceFail t
  match u.tileSub t with
  | some i =>
    let u := u.onLoomStat i fun x => { x with failSeen := true }
    if u.active i then u.onTileReg t fun r => { r with state := tsFailed }
    else (u.onTileReg t fun r => { r with state := tsFailed }).retireNow t
  | none => (u.onTileReg t fun r => { r with state := tsFailed }).retireNow t

/-- The tiles of a sub-array's plan that retire at its boundary, each with its event, and the spares that come in
(R173, R176). -/
def State.tileBoundary (s : State) (i : SubId) (span : Nat) : State :=
  let due := (allFin 42).filter fun t =>
    s.tileSub t == some i && ((s.tile t).reg.state == tsFailed || (s.tile t).retire)
  let t := due.foldl (fun (u : State) k =>
    let u := if (u.tile k).reg.state = tsFailed then u else u.returnJobs k
    let u := if (u.tile k).retire ∧ (u.tile k).reg.state ≠ tsFailed then u.onTileReg k fun r => { r with lastCause := 6 } else u
    (u.retire k).subEvent i 5 span k.val) s
  let t := (allFin 42).foldl (fun (u : State) k =>
    if (u.tile k).joins ∧ u.tileSub k = some i then u.onTile k fun x => { x with joins := false } else u) t
  let mine := (List.range 40).filter fun n => match t.loom[i].plan with
    | some p => p.names n
    | none => false
  let stray := (List.range 40).filter fun n => (t.planOwner n).isNone
  (mine ++ stray).foldl (fun (u : State) n => u.takeSpare n) t

/-- FAILED tiles, and tiles whose retirement waits, that no plan of a sub-array in ALIGN or OBSERVE names any more are
retired at once; restored tiles there join at once (R173, R176). -/
def State.retireStray (s : State) : State :=
  (allFin 42).foldl (fun (u : State) t =>
    let held := match u.tileSub t with
      | some i => u.active i
      | none => false
    if held then u
    else
      let u := if (u.tile t).joins then u.onTile t fun x => { x with joins := false } else u
      if (u.tile t).reg.state = tsFailed then u.retireNow t
      else if (u.tile t).retire then (u.onTileReg t fun r => { r with lastCause := 6 }).retireNow t
      else u) s

/-- A plan comes into force (R167). -/
def State.applyPlan (s : State) (i : SubId) (p : Plan) : State :=
  (((s.onLoom i fun x => { x with plan := some p, planNext := none }).showTiles).retireStray).showAll

/-- TILE_RETIRE (R176): the module after it, and the answer: 0 OK, 1 ACCEPTED, 2 BUSY, 3 BAD_PARAM. A tile whose TILE_RESTORE
self-test runs is in no plan and retires at once (log entry 77). -/
def State.askRetire (s : State) (t : TileId) : State × Nat :=
  let x := s.tile t
  if x.reg.state = tsRetired then (s, 3)
  else if x.retire then (s, 2)
  else
    let waits := match s.tileSub t with
      | some i => s.active i && x.reg.state != tsSpare
      | none => false
    if waits then ((s.onTile t fun y => { y with retire := true }).showAll, 1)
    else (((s.onTileReg t fun r => { r with lastCause := 6 }).retireNow t), 0)

/-- A tile that passes TILE_RESTORE: the lowest absent logical number, or a spare (R176). -/
def State.restored (s : State) (t : TileId) : State :=
  let clear (u : State) : State := u.onTile t fun x => { x with test := .none, asked := none, reg := { x.reg with retireSec := 0 } }
  match (List.range 40).find? fun n => (s.holder n).isNone with
  | some n =>
    let joins := match s.planOwner n with
      | some i => s.active i
      | none => false
    ((clear s).onTile t fun x =>
      { x with joins := joins, reg := { x.reg with state := tsFree, logical := BitVec.ofNat 6 n } }).showAll
  | none => ((clear s).onTileReg t fun r => { r with state := tsSpare }).showAll

/-! ### Leaving ALIGN or OBSERVE (R202, R351, R352, R455) -/

/-- The mode follows the sub-arrays (R421, Table 16-9). -/
def State.followMode (s : State) : State :=
  if s.mode = modeProvision ∨ s.mode = modeAlign ∨ s.mode = modeObserve then
    let m := if (allFin 4).any fun i => s.saState i == saObserve then modeObserve
      else if (allFin 4).any fun i => s.saState i == saAlign then modeAlign else modeProvision
    s.setMode m
  else s

/-- Pending actions of a sub-array named for a later point are discarded (R352). -/
def State.dropActions (s : State) (i : SubId) : State :=
  let n := s.unformed i
  let t := s.onSieve i fun x =>
    { x with wanted := x.wanted.filter (fun e => !e.2), loads := [], swapAsk := false, swapAt := none, freezeAsk := none
             fades := x.fades.filter fun f => decide (f.n0 < n) }
  (t.showSieve i).onBeam i fun x =>
    if x.loadAt.isSome then { x with loadAt := none, stat := { x.stat with switchPending := false } } else x

/-- Tile jobs and dumps of a sub-array are dropped; a dump dropped is discarded (R189). -/
def State.dropJobs (s : State) (i : SubId) : State :=
  let dumps := (s.tiles.tiles.toList.filter fun t => match t.dump with
    | some d => d.job.sub == i
    | none => false).length
  (allFin 42).foldl (fun (u : State) t =>
    u.onTile t fun x =>
      { x with job := x.job.filter fun e => e.1.sub != i, dump := x.dump.filter fun d => d.job.sub != i
               beam := x.beam.filter fun r => r.job.sub != i })
    (s.onLedgStat i fun x => { x with dumpsDiscarded := x.dumpsDiscarded + BitVec.ofNat 32 dumps })

/-- The Sieve, parser and Assay of a sub-array that leaves ALIGN or OBSERVE. -/
def State.endFront (s : State) (i : SubId) : State :=
  let t := s.onParser i fun p => { p with start := none, slots := [], passed := [], next := 0, future := none, jumped := false
                                          silent := false }
  let t := t.onSieve i fun x =>
    { x with updates := [], ins := x.onlyMeans, loads := [], wanted := [], resets := [], freezeAsk := none, fades := [], swapAsk := false
             swapAt := none, suppTo := 0, returned := [], outShift := [(0, x.cfg.outShift.toNat)], frozen := [(0, x.stat.frozenBlocks.toNat)]
             stat := { x.stat with state := 0, modelStale := false, swapPending := false, xfadeLeft := 0 } }
  let t := if t.front.assay[i].gainAt.isSome then t.copyGains i else t
  let t := t.onAssay i fun x => { x with curve := [], acc := [], span := 1 }
  { t with front := { t.front with
      assayIn := t.front.assayIn.map fun q => q.filter fun (a : AssayIn) => a.sub != i
      combine := t.front.combine.map fun q => q.filter fun (g : OpenGran) => g.sub != i } }

/-- The Cellar, Loom, Ledger and beams of a sub-array that leaves ALIGN or OBSERVE. -/
def State.endBack (s : State) (i : SubId) : State :=
  let t := s.onCellar i fun x =>
    { x with bays := x.bays.map fun b => { b with span := none }, opened := [], next := 0, avail := 0, ready := []
             availAt := [], overrun := none, condemned := [], stageNext := 0, buffers := Vector.replicate 2 none
             stat := { x.stat with pending := 0 } }
  let t := (t.dropJobs i).clearSets i
  let t := t.onLoom i fun x =>
    { x with running := none, next := 0, finishAt := none, queue := [], beamQueue := [], folds := [], cuts := []
             shelfIdle := none, ledgerIdle := none, cutFrom := x.cfg.cutFrom.toNat, target := x.cfg.cutTarget.toNat }
  let t := t.applyShelf i
  let t := t.onLedger i fun x =>
    { x with integs := [], number := 0, drains := [], valid := [], stat := { x.stat with drains := 0, nextDrain := 0, swapDue := false } }
  t.onBeam i fun x =>
    { x with store := Vector.replicate 2 [], owner := Vector.replicate 2 none, lost := [], flags := [], started := []
             written := [], turned := [], cursors := [], cached := none, storeIdle := none, weightIdle := none
             loadAt := none
             stat := { x.stat with switchPending := false } }

/-- Egress formats that wait for a boundary of a sub-array take their place, and so do ingress ones once it has stopped
(R75). -/
def State.applyFormats (s : State) (i : SubId) (ingress : Bool) : State :=
  let due (e : Fin 64 × Fmt × SubId × Option Nat) : Bool := e.2.2.1 == i && (e.2.2.2.isNone || ingress)
  let fmts := (s.fmt.waiting.filter due).foldl (fun v e => vset v e.1 (some e.2.1)) s.fmt.fmts
  { s with fmt := { s.fmt with fmts := fmts, waiting := s.fmt.waiting.filter fun e => !due e } }

/-- The beam curve in force is the one BEAM_CURVE names (R231, R238). -/
def State.applyBeamCurve (s : State) (i : SubId) : State :=
  s.onBeam i fun x => { x with curve := s.tiles.curves[x.cfg.curveId.toFin] }

/-- A sub-array leaves ALIGN or OBSERVE and is DEFINED (R351): what waited for its boundaries takes effect, and its
engines are released. -/
def State.leaveObs (s : State) (i : SubId) : State :=
  let t := s.onObs i fun x => { x with state := saDefined, stopAt := none, stopping := false }
  let t := ((t.endFront i).endBack i).releaseEngines i
  let t := (t.applyFormats i true).applyBeamCurve i
  let t := match t.loom[i].planNext with
    | some p => t.applyPlan i p
    | none => (t.retireStray).showAll
  (t.octetsPast i).followMode

/-- A stop without further output (R455). -/
def State.stopNow (s : State) (i : SubId) : State := if s.active i then (s.cutCapture i false).leaveObs i else s

/-- No packet of a stopped sub-array is still to build: folds done, integrations sent, spans whole in the turn, and every
cursor at the end of what is there (R202, R233). -/
def State.outputDone (s : State) (i : SubId) : Bool :=
  let x := s.beam[i]
  s.obs[i].stopping && s.loom[i].running.isNone && s.loom[i].folds.isEmpty &&
    (s.ledger[i].integs.all fun q => q.sent || q.spans.isNone) && x.started.isEmpty &&
    x.cursors.all fun c => match s.cursorFmt c with
      | some f => (x.cutOf ((c.next + s.packetSpan f c - 1) / spanLen)).isNone
      | none => true

/-- A stopped sub-array whose output is complete becomes DEFINED (R351). -/
def State.tryStop (s : State) (i : SubId) : State := if s.active i && s.outputDone i then s.leaveObs i else s

end Sys2Proof.Machine
end

