-- ==== Sys2Proof/Machine/Loom.lean ====
section
/-! DEFINITION. The Loom's schedule: jobs, checks, failures, span starts and boundaries, and the events of the Ledger
and the beams that follow them (R20, R155, R157 to R162, R168 to R172, R178 to R180, R193, R209, R219 to R222, R187, R229, R233). -/

namespace Sys2Proof.Machine

/-! ### Correlation jobs (R155, R159 to R162) -/

/-- Fine samples of a slice. -/
def State.sliceLen (s : State) (i : SubId) : Nat :=
  match s.loom[i].plan with
  | some p => 4096 / s.slicesOf i p
  | none => 4096

/-- The fine sample of its unit at which a job's slice begins. -/
def State.sliceAt (s : State) (i : SubId) (j : Job) : Nat :=
  match s.loom[i].plan with
  | some p => j.slice % (s.slicesOf i p / s.halves i) * s.sliceLen i
  | none => 0

/-- The value of a local input at a fine sample of a staged unit, as it enters the cells (R156). -/
def State.cellIn (s : State) (i : SubId) (n : Fin 2) (t input : Nat) : Cplx := (s.shelfSample i n t input).2.1

/-- x times the conjugate of y (R155). -/
def mulConj (x y : Cplx) : Cplx := (x.1 * y.1 + x.2 * y.2, x.2 * y.1 - x.1 * y.2)

/-- The value a 32-bit cell accumulator holds. -/
def wrap32 (v : Cplx) : Cplx := (signedOf 32 (codeOf 32 v.1), signedOf 32 (codeOf 32 v.2))

/-- The sums of a job's cells, with what an upset adds to some of them. -/
def State.jobEntries (s : State) (i : SubId) (n : Fin 2) (j : Job) (upsets : List (Nat × Cplx)) : List Cplx :=
  let ts := (List.range (s.sliceLen i)).map fun k => s.sliceAt i j + k
  (List.range tileEntries).map fun e =>
    let exact := cSum (ts.map fun t =>
      mulConj (s.cellIn i n t (128 * j.i + e / 128)) (s.cellIn i n t (128 * j.j + e % 128)))
    wrap32 (cSum (exact :: (upsets.filter fun u => u.1 == e).map fun u => u.2))

/-- The check row: for each column the sum over t of the rows' sum times the conjugate of the warp value (R160). -/
def State.checkRow (s : State) (i : SubId) (n : Fin 2) (j : Job) : List Cplx :=
  let ts := (List.range (s.sliceLen i)).map fun k => s.sliceAt i j + k
  (List.range 128).map fun c => cSum (ts.map fun t =>
    mulConj (cSum ((List.range 128).map fun a => s.cellIn i n t (128 * j.i + a))) (s.cellIn i n t (128 * j.j + c)))

/-- The check column: for each row the sum over t of the weft value times the conjugate of the columns' sum (R160). -/
def State.checkCol (s : State) (i : SubId) (n : Fin 2) (j : Job) : List Cplx :=
  let ts := (List.range (s.sliceLen i)).map fun k => s.sliceAt i j + k
  (List.range 128).map fun a => cSum (ts.map fun t =>
    mulConj (s.cellIn i n t (128 * j.i + a)) (cSum ((List.range 128).map fun c => s.cellIn i n t (128 * j.j + c))))

/-- A dump passes its check: every row and column sum is right in both parts (R160). -/
def Dump.passes (d : Dump) : Bool :=
  ((List.range 128).all fun a =>
    cSum ((List.range 128).map fun c => d.entries.getD (128 * a + c) (0, 0)) == d.col.getD a (0, 0)) &&
  (List.range 128).all fun c =>
    cSum ((List.range 128).map fun a => d.entries.getD (128 * a + c) (0, 0)) == d.row.getD c (0, 0)

/-- The sub-array a tile correlates for. -/
def State.corrSub (s : State) (t : TileId) : Option SubId :=
  if (s.tile t).reg.state = tsCorr then s.tileSub t else none

/-- Another tile of a sub-array's plan takes jobs. -/
def State.otherTile (s : State) (i : SubId) (t : TileId) : Bool :=
  (allFin 42).any fun u => u != t && s.corrSub u == some i

/-- The next job for a tile: the first one whose unit is completely staged, but that a redo goes to another tile while there
is one (R162, R172). -/
def State.nextJob (s : State) (i : SubId) (t : TileId) : Option Job :=
  s.loom[i].queue.find? fun j => (s.stagedAt i j.span j.unit).isSome && (j.avoid != some t || !s.otherTile i t)

/-- The Loom has no job because the next unit is not yet staged (R169): a unit of the running span is still to come. -/
def State.shelfShort (s : State) (i : SubId) : Bool :=
  match s.loom[i].running with
  | some span => s.loom[i].finishAt.isNone && (s.cellar[i].anyCopy || (s.nextUnit i span s.cellar[i].stageNext).isSome)
  | none => false

/-- A set is free for a fine channel of a span (R169). -/
def State.setFree (s : State) (i : SubId) (span f : Nat) : Bool :=
  match s.ledger[i].sets[setOf f] with
  | some o => o == (span, f)
  | none => true

/-- A tile begins a job: the waits it ended are counted. -/
def State.beginJob (s : State) (i : SubId) (t : TileId) (j : Job) : State :=
  let now := s.now
  let u := s.onTile t fun x => { x with job := some ({ j with avoid := none, again := false, rode := false }, now) }
  let u := u.onLoom i fun x =>
    { x with queue := x.queue.erase j, shelfIdle := none, ledgerIdle := none
             stat := { x.stat with
               redone := if j.again then x.stat.redone + 1 else x.stat.redone
               shelfWait := x.stat.shelfWait + usSince now x.shelfIdle
               ledgerWait := x.stat.ledgerWait + usSince now x.ledgerIdle } }
  u.onLedger i fun x => { x with sets := vset x.sets (setOf j.f) (some (j.span, j.f)) }

/-- A wait begins, where it has not begun. -/
def since (now : Nat) (t : Option Nat) : Option Nat :=
  match t with
  | some a => some a
  | none => some now

/-- JOB_START (R162): an idle correlating tile takes the next job whose unit is staged, once its Ledger set is free; else the
time without a staged unit or without a set begins (R169). -/
def execJobStart (t : TileId) (s : State) : Host.Outcome State Fault Refusal :=
  .next (match s.corrSub t with
    | some i =>
      if s.loomHeld ∨ s.loom[i].running.isNone ∨ (s.tile t).job.isSome then s
      else
        match s.nextJob i t with
        | none => if s.shelfShort i then s.onLoom i fun x => { x with shelfIdle := since s.now x.shelfIdle } else s
        | some j =>
          if !s.setFree i j.span j.f then s.onLoom i fun x => { x with ledgerIdle := since s.now x.ledgerIdle }
          else s.beginJob i t j
    | none => s)

/-- Nanoseconds are at least so many cycles of the tile clock, 1.65 GHz. -/
def tileCycles (n ns : Nat) : Bool := decide (n * 20 ≤ ns * 33)

/-- JOB_COMPUTE_DONE (R159): after m × L cycles the sets are swapped and the dump begins. -/
def execJobComputeDone (t : TileId) (upsets : List (Nat × Cplx)) (s : State) : Host.Outcome State Fault Refusal :=
  let x := s.tile t
  .next (match x.job, x.dump with
    | some (j, t0), none =>
      let m := if s.cellar[j.sub].cfg.format then 4 else 1
      match s.stagedAt j.sub j.span j.unit with
      | some n =>
        if tileCycles (m * s.sliceLen j.sub) (s.now - t0) then
          let d : Dump :=
            { job := j, start := t0, since := s.now, entries := s.jobEntries j.sub n j upsets, row := s.checkRow j.sub n j
              col := s.checkCol j.sub n j }
          s.onTile t fun y => { y with job := none, dump := some d }
        else s
      | none => s
    | _, _ => s)

/-- A tile whose job failed its check: SUSPECT, or FAILED at a second failure within 10 s (Table 07-3). Its other job
goes back to the queue. -/
def State.checkTile (s : State) (i : SubId) (t : TileId) : State :=
  let x := s.tile t
  let repeats := match x.lastCheck with
    | some a => decide (s.now < a + 10000000000)
    | none => false
  let u := s.onTile t fun y =>
    { y with lastCheck := some s.now, reg := { y.reg with checkFail := satInc y.reg.checkFail } }
  let u := (u.onLoomStat i fun y => { y with checkSeen := true }).raise srcLoomCheck (BitVec.ofNat 32 t.val) (some i)
  if repeats then u.failTile t 2
  else
    (u.returnJobs t).onTile t fun y => { y with test := .suspect, reg := { y.reg with state := tsSuspect, lastCause := 1 } }

/-- The tiles on which a job has failed its check, with one more. -/
def failedOn (old : List TileId) (t : TileId) : List TileId := if old.contains t then old else t :: old

/-- A correlation job fails its check: its dump is discarded, and it is run again, or lost at the third tile (R161, R172,
R178). -/
def State.failJob (s : State) (t : TileId) (d : Dump) : State :=
  let i := d.job.sub
  let failed := failedOn d.job.failed t
  let u := s.onTile t fun x => { x with dump := none }
  let u := u.onLedgStat i fun x => { x with dumpsDiscarded := x.dumpsDiscarded + 1 }
  let u := u.checkTile i t
  let u := if 3 ≤ failed.length then u.loseJob i { d.job with failed := failed } false
    else u.requeue { d.job with failed := failed, avoid := some t, again := true }
  u.settled i

/-- JOB_CHECK (R160, R161): the dump of 2048 cycles is complete; the job is committed or fails. -/
def execJobCheck (t : TileId) (s : State) : Host.Outcome State Fault Refusal :=
  .next (match (s.tile t).dump with
    | some d =>
      if !tileCycles 2048 (s.now - d.since) then s
      else if d.passes then
        let i := d.job.sub
        let u := s.commitDump i d.job.f (posIndex (s.nb i) d.job.i d.job.j) d.entries
        let u := u.onTile t fun x => { x with dump := none, reg := { x.reg with jobs := x.reg.jobs + 1 } }
        (u.onLoomStat i fun x => { x with jobs := x.jobs + 1 }).settled i
      else s.failJob t d
    | none => s)

/-- The span of a tile's jobs may be settled after the tile has lost them. -/
def State.afterTile (s : State) (i : Option SubId) : State :=
  match i with
  | some k => s.settled k
  | none => s

/-- JOB_TIMEOUT (R171, R220): a compute or dump has not ended within 50 µs of the job's start. -/
def execJobTimeout (t : TileId) (s : State) : Host.Outcome State Fault Refusal :=
  let x := s.tile t
  let late := (match x.job with
    | some (_, a) => decide (a + 50000 ≤ s.now)
    | none => false) || match x.dump with
      | some d => decide (d.start + 50000 ≤ s.now)
      | none => false
  let late := late || match x.beam with
    | some r => decide (r.start + 50000 ≤ s.now)
    | none => false
  .next (if late then (s.failTile t 3).afterTile (s.tileSub t) else s)

/-- The island of a tile. -/
def tileIsland (t : TileId) : IslandId := ⟨t.val, by omega⟩

/-- A tile's island loses its clock: not raised for a tile that RIDE has stopped (R179), nor for one out of service. -/
def State.clockLoss (s : State) (t : TileId) : State :=
  let st := (s.tile t).reg.state
  if s.mode = modeRide ∨ st = tsFailed ∨ st = tsRetired ∨ !s.islandOn (tileIsland t) then s
  else (s.failTile t 4).afterTile (s.tileSub t)

/-- SPARE_SELFTEST (R180): every 60 s in OBSERVE a spare is tested. -/
def execSpareSelftest (t : TileId) (s : State) : Host.Outcome State Fault Refusal :=
  let x := s.tile t
  .next (if s.mode = modeObserve ∧ x.reg.state = tsSpare ∧ x.testedAt + 60000000000 ≤ s.now then
    s.onTile t fun y => { y with test := .spare, testedAt := s.now, reg := { y.reg with state := tsTesting } }
    else s)

/-- A self-test is counted. -/
def LoomTile.tested (r : LoomTile) (pass : Bool) : LoomTile :=
  { r with selftests := satInc r.selftests, selftestFail := if pass then r.selftestFail else satInc r.selftestFail }

/-- A self-test of a tile ends (R171, R176, R180). -/
def State.selftestDone (s : State) (t : TileId) (pass : Bool) : State :=
  let x := s.tile t
  let u := s.onTileReg t fun r => r.tested pass
  match x.test with
  | .none => s
  | .suspect =>
    if pass then
      (u.onTile t fun y => { y with test := .none, reg := { y.reg with state := tsFree, softErrors := satInc y.reg.softErrors } }).showAll
    else u.failTile t 1
  | .spare =>
    if pass then u.onTile t fun y => { y with test := .none, reg := { y.reg with state := tsSpare } }
    else (u.onTileReg t fun r => { r with lastCause := 5 }).retireNow t
  | .restore =>
    if pass then u.restored t
    else ((u.onTileReg t fun r => { r with lastCause := 5 }).retireNow t).onTile t fun y => { y with asked := none }

/-! ### Spans (R18, R168) -/

/-- A span of a sub-array starts at the Loom. -/
def State.beginSpan (s : State) (i : SubId) (span at' : Nat) : State :=
  let now := s.now
  let t := s.onLoom i fun x =>
    { x with running := some span, next := span + 1, finishAt := none, shelfIdle := none, ledgerIdle := none
             stat := { x.stat with span := BitVec.ofNat 64 span
                                   lateSpans := if at' < now then x.stat.lateSpans + 1 else x.stat.lateSpans } }
  let t := t.onCellar i fun x => { x with stageNext := 0, stat := { x.stat with readSpan := BitVec.ofNat 64 span } }
  let t := t.startFolds i span
  let t := if t.beams i = 0 then t
    else (t.syncCursors i span).onBeam i fun x => { x with started := x.started ++ [(span, (t.uncut i).1, (t.uncut i).2)] }
  (t.settled i).showPending i

/-- SPAN_START (R18): the next span has become available and the one before has passed its boundary. -/
def execSpanStart (i : SubId) (s : State) : Host.Outcome State Fault Refusal :=
  let x := s.loom[i]
  .next (if s.saState i = saObserve ∧ x.plan.isSome ∧ !s.loomHeld ∧ x.running.isNone ∧ x.next < s.cellar[i].avail ∧
      !s.obs[i].stopping then
    let at' := ((s.cellar[i].availAt.find? fun e => e.1 == x.next).map fun e => e.2).getD s.now
    s.beginSpan i x.next at'
    else s)

/-- The changes due at a boundary before span `b`, in the order of R352 and R168. -/
def State.crossBoundary (s : State) (i : SubId) (span b : Nat) : State :=
  let t := s.ledgerBoundary i b
  let t := if t.obs[i].stopping then (t.cutCapture i true).dropActions i else t
  let t := match t.loom[i].planNext with
    | some p => t.applyPlan i p
    | none => t
  let t := (((t.tileBoundary i b).showAll).recut i b).applyShelf i
  let t := (t.applyFormats i false).applyBeamCurve i
  let t := t.onLoom i fun x => { x with cutFrom := x.cfg.cutFrom.toNat, target := x.cfg.cutTarget.toNat }
  ((t.endSwitch i span).octetsPast i).recoverEngines i

/-- The event line of a sub-array's Loom span boundaries (Table 14-7). -/
def spanLine (i : SubId) : Fin 32 := ⟨16 + i.val, by omega⟩

/-- LOOM_SPAN_BOUNDARY (R168): every job of the span is settled and the Loom is not held. -/
def execLoomSpanBoundary (i : SubId) (s : State) : Host.Outcome State Fault Refusal :=
  let x := s.loom[i]
  .next (match x.running with
    | some span =>
      if x.finishAt.isSome ∧ !s.loomHeld then
        let t := (s.weightRecords i span).crossBoundary i span (span + 1)
        let t := (t.onLoom i fun y => { y with running := none }).turnSpan i
        ((((t.showAll).showPending i).pulseLine (spanLine i)).tryStop i)
      else s
    | none => s)

/-! ### The Ledger's events -/

/-- Every job of a fine channel of a span is settled (R193). -/
def State.chanSettled (s : State) (i : SubId) (span f : Nat) : Bool :=
  s.loomDone i span ||
    (!(s.loom[i].queue.any fun j => j.f == f) && !(s.tilesBusy i fun j => j.f == f) &&
      (match s.nextUnit i span s.cellar[i].stageNext with
       | some u => decide (f < (s.unitParts i u).1)
       | none => true) &&
      s.cellar[i].buffers.toList.all fun b => match b with
        | some g => g.staged || (s.unitParts i g.unit).1 != f
        | none => true)

/-- The front span of the folds, once its last channel is done. -/
def State.endFold (s : State) (i : SubId) : State :=
  match s.loom[i].folds with
  | [] => s
  | w :: rest =>
    if w.next < w.hi then s
    else ((((s.foldsEnd i w).onLoom i fun x => { x with folds := rest }).flushStopped i).showLedger i).tryStop i

/-- LEDGER_SET_COMPLETE (R193): the next fine channel is folded or streamed, and its set released. No fold starts in
HOLD (R210), and none while the Ledger waits for egress staging (R84). With no span left to fold, a stopped sub-array's closed
integrations are flushed (R202). -/
def execLedgerSetComplete (i : SubId) (s : State) : Host.Outcome State Fault Refusal :=
  .next (if s.mode = modeHold ∨ s.stalled i then s
    else
      match s.loom[i].folds with
      | [] => if s.obs[i].stopping then (s.flushStopped i).tryStop i else s
      | w :: rest =>
        if w.next < w.hi then
          if s.chanSettled i w.span w.next then
            let t := (s.foldNext i w).onLoom i fun x => { x with folds := { w with next := w.next + 1 } :: rest }
            t.endFold i
          else s
        else s.endFold i)

/-- The integration and fine channel whose fold reads an SRAM set next: the channel the set accumulates, else the next one to
fold that uses the set (log entry 77). -/
def State.setUser (s : State) (i : SubId) (n : Fin 2) : Option (Nat × Nat) :=
  let acc := ((s.accInteg i).map fun q => q.number).getD 0
  match s.ledger[i].sets[n], s.loom[i].folds with
  | some (span, f), ws => some (((ws.find? fun w => w.span == span).map fun w => w.integ).getD acc, f)
  | none, w :: _ =>
    let f := if w.next % 2 = n.val then w.next else w.next + 1
    if f < w.hi then some (w.integ, f) else none
  | none, [] => none

/-- LEDGER_ECC (R209). -/
def execLedgerEcc (i : SubId) (site : EccSite) (s : State) : Host.Outcome State Fault Refusal :=
  .next (match site with
    | .corrected => s.onLedgStat i fun x => { x with eccCorr := x.eccCorr + 1 }
    | .pending t =>
      match (s.tile t).dump with
      | some d => if d.job.sub = i then s.failJob t d else s
      | none => s
    | .setEntry n e =>
      let t := match s.setUser i n with
        | some (number, f) => s.onInteg i number fun q => { q with withheld := q.withheld ++ [(f, e / tileEntries)] }
        | none => s
      (t.onLedgStat i fun x => { x with eccSeen := true }).raise srcLedgerEcc (BitVec.ofNat 32 i.val) (some i))

/-! ### Beam jobs (R219 to R222) -/

/-- The sub-array a tile forms beams for. -/
def State.beamSub (s : State) (t : TileId) : Option SubId :=
  if (s.tile t).reg.state = tsBeam then s.tileSub t else none

/-- Another tile of a sub-array's plan takes beam jobs. -/
def State.otherBeam (s : State) (i : SubId) (t : TileId) : Bool :=
  (allFin 42).any fun u => u != t && s.beamSub u == some i

/-- The store set of a unit is free for it. -/
def State.storeFree (s : State) (i : SubId) (j : BeamJob) : Bool :=
  match s.beam[i].owner[(⟨j.unit % 2, Nat.mod_lt _ (by decide)⟩ : Fin 2)] with
  | some o => o == (j.span, j.unit)
  | none => true

/-- A tile begins a beam job: the waits it ended are counted, and the unit's store set is the unit's (R219, R229). -/
def State.beginBeam (s : State) (i : SubId) (t : TileId) (n : Fin 2) (j : BeamJob) (failAt : Option Nat) : State :=
  let run : BeamRun := { job := { j with avoid := none, again := false }, buf := n, start := s.now, stop := s.beamStop i n j failAt }
  let u := (s.onTile t fun x => { x with beam := some run }).onLoom i fun x => { x with beamQueue := x.beamQueue.erase j }
  let k : Fin 2 := ⟨j.unit % 2, Nat.mod_lt _ (by decide)⟩
  u.onBeam i fun x =>
    { x with storeIdle := none, weightIdle := none, owner := vset x.owner k (some (j.span, j.unit)), stat := { x.stat with
        storeWait := x.stat.storeWait + usSince s.now x.storeIdle
        weightWait := x.stat.weightWait + usSince s.now x.weightIdle
        redone := if j.again then x.stat.redone + 1 else x.stat.redone } }

/-- A beam job in flight has run all its cycles, or reached the fine sample that fails its check: what passed is committed, and
the job is committed, run again by another tile from that fine sample, or lost at the third tile (R218, R220, R222). -/
def State.endBeam (s : State) (t : TileId) : State :=
  match (s.tile t).beam with
  | none => s
  | some r =>
    if r.upTo s.now < r.stop then s
    else
      let i := r.job.sub
      match s.haltBeam t with
      | (u, none) => u.settled i
      | (u, some j) =>
        let failed := failedOn j.failed t
        let u := u.checkTile i t
        let j' := { j with failed := failed, avoid := some t, again := true }
        (if 3 ≤ failed.length then u.loseBeam i j' else u.requeueBeam j').settled i

/-- The beam jobs in flight whose end has come are over. -/
def State.endBeams (s : State) : State := (allFin 42).foldl (fun (u : State) t => u.endBeam t) s

/-- The next beam job for a tile: the first one whose unit is completely staged, a redo going to another tile while there is one
(R221). -/
def State.nextBeam (s : State) (i : SubId) (t : TileId) : Option BeamJob :=
  s.loom[i].beamQueue.find? fun j => (s.stagedAt i j.span j.unit).isSome && s.storeFree i j && (j.avoid != some t || !s.otherBeam i t)

/-- BEAM_JOB_START (R221): an idle beam tile takes the next beam job whose unit is staged and whose store set is free. The job is
in flight until its 4096 cycles have passed (R219). `failAt` is a fine sample of its chunk at which an upset makes a row sum
wrong. -/
def execBeamJobStart (t : TileId) (failAt : Option Nat) (s : State) : Host.Outcome State Fault Refusal :=
  .next (match s.beamSub t with
    | some i =>
      if s.loomHeld ∨ s.loom[i].running.isNone ∨ (s.tile t).beam.isSome then s
      else
        match s.nextBeam i t with
        | none =>
          if s.loom[i].beamQueue.any fun j => (s.stagedAt i j.span j.unit).isSome && !s.storeFree i j then
            s.onBeam i fun x => { x with storeIdle := since s.now x.storeIdle }
          else s
        | some j =>
          let r := s.fetchWeights i j.span (j.f / 2 ^ s.beam[i].cfg.wgroupLog2.toNat)
          match r.1.stagedAt i j.span j.unit with
          | some n => if r.2 then r.1.beginBeam i t n j failAt else r.1.onBeam i fun x => { x with weightIdle := since s.now x.weightIdle }
          | none => s
    | none => s)

/-- BEAM_UNIT_COMPLETE (R229). -/
def execBeamUnitComplete (i : SubId) (s : State) : Host.Outcome State Fault Refusal := .next ((s.unitStep i).tryStop i)

/-- BEAM_CURSOR_PACKET (R233). -/
def execBeamCursorPacket (fmt : Fin 64) (s : State) : Host.Outcome State Fault Refusal :=
  .next (match s.cursorSub fmt with
    | some i => (s.cursorStep i fmt).tryStop i
    | none => s)

/-! ### RIDE (R179) -/

/-- Every job in flight is abandoned and goes back to its queue in order; its dump is discarded, and a beam job keeps what it
has committed (R179, R237). -/
def State.abandonAll (s : State) : State :=
  (allFin 42).foldl (fun (u : State) t =>
    let x := u.tile t
    let r := u.haltBeam t
    let u := match r.2 with
      | some j => r.1.onLoom j.sub fun y => { y with beamQueue := insertBeam j y.beamQueue }
      | none => r.1
    let back (u : State) (j : Job) : State := u.onLoom j.sub fun y =>
      match y.plan with
      | some p => { y with queue := insertJob p { j with rode := true } y.queue }
      | none => y
    let u := match x.job with
      | some (j, _) => back u j
      | none => u
    let u := match x.dump with
      | some d => (back u d.job).onLedgStat d.job.sub fun y => { y with dumpsDiscarded := y.dumpsDiscarded + 1 }
      | none => u
    u.onTile t fun y => { y with job := none, dump := none }) s

/-- RIDE has ended: what it abandoned is a waiting job like any other. -/
def State.endRode (s : State) : State :=
  (allFin 4).foldl (fun (u : State) i => u.onLoom i fun x => { x with queue := x.queue.map fun j => { j with rode := false } }) s

end Sys2Proof.Machine
end

