-- ==== Sys2Proof/Machine/Reply.lean ====
section
/-! DEFINITION. Replies: their words, and how one reaches a bench (R310, R313, R321, R334, R336). -/

namespace Sys2Proof.Machine

/-- The answer to a command: STATUS, DETAIL and results (R334). -/
structure Reply where
  status  : BitVec 8
  detail  : Word := 0
  results : List Word := []
  deriving DecidableEq, Repr

/-- The status codes of Table 13-2. -/
abbrev stOk : BitVec 8 := 0x00
abbrev stAccepted : BitVec 8 := 0x01
abbrev stBusy : BitVec 8 := 0x10
abbrev stNoLease : BitVec 8 := 0x11
abbrev stBadOpcode : BitVec 8 := 0x20
abbrev stBadLength : BitVec 8 := 0x21
abbrev stBadParam : BitVec 8 := 0x22
abbrev stOverBudget : BitVec 8 := 0x23
abbrev stWrongMode : BitVec 8 := 0x24
abbrev stTableInvalid : BitVec 8 := 0x25
abbrev stAuth : BitVec 8 := 0x30
abbrev stFaulted : BitVec 8 := 0x40
abbrev stNospace : BitVec 8 := 0x41
abbrev stInternal : BitVec 8 := 0x7F

/-- A reply that carries a status and nothing else. -/
def Reply.plain (st : BitVec 8) : Reply := { status := st }

/-- OK with results. -/
def Reply.ok (results : List Word := []) : Reply := { status := stOk, results := results }

/-- The words of a reply (R334). -/
def Reply.words (r : Reply) (opcode : BitVec 8) (tag : Word) : List Word :=
  (putAt opcode 24 ||| putAt r.status 16 ||| BitVec.ofNat 32 (3 + r.results.length)) :: tag :: r.detail :: r.results

/-- A reply is written: into a free Reply slot of a PCI Express bench, or sent as a REPLY datagram with its CMD_NUM and
kept for R321; REPLY_TAIL advances and REPLY is set (R310, R317). -/
def State.putReply (s : State) (b : BenchId) (words : List Word) (counted : Bool := true) : State :=
  let idx := (s.benchOf b).stat.replyTail
  let t := s.onBench b fun x =>
    { x with
      replies := if b.val < 2 then x.replies ++ [words] else []
      stored := if b.val < 2 then x.stored else ((idx, words) :: x.stored).take 16
      stat := { x.stat with
        replyTail := idx + 1
        replyHead := if b.val < 2 then x.stat.replyHead else idx + 1
        commands := if counted then x.stat.commands + 1 else x.stat.commands } }
  let t := if b.val < 2 then t.emit (.reply b words) else t.sendDatagram b 0x02 idx.toNat 0 0 words
  t.setIrq b irqReply

/-- The command that waits for its end is answered (R355); a session that has closed gets no reply (R323). -/
def State.finishCommand (s : State) (b : BenchId) (r : Reply) : State :=
  match (s.benchOf b).executing with
  | some (op, tag) => (s.onBench b fun x => { x with executing := none }).putReply b (r.words op tag)
  | none => s

end Sys2Proof.Machine
end

