-- ==== Sys2Proof/Machine/Bellows.lean ====
section
/-! DEFINITION. The Bellows: rails, sequences, islands, supply events, RIDE and orderly shutdown (R403 to R424). -/

namespace Sys2Proof.Machine

/-! ### Sequences (R416, R417; log entry 52) -/

/-- A step of a vendor sequence. -/
def vendorStep (op target : Nat) (arg : Nat := 0) : SeqStep := ⟨op, target, 65535, arg⟩

/-- The setpoints of Table 16-5, mV. -/
def railSetpoint : List Nat := [800, 750, 800, 850, 900, 1200, 1800, 1050, 900, 500, 1800, 5000]

/-- The islands that RIDE sheds (R410). -/
def shedIslands : List Nat := (List.range 4).map (fun k => 42 + k) ++ List.range 42 ++ [77]

/-- The vendor sequence of a SEQ_ID, as Tables 16-5 and 16-8, R410 and R412 describe its work (log entry 52). -/
def vendorSeq (id : Nat) : List SeqStep :=
  match id with
  | 0 => [10, 2, 3, 4, 5, 1, 6, 7, 8, 9].flatMap fun r => [vendorStep 1 r (railSetpoint.getD r 0), vendorStep 3 r]
  | 1 => [9, 8, 7, 6, 1, 5, 4, 3, 2].map fun r => vendorStep 2 r
  | 2 => shedIslands.map fun i => vendorStep 6 i
  | 3 => shedIslands.map fun i => vendorStep 5 i
  | 4 => vendorStep 8 0 :: ((List.range 9).map fun k => vendorStep 5 (42 + k)) ++ (List.range 42).map fun t => vendorStep 5 t
  | _ => ((List.range 51).map fun k => vendorStep 6 k) ++ [vendorStep 7 0]

/-- The steps of a sequence: the committed table's, else the vendor's. -/
def State.seqSteps (s : State) (id : Fin 6) : List SeqStep := if s.bell.seqs[id].isEmpty then vendorSeq id.val else s.bell.seqs[id]

/-- An island stays off whatever a sequence asks: a retired tile or a disabled octet (Table 16-8, R419). -/
def State.keptOff (s : State) (i : Nat) : Bool :=
  if h : i < 42 then (s.tile ⟨i, h⟩).reg.state == tsRetired
  else if h : 55 ≤ i ∧ i < 71 then !(s.octet ⟨i - 55, by omega⟩).cfg.enable
  else false

/-- What a step does at once. -/
def State.performStep (s : State) (x : SeqStep) : State :=
  let island (on : Bool) : State := if h : x.target < 79 then
      (if on && s.keptOff x.target then s else s.askIsland ⟨x.target, h⟩ on) else s
  let rail (on : Bool) : State :=
    { s with bell := { s.bell with rails := if on then s.bell.rails ||| (1 <<< x.target : BitVec 12)
                                            else s.bell.rails &&& ~~~(1 <<< x.target : BitVec 12) } }
  match x.op with
  | 1 => rail true
  | 2 => rail false
  | 5 => island true
  | 6 => island false
  | 7 => s.granSelfRefresh
  | 8 => s.granActive
  | _ => s

/-- A sequence begins: its first step is performed. -/
def State.beginSeq (s : State) (id : Fin 6) (after : AfterSeq) : State :=
  let steps := s.seqSteps id
  let t := { s with bell := { s.bell with running := some ⟨id, steps, 0, s.now, false, after⟩ } }
  match steps with
  | x :: _ => t.performStep x
  | [] => t

/-- SHED and RESTORE act at once, with no wait (R410, R412; log entry 52). -/
def State.runNow (s : State) (id : Fin 6) : State := (s.seqSteps id).foldl (fun (t : State) x => t.performStep x) s

/-- RESTORE powers the islands that SHED gated; one whose latest request was OFF before stays off (R412, R419). -/
def State.restore (s : State) (off : BitVec 79) : State :=
  ((s.seqSteps 3).filter fun x => !(x.op == 5 && off.getLsbD x.target)).foldl (fun (t : State) x => t.performStep x) s

/-- The condition a step waits for is met: power-good is told from outside, a DELAY by the clock. -/
def SeqRun.stepMet (q : SeqRun) (x : SeqStep) (met : Bool) (now : Nat) : Bool :=
  q.forced || (if x.op = 3 then met else if x.op = 4 then decide (q.since + 1000 * x.arg ≤ now) else true)

/-- Every island is where its last request wants it. -/
def State.islandsSettled (s : State) : Bool :=
  (allFin 79).all fun i => (s.island i).state == (if (s.island i).target then 2 else 0)

/-- The input lies within 41.0 V to 59.0 V. -/
def goodInput (v : BitVec 16) : Bool := decide (4100 ≤ v.toNat ∧ v.toNat ≤ 5900)

/-- The sequence may take its next step: RAILS_UP waits until the input has been good for 100 ms (Table 17-2), and a
MODE_REQUEST's sequence waits while an event is ridden (R410; log entry 52). -/
def State.seqMay (s : State) (q : SeqRun) : Bool :=
  if q.id.val = 0 then goodInput s.bell.stat.supply10mv && decide (s.bell.goodSince + 100000000 ≤ s.now)
  else decide (q.id.val < 4) || s.bell.event.isNone

/-! ### What a sequence's end brings -/

/-- The end of a sequence (Table 16-9, R427, R414, R448). A MODE_REQUEST is not completed while an event is ridden. -/
def State.endSeq (s : State) (q : SeqRun) : State :=
  let t := { s with bell := { s.bell with running := none } }
  match q.after with
  | .nothing => t
  | .rollCall => t.onBellStat fun x => { x with pwrGood := true }
  | .dormant =>
    ({ t with bell := { t.bell with falling := false, down := true } }).setMode modeDormant
  | .mode m b =>
    if s.bell.event.isSome then s
    else
      let from' := if q.id.val = 4 then t.mode == modeStandby else t.mode == modeProvision || t.mode == modeWorkshop
      let u := if from' then t.setMode m else t
      match b with
      | some b => u.finishCommand b (Reply.plain (if from' then stOk else stWrongMode))
      | none => u

/-- The running step ends and the next is performed (R416). -/
def State.nextStep (s : State) (q : SeqRun) : State :=
  match q.left with
  | [] => if s.islandsSettled || q.forced || q.id.val < 2 then s.endSeq q else s
  | _ :: rest =>
    let q := { q with left := rest, index := q.index + 1, since := s.now }
    let t := { s with bell := { s.bell with running := some q } }
    match rest with
    | x :: _ => t.performStep x
    | [] => if t.islandsSettled || q.forced || q.id.val < 2 then t.endSeq q else t

/-- The work of SEQ_STEP (R416). -/
def State.seqStepOf (s : State) (met : Bool) : State :=
  match s.bell.running with
  | none => s
  | some q =>
    if !s.seqMay q then s
    else
      match q.left with
      | [] => s.nextStep q
      | x :: _ => if q.stepMet x met s.now then s.nextStep q else s

/-- The work of RAIL_SEQ (R417). -/
def State.railSeqOf (s : State) : State :=
  match s.bell.running with
  | none => s
  | some q =>
    match q.left with
    | [] => s
    | x :: _ =>
      if q.since + 1000 * x.timeout < s.now ∧ s.seqMay q ∧ !q.forced then
        let t := s.raise srcRailSeq (BitVec.ofNat 32 (q.id.val + 256 * q.index))
        if q.id.val = 0 then
          { t with bell := { t.bell with running := none }, start := { t.start with reg := { t.start.reg with step := 0 } } }
        else if q.id.val = 1 then t.nextStep { q with forced := true }
        else
          let t := ({ t with bell := { t.bell with running := none } }).requestHold
          match q.after with
          | .mode _ (some b) => t.finishCommand b (Reply.plain stWrongMode)
          | _ => t
      else s

/-! ### Islands (R418, R419, R423) -/

/-- Twice the power-up time of Table 16-7, ns. -/
def gateLimit (i : Nat) : Nat :=
  if i < 42 then 300000 else if i < 46 then 1200000 else if i < 51 then 8000000 else if i < 71 then 2000000 else 1000000

/-- An island's state is discarded as it goes off (R418). -/
def State.islandLost (s : State) (i : IslandId) : State :=
  if h : i.val < 42 then s.returnJobs ⟨i.val, h⟩
  else if 42 ≤ i.val ∧ i.val < 46 then
    let sl : SliceId := ⟨(i.val - 42) % 4, Nat.mod_lt _ (by decide)⟩
    let t := (enginesOf sl).foldl (fun (u : State) e => u.onEngine e fun x =>
      { x with queue := [], loading := none, mem := [], loops := [], counts := [], slots := Vector.replicate 16 {}, writes := []
               waitAt := none }) s
    let t := t.onCombine sl fun _ => []
    { t with front := { t.front with assayIn := vset t.front.assayIn sl [] } }
  else if h : 55 ≤ i.val ∧ i.val < 71 then
    let t := s.offOctet ⟨i.val - 55, by omega⟩ 4
    { t with side := { t.side with cable3v3 := t.side.cable3v3 &&& ~~~(1 <<< (i.val - 55) : BitVec 16) } }
  else s

/-- CABLE_3V3 of an octet is on while its island is ON and CBL_PRESENT_N is low (R443). -/
def State.switchCable (s : State) (o : OctetId) : State :=
  let on := s.islandOn (octetIsland o) && !s.side.cblHigh.getLsbD o.val
  { s with side := { s.side with cable3v3 := if on then s.side.cable3v3 ||| (1 <<< o.val : BitVec 16)
                                             else s.side.cable3v3 &&& ~~~(1 <<< o.val : BitVec 16) } }

/-- The engines of a slice that has come back load their kernels again (R108, R125). -/
def State.reloadSlice (s : State) (sl : SliceId) : State :=
  (allFin 4).foldl (fun (t : State) i =>
    match t.kernel t.front.mill[i].kernelId.toNat with
    | some k =>
      (enginesOf sl).foldl (fun (u : State) e =>
        if u.active i && (u.engine e).stat.state == 1 && (u.engine e).stat.subarray == BitVec.ofNat 2 i.val then
          u.onEngine e fun x => x.started i k
        else u) t
    | none => t) s

/-- An island comes ON: SRAMs are cleared, a slice asks for its reset at the next beat (R108), the lanes of an octet
start (Table 16-7). -/
def State.islandUp (s : State) (i : IslandId) : State :=
  if 42 ≤ i.val ∧ i.val < 46 then
    let sl : SliceId := ⟨(i.val - 42) % 4, Nat.mod_lt _ (by decide)⟩
    (allFin 4).foldl (fun (t : State) j =>
      if t.active j && !(t.inputsOn j sl).isEmpty && t.sieve[j].returned.all (fun e => e != sl) then
        t.onSieve j fun x => { x with returned := x.returned ++ [sl] }
      else t) (s.reloadSlice sl)
  else if 46 ≤ i.val ∧ i.val < 50 then { s with mem := s.mem.zero (ledgerBase + (i.val - 46) * 0x3800000) 0x3800000 }
  else if i.val = 50 then { s with mem := s.mem.zero shelfBase 0x2000000 }
  else if h : 55 ≤ i.val ∧ i.val < 71 then
    let o : OctetId := ⟨i.val - 55, by omega⟩
    (if (s.octet o).cfg.enable then s.startOctet o false 4 else s).switchCable o
  else s

/-- ISLAND_POWER_DONE (R419): the island reaches ON or OFF, and a request that waited runs. -/
def execIslandPowerDone (i : IslandId) (s : State) : Host.Outcome State Fault Refusal :=
  let x := s.island i
  .next (if x.state = 1 then
      let t := (s.onIsland i fun y => { y with state := 2, gated := false }).islandUp i
      if x.target then t else t.onIsland i fun y => { y with state := 3, since := s.now }
    else if x.state = 3 then
      let t := (s.onIsland i fun y => { y with state := 0 }).islandLost i
      if x.target then t.onIsland i fun y => { y with state := 1, since := s.now, gated := false } else t
    else s)

/-- ISLAND_GATE (R423): an island is not ON within twice its power-up time; raised once per power-up. -/
def execIslandGate (i : IslandId) (s : State) : Host.Outcome State Fault Refusal :=
  let x := s.island i
  .next (if x.state = 1 ∧ !x.gated ∧ x.since + gateLimit i.val < s.now then
    (s.onIsland i fun y => { y with gated := true }).raise srcIslandGate (BitVec.ofNat 32 i.val)
    else s)

/-- CABLE_OVERCURRENT (R443). -/
def execCableOvercurrent (o : OctetId) (s : State) : Host.Outcome State Fault Refusal :=
  .next (if s.side.cable3v3.getLsbD o.val then
    ({ s with side := { s.side with cable3v3 := s.side.cable3v3 &&& ~~~(1 <<< o.val : BitVec 16) } }).raise srcIslandGate
      (BitVec.ofNat 32 (octetIsland o).val)
    else s)

/-- CBL_PRESENT_N (R443). -/
def execCblPresentN (o : OctetId) (high : Bool) (s : State) : Host.Outcome State Fault Refusal :=
  .next (({ s with side := { s.side with cblHigh := if high then s.side.cblHigh ||| (1 <<< o.val : BitVec 16)
                                                    else s.side.cblHigh &&& ~~~(1 <<< o.val : BitVec 16) } }).switchCable o)

/-! ### Orderly shutdown (R414) -/

/-- A roll call runs: one of its steps is in progress (R441). -/
def State.rolling (s : State) : Bool := decide (1 ≤ s.start.reg.step.toNat ∧ s.start.reg.step.toNat ≤ 9)

/-- The module is out of DORMANT, or in a roll call, and not shutting down. -/
def State.running (s : State) : Bool := s.bell.alive && !s.bell.falling && (s.mode != modeDormant || s.rolling)

/-- Milliseconds spent in RIDE are added (Table 16-14). -/
def State.addRideMs (s : State) : State :=
  if s.bell.event.isSome then s.onBellStat fun x => { x with rideMs := satInc x.rideMs ((s.now - s.bell.rideAt) / 1000000) } else s

/-- The record of an event that a shutdown cuts off: no longer in progress, and its time up to now (R414, Table 16-15; log
entry 54). -/
def State.closeRecord (s : State) : State :=
  match s.bell.event with
  | some e =>
    if e.past then s
    else { s with bell := { s.bell with events := vmod s.bell.events (0 : Fin 16) fun x =>
      { x with inProgress := false, durationUs := satNat 32 ((s.now - e.start) / 1000) } } }
  | none => s

/-- The orderly shutdown (Table 16-4): 1 LOSS, 2 THERMAL_CRIT, 3 RAIL_FAULT. -/
def State.shutdown (s : State) (cause : BitVec 2) : State :=
  if s.bell.falling then s
  else
    let t := (s.addRideMs).onBellStat fun x =>
      { x with pwrGood := false, lastShutdown := cause, shutdowns := x.shutdowns + 1, classNow := 0, rideInHold := false }
    let t := t.closeRecord
    let t := (allFin 4).foldl (fun (u : State) i => u.stopNow i) t
    let t := (allFin 16).foldl (fun (u : State) o => u.offOctet o 4) t
    let t := t.granSelfRefresh
    let t := { t with
      move := { t.move with baleRun := none, bale := { t.move.bale with state := 0 } }
      fmt := { t.fmt with ports := Vector.replicate 128 {}, blocked := [], stalls := [] }
      bench := { t.bench with serving := false, benches := t.bench.benches.map fun x => { x with executing := none } }
      side := { t.side with cable3v3 := 0 }
      start := { t.start with reg := { t.start.reg with step := if t.rolling then 0 else t.start.reg.step } }
      bell := { t.bell with event := none, falling := true
                            islands := Vector.ofFn fun i : Fin 79 => if i.val = 75 then { state := 2, target := true } else {} } }
    let t := (allFin 2).foldl (fun (u : State) f => u.onBnch (funcBench f) fun x => { x with linkUp := false }) t
    t.beginSeq 1 .dormant

/-- RAIL_FAULT (R417): a rail's power-good falls outside a sequence. -/
def execRailFault (rail : Fin 12) (s : State) : Host.Outcome State Fault Refusal :=
  .next (if s.running ∧ s.bell.running.isNone ∧ s.bell.rails.getLsbD rail.val then
    (s.raise srcRailFault (BitVec.ofNat 32 rail.val)).shutdown 3
    else s)

/-- THERMAL_CRIT (R424): a junction above 115 degrees or a DRAM case above 90 degrees for 10 ms, in steps of an eighth. -/
def execThermalCrit (i : IslandId) (tj dram : BitVec 16) (forMs : Nat) (s : State) : Host.Outcome State Fault Refusal :=
  .next (if s.running ∧ 10 ≤ forMs ∧ (920 < tj.toInt ∨ 720 < dram.toInt) then
    (s.raise srcThermalCrit (BitVec.ofNat 32 i.val)).shutdown 2
    else s)

/-! ### Supply events (R403 to R407, R410 to R413) -/

/-- The bands of the curve in force: the store's default where none is committed (R406). -/
def State.bands (s : State) : List Band :=
  if s.bell.curve.isEmpty then [⟨0, 3300, 25000⟩, ⟨3300, 4000, 0xFFFFFFFF⟩, ⟨6000, 10000, 25000⟩] else s.bell.curve

/-- The class of an input voltage (Table 16-2). -/
def classOf (v : Nat) : BitVec 3 := if v < 3300 then 3 else if v < 4000 then 1 else if 6000 < v then 2 else 0

/-- A change of the newest BELL_EVENT. -/
def State.onEvent0 (s : State) (f : BellEvent → BellEvent) : State :=
  { s with bell := { s.bell with events := vmod s.bell.events (0 : Fin 16) f } }

/-- The input has a voltage; a time within 41.0 V to 59.0 V, or below 59.0 V, can begin no earlier than it was last seen outside
(R403, R404, R415, Table 17-2). -/
def State.noteInput (s : State) (v : BitVec 16) : State :=
  let t := s.onBellStat fun x => { x with supply10mv := v }
  { t with bell := { t.bell with goodSince := if goodInput v then t.bell.goodSince else t.now
                                 highAt := if 5900 ≤ v.toNat then t.now else t.bell.highAt } }

/-- The band of the curve in force that an input voltage lies in (R406). -/
def State.bandOf (s : State) (v : Nat) : Option Nat := s.bands.findIdx? fun b => decide (b.lo ≤ v) && decide (v < b.hi)

/-- The event in progress sees the input in a band, or in none; a stay in a new band began after the input was last seen in another
(R407). -/
def SupplyEvent.sample (e : SupplyEvent) (band : Option Nat) (now : Nat) : SupplyEvent :=
  if e.band = band then { e with lastAt := now } else { e with band := band, bandAt := e.lastAt, lastAt := now }

/-- The event in progress sees an input voltage: its class only rises (R405). -/
def State.seeInput (s : State) (v : BitVec 16) : State :=
  let t := s.noteInput v
  match t.bell.event with
  | some e =>
    if e.past then t
    else
      let c := classOf v.toNat
      let t : State := { t with bell := { t.bell with event := some (e.sample (t.bandOf v.toNat) t.now) } }
      let t := t.onEvent0 fun x =>
        { x with cls := if x.cls < c then c else x.cls, min10mv := if v < x.min10mv then v else x.min10mv
                 max10mv := if x.max10mv < v then v else x.max10mv }
      t.onBellStat fun x => { x with classNow := if x.classNow < c then c else x.classNow }
  | none => t

/-- The time the bank holds up the RIDE load, microseconds: 0.9 of its energy above 42 V at 180 W (R408, R409). -/
def holdup (uF v : Nat) : Nat := uF * (v * v - 4200 * 4200) * 9 / (20 * 180 * 10000)

/-- The bank's capacitance: the last one measured, or the 1.5 mF the spec gives the bank (log entry 54). -/
def State.bankCap (s : State) : Nat := if s.bell.stat.bankUf = 0 then 1500 else s.bell.stat.bankUf.toNat

/-- The bank has a voltage: HOLDUP_US follows it, and an event in progress counts the energy that a fall of it gave
(R409, Table 16-15; log entry 54). -/
def State.seeBank (s : State) (v : BitVec 16) : State :=
  let t := s.onBellStat fun x => { x with bank10mv := v, holdupUs := satNat 32 (holdup s.bankCap v.toNat) }
  match t.bell.event with
  | some e =>
    if e.past then t
    else
      let was := s.bell.stat.bank10mv.toNat
      let d := e.drawn + s.bankCap * (was * was - v.toNat * v.toNat)
      ({ t with bell := { t.bell with event := some { e with drawn := d } } }).onEvent0 fun x =>
        { x with bankMj := satNat 16 (d / 20000000), bankMin10mv := if v < x.bankMin10mv then v else x.bankMin10mv }
  | none => t

/-- The span of a sub-array that holds the first fine sample at or after now (R411). -/
def State.spanNow (s : State) (i : SubId) : Nat := s.fineAt i s.time16 / spanLen

/-- An EVENT for every sub-array in ALIGN or OBSERVE. -/
def State.rideEvent (s : State) (code detail : Nat) : State :=
  (allFin 4).foldl (fun (t : State) i => if t.active i then t.subEvent i code (t.spanNow i) detail else t) s

/-- A job of the Baler in progress ends with FAULTED as the Baler is gated (R410). -/
def State.stopBaler (s : State) : State :=
  match s.move.baleRun with
  | some x =>
    let t : State := { s with move := { s.move with
      baleRun := none, bale := { s.move.bale with state := 0, failedOther := s.move.bale.failedOther + 1, lastDetail := 0 } } }
    if x.answered then t else t.finishCommand x.bench (Reply.plain stFaulted)
  | none => s

/-- The islands whose latest request is OFF. -/
def State.islandsOff (s : State) : BitVec 79 :=
  BitVec.ofNat 79 (maskOf 79 fun n => if h : n < 79 then !(s.island ⟨n, h⟩).target else false)

/-- RIDE is entered, or the event ridden in the mode it finds (R410, R431). -/
def State.enterRide (s : State) : State :=
  let m := s.mode
  let rides := m == modeProvision || m == modeAlign || m == modeObserve || m == modeWorkshop
  let t := { s with bell := { s.bell with rideAt := s.now, event := some {
      start := s.now, lastAt := s.now, offBefore := s.islandsOff, rodeFrom := if rides then some m else none } } }
  let t := t.onBellStat fun x =>
    { x with rides := x.rides + 1, rideSeen := x.rideSeen || rides, rideInHold := x.rideInHold || m == modeHold }
  let t := if rides then t.setMode modeRide else t
  (((t.abandonAll).stopBaler).runNow 2).rideEvent 1 0

/-- The work of SUPPLY_EVENT_BEGIN (R404, R410, R413): the input has lain outside 40 V to 60 V for 5 microseconds. An event that begins
before RIDE has ended joins the one in progress. -/
def State.supplyBegin (s : State) (v bank : BitVec 16) : State :=
  (if s.running ∧ s.start.reg.step ≠ 1 ∧ classOf v.toNat ≠ 0 then
    match s.bell.event with
    | some e =>
      if e.past then
        let t := s.seeBank bank
        let t := ({ t with bell := { t.bell with event := some { e with past := false } } } : State).onEvent0
          fun x => { x with inProgress := true, bankMin10mv := if bank < x.bankMin10mv then bank else x.bankMin10mv }
        (t.onBellStat fun x => { x with classNow := t.bell.events[0].cls }).seeInput v
      else s
    | none =>
      let t16 := s.time16
      let old := s.bell.events
      let fresh : BellEvent :=
        { inProgress := true, secLo := BitVec.ofNat 32 (secOf t16), secHi := BitVec.ofNat 16 (secOf t16 / 2 ^ 32)
          ns := BitVec.ofNat 30 (nsOf t16), min10mv := v, max10mv := v, bankMin10mv := bank }
      let t := { s with bell := { s.bell with events := Vector.ofFn fun k : Fin 16 =>
        if h : k.val = 0 then fresh else old[k.val - 1]'(by omega) } }
      (t.seeBank bank).enterRide.seeInput v
    else if s.bell.alive then s.noteInput v else s)

/-- SUPPLY_TRANSIENT (R404): an excursion shorter than 5 microseconds. -/
def execSupplyTransient (extreme : BitVec 16) (s : State) : Host.Outcome State Fault Refusal :=
  .next (if s.running ∧ classOf extreme.toNat ≠ 0 then
    (s.onBellStat fun x => { x with transients := x.transients + 1 }).raise srcSupplyTransient (extreme.setWidth 32)
    else s)

/-- SWELL_ISOLATE (R403): above 60 V the input switch opens; below 59 V for 1 ms it closes. -/
def execSwellIsolate (v : BitVec 16) (s : State) : Host.Outcome State Fault Refusal :=
  .next (if !s.bell.alive then s
    else if 6000 < v.toNat then (s.seeInput v).onBellStat fun x => { x with isolated := true }
    else if v.toNat < 5900 ∧ s.bell.highAt + 1000000 ≤ s.now then (s.seeInput v).onBellStat fun x => { x with isolated := false }
    else s.seeInput v)

/-- DROPOUT (R405): the input falls below 33.0 V during an event. -/
def execDropout (v bank : BitVec 16) (s : State) : Host.Outcome State Fault Refusal :=
  .next (if v.toNat < 3300 ∧ s.bell.alive then (s.seeInput v).seeBank bank else s)

/-- The record of the event in progress is completed and its Tally event raised (R404, R413). -/
def State.closeEvent (s : State) (e : SupplyEvent) : State :=
  let t := s.onEvent0 fun x => { x with inProgress := false, durationUs := satNat 32 ((s.now - e.start) / 1000) }
  let cls := t.bell.events[0].cls
  let t := t.onBellStat fun x => { x with classNow := 0 }
  let t := { t with bell := { t.bell with curve := t.bell.curveNext.getD t.bell.curve, curveNext := none } }
  if cls = 1 then t.raise srcSupplySag 0 else if cls = 2 then t.raise srcSupplySwell 0
  else if cls = 3 then t.raise srcSupplyDropout 0 else t.raise srcSupplyLoss 0

/-- SUPPLY_EVENT_END (R404, R413): the input has stayed within 41 V to 59 V for RECOVER_MS. -/
def execSupplyEventEnd (v bank : BitVec 16) (s : State) : Host.Outcome State Fault Refusal :=
  .next (match s.bell.event with
    | some e =>
      if !e.past ∧ goodInput v ∧ s.bell.goodSince + 1000000 * s.bell.cfg.recoverMs.toNat ≤ s.now then
        let t := ((s.seeInput v).seeBank bank).closeEvent e
        { t with bell := { t.bell with event := t.bell.event.map fun (x : SupplyEvent) => { x with past := true } } }
      else s
    | none => if s.bell.alive then s.noteInput v else s)

/-- RIDE_END (R412): the event has ended and the bank is at 90 V. -/
def execRideEnd (bank : BitVec 16) (s : State) : Host.Outcome State Fault Refusal :=
  .next (match s.bell.event with
    | some e =>
      if e.past ∧ 9000 ≤ bank.toNat then
        let cls := s.bell.events[0].cls
        let t := ((s.endRode).addRideMs).seeBank bank
        let t := ({ t with bell := { t.bell with event := none, running := t.bell.running.map (fun (q : SeqRun) => { q with since := t.now }) } })
        let t := t.restore e.offBefore
        let t := if t.bell.stat.rideInHold then (t.onBellStat fun x => { x with rideInHold := false }).setMode modeHold
          else
            match e.rodeFrom with
            | some m =>
              if t.mode ≠ modeRide then t
              else if m = modeWorkshop then
                if t.bench.workHolder.isSome then t.setMode modeWorkshop else (t.runNow 5).setMode modeStandby
              else
                let pm := if (allFin 4).any fun i => t.saState i == saObserve then modeObserve
                  else if (allFin 4).any fun i => t.saState i == saAlign then modeAlign else modeProvision
                t.setMode pm
            | none => t
        t.rideEvent 2 cls.toNat
      else s
    | none => s)

/-- The input makes the event LOSS (R407): the bank is at its floor, the input lies in no band and outside 40 V to 60 V, or
its stay in its band can have passed the band's limit. -/
def State.lossDue (s : State) (e : SupplyEvent) (v bank : Nat) : Bool :=
  decide (bank ≤ 4200) ||
    (classOf v != 0 &&
      match (s.bandOf v).bind fun k => s.bands[k]? with
      | some b => b.maxUs != 0xFFFFFFFF && decide ((e.sample (s.bandOf v) s.now).bandAt + 1000 * b.maxUs < s.now)
      | none => true)

/-- SUPPLY_LOSS (R407, R414). -/
def execSupplyLoss (v bank : BitVec 16) (s : State) : Host.Outcome State Fault Refusal :=
  .next (match s.bell.event with
    | some e =>
      if !e.past ∧ s.lossDue e v.toNat bank.toNat then
        let t := ((s.seeInput v).seeBank bank).onEvent0 fun x => { x with cls := 4 }
        (t.closeEvent e).shutdown 1
      else s
    | none => s)

/-- BANK_TEST (R409): the capacitance has been measured; not while an event is in progress. -/
def execBankTest (uF bank : BitVec 16) (s : State) : Host.Outcome State Fault Refusal :=
  let h := s.bell.cfg.bankTestH.toNat
  .next (if s.bell.alive ∧ s.bell.event.isNone ∧ 0 < h ∧ s.bell.lastTest + 3600000000000 * h ≤ s.now then
    let t := { s with bell := { s.bell with lastTest := s.now } }
    let t := t.onBellStat fun x => { x with bankUf := uF, bank10mv := bank, holdupUs := satNat 32 (holdup uF.toNat bank.toNat) }
    if uF.toNat < 1350 then (t.onBellStat fun x => { x with bankLowSeen := true }).raise srcBankLow (uF.setWidth 32) else t
    else s)

/-- SEQ_STEP's sequence reset of RAIL_SEQ (Table 16-12): the failing sequence is run again once. -/
def State.seqAgain (s : State) (id : Nat) : State :=
  if h : id < 6 then (if s.bell.running.isNone then s.beginSeq ⟨id, h⟩ .nothing else s) else s

end Sys2Proof.Machine
end

