-- ==== Sys2Proof/Machine/Budgets.lean ====
section
/-! DEFINITION. The budgets of OBS_CHECK (R14 to R17, R20, R21, R70, R113, R236, R348, R454), in exact rational arithmetic. -/

namespace Sys2Proof.Machine

/-- f_c, the coarse sample rate of a sub-array, Hz. -/
def State.coarseRate (s : State) (i : SubId) : Rat := (10 ^ 9 * 2 ^ 32 : Rat) / (s.obs[i].epoch.period32 : Rat)

/-- D of the direct mode, 1 otherwise. -/
def State.directD (s : State) (i : SubId) : Nat := s.decim i / s.fineLen i

/-- B, the processed bandwidth per input, Hz (R100). -/
def State.bandwidth (s : State) (i : SubId) : Rat := (s.coarse i : Rat) * s.coarseRate i / (s.directD i : Rat)

/-- The rate of coarse samples per input, D × B. -/
def State.inRate (s : State) (i : SubId) : Rat := (s.coarse i : Rat) * s.coarseRate i

/-- T_span, s. -/
def State.spanTime (s : State) (i : SubId) : Rat := (32768 * s.decim i : Nat) / s.coarseRate i

/-- N of a sub-array. -/
def State.nOf (s : State) (i : SubId) : Nat := 128 * s.nb i

/-- The bytes of the DRAM ledger a sub-array needs: none for an integration of one span (Table 01-2). -/
def State.ledgerBytes (s : State) (i : SubId) : Nat :=
  if s.ledger[i].cfg.intSpansM1 = 0 then 0 else s.fineChans i * s.positions i * 16384 * 16

/-- The bytes of one weight copy (R224). -/
def State.weightBytes (s : State) (i : SubId) : Nat := s.beams i * s.nOf i * s.weightGroups i * 2

/-- The bytes of the beam turn (R232). -/
def State.turnBytes (s : State) (i : SubId) : Nat :=
  if s.beams i = 0 then 0 else s.fineChans i * 131072 * s.beams i + s.fineChans i * 8192

/-- The bytes of the ring of bays (R135). -/
def State.ringBytes (s : State) (i : SubId) : Nat :=
  s.cellar[i].cfg.depth.toNat * s.nOf i * s.fineChans i * 32768 * s.sampleBytes i

/-! ### Lanes -/

/-- h of an ingress format (R70). -/
def FmtIn.overhead (f : FmtIn) : Rat :=
  let extra : Nat := if f.udp then 66 + (if f.wireIpv6 then 20 else 0) + (if f.wireTagged then 4 else 0) else 0
  let status : Rat := if f.statusEvery = 0 then 0 else ((80 + extra : Nat) : Rat) / (f.statusEvery : Rat)
  (((24 + extra : Nat) : Rat) + status) / ((2 * f.inputs * f.samples : Nat) : Rat)

/-- The largest h among the ingress formats of a sub-array. -/
def State.inOverhead (s : State) (i : SubId) : Rat :=
  (s.ingressFmts i).foldl (fun (a : Rat) f => if a < f.overhead then f.overhead else a) 0

/-- The bits per second of the ingress lanes: the enabled lanes of ingress octets that the formats of the defined
sub-arrays name (log entry 61). -/
def State.inCeiling (s : State) : Nat :=
  let mask := s.defined.foldl (fun (a : BitVec 16) i => (s.ingressFmts i).foldl (fun (b : BitVec 16) f => b ||| f.octetMask) a) 0
  (allFin 16).foldl (fun (a : Nat) o =>
    let c := (s.octet o).cfg
    if mask.getLsbD o.val && c.enable && !c.dir then a + popCount 8 c.laneEn.toNat * (if c.pers then 100 else 101) * 10 ^ 9 else a) 0

/-- The bits per second of the egress lanes. -/
def State.outCeiling (s : State) : Nat :=
  (allFin 16).foldl (fun (a : Nat) o =>
    let c := (s.octet o).cfg
    if c.enable && c.dir then a + popCount 8 c.laneEn.toNat * 100 * 10 ^ 9 else a) 0

/-- The overhead of one packet of a format with a payload of `n` bytes: 64 bytes of header, and the largest wire overhead
among the destination entries it can select (R454). -/
def State.packetOverhead (s : State) (f : FmtOut) (n : Nat) : Nat :=
  if s.fmt.addr.isEmpty then 130
  else
    let count := if f.destMode = 0 ∨ f.kind = 7 then 1 else f.destCount
    64 + (List.range count).foldl (fun (a : Nat) k =>
      let d := f.destBase + k
      let c := s.cfgOf (s.destPort d)
      let v6 := flagOf (s.destWord d 2) 23
      let tagged := flagOf (s.destWord d 0) 31
      max a (if c.pers then 66 + (if v6 then 20 else 0) + (if tagged then 4 else 0) else 16 + (8 - (64 + n) % 8) % 8)) 0

/-- The overheads of the packets that carry `total` values of `size` bytes, at most `per` of them in one. -/
def State.allOverhead (s : State) (f : FmtOut) (total per size : Nat) : Nat :=
  if per = 0 then 0
  else total / per * s.packetOverhead f (per * size) +
    if total % per = 0 then 0 else s.packetOverhead f (total % per * size)

/-- Bits per second of the streams of a sub-array's egress formats with their headers (R454). The metadata part of E_rec counts
one INTEGRATION packet of 40 bytes per integration, and no relayed packet and no EVENT: the spec gives no rate for these
(DESIGN CHOICE, log entry 61). -/
def State.outRate (s : State) (i : SubId) : Rat :=
  let ts := s.spanTime i
  let tint := (s.intSpans i : Rat) * ts
  let cf := s.fineChans i
  let n := s.nOf i
  let up (a b : Nat) : Nat := if b = 0 then 0 else (a + b - 1) / b
  let vis : Rat := (s.egressFmts i 2).foldl (fun (a : Rat) e =>
    let size := if e.2.exact then 16 else 8
    let per := e.2.payloadMax / size
    let extra := (s.positions i - s.nb i) * s.allOverhead e.2 16384 per size + s.nb i * s.allOverhead e.2 8256 per size
    a + 8 * ((cf * n * (n + 1) / 2 * size + cf * extra : Nat) : Rat) / tint) 0
  let beam (kind v : Nat) (rate : Rat) : Rat := (s.egressFmts i kind).foldl (fun (a : Rat) e =>
    let row := e.2.countB * v
    a + 8 * (rate + rate / ((cf * row : Nat) : Rat) * (s.allOverhead e.2 cf e.2.countA row : Rat))) 0
  let groups := up cf (2 ^ s.ledger[i].cfg.wrecGroupLog2.toNat)
  let recs : Rat := (s.egressFmts i 5).foldl (fun (a : Rat) e =>
    a + 8 * ((s.nb i * (groups * 512 + s.allOverhead e.2 groups e.2.countA 512) : Nat) : Rat) / ts) 0
  let meta' : Rat := (s.egressFmts i 7).foldl (fun (a : Rat) e => a + 8 * ((40 + s.packetOverhead e.2 40 : Nat) : Rat) / tint) 0
  let coherent : Rat := (s.beams i : Rat) * s.bandwidth i * 2
  let power : Rat := (s.beams i : Rat) * s.bandwidth i * 4 / (s.sumLen i : Rat)
  vis + beam 3 2 coherent + beam 4 4 power + recs + meta'

/-! ### Front end (R100, R113) -/

/-- RATE of a sub-array's kernel, coarse samples per second; zero where it is not resident. -/
def State.kernelRate (s : State) (i : SubId) : Nat :=
  match s.kernel s.front.mill[i].kernelId.toNat with
  | some k => k.rate * 1000000
  | none => 0

/-- C_s of a sub-array: the smaller of the Sieve's ceiling and the kernel's rate. -/
def State.frontCeiling (s : State) (i : SubId) : Rat :=
  let c := s.sieve[i].cfg
  let sieve : Rat := if c.firMode then
      132000000000 * 16 / ((max 16 (ceilDiv (c.dtapsM1.toNat + 1) (c.decimM1.toNat + 1)) : Nat) : Rat)
    else 132000000000
  let k : Rat := (s.kernelRate i : Rat)
  if k < sieve then k else sieve

/-- The load of a slice; none where a sub-array's ceiling on it is zero. -/
def State.sliceLoad (s : State) (sl : SliceId) : Option Rat :=
  s.defined.foldl (fun (a : Option Rat) i =>
    let n := 128 * (s.blocksOn i sl).length
    if n = 0 then a
    else if s.frontCeiling i = 0 then none
    else a.map fun x => x + (n : Rat) * s.inRate i / s.frontCeiling i) (some 0)

/-- The engines of a slice that no sub-array in ALIGN or OBSERVE holds. -/
def State.freeEngines (s : State) (sl : SliceId) : Nat := ((enginesOf sl).filter fun e => (s.engine e).stat.state == 0).length

/-- The engines of every defined sub-array outside ALIGN and OBSERVE can be assigned beside the assigned ones (R113). -/
def State.enginesFit (s : State) : Bool :=
  (allFin 4).all fun sl =>
    match s.defined.foldl (fun (a : Option Nat) i =>
      if s.active i then a
      else
        match a, s.enginesFor i sl (s.kernelRate i / 1000000) with
        | some n, some k => some (n + k)
        | _, _ => none) (some 0) with
    | some n => decide (n ≤ s.freeEngines sl)
    | none => false

/-! ### The nine budgets -/

/-- The plan a sub-array enters the budgets with (R14): the staged one of the sub-array checked, the pending one, or the one
in force. -/
def State.nextPlan (s : State) (i : SubId) (staged : Option (SubId × Plan)) : Option Plan :=
  match staged with
  | some (j, p) => if j = i then some p else (match s.loom[i].planNext with
    | some q => some q
    | none => s.loom[i].plan)
  | none => match s.loom[i].planNext with
    | some q => some q
    | none => s.loom[i].plan

/-- The present logical tiles of a mask. -/
def State.presentIn (s : State) (m : BitVec 40) : Nat := ((List.range 40).filter fun n => m.getLsbD n && s.isHeld n).length

/-- A usage over a ceiling; none where the ceiling is zero. -/
abbrev Load := Option Rat

/-- LOOM_CORR of a sub-array. -/
def State.corrBudget (s : State) (i : SubId) (p : Option Plan) : Load :=
  let tc := match p with
    | some q => s.presentIn q.corr
    | none => 0
  let m : Rat := if s.cellar[i].cfg.format then 4 else 1
  if tc = 0 then none else some (m * (s.positions i : Rat) * s.bandwidth i / ((tc : Rat) * 1650000000))

/-- LOOM_BEAM of a sub-array with beams. -/
def State.beamBudget (s : State) (i : SubId) (p : Option Plan) : Load :=
  let k := match p with
    | some q => s.presentIn q.beam
    | none => 0
  if k = 0 then none
  else some (((s.beams i + 7) / 8 * 8 : Nat) * (s.nOf i : Rat) * s.bandwidth i / ((k : Rat) * 16384 * 1650000000))

/-- The largest of some loads; none where one has a zero ceiling. -/
def maxLoad (ls : List Load) : Load :=
  ls.foldl (fun (a : Load) b => match a, b with
    | some x, some y => some (if x < y then y else x)
    | _, _ => none) (some 0)

/-- The outcome of a check: the nine usages and DETAIL. -/
structure BudgetCheck where
  words  : List Word
  detail : Nat
  deriving DecidableEq, Repr

/-- A usage as parts per 10,000 of its ceiling, rounded down (R348). -/
def usageWord (l : Load) : Word :=
  match l with
  | some x => satNat 32 (x * 10000).floor.toNat
  | none => 0xFFFFFFFF

/-- A load exceeds a limit. -/
def Load.exceeds (l : Load) (limit : Rat) : Bool :=
  match l with
  | some x => decide (limit < x)
  | none => true

/-- A usage over a ceiling as a load. -/
def loadOf (use ceiling : Rat) : Load := if ceiling = 0 then none else some (use / ceiling)

/-- A sum over the defined sub-arrays. -/
def State.sumDefined (s : State) (f : SubId → Rat) : Rat := s.defined.foldl (fun (a : Rat) i => a + f i) 0

/-- The bytes of frozen bays kept as CAPTURE regions (R147). -/
def State.captureBytes (s : State) : Nat := s.gran.regions.foldl (fun (a : Nat) r => if r.kind = 5 then a + r.bytes else a) 0

/-- OBS_CHECK's evaluation (R14, R348). -/
def State.budgets (s : State) (staged : Option (SubId × Plan)) : BudgetCheck :=
  let inUse := s.sumDefined fun i => (s.nOf i : Rat) * s.inRate i * 16 * (1 + s.inOverhead i)
  let outUse := s.sumDefined fun i => s.outRate i
  let front := maxLoad ((allFin 4).map fun sl => s.sliceLoad sl)
  let corrs := s.defined.map fun i => s.corrBudget i (s.nextPlan i staged)
  let beams := (s.defined.filter fun i => s.beams i != 0).map fun i => s.beamBudget i (s.nextPlan i staged)
  let sram := s.sumDefined fun i => ((2 * s.positions i * 16384 * 12 : Nat) : Rat)
  let rate := s.sumDefined fun i =>
    let sp : Nat := match s.nextPlan i staged with
      | some p => s.slicesOf i p
      | none => 1
    ((4 * s.positions i * sp : Nat) : Rat) * s.bandwidth i
  let stream := s.sumDefined fun i =>
    ((2 * s.nOf i * s.sampleBytes i : Nat) : Rat) * s.bandwidth i + 2 * (s.ledgerBytes i : Rat) / s.spanTime i
  let bw := (stream + 16000000000) * 32 / 31
  let peak : Rat := 2730700000000
  let cap := (s.sumDefined fun i => ((s.ringBytes i + s.ledgerBytes i + 2 * s.weightBytes i : Nat) : Rat)) +
    ((2 ^ 30 + s.captureBytes : Nat) : Rat)
  let room : Rat := 1984 * 2 ^ 30
  let turnBw := s.sumDefined fun i => ((4 * s.beams i : Nat) : Rat) * s.bandwidth i
  let turnCap := s.sumDefined fun i => (s.turnBytes i : Rat)
  let fetch := s.sumDefined fun i => (s.weightBytes i : Rat) / s.spanTime i
  let ls : List (Load × Rat) :=
    [(loadOf inUse s.inCeiling, 95 / 100), (loadOf outUse s.outCeiling, 95 / 100), (front, 1), (maxLoad corrs, 1),
     (maxLoad beams, 1), (loadOf sram (224 * 2 ^ 20), 1), (loadOf rate 384000000000, 1), (loadOf bw peak, 85 / 100),
     (loadOf cap room, 1)]
  let failing := maskOf 9 fun k => match ls[k]? with
    | some (l, limit) => (l.exceeds limit && !(k == 0 && decide (inUse = 0)) && !(k == 1 && decide (outUse = 0))) ||
        (k == 2 && !s.enginesFit)
    | none => false
  let margin := (corrs ++ beams).any fun l => match l with
    | some x => decide (15 / 16 < x) && decide (x ≤ 1)
    | none => false
  let turn := (s.defined.any fun i => s.beams i != 0) &&
    (decide (85 / 100 * peak < bw + turnBw * 32 / 31) || decide (room < cap + turnCap))
  { words := ls.map fun l => usageWord l.1
    detail := failing + (if margin then 2 ^ 16 else 0) + (if turn then 2 ^ 17 else 0) + (if 8000000000 < fetch then 2 ^ 18 else 0) }

/-- A check fails: some DETAIL bit other than NO_MARGIN is set (R348). -/
def BudgetCheck.fails (c : BudgetCheck) : Bool := c.detail &&& (2 ^ 32 - 1 - 2 ^ 16) != 0

end Sys2Proof.Machine
end

