-- ==== Sys2Proof/Machine/Sessions.lean ====
section
/-! DEFINITION. Sessions and leases (R322 to R327, R332), and what their end brings. -/

namespace Sys2Proof.Machine

/-! ### Leases (Table 12-8) -/

/-- The bench that holds an exclusive lease of a class and, for OBSERVATION, a sub-array. -/
def State.leaseHolder (s : State) (cls : Nat) (i : SubId) : Option BenchId :=
  match cls with
  | 1 => s.bench.obsHolder[i]
  | 3 => s.bench.timeHolder
  | 4 => s.bench.storeHolder
  | 5 => s.bench.workHolder
  | _ => none

/-- A bench holds a lease of a class. -/
def State.holdsClass (s : State) (b : BenchId) (cls : Nat) (i : SubId) : Bool :=
  if cls = 2 then (s.benchOf b).monitor else s.leaseHolder cls i == some b

/-- The holder of a class changes; for MONITOR, what the bench holds. -/
def State.setHolder (s : State) (b : BenchId) (cls : Nat) (i : SubId) (on : Bool) : State :=
  let h : Option BenchId := if on then some b else none
  match cls with
  | 1 => { s with bench := { s.bench with obsHolder := vset s.bench.obsHolder i h } }
  | 2 => s.onBench b fun x => { x with monitor := on }
  | 3 => { s with bench := { s.bench with timeHolder := h } }
  | 4 => { s with bench := { s.bench with storeHolder := h } }
  | 5 => { s with bench := { s.bench with workHolder := h } }
  | _ => s

/-- The key of a bench's session may hold a class (R322); the PCI Express benches have no key. -/
def State.keyMay (s : State) (b : BenchId) (cls : Nat) : Bool :=
  if b.val < 2 then true
  else
    let w := if (s.benchOf b).stat.keySlot.toNat < 4 then s.bench.mgmt[(0 : Fin 2)].keyClasses.toNat
      else s.bench.mgmt[(0 : Fin 2)].keyClasses.toNat / 2 ^ 32
    (w >>> (8 * ((s.benchOf b).stat.keySlot.toNat % 4))).testBit (cls - 1)

/-- HEARTBEAT and a grant renew every lease of a bench (R326). -/
def State.renew (s : State) (b : BenchId) : State := s.onBench b fun x => { x with lastHb := s.now, warned := false }

/-- The lease of Table 13-7: OBSERVATION of the sub-array for the classes that name one (the address table is begun
under any sub-array the bench holds), WORKSHOP for SEQ and HASH, and any OBSERVATION or WORKSHOP for the rest. -/
def State.mayTable (s : State) (b : BenchId) (cls : Nat) (i : SubId) : Bool :=
  if cls = 1 ∨ cls = 3 ∨ cls = 6 ∨ cls = 8 ∨ cls = 9 then s.holdsObs b i
  else if cls = 4 ∨ cls = 10 then s.holdsWork b
  else s.holdsAnyObs b || s.holdsWork b

/-- A transaction ends: its staging space is free again (R344). -/
def State.dropTxn (s : State) (b : BenchId) : State :=
  match (s.benchOf b).txn with
  | some x => (({ s with mem := s.mem.zero x.addr x.room }).onBench b fun y => { y with txn := none })
  | none => s

/-- A bench's transaction is aborted once the bench lacks its lease (R327, R344). -/
def State.checkTxn (s : State) (b : BenchId) : State :=
  match (s.benchOf b).txn with
  | some x => if s.mayTable b x.cls (x.sub.getD 0) then s else s.dropTxn b
  | none => s

/-- The lapse of WORKSHOP in mode WORKSHOP: the module goes to STANDBY (R327, Table 16-9). RELEASE and the close of a
session act as the lapse does (log entry 60). -/
def State.workLost (s : State) : State :=
  if s.bench.workHolder.isNone ∧ s.mode = modeWorkshop ∧ s.bell.running.isNone then s.beginSeq 5 (.mode modeStandby none) else s

/-- One lease of a bench ends (R327). -/
def State.dropLease (s : State) (b : BenchId) (cls : Nat) (i : SubId) : State :=
  if s.holdsClass b cls i then
    let t := (s.setHolder b cls i false).checkTxn b
    if cls = 5 then t.workLost else t
  else s

/-- Every lease of a bench ends (R326, R327). -/
def State.dropLeases (s : State) (b : BenchId) : State :=
  let t := (allFin 4).foldl (fun (u : State) i => u.dropLease b 1 i) s
  [2, 3, 4, 5].foldl (fun (u : State) c => u.dropLease b c 0) t

/-- Tenths of a second since a bench's last HEARTBEAT or grant, saturating; zero for a bench that never had one. -/
def State.sinceHb (s : State) (b : BenchId) : Nat :=
  let h := (s.benchOf b).lastHb
  if h = 0 then 0 else min 0xFFFF ((s.now - h) / 100000000)

/-- BNCH_LEASES as it reads (Table 12-15). -/
def State.leaseWords (s : State) : List Word :=
  let h (o : Option BenchId) : BitVec 3 := match o with
    | some b => BitVec.ofNat 3 b.val
    | none => 7
  let obs (i : SubId) : Word := putAt (h s.bench.obsHolder[i]) (4 * i.val)
  let mon (b : BenchId) : Word := bitAt (s.benchOf b).monitor (28 + b.val)
  [obs 0 ||| obs 1 ||| obs 2 ||| obs 3 ||| putAt (h s.bench.timeHolder) 16 ||| putAt (h s.bench.storeHolder) 20 |||
    putAt (h s.bench.workHolder) 24 ||| mon 0 ||| mon 1 ||| mon 2 ||| mon 3] ++
  ((allFin 4).map fun b => putAt (s.benchOf b).timeoutS 0 ||| putAt (BitVec.ofNat 16 (s.sinceHb b)) 16) ++ [s.bench.lapses]

/-! ### The check of every beat (R326) -/

/-- One bench at a beat: LEASE_WARN past half its timeout, and lapse past the whole. -/
def State.checkLease (s : State) (b : BenchId) : State :=
  let x := s.benchOf b
  if !s.holdsAny b then s
  else
    let gone := s.now - x.lastHb
    let limit := 1000000000 * x.timeoutS.toNat
    if limit < gone then
      let t := { s with bench := { s.bench with lapses := s.bench.lapses + 1 } }
      ((t.dropLeases b).setIrq b irqLeaseLapsed).raise srcBenchLapse (BitVec.ofNat 32 b.val)
    else if limit < 2 * gone ∧ !x.warned then (s.onBench b fun y => { y with warned := true }).setIrq b irqLeaseWarn
    else s

/-- What each bench raises once per beat (chapter 12): a PROTO_CODE recorded, an AUTH_FAIL counted. -/
def State.benchBeat (s : State) (b : BenchId) : State :=
  let x := s.benchOf b
  let t := s.onBench b fun y => { y with protoSeen := false, authSeen := false }
  let t := if x.protoSeen then t.raise srcBenchProto (BitVec.ofNat 32 b.val) else t
  if x.authSeen then t.raise srcBenchAuth (BitVec.ofNat 32 b.val) else t

/-! ### Sessions (R323, R324) -/

/-- The rest of a closed session no longer waits for anything: what executes goes on without a reply (R323). -/
def State.muteBench (s : State) (b : BenchId) : State :=
  let mute (a : AfterSeq) : AfterSeq := match a with
    | .mode m (some c) => if c = b then .mode m none else a
    | x => x
  { s with
    bell := { s.bell with running := s.bell.running.map fun q => { q with after := mute q.after } }
    move := { s.move with baleRun := s.move.baleRun.map fun x => if x.bench = b then { x with answered := true } else x }
    tiles := { s.tiles with tiles := s.tiles.tiles.map fun t =>
      if (t.asked.map fun a => a.1) == some b then { t with asked := none } else t } }

/-- A session closes (R323): its leases end, its transaction is aborted, its queued commands are discarded, and the rings
are empty. -/
def State.closeSession (s : State) (b : BenchId) : State :=
  let t := ((s.dropLeases b).dropTxn b).muteBench b
  t.onBench b fun x =>
    { x with
      post := [], replies := [], held := [], stored := [], executing := none, lastSeq := 0, ownSeq := 0, peer := none
      notifyAt := none, warned := false
      stat := { x.stat with isOpen := false, keySlot := 0, sessionId := 0, postTail := 0, postHead := 0, replyHead := 0, replyTail := 0 } }

/-- The least word at or above a start, in `n` tries, that is neither zero nor used since the always-on island powered up. -/
def freshId (used : List Word) (w : Word) : Nat → Word
  | 0 => w
  | n + 1 => if w = 0 ∨ used.contains w then freshId used (w + 1) n else w

/-- A new session of a management-port bench repeats NOTIFY while enabled bits are still set (R321). SESSION_ID is nonzero and unused, and otherwise a free value (R324; log entry 3). -/
def State.openSession (s : State) (b : BenchId) (slot : Fin 8) : State :=
  let id := freshId s.bench.usedIds s.freeWord (s.bench.usedIds.length + 2)
  let t := (s.drawn).onBench b fun x =>
    { x with lastDgram := s.now
             notifyAt := if 2 ≤ b.val ∧ x.stat.irqStatus &&& x.stat.irqEnable ≠ 0 then some (s.now + 1000000000) else none
             stat := { x.stat with isOpen := true, keySlot := BitVec.ofNat 3 (if b.val < 2 then 0 else slot.val), sessionId := id } }
  { t with bench := { t.bench with usedIds := id :: t.bench.usedIds } }

/-- SESSION_IDLE_CLOSE (R323): a management-port session holds no lease and has received no datagram for 10 s. -/
def State.idleClose (s : State) (p : PortId) : State :=
  let b := portBench p
  let x := s.benchOf b
  if x.stat.isOpen ∧ !s.holdsAny b ∧ x.lastDgram + 10000000000 ≤ s.now then s.closeSession b else s

end Sys2Proof.Machine
end

