-- ==== Sys2Proof/Machine/Observe.lean ====
section
/-! DEFINITION. What the observation commands do to a sub-array: definition, arming, start, stop, drains, resyncs and
the steering requests (R89, R94, R101 to R107, R143, R148, R199 to R202, R227, R263, R285, R346 to R353). -/

namespace Sys2Proof.Machine

/-! ### Definition (R347) -/

/-- What OBS_DEFINE carries (Table 13-10). -/
structure ObsParams where
  sub    : SubId
  format : Bool
  fir    : Bool
  pLog2  : Nat
  taps   : Nat
  decimM1 : Nat
  dtapsM1 : Nat
  depth  : Nat
  mask   : Nat
  coarse : Nat
  intM1  : Nat
  wgroup : Nat
  beams  : Nat
  sumM1  : Nat
  /-- EPOCH in 2^-16 ns. -/
  epoch  : Nat
  periodFrac : Nat
  periodNs   : Nat
  deriving DecidableEq, Repr

/-- n_b. -/
def ObsParams.nb (d : ObsParams) : Nat := popCount 32 d.mask
/-- N. -/
def ObsParams.n (d : ObsParams) : Nat := 128 * d.nb
/-- b. -/
def ObsParams.b (d : ObsParams) : Nat := if d.format then 2 else 1
/-- C_f. -/
def ObsParams.cf (d : ObsParams) : Nat := d.coarse * 2 ^ d.pLog2
/-- Coefficients: M × P or T (R101). -/
def ObsParams.coefs (d : ObsParams) : Nat := if d.fir then d.dtapsM1 + 1 else d.taps * 2 ^ d.pLog2
/-- P, the block positions. -/
def ObsParams.positions (d : ObsParams) : Nat := d.nb * (d.nb + 1) / 2
/-- The bytes of a bay (R135). -/
def ObsParams.bay (d : ObsParams) : Nat := d.n * d.cf * 32768 * d.b
/-- The bytes of the DRAM ledger (R196). -/
def ObsParams.ledger (d : ObsParams) : Nat := if d.intM1 = 0 then 0 else d.cf * d.positions * 16384 * 16
/-- The bytes of a weight copy (R224). -/
def ObsParams.weights (d : ObsParams) : Nat := d.beams * d.n * ((d.cf + 2 ^ d.wgroup - 1) / 2 ^ d.wgroup) * 2
/-- The bytes of the turn (R232). -/
def ObsParams.turn (d : ObsParams) : Nat := if d.beams = 0 then 0 else d.cf * 131072 * d.beams + d.cf * 8192
/-- The bytes of an SRAM set (R193). -/
def ObsParams.setBytes (d : ObsParams) : Nat := d.positions * 16384 * 12

/-- The other defined sub-arrays. -/
def State.others (s : State) (i : SubId) : List SubId := s.defined.filter fun j => j != i

/-- The fields of Table 13-10 that are out of range, and the refusals of R347 and R216 with BAD_PARAM. -/
def State.badDefine (s : State) (d : ObsParams) : Bool :=
  decide (d.mask = 0) || ((s.others d.sub).any fun j => decide (s.cellar[j].cfg.blockMask.toNat &&& d.mask ≠ 0)) ||
  decide (d.pLog2 < 6 ∨ 12 < d.pLog2) || decide (d.coarse = 0) ||
  (!d.fir && decide (d.decimM1 ≠ 0 ∨ d.dtapsM1 ≠ 0 ∨ d.taps = 0 ∨ 16 < d.taps)) || (d.fir && decide (d.taps ≠ 0)) ||
  decide (2 ^ 24 < d.cf) || decide (d.periodFrac = 0 ∧ d.periodNs = 0) || decide (d.depth < 2 ∨ 8 < d.depth) ||
  decide (6 < d.wgroup) || decide (d.beams % 8 ≠ 0) || decide (d.beams * d.nb % 128 ≠ 0) ||
  (d.format && decide (d.beams ≠ 0))

/-- The blocks of a mask on a slice. -/
def maskOn (mask : Nat) (sl : SliceId) : Nat := ((List.range 32).filter fun b => mask.testBit b && b % 4 == sl.val).length

/-- R87: a slice would hold more than 65,536 streams. -/
def State.tooManyStreams (s : State) (d : ObsParams) : Bool :=
  (allFin 4).any fun sl =>
    decide (65536 < 128 * maskOn d.mask sl * d.coarse +
      (s.others d.sub).foldl (fun (a : Nat) j => a + 128 * (s.blocksOn j sl).length * s.coarse j) 0)

/-- The coefficients of a defined sub-array. -/
def State.coefsOf (s : State) (i : SubId) : Nat :=
  let c := s.sieve[i].cfg
  if c.firMode then c.dtapsM1.toNat + 1 else c.taps.toNat * 2 ^ c.pLog2.toNat

/-- Every way to put a value into a list. -/
def insertions {α : Type} (x : α) : List α → List (List α)
  | [] => [[x]]
  | y :: ys => (x :: y :: ys) :: (insertions x ys).map fun l => y :: l

/-- The orders of a list. -/
def orders {α : Type} : List α → List (List α)
  | [] => [[]]
  | x :: xs => (orders xs).flatMap fun l => insertions x l

/-- COEF_BASE of the sub-array being defined, and of those that move for it (R101): none where no run can be made. -/
def State.placeCoefs (s : State) (d : ObsParams) : Option (List (SubId × Nat)) :=
  let at' (j : SubId) : Nat × Nat := (s.sieve[j].cfg.coefBase.toNat, s.coefsOf j)
  let others := s.others d.sub
  match fitIn (others.map at') d.coefs 65536 with
  | some b => some [(d.sub, b)]
  | none =>
    let fixed := (others.filter fun j => s.active j).map at'
    let loose := (d.sub, d.coefs) :: (others.filter fun j => !s.active j).map fun j => (j, s.coefsOf j)
    (orders loose).findSome? fun o => placeAll 65536 o fixed []

/-- GAIN_GROUP_LOG2 (R130). -/
def State.gainGroup (s : State) (d : ObsParams) : Option Nat :=
  let entries (n cf g : Nat) : Nat := 128 * n * ((cf + 2 ^ g - 1) / 2 ^ g)
  (List.range 7).find? fun g => (allFin 4).all fun sl =>
    decide (entries (maskOn d.mask sl) d.cf g + (s.others d.sub).foldl (fun (a : Nat) j =>
      a + entries (s.blocksOn j sl).length (s.fineChans j) s.front.assay[j].cfg.gainGroupLog2.toNat) 0 ≤ 4194304)

/-- R216: too many beams, or too many beams times inputs. -/
def State.tooManyBeams (s : State) (d : ObsParams) : Bool :=
  decide (1024 < d.beams + (s.others d.sub).foldl (fun (a : Nat) j => a + s.beams j) 0) ||
  decide (4194304 < d.beams * d.n + (s.others d.sub).foldl (fun (a : Nat) j => a + s.beams j * s.nOf j) 0)

/-! ### Regions (R263, R264) -/

/-- The frozen bays of a sub-array as CAPTURE regions, neighbours in one region. -/
def State.captureRegions (s : State) (i : SubId) : List Region :=
  let c := s.cellar[i].cfg
  (s.cellar[i].bays.zipIdx.filter fun e => e.1.frozen).foldl (fun (rs : List Region) e =>
    let a := c.base.toNat + e.2 * c.bayBytes.toNat
    match rs.getLast? with
    | some r => if r.base + r.bytes = a then rs.dropLast ++ [{ r with bytes := r.bytes + c.bayBytes.toNat }]
      else rs ++ [⟨5, i.val, a, c.bayBytes.toNat⟩]
    | none => [⟨5, i.val, a, c.bayBytes.toNat⟩]) []

/-- The regions once a sub-array's are freed: its frozen bays stay as CAPTURE (R264). -/
def State.freedRegions (s : State) (i : SubId) : List Region :=
  (s.captureRegions i).foldl (fun (rs : List Region) r => putRegion rs r)
    (s.gran.regions.filter fun (r : Region) => !(r.sub == i.val && decide (1 ≤ r.kind ∧ r.kind ≤ 4)))

/-- One region is placed: none of zero bytes, nothing where no run is free. -/
def placeRegion (rs : List Region) (kind : Nat) (i : SubId) (bytes : Nat) (low : Bool) : Option (List Region × Nat) :=
  if bytes = 0 then some (rs, 0)
  else
    let n := up2M bytes
    (if low then firstFit rs n else highFit rs n).map fun b => (putRegion rs ⟨kind, i.val, b, n⟩, b)

/-- The regions with those of a definition, and the bases of CELLAR, LEDGER, WEIGHT and TURN (R263). -/
def State.placeRegions (s : State) (d : ObsParams) : Option (List Region × Nat × Nat × Nat × Nat) :=
  match placeRegion (s.freedRegions d.sub) 1 d.sub (d.depth * d.bay) true with
  | none => none
  | some (r1, a) =>
    match placeRegion r1 2 d.sub d.ledger false with
    | none => none
    | some (r2, b) =>
      match placeRegion r2 3 d.sub (2 * d.weights) false with
      | none => none
      | some (r3, c) => (placeRegion r3 4 d.sub d.turn false).map fun e => (e.1, a, b, c, e.2)

/-! ### Ledger SRAM (R193; log entry 62) -/

/-- The bytes of the two SRAM sets of a sub-array. -/
def State.sramBytes (s : State) (i : SubId) : Nat := 2 * s.ledger[i].cfg.setBytes.toNat

/-- The sub-arrays that keep their SRAM place: those in ALIGN or OBSERVE, and of the others each that meets none before it. -/
def State.sramStay (s : State) : List (SubId × Nat × Nat) :=
  let at' (j : SubId) : SubId × Nat × Nat := (j, s.ledger[j].cfg.sramBase.toNat, s.sramBytes j)
  (s.defined.filter fun j => !s.active j).foldl (fun (l : List (SubId × Nat × Nat)) j =>
    let e := at' j
    if e.2.1 + e.2.2 ≤ 0xE000000 ∧ !(l.any fun o => overlaps e.2.1 e.2.2 o.2.1 o.2.2) then l ++ [e] else l)
    ((s.defined.filter fun j => s.active j).map at')

/-- The SRAM places of every defined sub-array. Where their sets do not fit the SRAM together, which OBS_ARM refuses (R349), those
that find no place have base 0. -/
def State.sramPlaces (s : State) : List (SubId × Nat) :=
  let stay := s.sramStay
  let move := (s.defined.filter fun j => !(stay.any fun e => e.1 == j)).map fun j => (j, s.sramBytes j)
  (layout 0xE000000 stay move).getD ((stay.map fun e => (e.1, e.2.1)) ++ move.map fun e => (e.1, 0))

/-- The SRAM sets of every defined sub-array have their places; sets that move keep what they hold. -/
def State.laySram (s : State) : State :=
  let places := s.sramPlaces
  let moved := places.filter fun e => e.2 != s.ledger[e.1].cfg.sramBase.toNat
  let spans := moved.map fun e => (ledgerBase + s.ledger[e.1].cfg.sramBase.toNat, s.sramBytes e.1, ledgerBase + e.2)
  moved.foldl (fun (t : State) e => t.onLedger e.1 fun x => { x with cfg := { x.cfg with sramBase := BitVec.ofNat 28 e.2 } })
    { s with mem := s.mem.move (spans.filter fun e => e.2.1 != 0) }

/-- Shelf regions and SRAM sets of every defined sub-array. -/
def State.layAll (s : State) : State := s.layShelf.laySram

/-! ### The effect of OBS_DEFINE -/

/-- The tables of a sub-array that OBS_DEFINE discards: PLAN, COEF, WEIGHT and DELAY. -/
def State.forgetTables (s : State) (i : SubId) : State :=
  let ofSub (e : TableEntry) : Bool :=
    ((e.cls = 3 ∨ e.cls = 6 ∨ e.cls = 8) && e.identity.toNat == i.val) || (e.cls = 9 && e.identity.toNat / 256 == i.val)
  { s with tables := s.tables.filter fun e => !ofSub e }

/-- Coefficients of both banks move with their regions (R101). -/
def State.moveCoefs (s : State) (moves : List (SubId × Nat)) : State :=
  let old (j : SubId) : Nat := s.sieve[j].cfg.coefBase.toNat
  let bank (m : SMap Int) : SMap Int :=
    let cleared := moves.foldl (fun (a : SMap Int) e => SMap.clear a (old e.1) (old e.1 + s.coefsOf e.1)) m
    moves.foldl (fun (a : SMap Int) e => SMap.setRange 0 a e.2 (SMap.getRange 0 m (old e.1) (s.coefsOf e.1))) cleared
  let t := moves.foldl (fun (u : State) e =>
    u.onSieve e.1 fun x => { x with cfg := { x.cfg with coefBase := BitVec.ofNat 16 e.2 } }) s
  { t with front := { t.front with banks := t.front.banks.map bank } }

/-- The plan of a sub-array is gone. -/
def State.dropPlan (s : State) (i : SubId) : State :=
  (((s.onLoom i fun x => { x with plan := none, planNext := none }).showTiles).retireStray).showAll

/-- The records and memories of a defined sub-array (R347). ASSY_CFG.CURVE_ID stays as it is, whatever FORMAT the definition
gives: see `State.usedCurve` for the curve that then applies (log entry 74). -/
def State.writeDefine (s : State) (d : ObsParams) (coef gain : Nat) (regions : List Region) (a b c e : Nat) : State :=
  let i := d.sub
  let gainFill := s.front.assay[i].cfg.defaultGain
  let t : State := { s with
    gran := { s.gran with regions := regions }
    mem := s.mem.zero c (2 * d.weights)
    front := { s.front with mill := vmod s.front.mill i fun x => { x with kernelId := BitVec.ofNat 8 d.pLog2 } } }
  let t := t.onObs i fun x =>
    { x with state := saDefined
             epoch := { epochSecLo := BitVec.ofNat 32 (secOf d.epoch), epochSecHi := BitVec.ofNat 16 (secOf d.epoch / 2 ^ 32)
                        epochFrac := BitVec.ofNat 16 (fracOf d.epoch), epochNs := BitVec.ofNat 30 (nsOf d.epoch)
                        periodFrac := BitVec.ofNat 32 d.periodFrac, periodNs := BitVec.ofNat 16 d.periodNs } }
  let t := t.onSieve i fun x =>
    let left := x.stat.frozenBlocks.toNat &&& d.mask
    { x with
      cfg := { x.cfg with
        firMode := d.fir, pLog2 := BitVec.ofNat 4 d.pLog2, taps := BitVec.ofNat 5 d.taps, decimM1 := BitVec.ofNat 6 d.decimM1
        dtapsM1 := BitVec.ofNat 9 d.dtapsM1, coefBase := BitVec.ofNat 16 coef, coarseChannels := BitVec.ofNat 16 d.coarse }
      bankFull := Vector.replicate 2 false, frozen := [(0, left)]
      stat := { x.stat with standbyValid := false, frozenBlocks := BitVec.ofNat 32 left } }
  let t := t.onAssay i fun x =>
    { x with cfg := { x.cfg with format := d.format, gainGroupLog2 := BitVec.ofNat 3 gain }
             fill := gainFill, active := [], shadow := [], gainAt := none
             stat := { x.stat with gainPending := false } }
  let t := t.onAssay i fun x => { x with stat := { x.stat with masked := BitVec.ofNat 32 (t.maskedGroups i []) } }
  let t := t.onCellar i fun x =>
    { x with cfg := { x.cfg with
        depth := BitVec.ofNat 4 d.depth, format := d.format, blockMask := BitVec.ofNat 32 d.mask
        fineChannels := BitVec.ofNat 24 d.cf, base := BitVec.ofNat 44 a, bayBytes := BitVec.ofNat 48 d.bay, shelfUnit := 0 }
             bays := List.replicate d.depth {} }
  let t := t.onLoom i fun x =>
    { x with cfg := { x.cfg with format := d.format, positions := BitVec.ofNat 10 d.positions } }
  let t := t.onLedger i fun x =>
    { x with cfg := { x.cfg with
        intSpansM1 := BitVec.ofNat 20 d.intM1, stream := d.intM1 == 0, dramBase := BitVec.ofNat 44 b
        dramBytes := BitVec.ofNat 48 d.ledger, setBytes := BitVec.ofNat 28 d.setBytes } }
  let t := t.onBeam i fun x =>
    { x with cfg := { x.cfg with
        beams := BitVec.ofNat 11 d.beams, wgroupLog2 := BitVec.ofNat 3 d.wgroup, sumLenM1 := BitVec.ofNat 16 d.sumM1
        weightBase := BitVec.ofNat 44 c, weightBytes := BitVec.ofNat 48 d.weights, turnBase := BitVec.ofNat 44 e
        turnBytes := BitVec.ofNat 48 d.turn }
             sel := [], ready := [], loadAt := none, stat := { x.stat with weightReady := false, switchPending := false } }
  (((((t.freeFaulted i).forgetTables i).dropPlan i).layAll).showBays i).showSieve i

/-- OBS_DEFINE of a sub-array in FREE or DEFINED: the module after it and the status (R347). -/
def State.obsDefine (s : State) (d : ObsParams) : State × BitVec 8 :=
  if s.badDefine d then (s, stBadParam)
  else if s.tooManyStreams d || s.tooManyBeams d then (s, stNospace)
  else
    match s.placeCoefs d, s.gainGroup d, s.placeRegions d with
    | some coefs, some g, some (rs, a, b, c, e) =>
      if (allFin 32).any fun k => (s.chan k).stat.state == gsFault then (s, stFaulted)
      else
        let base := ((coefs.find? fun m => m.1 == d.sub).map fun m => m.2).getD 0
        let t := s.moveCoefs (coefs.filter fun m => m.1 != d.sub)
        (t.writeDefine d base g rs a b c e, stOk)
    | _, _, _ => (s, stNospace)

/-! ### Counts whose advance a beat reports (R111, R134, R153, R214, R240, R270) -/

/-- An event that a beat raises once where one of its counts has advanced: the counts, each with the DETAIL that names its
instance. -/
structure Watch where
  source : SourceId
  sub    : Option SubId
  counts : List (Word × Nat)
  deriving DecidableEq, Repr

/-- The DETAIL of the first count that is not what it was. -/
def Watch.advanced (w : Watch) (old : List (Option Nat)) : Option Word :=
  (w.counts.zipIdx.find? fun e => old.getD e.2 (some 0) != some e.1.2).map fun e => e.1.1

/-- The events of a beat and their counts. -/
def State.watched (s : State) : List Watch :=
  let num (k : Nat) : Word := BitVec.ofNat 32 k
  let x := s.move.exch.stat
  ((allFin 4).flatMap fun i =>
    let one (src : SourceId) (n : Nat) : Watch := ⟨src, some i, [(num i.val, n)]⟩
    [one srcSieveSat s.sieve[i].stat.satCount.toNat, one srcMillOverrun s.front.assay[i].stat.droppedFrames.toNat,
     one srcAssayQsat s.front.assay[i].stat.qSat.toNat, one srcCellarRmw s.cellar[i].stat.rmwGranules.toNat,
     one srcLedgerCorr s.ledger[i].stat.eccCorr.toNat, one srcBeamClip s.beam[i].stat.clip.toNat]) ++
  ((allFin 4).map fun sl =>
    ⟨srcMillSat, none, (enginesOf sl).map fun e => (num sl.val, (s.engine e).stat.satCount.toNat)⟩) ++
  [⟨srcGranRetry, none, (allFin 32).flatMap fun c =>
      [(num c.val, (s.chan c).stat.retryOk.toNat), (num c.val, (s.chan c).stat.retry2Ok.toNat)]⟩,
   ⟨srcExchError, none, [x.unmapped.toNat, x.targetFault.toNat, x.lockRefused.toNat].map fun n => (num x.lastErrPort.toNat, n)⟩]

/-- Counts that return to zero with their records do not advance by it; one that had advanced before, in `old`, still has. -/
def State.rebaseCounts (s old : State) : State :=
  let kept := (old.watched.zip s.watched).zipIdx.map fun e =>
    (e.1.1.counts.zip e.1.2.counts).zipIdx.map fun c =>
      if (s.snap.getD e.2 []).getD c.2 (some 0) = some c.1.1.2 then some c.1.2.2 else none
  { s with snap := kept }

/-- OBS_DEFINE with RELEASE (R347): the regions are freed and every record of the sub-array returns to its reset value. -/
def State.obsRelease (s : State) (i : SubId) : State :=
  let t := (((s.freeFaulted i).forgetTables i).dropPlan i)
  let t : State := { t with
    gran := { t.gran with regions := t.freedRegions i }
    front := { t.front with mill := vset t.front.mill i {}, assay := vset t.front.assay i {} } }
  let t := (((t.onObs i fun _ => {}).onSieve i fun _ => {}).onCellar i fun _ => {}).onLoom i fun _ => {}
  let t := ((t.onLedger i fun _ => {}).onBeam i fun _ => {}).rebaseCounts s
  (t.layAll).showAll

/-! ### Arming (R349) -/

/-- The first table that OBS_ARM misses; 0 where none is missing. -/
def State.armMissing (s : State) (i : SubId) : Nat :=
  let x := s.sieve[i]
  let full := if x.stat.activeBank then x.bankFull[1] else x.bankFull[0]
  if s.loom[i].plan.isNone then 1
  else if !full then 2
  else if (s.ingressFmts i).isEmpty then 3
  else if (s.kernel s.front.mill[i].kernelId.toNat).isNone then 4
  else if s.beams i ≠ 0 ∧ (s.tiles.curves[s.beam[i].cfg.curveId.toFin]).isNone then 5
  else 0

/-- The engines of R113 for a sub-array that is armed. -/
def State.assignEngines (s : State) (i : SubId) : State :=
  match s.kernel s.front.mill[i].kernelId.toNat with
  | some k =>
    ((allFin 4).foldl (fun (t : State) sl =>
      State.takeEngines i sl k ((t.enginesFor i sl (t.kernelRate i / 1000000)).getD 0) t) s).showEngines i
  | none => s

/-- A sub-array is armed: engines, cleared sets, state ALIGN, and the settings from which its observation starts. -/
def State.arm (s : State) (i : SubId) : State :=
  let t := s.assignEngines i
  let t := ((t.clearSets i).newInteg i 0).onObs i fun x => { x with state := saAlign, stopAt := none, stopping := false }
  let t := t.onSieve i fun x =>
    { x with xfade := x.cfg.xfadeLog2.toNat, outShift := [(0, x.cfg.outShift.toNat)], frozen := [(0, x.stat.frozenBlocks.toNat)] }
  let t := t.onAssay i fun x => { x with curve := [(0, t.ownCurve i)] }
  (((t.applyBeamCurve i).showLedger i).showAll).followMode

/-- OBS_ARM of a DEFINED sub-array (R349). -/
def State.obsArm (s : State) (i : SubId) : State × Reply :=
  let missing := s.armMissing i
  if missing ≠ 0 then (s, { status := stTableInvalid, detail := BitVec.ofNat 32 missing })
  else
    let c := s.budgets none
    if c.fails then (s, { status := stOverBudget, detail := BitVec.ofNat 32 c.detail, results := c.words })
    else if (allFin 32).any fun k => (s.chan k).stat.state == gsFrozen || (s.chan k).stat.state == gsFault then
      (s, Reply.plain stFaulted)
    else (s.arm i, { status := stOk, detail := BitVec.ofNat 32 c.detail, results := c.words })

/-! ### Start (R285, R346, R350) -/

/-- k_s of a start at a time (R285). -/
def State.startIndex (s : State) (i : SubId) (t : Nat) : Nat :=
  let l := s.slotLen i
  ceilDiv (s.obs[i].epoch.indexAt t) l * l

/-- The two words of a 64-bit result. -/
def words64 (n : Nat) : List Word := [BitVec.ofNat 32 n, BitVec.ofNat 32 (n / 2 ^ 32)]

/-- A start is set: F is the start index, and the streams begin there (R72, R350). -/
def State.setStart (s : State) (i : SubId) (ks : Nat) : State :=
  let sq := s.slotLen i
  let t := s.onObs i fun x => { x with epoch := { x.epoch with startIndex := BitVec.ofNat 64 ks } }
  let t := t.onParser i fun p => { p with front := ks, start := some ks, next := ks / sq, slots := [], passed := [] }
  let t := t.startSieve i ks
  match t.sieve[i].swapAt with
  | some a => (t.onSieve i fun x => { x with swapAt := none }).addFade i (t.fineAt i a)
  | none => t

/-- OBS_START_AT, and the firing of a START timer at its instant (R291, R350). -/
def State.startAt (s : State) (i : SubId) (t : Nat) (timer : Bool) : State × Reply :=
  if s.saState i ≠ saAlign then (s, Reply.plain stWrongMode)
  else if !timer && decide (t < s.time16) then (s, Reply.plain stBadParam)
  else if s.parser[i].start.isSome then (s, Reply.plain stBusy)
  else
    let ks := s.startIndex i t
    (s.setStart i ks, { status := stAccepted, results := words64 ks })

/-- The sub-arrays whose start has come enter OBSERVE (Table 13-9). -/
def State.reachStarts (s : State) : State :=
  (allFin 4).foldl (fun (t : State) i =>
    match t.parser[i].start with
    | some ks =>
      if t.saState i = saAlign ∧ t.obs[i].epoch.timeOf ks ≤ t.time16 then
        ((t.onObs i fun x => { x with state := saObserve }).onParser i fun p => { p with lastOk := t.now }).followMode
      else t
    | none => t) s

/-! ### Stops, drains and resyncs (R107, R199, R200, R351) -/

/-- The span a point names: a span number, or the first span whose first fine sample lies at or after a time. Before a
start index is set, spans are counted from index 0 (log entry 63). -/
def State.pointSpan (s : State) (i : SubId) (bySpan : Bool) (v : Nat) : Nat :=
  if bySpan then v else ceilDiv (s.fineAt i v) spanLen

/-- The boundary a point names, and whether it is the one the idle Loom stands at (R200). -/
def State.boundaryOf (s : State) (i : SubId) (span : Nat) : Nat × Bool :=
  match s.loom[i].running with
  | some r => (if span ≤ r then r + 1 else span, false)
  | none => if span ≤ s.loom[i].next then (s.loom[i].next, true) else (span, false)

/-- A number put into a rising list, once. -/
def insertUp (l : List Nat) (n : Nat) : List Nat := (l.filter fun d => decide (d < n)) ++ [n] ++ l.filter fun d => decide (n < d)

/-- DRAIN_AT, and the firing of a DRAIN timer (R200, R291). A drain asked for after the stop boundary has passed is
discarded (R351). -/
def State.drainAt (s : State) (i : SubId) (span : Nat) : State × Reply :=
  if !s.active i then (s, Reply.plain stWrongMode)
  else
    let b := s.boundaryOf i span
    let yes : Reply := { status := stAccepted, detail := BitVec.ofNat 32 b.1 }
    let add (t : State) : State := t.onLedger i fun x => { x with drains := insertUp x.drains b.1 }
    if s.obs[i].stopping then (s, yes)
    else if b.2 then ((add s).ledgerBoundary i b.1, yes)
    else if s.ledger[i].drains.contains b.1 then (s, yes)
    else if 4 ≤ s.ledger[i].drains.length then (s, Reply.plain stBusy)
    else ((add s).showLedger i, yes)

/-- OBS_STOP_AT (R351). -/
def State.stopObs (s : State) (i : SubId) (span : Nat) : State × Reply :=
  if s.saState i = saAlign then (s.leaveObs i, Reply.ok)
  else
    let b := s.boundaryOf i span
    let yes : Reply := { status := stAccepted, detail := BitVec.ofNat 32 b.1 }
    if s.obs[i].stopping then (s, yes)
    else
      let t := s.onObs i fun x => { x with stopAt := some b.1 }
      if b.2 then ((((t.ledgerBoundary i b.1).cutCapture i true).dropActions i).tryStop i, yes) else (t, yes)

/-- RESYNC_AT (R105, R107). -/
def State.resyncAt (s : State) (i : SubId) (t : Nat) : State × Reply :=
  if t < s.time16 then (s, Reply.plain stBadParam)
  else
    let kr := s.obs[i].epoch.indexAt t
    (s.onSieve i fun x => { x with wanted := x.wanted.filter (fun e => !e.2) ++ [(kr, true)] },
     { status := stAccepted, results := words64 (kr - s.ks i) })

/-! ### Steering (R89, R103, R227, R353) -/

/-- A DELAY set of a sub-array that is resident (R96). -/
def State.delaySet (s : State) (i : SubId) (set : Nat) : Option TableEntry :=
  s.tables.find? fun e => e.cls == 9 && e.identity.toNat == set + 256 * i.val

/-- ORDER of a DELAY table. -/
def delayOrder (body : List Word) : Nat := fieldOf (bw body 0) 2 2

/-- DELAY_LOAD of entries with inputs of the sub-array, each once, for a resident set (R353). -/
def State.delayLoad (s : State) (i : SubId) (set t : Nat) (ins : List (Nat × List Nat)) : State × Reply :=
  if s.sieve[i].loads.length ≥ 16 then (s, Reply.plain stBusy)
  else (s.onSieve i fun x => { x with loads := x.loads ++ [⟨t, set, ins⟩] }, Reply.plain stAccepted)

/-- n_w: the first fine sample with `k_s + n_w × D_f` at or after an aligned index (R227). -/
def State.fineFrom (s : State) (i : SubId) (kb : Nat) : Nat := ceilDiv (kb - s.ks i) (s.decim i)

/-- The first beat grid instant at or after a time, in 2^-16 ns. -/
def gridAt (t : Nat) : Nat := ceilDiv t (1000000 * 2 ^ 16) * (1000000 * 2 ^ 16)

/-- WEIGHT_LOAD (R227): the beat is fixed when it comes; SWITCH_FS shows n_w of the beat on schedule until then. -/
def State.weightLoad (s : State) (i : SubId) (t : Option Nat) : State × Reply :=
  let x := s.beam[i]
  if !s.active i then (s.flipWeights i, Reply.ok)
  else if !x.stat.weightReady then (s, Reply.plain stTableInvalid)
  else if x.stat.switchPending then (s, Reply.plain stBusy)
  else
    let now := s.time16
    if (t.getD now) < now then (s, Reply.plain stBadParam)
    else
      let at' := t.getD now
      let n := s.fineFrom i (s.obs[i].epoch.indexAt (gridAt at'))
      (s.onBeam i fun y =>
        { y with loadAt := some at', stat := { y.stat with switchPending := true, switchFs := BitVec.ofNat 64 n } },
       Reply.plain stAccepted)

/-- COEF_SWAP (R103). One that names no time while a cross-fade runs starts with the first fine sample after it; one that
names a time waits for both (log entry 17). -/
def State.coefSwap (s : State) (i : SubId) (t : Option Nat) : State × Reply :=
  let x := s.sieve[i]
  if !x.stat.standbyValid then (s, Reply.plain stTableInvalid)
  else if !s.active i then
    let full := if x.stat.activeBank then x.bankFull[1] else x.bankFull[0]
    (s.onSieve i fun y => { y with stat := { y.stat with activeBank := !y.stat.activeBank, standbyValid := full } }, Reply.ok)
  else if x.swapWaits (s.unformed i) then (s, Reply.plain stBusy)
  else
    match t with
    | none =>
      if x.fades.isEmpty then ((s.onSieve i fun y => { y with swapAsk := true }).showSieve i, Reply.plain stAccepted)
      else (s.addFade i 0, Reply.plain stAccepted)
    | some a =>
      if s.parser[i].start.isSome then (s.addFade i (s.fineAt i a), Reply.plain stAccepted)
      else ((s.onSieve i fun y => { y with swapAt := some a }).showSieve i, Reply.plain stAccepted)

/-- k_b of the current beat for a sub-array (R94). -/
def State.beatIndex (s : State) (i : SubId) : Nat := s.obs[i].epoch.indexAt s.time.beatAt

/-- DCB_FREEZE of blocks of the sub-array (R89). -/
def State.dcbFreeze (s : State) (i : SubId) (on : Bool) (mask kf : Nat) : State × Reply :=
  if mask &&& s.cellar[i].cfg.blockMask.toNat ≠ mask ∨ kf < s.beatIndex i then (s, Reply.plain stBadParam)
  else (s.onSieve i fun x => { x with freezeAsk := some (kf, mask, on) }, Reply.plain stAccepted)

/-- CELLAR_TRIGGER (R143), in the order of its replies. One accepted after the stop boundary has passed finds the sub-array
stopped: the capture holds what is available (R144). -/
def State.cellarTrigger (s : State) (i : SubId) (pre post t : Nat) : State × Reply :=
  let k := pre + post + 1
  let x := s.cellar[i]
  if s.front.capture.state ≠ 0 then (s, Reply.plain stBusy)
  else if x.cfg.depth.toNat < k + 2 then (s, Reply.plain stNospace)
  else
    match s.spanAt i t with
    | none => (s, Reply.plain stBadParam)
    | some sp =>
      if sp < pre then (s, Reply.plain stBadParam)
      else
        let first := sp - pre
        if first < x.next ∧ (x.bayOf first).isNone then (s, Reply.plain stBadParam)
        else
          let u := s.startCapture i t first k
          (if s.obs[i].stopping then u.cutCapture i true else u,
           { status := stOk, detail := BitVec.ofNat 32 k, results := words64 first })

end Sys2Proof.Machine
end

