-- ==== Sys2Proof/Machine/RecordWords.lean ====
section
/-! DEFINITION. What each record reads as, word by word, and what SET_RECORD writes into it, from the
Word, Bits and Access columns of the spec's record tables (R4, R6, R8, R341). -/

namespace Sys2Proof.Machine

/-- The words of LANE_OCT_CFG as a read returns them (R4, R6: Reserved reads zero), Table 02-9. -/
def LaneOctCfg.words (r : LaneOctCfg) : List Word :=
  [bitAt r.enable 0 ||| bitAt r.dir 1 ||| bitAt r.pers 2 ||| putAt r.ethLayout 3 ||| bitAt r.ethTrain 6 ||| putAt r.laneEn 8 ||| putAt r.rxInvert 16 ||| putAt r.txInvert 24,
   putAt r.errLimit 0 ||| putAt r.replayLimit 16 ||| putAt r.startPreset 20 ||| bitAt r.loopback 23 ||| bitAt r.unidir 24,
   putAt r.expectTag0 0,
   putAt r.expectTag1 0]

/-- The words of LANE_STAT as a read returns them (R4, R6: Reserved reads zero), Table 02-10. -/
def LaneStat.words (r : LaneStat) : List Word :=
  [putAt r.state 0 ||| bitAt r.signal 4 ||| bitAt r.blockLock 5 ||| bitAt r.tagOk 6 ||| putAt r.peerTag 8 ||| putAt r.preset 16 ||| bitAt r.lockLost 24 ||| bitAt r.retrained 25 ||| bitAt r.tagBad 26 ||| bitAt r.fillBad 27,
   putAt r.peerTaps 0,
   putAt r.ownTaps 0,
   putAt r.eyeMetric 0 ||| putAt r.retrains 16]

/-- LANE_STAT after SET_RECORD of the words `ws` (R341): RW fields take the value, W1C bits clear, RO and Reserved are ignored. -/
def LaneStat.written (r : LaneStat) (ws : Nat → Option Word) : LaneStat :=
  { r with
    lockLost := w1cBit ws 0 24 r.lockLost,
    retrained := w1cBit ws 0 25 r.retrained,
    tagBad := w1cBit ws 0 26 r.tagBad,
    fillBad := w1cBit ws 0 27 r.fillBad }

/-- The words of LANE_CNT as a read returns them (R4, R6: Reserved reads zero), Table 02-12. -/
def LaneCnt.words (r : LaneCnt) : List Word :=
  [wordOf r.rxBlocks 0,
   wordOf r.rxBlocks 1,
   wordOf r.rxFrames 0,
   wordOf r.rxFrames 1,
   putAt r.crcErr 0,
   putAt r.formErr 0,
   putAt r.nakSent 0,
   putAt r.dupFrames 0,
   putAt r.badHdr 0,
   putAt r.lockLoss 0,
   putAt r.unkCtrl 0,
   putAt r.fillGap 0,
   putAt r.elasticOvf 0,
   putAt r.txReplay 0,
   putAt r.replayTmo 0,
   putAt r.lostFrames 0]

/-- The words of LANE_EYE as a read returns them (R4, R6: Reserved reads zero), Table 02-13. -/
def LaneEye.words (r : LaneEye) : List Word :=
  [putAt r.lane 0 ||| putAt r.eye 8 ||| putAt r.status 16 ||| putAt r.dwellLog2 24,
   putAt r.pointsTotal 0 ||| putAt r.pointsDone 16,
   putAt r.openH 0 ||| putAt r.openV 16,
   putAt r.startSec 0]

/-- The words of LANE_INGR_CNT as a read returns them (R4, R6: Reserved reads zero), Table 03-9. -/
def LaneIngrCnt.words (r : LaneIngrCnt) : List Word :=
  [wordOf r.pktsOk 0,
   wordOf r.pktsOk 1,
   putAt r.statusOk 0,
   putAt r.malformed 0,
   putAt r.noSubarray 0,
   putAt r.outOfSet 0,
   putAt r.misaligned 0,
   putAt r.late 0,
   putAt r.future 0,
   putAt r.dup 0,
   putAt r.statusExcess 0,
   putAt r.overrange 0,
   putAt r.flagged 0,
   putAt r.addrDrop 0]

/-- The words of LANE_EGR_CNT as a read returns them (R4, R6: Reserved reads zero), Table 03-10. -/
def LaneEgrCnt.words (r : LaneEgrCnt) : List Word :=
  [wordOf r.pktsBuilt 0,
   wordOf r.pktsBuilt 1,
   wordOf r.bytesSent 0,
   wordOf r.bytesSent 1,
   putAt r.portDownDrop 0,
   putAt r.queueDrop 0,
   putAt r.stallMs 0]

/-- The words of SIEV_CFG as a read returns them (R4, R6: Reserved reads zero), Table 04-6. -/
def SievCfg.words (r : SievCfg) : List Word :=
  [bitAt r.firMode 0 ||| putAt r.pLog2 1 ||| putAt r.taps 5 ||| putAt r.decimM1 10 ||| putAt r.dtapsM1 16,
   putAt r.coefBase 0 ||| putAt r.outShift 16 ||| bitAt r.delaySlip 21 ||| bitAt r.calHold 22 ||| bitAt r.staleInvalid 23 ||| putAt r.dcbShift 24,
   putAt r.dcbSettle 0 ||| putAt r.xfadeLog2 24,
   putAt r.coarseChannels 0]

/-- SIEV_CFG after SET_RECORD of the words `ws` (R341): RW fields take the value, W1C bits clear, RO and Reserved are ignored. -/
def SievCfg.written (r : SievCfg) (ws : Nat → Option Word) : SievCfg :=
  { r with
    outShift := rwBits ws 1 16 r.outShift,
    delaySlip := rwBit ws 1 21 r.delaySlip,
    calHold := rwBit ws 1 22 r.calHold,
    staleInvalid := rwBit ws 1 23 r.staleInvalid,
    dcbShift := rwBits ws 1 24 r.dcbShift,
    dcbSettle := rwBits ws 2 0 r.dcbSettle,
    xfadeLog2 := rwBits ws 2 24 r.xfadeLog2 }

/-- The words of SIEV_STAT as a read returns them (R4, R6: Reserved reads zero), Table 04-7. -/
def SievStat.words (r : SievStat) : List Word :=
  [putAt r.state 0 ||| bitAt r.modelStale 3 ||| bitAt r.activeBank 4 ||| bitAt r.standbyValid 5 ||| bitAt r.swapPending 6 ||| bitAt r.staleSeen 8 ||| bitAt r.satSeen 9 ||| bitAt r.lateSeen 10 ||| bitAt r.rangeSeen 11,
   wordOf r.firstEmit 0,
   wordOf r.firstEmit 1,
   wordOf r.lastReset 0,
   wordOf r.lastReset 1,
   putAt r.frozenBlocks 0,
   putAt r.xfadeLeft 0,
   putAt r.satCount 0,
   putAt r.delaySteps 0,
   putAt r.lateUpdates 0,
   wordOf r.suppressed 0,
   wordOf r.suppressed 1,
   putAt r.swaps 0]

/-- SIEV_STAT after SET_RECORD of the words `ws` (R341): RW fields take the value, W1C bits clear, RO and Reserved are ignored. -/
def SievStat.written (r : SievStat) (ws : Nat → Option Word) : SievStat :=
  { r with
    staleSeen := w1cBit ws 0 8 r.staleSeen,
    satSeen := w1cBit ws 0 9 r.satSeen,
    lateSeen := w1cBit ws 0 10 r.lateSeen,
    rangeSeen := w1cBit ws 0 11 r.rangeSeen }

/-- The words of MILL_CFG as a read returns them (R4, R6: Reserved reads zero), Table 05-10. -/
def MillCfg.words (r : MillCfg) : List Word :=
  [putAt r.kernelId 0,
   putAt r.engines 0]

/-- MILL_CFG after SET_RECORD of the words `ws` (R341): RW fields take the value, W1C bits clear, RO and Reserved are ignored. -/
def MillCfg.written (r : MillCfg) (ws : Nat → Option Word) : MillCfg :=
  { r with
    kernelId := rwBits ws 0 0 r.kernelId }

/-- The words of MILL_STAT as a read returns them (R4, R6: Reserved reads zero), Table 05-11. -/
def MillStat.words (r : MillStat) : List Word :=
  [putAt r.state 0 ||| putAt r.subarray 2 ||| putAt r.kernelId 4 ||| putAt r.faultCode 12 ||| bitAt r.faultSeen 16 ||| bitAt r.satSeen 17,
   putAt r.faultPc 0 ||| putAt r.restarts 16,
   wordOf r.frames 0,
   wordOf r.frames 1,
   putAt r.stallCycles 0,
   putAt r.loadWait 0,
   putAt r.satCount 0,
   putAt r.expMin 0 ||| putAt r.expMax 8]

/-- MILL_STAT after SET_RECORD of the words `ws` (R341): RW fields take the value, W1C bits clear, RO and Reserved are ignored. -/
def MillStat.written (r : MillStat) (ws : Nat → Option Word) : MillStat :=
  { r with
    faultSeen := w1cBit ws 0 16 r.faultSeen,
    satSeen := w1cBit ws 0 17 r.satSeen }

/-- The words of ASSY_CFG as a read returns them (R4, R6: Reserved reads zero), Table 05-12. -/
def AssyCfg.words (r : AssyCfg) : List Word :=
  [bitAt r.format 0 ||| bitAt r.fdelayEn 1 ||| putAt r.curveId 4 ||| putAt r.gainGroupLog2 8 ||| putAt r.defaultGain 16,
   putAt r.clipAlarm 0]

/-- ASSY_CFG after SET_RECORD of the words `ws` (R341): RW fields take the value, W1C bits clear, RO and Reserved are ignored. -/
def AssyCfg.written (r : AssyCfg) (ws : Nat → Option Word) : AssyCfg :=
  { r with
    fdelayEn := rwBit ws 0 1 r.fdelayEn,
    curveId := rwBits ws 0 4 r.curveId,
    defaultGain := rwBits ws 0 16 r.defaultGain,
    clipAlarm := rwBits ws 1 0 r.clipAlarm }

/-- The words of ASSY_STAT as a read returns them (R4, R6: Reserved reads zero), Table 05-13. -/
def AssyStat.words (r : AssyStat) : List Word :=
  [bitAt r.gainPending 0 ||| bitAt r.clipSeen 1 ||| bitAt r.qsatSeen 2 ||| bitAt r.dropSeen 3,
   wordOf r.lastSpan 0,
   wordOf r.lastSpan 1,
   putAt r.qSat 0,
   putAt r.droppedFrames 0,
   putAt r.clipInputs 0,
   putAt r.masked 0]

/-- ASSY_STAT after SET_RECORD of the words `ws` (R341): RW fields take the value, W1C bits clear, RO and Reserved are ignored. -/
def AssyStat.written (r : AssyStat) (ws : Nat → Option Word) : AssyStat :=
  { r with
    clipSeen := w1cBit ws 0 1 r.clipSeen,
    qsatSeen := w1cBit ws 0 2 r.qsatSeen,
    dropSeen := w1cBit ws 0 3 r.dropSeen }

/-- The words of ASSY_LEVELS as a read returns them (R4, R6: Reserved reads zero), Table 05-14. -/
def AssyLevels.words (r : AssyLevels) : List Word :=
  [wordOf r.span 0,
   wordOf r.span 1,
   wordOf r.validFs 0,
   wordOf r.validFs 1,
   wordOf r.pwr 0,
   wordOf r.pwr 1,
   putAt r.clip 0,
   0,
   r.hist[0],
   r.hist[1],
   r.hist[2],
   r.hist[3],
   r.hist[4],
   r.hist[5],
   r.hist[6],
   r.hist[7]]

/-- The words of CELL_CFG as a read returns them (R4, R6: Reserved reads zero), Table 06-2. -/
def CellCfg.words (r : CellCfg) : List Word :=
  [putAt r.depth 0 ||| bitAt r.format 4 ||| bitAt r.halves 5,
   putAt r.blockMask 0,
   putAt r.fineChannels 0,
   wordOf r.base 0,
   wordOf r.base 1,
   wordOf r.bayBytes 0,
   wordOf r.bayBytes 1,
   putAt r.shelfBase 0,
   putAt r.shelfUnit 0]

/-- The words of CELL_STAT as a read returns them (R4, R6: Reserved reads zero), Table 06-3. -/
def CellStat.words (r : CellStat) : List Word :=
  [putAt r.liveBays 0 ||| putAt r.pending 4 ||| bitAt r.overrunSeen 8 ||| bitAt r.rmwSeen 9 ||| bitAt r.lateSeen 10 ||| bitAt r.shelfErrSeen 11,
   wordOf r.writeSpan 0,
   wordOf r.writeSpan 1,
   wordOf r.readSpan 0,
   wordOf r.readSpan 1,
   putAt r.maxLag 0,
   putAt r.overrunSpans 0,
   putAt r.condemnedChunks 0,
   wordOf r.markerGranules 0,
   wordOf r.markerGranules 1,
   putAt r.rmwGranules 0,
   putAt r.lateFs 0,
   putAt r.shelfCorr 0,
   putAt r.shelfRestage 0]

/-- CELL_STAT after SET_RECORD of the words `ws` (R341): RW fields take the value, W1C bits clear, RO and Reserved are ignored. -/
def CellStat.written (r : CellStat) (ws : Nat → Option Word) : CellStat :=
  { r with
    overrunSeen := w1cBit ws 0 8 r.overrunSeen,
    rmwSeen := w1cBit ws 0 9 r.rmwSeen,
    lateSeen := w1cBit ws 0 10 r.lateSeen,
    shelfErrSeen := w1cBit ws 0 11 r.shelfErrSeen }

/-- The words of CELL_CAPT as a read returns them (R4, R6: Reserved reads zero), Table 06-4. -/
def CellCapt.words (r : CellCapt) : List Word :=
  [putAt r.state 0 ||| putAt r.subarray 2 ||| putAt r.count 4 ||| putAt r.done 8 ||| bitAt r.isShort 12 ||| bitAt r.warmKept 13 ||| bitAt r.format 14,
   wordOf r.firstSpan 0,
   wordOf r.firstSpan 1,
   putAt r.trigSecLo 0,
   putAt r.trigSecHi 0,
   putAt r.trigNs 0,
   putAt r.blockMask 0,
   putAt r.fineChannels 0,
   wordOf r.bayBytes 0,
   wordOf r.bayBytes 1,
   lo32 r.bayAddr[0],
   hi32 r.bayAddr[0],
   lo32 r.bayAddr[1],
   hi32 r.bayAddr[1],
   lo32 r.bayAddr[2],
   hi32 r.bayAddr[2],
   lo32 r.bayAddr[3],
   hi32 r.bayAddr[3],
   lo32 r.bayAddr[4],
   hi32 r.bayAddr[4],
   lo32 r.bayAddr[5],
   hi32 r.bayAddr[5],
   putAt r.span0SecLo 0,
   putAt r.span0SecHi 0,
   putAt r.span0Ns 0]

/-- The words of LOOM_CFG as a read returns them (R4, R6: Reserved reads zero), Table 07-5. -/
def LoomCfg.words (r : LoomCfg) : List Word :=
  [bitAt r.format 0 ||| putAt r.sLog2 1 ||| bitAt r.halves 3 ||| bitAt r.customOrder 4 ||| putAt r.cutFrom 8 ||| putAt r.cutTarget 16,
   putAt r.corrTilesLo 0,
   putAt r.corrTilesHi 0,
   putAt r.beamTilesLo 0,
   putAt r.beamTilesHi 0,
   putAt r.positions 0]

/-- LOOM_CFG after SET_RECORD of the words `ws` (R341): RW fields take the value, W1C bits clear, RO and Reserved are ignored. -/
def LoomCfg.written (r : LoomCfg) (ws : Nat → Option Word) : LoomCfg :=
  { r with
    cutFrom := rwBits ws 0 8 r.cutFrom,
    cutTarget := rwBits ws 0 16 r.cutTarget }

/-- The words of LOOM_STAT as a read returns them (R4, R6: Reserved reads zero), Table 07-6. -/
def LoomStat.words (r : LoomStat) : List Word :=
  [putAt r.state 0 ||| bitAt r.planPending 3 ||| bitAt r.retirePending 4 ||| bitAt r.cutActive 5 ||| bitAt r.noMargin 6 ||| bitAt r.checkSeen 8 ||| bitAt r.lostSeen 9 ||| bitAt r.cutSeen 10 ||| bitAt r.failSeen 11,
   putAt r.load 0 ||| putAt r.beamLoad 16,
   putAt r.cutTop 0 ||| putAt r.cutBottom 16,
   wordOf r.span 0,
   wordOf r.span 1,
   putAt r.fineChan 0,
   wordOf r.jobs 0,
   wordOf r.jobs 1,
   putAt r.redone 0,
   putAt r.lost 0,
   putAt r.shelfWait 0,
   putAt r.ledgerWait 0,
   putAt r.lateSpans 0,
   putAt r.oddCodes 0]

/-- LOOM_STAT after SET_RECORD of the words `ws` (R341): RW fields take the value, W1C bits clear, RO and Reserved are ignored. -/
def LoomStat.written (r : LoomStat) (ws : Nat → Option Word) : LoomStat :=
  { r with
    checkSeen := w1cBit ws 0 8 r.checkSeen,
    lostSeen := w1cBit ws 0 9 r.lostSeen,
    cutSeen := w1cBit ws 0 10 r.cutSeen,
    failSeen := w1cBit ws 0 11 r.failSeen }

/-- The words of LOOM_TILE as a read returns them (R4, R6: Reserved reads zero), Table 07-8. -/
def LoomTile.words (r : LoomTile) : List Word :=
  [putAt r.state 0 ||| putAt r.logical 4 ||| putAt r.subarray 10 ||| putAt r.lastCause 12 ||| bitAt r.failSeen 16,
   wordOf r.jobs 0,
   wordOf r.jobs 1,
   putAt r.checkFail 0 ||| putAt r.softErrors 16,
   putAt r.selftests 0 ||| putAt r.selftestFail 16,
   putAt r.temp 0,
   putAt r.retireSec 0]

/-- LOOM_TILE after SET_RECORD of the words `ws` (R341): RW fields take the value, W1C bits clear, RO and Reserved are ignored. -/
def LoomTile.written (r : LoomTile) (ws : Nat → Option Word) : LoomTile :=
  { r with
    failSeen := w1cBit ws 0 16 r.failSeen }

/-- The words of LOOM_POOL as a read returns them (R4, R6: Reserved reads zero), Table 07-10. -/
def LoomPool.words (r : LoomPool) : List Word :=
  [putAt r.present 0 ||| putAt r.spares 8,
   putAt r.retiredLo 0,
   putAt r.retiredHi 0,
   putAt r.freeLo 0,
   putAt r.freeHi 0]

/-- The words of LOOM_LOST as a read returns them (R4, R6: Reserved reads zero), Table 07-11. -/
def LoomLost.words (r : LoomLost) : List Word :=
  [wordOf r.span 0,
   wordOf r.span 1,
   putAt r.fineChan 0 ||| putAt r.chunk 24 ||| putAt r.slice 27 ||| putAt r.subarray 30,
   putAt r.blockI 0 ||| putAt r.blockJ 8 ||| bitAt r.cause 16]

/-- The words of LEDG_CFG as a read returns them (R4, R6: Reserved reads zero), Table 08-4. -/
def LedgCfg.words (r : LedgCfg) : List Word :=
  [putAt r.intSpansM1 0 ||| bitAt r.stream 20 ||| putAt r.wrecGroupLog2 21 ||| putAt r.shift 24,
   wordOf r.dramBase 0,
   wordOf r.dramBase 1,
   wordOf r.dramBytes 0,
   wordOf r.dramBytes 1,
   putAt r.sramBase 0,
   putAt r.setBytes 0]

/-- LEDG_CFG after SET_RECORD of the words `ws` (R341): RW fields take the value, W1C bits clear, RO and Reserved are ignored. -/
def LedgCfg.written (r : LedgCfg) (ws : Nat → Option Word) : LedgCfg :=
  { r with
    wrecGroupLog2 := rwBits ws 0 21 r.wrecGroupLog2,
    shift := rwBits ws 0 24 r.shift }

/-- The words of LEDG_STAT as a read returns them (R4, R6: Reserved reads zero), Table 08-5. -/
def LedgStat.words (r : LedgStat) : List Word :=
  [putAt r.drains 0 ||| bitAt r.swapDue 3 ||| bitAt r.satLedgerSeen 8 ||| bitAt r.satCompactSeen 9 ||| bitAt r.eccSeen 10 ||| bitAt r.withheldSeen 11,
   wordOf r.integration 0,
   wordOf r.integration 1,
   wordOf r.intFirstSpan 0,
   wordOf r.intFirstSpan 1,
   wordOf r.nextDrain 0,
   wordOf r.nextDrain 1,
   wordOf r.entries 0,
   wordOf r.entries 1,
   putAt r.dumpsDiscarded 0,
   putAt r.satTilesLedger 0,
   putAt r.satTilesCompact 0,
   putAt r.eccCorr 0,
   putAt r.withheldTiles 0,
   wordOf r.whIntegration 0,
   wordOf r.whIntegration 1,
   putAt r.whFineChan 0,
   putAt r.whBlockI 0 ||| putAt r.whBlockJ 8]

/-- LEDG_STAT after SET_RECORD of the words `ws` (R341): RW fields take the value, W1C bits clear, RO and Reserved are ignored. -/
def LedgStat.written (r : LedgStat) (ws : Nat → Option Word) : LedgStat :=
  { r with
    satLedgerSeen := w1cBit ws 0 8 r.satLedgerSeen,
    satCompactSeen := w1cBit ws 0 9 r.satCompactSeen,
    eccSeen := w1cBit ws 0 10 r.eccSeen,
    withheldSeen := w1cBit ws 0 11 r.withheldSeen }

/-- The words of LOOM_BEAM_CFG as a read returns them (R4, R6: Reserved reads zero), Table 09-6. -/
def LoomBeamCfg.words (r : LoomBeamCfg) : List Word :=
  [putAt r.beams 0 ||| putAt r.wgroupLog2 11 ||| putAt r.curveId 16,
   putAt r.sumLenM1 0,
   wordOf r.weightBase 0,
   wordOf r.weightBase 1,
   wordOf r.weightBytes 0,
   wordOf r.weightBytes 1,
   wordOf r.turnBase 0,
   wordOf r.turnBase 1,
   wordOf r.turnBytes 0,
   wordOf r.turnBytes 1]

/-- LOOM_BEAM_CFG after SET_RECORD of the words `ws` (R341): RW fields take the value, W1C bits clear, RO and Reserved are ignored. -/
def LoomBeamCfg.written (r : LoomBeamCfg) (ws : Nat → Option Word) : LoomBeamCfg :=
  { r with
    curveId := rwBits ws 0 16 r.curveId }

/-- The words of LOOM_BEAM_STAT as a read returns them (R4, R6: Reserved reads zero), Table 09-7. -/
def LoomBeamStat.words (r : LoomBeamStat) : List Word :=
  [bitAt r.weightReady 0 ||| bitAt r.switchPending 1 ||| bitAt r.lostSeen 8 ||| bitAt r.turnSeen 9 ||| bitAt r.clipSeen 10,
   wordOf r.switchFs 0,
   wordOf r.switchFs 1,
   wordOf r.jobs 0,
   wordOf r.jobs 1,
   putAt r.redone 0,
   putAt r.lost 0,
   putAt r.storeWait 0,
   putAt r.weightWait 0,
   putAt r.turnSkipped 0,
   putAt r.clip 0,
   putAt r.switches 0,
   wordOf r.cursorSpan 0,
   wordOf r.cursorSpan 1]

/-- LOOM_BEAM_STAT after SET_RECORD of the words `ws` (R341): RW fields take the value, W1C bits clear, RO and Reserved are ignored. -/
def LoomBeamStat.written (r : LoomBeamStat) (ws : Nat → Option Word) : LoomBeamStat :=
  { r with
    lostSeen := w1cBit ws 0 8 r.lostSeen,
    turnSeen := w1cBit ws 0 9 r.turnSeen,
    clipSeen := w1cBit ws 0 10 r.clipSeen }

/-- The words of GRAN_CFG as a read returns them (R4, R6: Reserved reads zero), Table 10-8. -/
def GranCfg.words (r : GranCfg) : List Word :=
  [bitAt r.autoSr 0 ||| bitAt r.hashSrc 1 ||| putAt r.srIdleUs 16,
   putAt r.controlShare 0]

/-- GRAN_CFG after SET_RECORD of the words `ws` (R341): RW fields take the value, W1C bits clear, RO and Reserved are ignored. -/
def GranCfg.written (r : GranCfg) (ws : Nat → Option Word) : GranCfg :=
  { r with
    autoSr := rwBit ws 0 0 r.autoSr,
    srIdleUs := rwBits ws 0 16 r.srIdleUs }

/-- The words of GRAN_STAT as a read returns them (R4, R6: Reserved reads zero), Table 10-9. -/
def GranStat.words (r : GranStat) : List Word :=
  [putAt r.state 0 ||| bitAt r.trainFull 3 ||| putAt r.refreshRate 4 ||| bitAt r.retrySeen 8 ||| bitAt r.hotSeen 9,
   wordOf r.reads 0,
   wordOf r.reads 1,
   wordOf r.writes 0,
   wordOf r.writes 1,
   wordOf r.checkAccesses 0,
   wordOf r.checkAccesses 1,
   putAt r.retryOk 0,
   putAt r.retry2Ok 0,
   putAt r.foldSplit 0,
   putAt r.srEntries 0,
   putAt r.srAbandoned 0,
   putAt r.srWaitMax 0 ||| putAt r.temp 16,
   putAt r.frozenReject 0,
   putAt r.lastRetry 0]

/-- GRAN_STAT after SET_RECORD of the words `ws` (R341): RW fields take the value, W1C bits clear, RO and Reserved are ignored. -/
def GranStat.written (r : GranStat) (ws : Nat → Option Word) : GranStat :=
  { r with
    retrySeen := w1cBit ws 0 8 r.retrySeen,
    hotSeen := w1cBit ws 0 9 r.hotSeen }

/-- The words of GRAN_FREEZE as a read returns them (R4, R6: Reserved reads zero), Table 10-11. -/
def GranFreeze.words (r : GranFreeze) : List Word :=
  [bitAt r.valid 0 ||| bitAt r.warmKept 1 ||| putAt r.channel 2 ||| putAt r.subchannel 7 ||| putAt r.bank 9 ||| putAt r.granule 13 ||| putAt r.source 18 ||| putAt r.op 21,
   putAt r.row 0,
   wordOf r.logical 0,
   wordOf r.logical 1,
   putAt r.storedCheck 0 ||| putAt r.computedCheck 16,
   putAt r.diffBits 0 ||| putAt r.freezes 16,
   putAt r.frozenMask 0,
   putAt r.secLo 0,
   putAt r.secHi 0,
   putAt r.ns 0]

/-- The words of CLKS_STAT as a read returns them (R4, R6: Reserved reads zero), Table 11-7. -/
def ClksStat.words (r : ClksStat) : List Word :=
  [putAt r.state 0 ||| putAt r.selected 3 ||| bitAt r.everLocked 5 ||| bitAt r.dispute 8 ||| bitAt r.holdoverSeen 9 ||| bitAt r.switchSeen 10 ||| bitAt r.disqSeen 11,
   putAt r.rankA 0 ||| putAt r.rankB 2 ||| putAt r.rankC 4,
   0,
   0,
   0,
   putAt r.ocxoEst 0,
   putAt r.switches 0,
   putAt r.disqualifications 0,
   putAt r.buildoutPs 0,
   putAt r.holdoverS 0]

/-- CLKS_STAT after SET_RECORD of the words `ws` (R341): RW fields take the value, W1C bits clear, RO and Reserved are ignored. -/
def ClksStat.written (r : ClksStat) (ws : Nat → Option Word) : ClksStat :=
  { r with
    dispute := w1cBit ws 0 8 r.dispute,
    holdoverSeen := w1cBit ws 0 9 r.holdoverSeen,
    switchSeen := w1cBit ws 0 10 r.switchSeen,
    disqSeen := w1cBit ws 0 11 r.disqSeen }

/-- The words of TIME_CFG as a read returns them (R4, R6: Reserved reads zero), Table 11-10. -/
def TimeCfg.words (r : TimeCfg) : List Word :=
  [bitAt r.ppsOutEn 0 ||| bitAt r.consumeA 1 ||| bitAt r.consumeB 2 ||| bitAt r.dreqEn 3 ||| bitAt r.dreqPort 4 ||| putAt r.ptpDomain 8 ||| putAt r.dreqIntervalLog2 16,
   putAt r.ppsOutWidthUs 0,
   putAt r.compPpsA 0 ||| putAt r.compPpsB 16,
   putAt r.compTrig 0]

/-- TIME_CFG after SET_RECORD of the words `ws` (R341): RW fields take the value, W1C bits clear, RO and Reserved are ignored. -/
def TimeCfg.written (r : TimeCfg) (ws : Nat → Option Word) : TimeCfg :=
  { r with
    ppsOutEn := rwBit ws 0 0 r.ppsOutEn,
    consumeA := rwBit ws 0 1 r.consumeA,
    consumeB := rwBit ws 0 2 r.consumeB,
    dreqEn := rwBit ws 0 3 r.dreqEn,
    dreqPort := rwBit ws 0 4 r.dreqPort,
    ptpDomain := rwBits ws 0 8 r.ptpDomain,
    dreqIntervalLog2 := rwBits ws 0 16 r.dreqIntervalLog2,
    ppsOutWidthUs := rwBits ws 1 0 r.ppsOutWidthUs,
    compPpsA := rwBits ws 2 0 r.compPpsA,
    compPpsB := rwBits ws 2 16 r.compPpsB,
    compTrig := rwBits ws 3 0 r.compTrig }

/-- The words of TIME_STAT as a read returns them (R4, R6: Reserved reads zero), Table 11-11. -/
def TimeStat.words (r : TimeStat) : List Word :=
  [putAt r.state 0 ||| bitAt r.slewing 2 ||| bitAt r.freeRunSeen 8 ||| bitAt r.stepSeen 9 ||| bitAt r.lateSeen 10 ||| bitAt r.slipSeen 11 ||| bitAt r.capOvfSeen 12,
   putAt r.incFrac 0,
   putAt r.incInt 0,
   putAt r.sinceIncMs 0,
   wordOf r.beat 0,
   wordOf r.beat 1,
   putAt r.lagUs 0,
   putAt r.maxLagUs 0,
   putAt r.lateBeats 0,
   putAt r.slips 0,
   putAt r.skippedBeats 0,
   putAt r.steps 0,
   putAt r.capDrops 0,
   putAt r.edgesIgnored 0]

/-- TIME_STAT after SET_RECORD of the words `ws` (R341): RW fields take the value, W1C bits clear, RO and Reserved are ignored. -/
def TimeStat.written (r : TimeStat) (ws : Nat → Option Word) : TimeStat :=
  { r with
    freeRunSeen := w1cBit ws 0 8 r.freeRunSeen,
    stepSeen := w1cBit ws 0 9 r.stepSeen,
    lateSeen := w1cBit ws 0 10 r.lateSeen,
    slipSeen := w1cBit ws 0 11 r.slipSeen,
    capOvfSeen := w1cBit ws 0 12 r.capOvfSeen }

/-- The words of TIME_TIMER as a read returns them (R4, R6: Reserved reads zero), Table 11-12. -/
def TimeTimer.words (r : TimeTimer) : List Word :=
  [putAt r.action 0 ||| bitAt r.refusedSeen 4 ||| putAt r.target 8 ||| putAt r.width 16,
   putAt r.nextSecLo 0,
   putAt r.nextSecHi 0,
   putAt r.nextNs 0,
   wordOf r.periodNs 0,
   wordOf r.periodNs 1,
   putAt r.count 0,
   putAt r.fired 0,
   putAt r.refused 0,
   putAt r.missed 0]

/-- TIME_TIMER after SET_RECORD of the words `ws` (R341): RW fields take the value, W1C bits clear, RO and Reserved are ignored. -/
def TimeTimer.written (r : TimeTimer) (ws : Nat → Option Word) : TimeTimer :=
  { r with
    refusedSeen := w1cBit ws 0 4 r.refusedSeen }

/-- The words of TIME_EPOCH as a read returns them (R4, R6: Reserved reads zero), Table 11-13. -/
def TimeEpoch.words (r : TimeEpoch) : List Word :=
  [putAt r.epochSecLo 0,
   putAt r.epochSecHi 0 ||| putAt r.epochFrac 16,
   putAt r.epochNs 0,
   putAt r.periodFrac 0,
   putAt r.periodNs 0,
   wordOf r.startIndex 0,
   wordOf r.startIndex 1]

/-- The words of ID_INFO as a read returns them (R4, R6: Reserved reads zero), Table 12-10. -/
def IdInfo.words (r : IdInfo) : List Word :=
  [putAt r.layout 0 ||| putAt r.member 8 ||| putAt r.device 16,
   putAt r.tilesPhys 0 ||| putAt r.tilesActive 8 ||| putAt r.slices 16 ||| putAt r.engines 24,
   putAt r.maxInputs 0 ||| putAt r.lanes 16 ||| putAt r.octets 24,
   putAt r.granaryRawGib 0 ||| putAt r.granaryUseGib 16,
   putAt r.granChannels 0 ||| putAt r.benches 8 ||| putAt r.subarrays 16 ||| putAt r.timers 24,
   putAt r.siliconRev 0 ||| putAt r.moduleRev 16,
   putAt r.fwVersion 0,
   putAt r.storeSeq 0,
   bitAt r.storeCopy 0 ||| bitAt r.recovery 1 ||| bitAt r.pcieBif 2,
   wordOf r.serial 0,
   wordOf r.serial 1,
   wordOf r.partNumber 0,
   wordOf r.partNumber 1,
   wordOf r.partNumber 2,
   wordOf r.partNumber 3,
   0]

/-- The words of BNCH_STAT as a read returns them (R4, R6: Reserved reads zero), Table 12-11. -/
def BnchStat.words (r : BnchStat) : List Word :=
  [putAt r.bench 0 ||| bitAt r.isOpen 2 ||| bitAt r.linkUp 3 ||| putAt r.keySlot 8,
   putAt r.postTail 0 ||| putAt r.postHead 16,
   putAt r.replyHead 0 ||| putAt r.replyTail 16,
   putAt r.irqStatus 0,
   putAt r.irqEnable 0,
   putAt r.protoCode 0,
   putAt r.sessionId 0,
   wordOf r.commands 0,
   wordOf r.commands 1,
   putAt r.authFail 0,
   putAt r.seqDrop 0,
   putAt r.malformed 0,
   putAt r.retx 0,
   putAt r.notifySent 0]

/-- BNCH_STAT after SET_RECORD of the words `ws` (R341): RW fields take the value, W1C bits clear, RO and Reserved are ignored. -/
def BnchStat.written (r : BnchStat) (ws : Nat → Option Word) : BnchStat :=
  { r with
    postTail := rwBits ws 1 0 r.postTail,
    replyHead := rwBits ws 2 0 r.replyHead,
    irqStatus := w1cBits ws 3 0 r.irqStatus,
    irqEnable := rwBits ws 4 0 r.irqEnable }

/-- The words of BNCH_HEALTH as a read returns them (R4, R6: Reserved reads zero), Table 12-13. -/
def BnchHealth.words (r : BnchHealth) : List Word :=
  [putAt r.seq 0,
   putAt r.mode 0 ||| bitAt r.faultNLow 4 ||| putAt r.escalated 8 ||| putAt r.saState 16,
   putAt r.secLo 0,
   putAt r.secHi 0,
   putAt r.ns 0,
   putAt r.powerDw 0 ||| putAt r.supply10mv 16,
   putAt r.tjMax 0 ||| putAt r.dramMax 16,
   putAt r.clksState 0 ||| putAt r.timeState 3,
   putAt r.tallyActive 0,
   0,
   0,
   0]

/-- The words of BNCH_MGMT as a read returns them (R4, R6: Reserved reads zero), Table 12-14. -/
def BnchMgmt.words (r : BnchMgmt) : List Word :=
  [wordOf r.mac 0,
   wordOf r.mac 1,
   putAt r.ipv4 0,
   wordOf r.ipv6 0,
   wordOf r.ipv6 1,
   wordOf r.ipv6 2,
   wordOf r.ipv6 3,
   putAt r.udpPort 0 ||| putAt r.vlanId 16 ||| bitAt r.tagged 28 ||| bitAt r.v4En 29 ||| bitAt r.v6En 30,
   putAt r.keysPresent 0,
   wordOf r.keyClasses 0,
   wordOf r.keyClasses 1]

/-- BNCH_MGMT after SET_RECORD of the words `ws` (R341): RW fields take the value, W1C bits clear, RO and Reserved are ignored. -/
def BnchMgmt.written (r : BnchMgmt) (ws : Nat → Option Word) : BnchMgmt :=
  { r with
    mac := rwLong ws 0 r.mac,
    ipv4 := rwBits ws 2 0 r.ipv4,
    ipv6 := rwLong ws 3 r.ipv6,
    udpPort := rwBits ws 7 0 r.udpPort,
    vlanId := rwBits ws 7 16 r.vlanId,
    tagged := rwBit ws 7 28 r.tagged,
    v4En := rwBit ws 7 29 r.v4En,
    v6En := rwBit ws 7 30 r.v6En }

/-- The words of EXCH_CTRL as a read returns them (R4, R6: Reserved reads zero), Table 14-10. -/
def ExchCtrl.words (r : ExchCtrl) : List Word :=
  [bitAt r.remap 0]

/-- The words of EXCH_STAT as a read returns them (R4, R6: Reserved reads zero), Table 14-11. -/
def ExchStat.words (r : ExchStat) : List Word :=
  [putAt r.lockOwner 0 ||| putAt r.lockTarget 4 ||| bitAt r.breakSeen 8 ||| bitAt r.resetSeen 9 ||| bitAt r.errSeen 10,
   putAt r.lockBreaks 0,
   putAt r.masterResets 0,
   putAt r.strobedOff 0,
   putAt r.unmapped 0,
   putAt r.targetFault 0,
   putAt r.lockRefused 0,
   wordOf r.lastErrAddr 0,
   wordOf r.lastErrAddr 1,
   putAt r.lastErrPort 0 ||| putAt r.lastErrResp 4]

/-- EXCH_STAT after SET_RECORD of the words `ws` (R341): RW fields take the value, W1C bits clear, RO and Reserved are ignored. -/
def ExchStat.written (r : ExchStat) (ws : Nat → Option Word) : ExchStat :=
  { r with
    breakSeen := w1cBit ws 0 8 r.breakSeen,
    resetSeen := w1cBit ws 0 9 r.resetSeen,
    errSeen := w1cBit ws 0 10 r.errSeen }

/-- The words of EXCH_PORT as a read returns them (R4, R6: Reserved reads zero), Table 14-12. -/
def ExchPort.words (r : ExchPort) : List Word :=
  [wordOf r.bursts 0,
   wordOf r.bursts 1,
   wordOf r.bytes 0,
   wordOf r.bytes 1,
   putAt r.orderHoldUs 0,
   putAt r.lockHoldUs 0,
   putAt r.errors 0]

/-- The words of DRAY_CHAN as a read returns them (R4, R6: Reserved reads zero), Table 14-13. -/
def DrayChan.words (r : DrayChan) : List Word :=
  [putAt r.state 0 ||| bitAt r.host 2 ||| putAt r.trigSrc 4 ||| putAt r.trigLine 8 ||| bitAt r.errSeen 18 ||| putAt r.errCode 20 ||| putAt r.pending 24,
   wordOf r.descAddr 0,
   wordOf r.descAddr 1,
   wordOf r.curDesc 0,
   wordOf r.curDesc 1,
   putAt r.srcCur 0,
   putAt r.dstCur 0,
   wordOf r.bytes 0,
   wordOf r.bytes 1,
   putAt r.done 0,
   putAt r.trigLost 0,
   wordOf r.errAddr 0,
   wordOf r.errAddr 1]

/-- DRAY_CHAN after SET_RECORD of the words `ws` (R341): RW fields take the value, W1C bits clear, RO and Reserved are ignored. -/
def DrayChan.written (r : DrayChan) (ws : Nat → Option Word) : DrayChan :=
  { r with
    trigSrc := rwBits ws 0 4 r.trigSrc,
    trigLine := rwBits ws 0 8 r.trigLine,
    errSeen := w1cBit ws 0 18 r.errSeen,
    descAddr := rwLong ws 1 r.descAddr }

/-- The words of BALE_STAT as a read returns them (R4, R6: Reserved reads zero), Table 14-14. -/
def BaleStat.words (r : BaleStat) : List Word :=
  [putAt r.state 0 ||| putAt r.bench 2 ||| bitAt r.checkSeen 4,
   putAt r.jobs 0,
   putAt r.failedNospace 0,
   putAt r.failedCheck 0,
   putAt r.failedOther 0,
   wordOf r.rawBytes 0,
   wordOf r.rawBytes 1,
   wordOf r.streamBytes 0,
   wordOf r.streamBytes 1,
   putAt r.lastDetail 0]

/-- BALE_STAT after SET_RECORD of the words `ws` (R341): RW fields take the value, W1C bits clear, RO and Reserved are ignored. -/
def BaleStat.written (r : BaleStat) (ws : Nat → Option Word) : BaleStat :=
  { r with
    checkSeen := w1cBit ws 0 4 r.checkSeen }

/-- The words of TALY_CFG as a read returns them (R4, R6: Reserved reads zero), Table 15-5. -/
def TalyCfg.words (r : TalyCfg) : List Word :=
  [putAt r.source 0 ||| bitAt r.enable 8 ||| bitAt r.autoClear 9 ||| putAt r.threshold 16,
   putAt r.windowMs 0 ||| putAt r.graceMs 16,
   putAt r.quietMs 0 ||| putAt r.fallback 16 ||| putAt r.leases 24,
   0]

/-- The words of TALY_SRC as a read returns them (R4, R6: Reserved reads zero), Table 15-7. -/
def TalySrc.words (r : TalySrc) : List Word :=
  [putAt r.state 0 ||| putAt r.step 3 ||| bitAt r.held 5 ||| bitAt r.severeSeen 8 ||| bitAt r.escalatedSeen 9,
   putAt r.events 0,
   putAt r.inWindow 0 ||| putAt r.graceLeftMs 16,
   putAt r.recoveries 0 ||| putAt r.escalations 16,
   putAt r.lastDetail 0,
   putAt r.lastSecLo 0,
   putAt r.lastSecHi 0,
   putAt r.lastNs 0]

/-- TALY_SRC after SET_RECORD of the words `ws` (R341): RW fields take the value, W1C bits clear, RO and Reserved are ignored. -/
def TalySrc.written (r : TalySrc) (ws : Nat → Option Word) : TalySrc :=
  { r with
    severeSeen := w1cBit ws 0 8 r.severeSeen,
    escalatedSeen := w1cBit ws 0 9 r.escalatedSeen }

/-- The words of TALY_STAT as a read returns them (R4, R6: Reserved reads zero), Table 15-8. -/
def TalyStat.words (r : TalyStat) : List Word :=
  [bitAt r.faultNLow 0 ||| putAt r.severe 8 ||| putAt r.escalated 17,
   putAt r.active 0,
   putAt r.chipResets 0,
   putAt r.chipToHold 0,
   putAt r.lastChipSource 0,
   putAt r.lastChipSecLo 0,
   putAt r.lastChipSecHi 0,
   putAt r.monoMs 0]

/-- The words of BELL_CFG as a read returns them (R4, R6: Reserved reads zero), Table 16-13. -/
def BellCfg.words (r : BellCfg) : List Word :=
  [putAt r.recoverMs 0 ||| bitAt r.autoRestart 14 ||| putAt r.bankTestH 16]

/-- BELL_CFG after SET_RECORD of the words `ws` (R341): RW fields take the value, W1C bits clear, RO and Reserved are ignored. -/
def BellCfg.written (r : BellCfg) (ws : Nat → Option Word) : BellCfg :=
  { r with
    recoverMs := rwBits ws 0 0 r.recoverMs,
    autoRestart := rwBit ws 0 14 r.autoRestart,
    bankTestH := rwBits ws 0 16 r.bankTestH }

/-- The words of BELL_STAT as a read returns them (R4, R6: Reserved reads zero), Table 16-14. -/
def BellStat.words (r : BellStat) : List Word :=
  [putAt r.mode 0 ||| putAt r.prevMode 4 ||| putAt r.classNow 8 ||| bitAt r.rideInHold 11 ||| bitAt r.isolated 12 ||| bitAt r.pwrGood 13 ||| putAt r.lastShutdown 14 ||| bitAt r.rideSeen 16 ||| bitAt r.bankLowSeen 17,
   putAt r.supply10mv 0 ||| putAt r.powerDw 16,
   putAt r.bank10mv 0 ||| putAt r.bankUf 16,
   putAt r.holdupUs 0,
   putAt r.rides 0,
   putAt r.rideMs 0,
   putAt r.transients 0,
   putAt r.shutdowns 0,
   putAt r.rideDiscard 0,
   wordOf r.islandsOn 0,
   wordOf r.islandsOn 1,
   wordOf r.islandsOn 2]

/-- BELL_STAT after SET_RECORD of the words `ws` (R341): RW fields take the value, W1C bits clear, RO and Reserved are ignored. -/
def BellStat.written (r : BellStat) (ws : Nat → Option Word) : BellStat :=
  { r with
    rideSeen := w1cBit ws 0 16 r.rideSeen,
    bankLowSeen := w1cBit ws 0 17 r.bankLowSeen }

/-- The words of BELL_EVENT as a read returns them (R4, R6: Reserved reads zero), Table 16-15. -/
def BellEvent.words (r : BellEvent) : List Word :=
  [putAt r.cls 0 ||| bitAt r.inProgress 3,
   putAt r.secLo 0,
   putAt r.secHi 0,
   putAt r.ns 0,
   putAt r.durationUs 0,
   putAt r.min10mv 0 ||| putAt r.max10mv 16,
   putAt r.bankMj 0 ||| putAt r.bankMin10mv 16]

/-- The words of BELL_START as a read returns them (R4, R6: Reserved reads zero), Table 17-9. -/
def BellStart.words (r : BellStart) : List Word :=
  [bitAt r.kind 0 ||| putAt r.cause 1 ||| putAt r.step 5 ||| bitAt r.recovery 9 ||| bitAt r.unitDefault 10 ||| bitAt r.freerun 11 ||| bitAt r.copy 12 ||| bitAt r.firstInvalid 13,
   putAt r.step1Ms 0 ||| putAt r.step2Ms 16,
   putAt r.step3Ms 0 ||| putAt r.step4Ms 16,
   putAt r.step5Ms 0 ||| putAt r.step6Ms 16,
   putAt r.step7Ms 0 ||| putAt r.step8Ms 16,
   putAt r.step9Ms 0,
   putAt r.totalMs 0,
   putAt r.slowSteps 0,
   putAt r.starts 0,
   putAt r.warmStarts 0]

end Sys2Proof.Machine
end

