-- ==== Sys2Proof/Machine/Tally.lean ====
section
/-! DEFINITION. The Tally's records as they read, events from outside, clearing and TALLY entries (R386 to R402). -/

namespace Sys2Proof.Machine

/-! ### What reads show (Tables 15-7 and 15-8) -/

/-- STATE of a source: below SEVERE it follows the window (R389). -/
def TallySource.shownState (x : TallySource) (m : Nat) : BitVec 3 :=
  if 2 ≤ x.reg.state.toNat then x.reg.state else if inWindow x.window x.stamps m = 0 then 0 else 1

/-- TALY_SRC as it reads. -/
def State.talySrcWords (s : State) (i : SourceId) : List Word :=
  let x := s.source i
  let m := s.monoMs
  let left := match x.grace with
    | some g => g - m
    | none => 0
  ({ x.reg with state := x.shownState m, inWindow := satNat 8 (inWindow x.window x.stamps m), graceLeftMs := satNat 16 left } : TalySrc).words

/-- How many sources are in a state. -/
def State.sourcesIn (s : State) (st : BitVec 3) : Nat :=
  let m := s.monoMs
  ((allFin 256).filter fun i => (s.source i).shownState m == st).length

/-- FAULT_N is low while a source is ESCALATED (R398). -/
def State.faultLow (s : State) : Bool := (allFin 256).any fun i => (s.source i).reg.state == 3

/-- TALY_STAT as it reads. -/
def State.talyStatWords (s : State) : List Word :=
  ({ s.tally.stat with
      faultNLow := s.faultLow, severe := BitVec.ofNat 9 (s.sourcesIn 2), escalated := BitVec.ofNat 9 (s.sourcesIn 3)
      active := BitVec.ofNat 9 (s.sourcesIn 1), monoMs := BitVec.ofNat 32 s.monoMs } : TalyStat).words

/-! ### Clearing (R391) -/

/-- TALLY_CLEAR of one source: a QUIET one does not change. -/
def State.clearSource (s : State) (i : SourceId) : State :=
  if (s.source i).shownState s.monoMs = 0 then s else s.clearTo i false

/-- TALLY_CLEAR of every source. -/
def State.clearSources (s : State) : State := (allFin 256).foldl (fun (t : State) i => t.clearSource i) s

/-- TALLY_EVENT (R390): a block raises an event on a source that Table 15-1 or Table 16-12 assigns. -/
def execTallyEvent (src : SourceId) (detail : Word) (sub : Option SubId) (s : State) : Host.Outcome State Fault Refusal :=
  .next (if s.running && assignedSource src.val then s.raise src detail sub else s)

/-- QUIET_PERIOD (R391): a SEVERE or ESCALATED source has had no event for QUIET_MS. -/
def execQuietPeriod (src : SourceId) (s : State) : Host.Outcome State Fault Refusal :=
  let x := s.source src
  .next (if 2 ≤ x.reg.state.toNat ∧ (x.stamps.headD 0) + x.cfg.quietMs.toNat ≤ s.monoMs then
    s.onSource src fun y => y.quieted true
    else s)

/-- AUTO_CLEAR (R391): the raising block reports its recovery complete for the instance the newest event names. -/
def execAutoClear (src : SourceId) (detail : Word) (s : State) : Host.Outcome State Fault Refusal :=
  let x := s.source src
  .next (if 2 ≤ x.reg.state.toNat ∧ x.cfg.autoClear ∧ detail = x.reg.lastDetail then s.clearTo src true else s)

/-- FOREMAN_WDOG (R386): a core has not served its watchdog for 100 ms. -/
def execForemanWdog (core : Fin 4) (s : State) : Host.Outcome State Fault Refusal :=
  .next (if s.running then s.raise srcForemanWdog (BitVec.ofNat 32 core.val) else s)

/-! ### Configuration (R401) -/

/-- A TALY_CFG entry from four words (Table 15-5). -/
def talyEntry (w : Nat → Word) : TalyCfg :=
  { source := BitVec.ofNat 8 (fieldOf (w 0) 0 8), enable := flagOf (w 0) 8, autoClear := flagOf (w 0) 9
    threshold := BitVec.ofNat 8 (fieldOf (w 0) 16 8), windowMs := BitVec.ofNat 16 (fieldOf (w 1) 0 16)
    graceMs := BitVec.ofNat 16 (fieldOf (w 1) 16 16), quietMs := BitVec.ofNat 16 (fieldOf (w 2) 0 16)
    fallback := BitVec.ofNat 3 (fieldOf (w 2) 16 3), leases := BitVec.ofNat 5 (fieldOf (w 2) 24 5) }

/-- A field of an entry lies outside its range, or its block reset does not exist (R401). -/
def TalyCfg.bad (c : TalyCfg) : Bool :=
  !assignedSource c.source.toNat || c.threshold == 0 || c.windowMs == 0 || c.graceMs == 0 || decide (60000 < c.graceMs.toNat) ||
  c.quietMs == 0 || decide (4 < c.fallback.toNat) || (c.fallback == 3 && !hasBlockReset c.source.toNat)

/-- An entry takes effect at once; the source's events and state stay. -/
def State.setEntry (s : State) (c : TalyCfg) : State := s.onSource ⟨c.source.toNat, c.source.isLt⟩ fun x => { x with cfg := c }

/-- The entries of a committed table take effect at a beat (Table 13-7). -/
def State.takeEntries (s : State) : State :=
  let t := s.tally.queued.foldl (fun (t : State) c => t.setEntry c) s
  { t with tally := { t.tally with queued := [] } }

end Sys2Proof.Machine
end

