-- ==== Sys2Proof/Machine/Time.lean ====
section
/-! DEFINITION. The Timekeeper: ticks, increments, steps, timers, pulses and edge captures (R280 to R283, R290 to
R294, R300 to R305, R446). -/

namespace Sys2Proof.Machine

/-! ### Ticks and the increment (R280, R281) -/

/-- The Timekeeper's count wraps at 2^48 seconds. -/
def wrap32tk : Nat := 2 ^ 48 * 1000000000 * 2 ^ 32

/-- `n` ticks: the slewed increment for as long as it lasts, then the base increment. -/
def TimeBlock.ticked (x : TimeBlock) (n : Nat) : TimeBlock :=
  let k := min n x.slewLeft
  { x with tk := (x.tk + k * x.slewInc + (n - k) * x.incBase) % wrap32tk, slewLeft := x.slewLeft - k }

/-- `n` ticks of 4 ns pass (R280): starts whose instant has come begin (Table 13-9), beam jobs in flight whose end has come are
over (R220), and the bridges complete what they hold (R365). -/
def State.tick (s : State) (n : Nat) : State :=
  let t := { s with now := s.now + 4 * n }
  if s.bell.alive then (({ t with time := t.time.ticked n } : State).reachStarts.endBeams).serveBridges else t

/-- SLEW_END (R281): DURATION ticks have passed. -/
def execSlewEnd (s : State) : Host.Outcome State Fault Refusal :=
  .next (if s.time.slewLeft = 0 then ({ s with time := { s.time with slewInc := 0 } }).onTimeStat fun x => { x with slewing := false }
    else s)

/-- The last TIME_INCREMENT is less than 10 s old (R282). -/
def State.freshInc (s : State) : Bool :=
  match s.time.lastInc with
  | some t => decide (s.now < t + 10000000000)
  | none => false

/-- FREE_RUN is entered (R282). -/
def State.enterFreeRun (s : State) : State :=
  (s.onTimeStat fun x => { x with state := 2, freeRunSeen := true }).raise srcTimeFreeRun 0

/-- TIME_FREE_RUN (R282): ten seconds have passed since the last TIME_INCREMENT. -/
def execTimeFreeRun (s : State) : Host.Outcome State Fault Refusal :=
  .next (if s.time.stat.state = 1 ∧ !s.freshInc then s.enterFreeRun else s)

/-- TIME_INCREMENT of a value in range (R281, R282). -/
def State.setIncrement (s : State) (inc ticks : Nat) : State :=
  let t := if ticks = 0 then { s with time := { s.time with incBase := inc, slewLeft := 0, slewInc := 0, lastInc := some s.now } }
    else { s with time := { s.time with slewInc := inc, slewLeft := ticks, lastInc := some s.now } }
  t.onTimeStat fun x =>
    { x with slewing := decide (ticks ≠ 0), state := if x.state = 0 then 0 else 1
             incFrac := BitVec.ofNat 32 t.time.incBase, incInt := BitVec.ofNat 8 (t.time.incBase / 2 ^ 32) }

/-- TIME_STAT as it reads: SINCE_INC_MS is counted, SLEWING lasts as long as the slew (Table 11-11). -/
def State.timeStatWords (s : State) : List Word :=
  let since := match s.time.lastInc with
    | some t => satNat 32 ((s.now - t) / 1000000)
    | none => 0xFFFFFFFF
  ({ s.time.stat with sinceIncMs := since, slewing := s.time.stat.slewing && decide (s.time.slewLeft ≠ 0) } : TimeStat).words

/-! ### Timers (R290, R291) -/

abbrev taOff : BitVec 3 := 0
abbrev taPulse : BitVec 3 := 1
abbrev taDrayman : BitVec 3 := 2
abbrev taStart : BitVec 3 := 3
abbrev taDrain : BitVec 3 := 4

/-- NEXT of the record follows the exact next instant. -/
def Timer.show (x : Timer) : Timer :=
  { x with reg := { x.reg with
      nextSecLo := BitVec.ofNat 32 (secOf x.next), nextSecHi := BitVec.ofNat 16 (secOf x.next / 2 ^ 32)
      nextNs := BitVec.ofNat 30 (nsOf x.next) } }

/-- A timer as its record reads; the next instant of timer 0 is that of the next beat (R290). -/
def State.shownTimer (s : State) (t : TimerId) : Timer :=
  let x := s.time.timers[t]
  if t.val = 0 then
    match s.time.nextBeat with
    | some b => { x with next := b.2 }.show
    | none => x
  else x

/-- The period in 2^-16 ns. -/
def Timer.period16 (x : Timer) : Nat := x.reg.periodNs.toNat * 2 ^ 16

/-- A timer that can fire: one of timers 1 to 7 with an action. -/
def Timer.armed (x : Timer) (t : TimerId) : Bool := t.val != 0 && decide (1 ≤ x.reg.action.toNat ∧ x.reg.action.toNat ≤ 4)

/-- A sub-array named by a timer's TARGET. -/
def timerSub (x : TimeTimer) : SubId := ⟨x.target.toNat % 4, Nat.mod_lt _ (by decide)⟩

/-- What a firing does, and whether its command refuses it (R291, Table 11-6); the pulse leaves at `at'`. -/
def State.timerAct (s : State) (x : TimeTimer) (inst at' : Nat) : State × Bool :=
  if x.action = taPulse then
    (s.emit (.pulse ⟨x.target.toNat % 4, Nat.mod_lt _ (by decide)⟩ at' x.width.toNat), false)
  else if x.action = taDrayman then (s.timerTrigger ⟨x.target.toNat % 16, Nat.mod_lt _ (by decide)⟩, false)
  else if x.action = taStart then
    let r := s.startAt (timerSub x) inst true
    (r.1, r.2.status != stAccepted)
  else
    let i := timerSub x
    let r := s.drainAt i (s.pointSpan i false inst)
    (r.1, r.2.status != stAccepted)

/-- After a firing, `missed` instants passed over: COUNT, the next instant and OFF (R291, R293). -/
def Timer.after (x : Timer) (missed : Nat) : Timer :=
  let c := x.reg.count
  let left := if c = 0 then 0 else c - 1
  let off := decide (x.reg.periodNs = 0) || (decide (c ≠ 0) && decide (left = 0))
  ({ next := x.next + (missed + 1) * x.period16
     reg := { x.reg with action := if off then taOff else x.reg.action, count := left, fired := x.reg.fired + 1
                         missed := x.reg.missed + BitVec.ofNat 32 missed } } : Timer).show

/-- A timer fires for its next instant, or for the last of the `missed + 1` instants passed over (R291, R293). -/
def State.fire (s : State) (t : TimerId) (missed : Nat) (at' : Nat) : State :=
  let x := s.time.timers[t]
  let inst := x.next + missed * x.period16
  let s := s.onTimer t fun y => y.after missed
  let r := s.timerAct x.reg inst at'
  if r.2 then
    (r.1.onTimer t fun y => { y with reg := { y.reg with refused := y.reg.refused + 1, refusedSeen := true } }).raise srcTimerRefused
      (BitVec.ofNat 32 t.val)
  else r.1

/-- TIMER_FIRE (R291): the time is at or after the timer's instant. -/
def execTimerFire (t : TimerId) (s : State) : Host.Outcome State Fault Refusal :=
  let x := s.time.timers[t]
  .next (if s.running ∧ x.armed t ∧ x.next ≤ s.time16 then s.fire t 0 x.next else s)

/-- TIMER_SET of timers 1 to 7 (R291): the counts of firings stay. -/
def State.setTimer (s : State) (t : TimerId) (action : BitVec 3) (target : BitVec 8) (width : BitVec 16) (first : Nat)
    (period : BitVec 48) (count : BitVec 32) : State :=
  s.onTimer t fun x =>
    if action = taOff then
      ({ next := 0, reg := { x.reg with action := taOff, target := 0, width := 0, periodNs := 0, count := 0 } } : Timer).show
    else
      ({ next := first, reg := { x.reg with action := action, target := target, width := width, periodNs := period
                                            count := count } } : Timer).show

/-! ### Steps (R283, R289, R293) -/

/-- The first beat at or after a time in 2^-16 ns. -/
def beatFrom (t : Nat) : Nat × Nat := (gridAt t / (1000000 * 2 ^ 16), gridAt t)

/-- A timer whose next instant a step passes fires once. -/
def State.stepTimer (s : State) (t : TimerId) (now16 : Nat) : State :=
  let x := s.time.timers[t]
  if x.armed t ∧ x.next ≤ now16 then
    let p := x.period16
    s.fire t (if p = 0 then 0 else (now16 - x.next) / p) now16
  else s

/-- The instant of the running interval of 2^DREQ_INTERVAL_LOG2 s, in 2^-16 ns (R298). -/
def State.dreqInstant (s : State) : Nat :=
  let k := (s.time.cfg.dreqIntervalLog2.toInt + 4).toNat
  let step := sec16 / 16 * 2 ^ k
  s.time16 / step * step

/-- Delay_Req begins to be sent, or sent otherwise: an instant that has passed is none to send at (R298). -/
def State.dreqPassed (s : State) : State :=
  if s.dreqInstant = s.time16 then s else { s with time := { s.time with lastDreq := some s.dreqInstant } }

/-- TIME_STEP to a new count (R283, R289, R293). -/
def State.stepTime (s : State) (tk : Nat) : State :=
  let forward := decide (s.time.tk < tk)
  let new16 := tk / 2 ^ 16
  let t := { s with time := { s.time with tk := tk, nextBeat := some (beatFrom new16)
                                          lastPps := if new16 % sec16 = 0 then none else some (secOf new16)
                                          lastDreq := none } }
  let t := t.dreqPassed
  let t := t.onTimeStat fun x => { x with steps := x.steps + 1, stepSeen := true }
  let t := if t.time.stat.state = 0 then
      (if t.freshInc then t.onTimeStat fun x => { x with state := 1 } else t.enterFreeRun)
    else t
  if forward then (allFin 8).foldl (fun (u : State) k => u.stepTimer k new16) t else t

/-! ### PPS_OUT (R292) -/

/-- PPS_OUT (R292): once for each whole second, while enabled. -/
def execPpsOut (s : State) : Host.Outcome State Fault Refusal :=
  let sec := secOf s.time16
  .next (if s.running ∧ s.time.lastPps ≠ some sec then
    let t := { s with time := { s.time with lastPps := some sec } }
    if s.time.cfg.ppsOutEn then t.emit (.pps sec s.time.cfg.ppsOutWidthUs.toNat) else t
    else s)

/-! ### Captures (R294) -/

/-- The entries a queue holds. -/
def capRoom (src : Fin 4) : Nat := if src = 3 then 64 else 16

/-- An entry joins its queue, or is dropped where the queue is full (R294). -/
def State.capture (s : State) (c : Capture) : State :=
  let q := s.time.captures[c.source]
  if q.length < capRoom c.source then { s with time := { s.time with captures := vset s.time.captures c.source (q ++ [c]) } }
  else
    let t := { s with time := { s.time with capDropped := true } }
    t.onTimeStat fun x => { x with capDrops := x.capDrops + 1, capOvfSeen := true }

/-- COMP of an edge source, in quarters of a nanosecond (Table 11-10). -/
def TimeCfg.comp (c : TimeCfg) (src : Fin 3) : Nat :=
  if src = 0 then c.compPpsA.toNat else if src = 1 then c.compPpsB.toNat else c.compTrig.toNat

/-- The quarters of a nanosecond within which a further edge is ignored (R294). -/
def edgeGap (src : Fin 3) : Nat := if src = 2 then 400 else 3600000000

/-- An edge follows the last accepted one of its source too soon (R294). -/
def State.earlyEdge (s : State) (src : Fin 3) (at4 : Nat) : Bool :=
  match s.time.lastEdge[src] with
  | some e => decide (at4 < e + edgeGap src)
  | none => false

/-- EDGE_CAPTURE (R294): a rising edge so many quarters of a nanosecond after the present tick. -/
def execEdgeCapture (src : Fin 3) (quarterNs : Fin 16) (s : State) : Host.Outcome State Fault Refusal :=
  let at' := 4 * s.now + quarterNs.val
  .next (if !s.running then s
    else if s.earlyEdge src at' then s.onTimeStat fun x => { x with edgesIgnored := x.edgesIgnored + 1 }
    else
      let t := { s with time := { s.time with lastEdge := vset s.time.lastEdge src (some at') } }
      let round := 2 ^ 50 * 1000000000
      let stamp := (s.time16 / 2 ^ 14 + quarterNs.val + round - s.time.cfg.comp src) % round * 2 ^ 14
      let t := t.capture { at16 := stamp, source := ⟨src.val, by omega⟩ }
      if src = 2 then t.pulseLine 21 else t)

/-- A capture entry (Table 11-14). -/
def Capture.words (c : Capture) : List Word :=
  let w := timeWords c.at16
  let head := [w.getD 0 0, w.getD 1 0, w.getD 2 0 ||| putAt (BitVec.ofNat 2 c.source.val) 30]
  if c.source = 3 then
    let b (k : Nat) : Nat := (c.msg.getD k 0).toNat
    head ++ [bitAt c.port 0 ||| bitAt c.dir 1 ||| putAt (BitVec.ofNat 4 (b 0)) 4 ||| putAt (BitVec.ofNat 8 c.len) 8 |||
      putAt (BitVec.ofNat 16 (b 30 * 256 + b 31)) 16] ++ bytesWords (bytesAt c.msg 0 64)
  else head

/-- CAPTURE_GET takes up to 16 entries of a source, oldest first (R294). -/
def State.takeCaptures (s : State) (src : Fin 4) (n : Nat) : State × List Capture :=
  let q := s.time.captures[src]
  ({ s with time := { s.time with captures := vset s.time.captures src (q.drop n) } }, q.take n)

end Sys2Proof.Machine
end

