-- ==== Sys2Proof/Machine/Beat.lean ====
section
/-! DEFINITION. The beat: delay updates, steering that falls due, lease checks, per-beat Tally events and the beat's own
schedule (R94 to R97, R286 to R289, R305, R330, R424). -/

namespace Sys2Proof.Machine

/-! ### The delay model (R95, R96; log entry 10) -/

/-- A binary64 value in two words of a table body. -/
def f64At (body : List Word) (k : Nat) : F64 := f64OfBits ((bw body k).toNat + 2 ^ 32 * (bw body (k + 1)).toNat)

/-- T0 of a DELAY table in 2^-16 ns. -/
def delayT0 (body : List Word) : Nat :=
  time16Of ((bw body 1).toNat + 2 ^ 32 * fieldOf (bw body 2) 0 16) (fieldOf (bw body 3) 0 30) 0

/-- A DELAY table's window holds a time. -/
def delayCovers (body : List Word) (t : Nat) : Bool :=
  decide (delayT0 body ≤ t) && decide (t < delayT0 body + (bw body 4).toNat * (1000000 * 2 ^ 16))

/-- The first word of the coefficients, and of the phase offsets, for `c` channels and `n` inputs. -/
def delayCoeff (c : Nat) : Nat := 7 + 2 * c
def delayPhase (body : List Word) (c n : Nat) : Nat := delayCoeff c + 2 * n * (delayOrder body + 1)

/-- The resident set in force at a time: the largest T0 whose window holds it, the last committed among equals (R97). -/
def State.delayFor (s : State) (i : SubId) (t : Nat) : Option TableEntry :=
  (s.tables.filter fun e => e.cls == 9 && e.identity.toNat / 256 == i.val && delayCovers e.body t).foldl
    (fun (a : Option TableEntry) e =>
      match a with
      | some b => if delayT0 b.body ≤ delayT0 e.body then some e else a
      | none => some e) none

/-- The coefficients of the input at place `m`. -/
def delayCoeffs (body : List Word) (c m : Nat) : List F64 :=
  let k := delayOrder body + 1
  (List.range k).map fun q => f64At body (delayCoeff c + 2 * (m * k + q))

/-- The value of an evaluation; a free value where it is not finite (log entry 3). -/
def evenOr (v : F64) (free : Nat) : Int := (f64Even v).getD (Config.nonFinite free)

/-- What the evaluation of one sub-array's set needs once: the coarse sample rate, the times t_b - T0 and 1 ms later in
seconds. -/
structure DelayEval where
  body : List Word
  c    : Nat
  n    : Nat
  fc   : F64
  t    : F64
  t1   : F64
  free : Nat
  deriving Repr

/-- φ of a channel at a delay, turns. -/
def DelayEval.phi (e : DelayEval) (m ch : Nat) (tau : F64) : F64 :=
  let off : F64 := some (((bw e.body (delayPhase e.body e.c e.n + m * e.c + ch)).toNat : Rat) / (2 ^ 32 : Rat))
  f64Sub off (f64Mul (f64At e.body (7 + 2 * ch)) tau)

/-- PHASE and RATE of a channel of the input at place `m`, and whether RATE was clamped (R95). -/
def DelayEval.rot (e : DelayEval) (m ch : Nat) (tau tau1 : F64) : (Nat × Int) × Bool :=
  let p := e.phi m ch tau
  let k := e.free + (m * e.c + ch) * 2
  let phase := codeOf 32 (evenOr (f64Mul (f64Frac p) (some (2 ^ 32 : Rat))) k)
  let r := evenOr (f64Div (f64Mul (f64Sub (e.phi m ch tau1) p) (some (2 ^ 40 : Rat))) (f64Mul e.fc (rnd64 (1 / 1000)))) (k + 1)
  ((phase, satInt 32 r), decide (satInt 32 r ≠ r))

/-- The update of the input at place `m`, and whether something was clamped (R95, R127). -/
def DelayEval.input (e : DelayEval) (m : Nat) : InUpd × Bool :=
  let a := delayCoeffs e.body e.c m
  let tau := f64Poly e.t a (some 1) (some 0)
  let tau1 := f64Poly e.t1 a (some 1) (some 0)
  let k := e.free + 2 * e.c * e.n + 2 * m
  let d := evenOr (f64Mul tau e.fc) k
  let dc := clampInt 0 4095 d
  let r := f64Sub tau (f64Div (some (dc : Rat)) e.fc)
  let fd := evenOr (f64Mul (f64Mul r e.fc) (some (2 ^ 32 : Rat))) (k + 1)
  let rots := (List.range e.c).map fun ch => e.rot m ch tau tau1
  (⟨dc.toNat, satInt 32 fd, rots.map fun x => x.1⟩, decide (dc ≠ d) || rots.any fun x => x.2)

/-- Seconds from T0 to a time in 2^-16 ns. -/
def sinceT0 (t0 t : Nat) : F64 := rnd64 ((((t : Int) - (t0 : Int) : Int) : Rat) / ((1000000000 * 2 ^ 16 : Nat) : Rat))

/-- The evaluation of a set for the beat at index `kb`. -/
def State.delayEval (s : State) (i : SubId) (e : TableEntry) (kb : Nat) : DelayEval :=
  let tb := s.obs[i].epoch.timeOf kb
  let t0 := delayT0 e.body
  { body := e.body, c := s.coarse i, n := s.nInputs i, fc := rnd64 (s.coarseRate i), t := sinceT0 t0 tb
    t1 := sinceT0 t0 (tb + 1000000 * 2 ^ 16), free := s.freeCount * 2 ^ 64 }

/-- An update with the record fields that take effect at a beat (R109). -/
def State.updateOf (s : State) (i : SubId) (kb : Nat) (stale : Bool) (ins : List InUpd) : Update :=
  let c := s.sieve[i].cfg
  { kb := kb, slip := c.delaySlip, calHold := c.calHold, invalid := stale && c.staleInvalid
    fdelayEn := s.front.assay[i].cfg.fdelayEn, ins := ins, xfade := c.xfadeLog2.toNat }

/-- PHASE carried forward from one index to another at RATE (R97). -/
def carryPhase (rot : Nat × Int) (kb kb' : Nat) : Nat × Int :=
  (codeOf 32 (shrEven ((rot.1 : Int) * 2 ^ 8 + rot.2 * ((kb' : Int) - (kb : Int))) 8), rot.2)

/-- What a sub-array's inputs have while no set has ever covered a beat: no delay, no phase (log entry 17). -/
def State.noUpdate (s : State) (i : SubId) : List InUpd :=
  List.replicate (s.nInputs i) ⟨0, 0, List.replicate (s.coarse i) (0, 0)⟩

/-- The update for a beat at index `kb`: from the set in force, else the last one carried forward (R95, R97). -/
def State.makeUpdate (s : State) (i : SubId) (kb : Nat) : State × Update :=
  match s.delayFor i (s.obs[i].epoch.timeOf kb) with
  | some e =>
    let ev := s.delayEval i e kb
    let r := (List.range ev.n).map fun m => ev.input m
    let t := s.drawn.onSievStat i fun x => { x with modelStale := false }
    let t := if r.any fun x => x.2 then
        (t.onSievStat i fun x => { x with rangeSeen := true }).raise srcDelayRange (BitVec.ofNat 32 i.val) (some i)
      else t
    (t, s.updateOf i kb false (r.map fun x => x.1))
  | none =>
    let t := if s.sieve[i].stat.modelStale then s
      else (s.onSievStat i fun x => { x with modelStale := true, staleSeen := true }).raise srcDelayStale (BitVec.ofNat 32 i.val)
        (some i)
    let ins := match s.sieve[i].updates.getLast? with
      | some u => u.ins.map fun x => { x with rot := x.rot.map fun r => carryPhase r u.kb kb }
      | none => s.noUpdate i
    (t, s.updateOf i kb true ins)

/-! ### DELAY_LOAD (R97, R353) -/

/-- The words of a set with the coefficients of one input replaced. -/
def putCoeffs (body : List Word) (c m : Nat) (codes : List Nat) : List Word :=
  let k := delayOrder body + 1
  (codes.take k).zipIdx.foldl (fun (b : List Word) e =>
    let a := delayCoeff c + 2 * (m * k + e.2)
    setNth (setNth b a (BitVec.ofNat 32 e.1)) (a + 1) (BitVec.ofNat 32 (e.1 / 2 ^ 32))) body

/-- One DELAY_LOAD acts on its set. -/
def State.actLoad (s : State) (i : SubId) (l : DelayLoad) : State :=
  let c := s.coarse i
  { s with tables := s.tables.map fun e =>
      if e.cls == 9 && e.identity.toNat == l.set + 256 * i.val then
        { e with body := l.ins.foldl (fun (b : List Word) x => putCoeffs b c (s.inputIndex i x.1) x.2) e.body }
      else e }

/-- The DELAY_LOADs whose time is at or before a beat, in the order in which they came. -/
def State.actLoads (s : State) (i : SubId) (b : Nat) : State :=
  let due := s.sieve[i].loads.filter fun l => decide (l.at16 ≤ b)
  let t := s.onSieve i fun x => { x with loads := x.loads.filter fun l => !decide (l.at16 ≤ b) }
  due.foldl (fun (u : State) l => u.actLoad i l) t

/-! ### A sub-array's part of a beat (R287 step 1) -/

/-- A stream of a sub-array has processed aligned index `kb`. -/
def State.passed (s : State) (i : SubId) (kb : Nat) : Bool :=
  match s.parser[i].start with
  | some ks => decide (ks ≤ kb) && decide (kb < s.unaligned i)
  | none => false

/-- The delay update of a beat (R94). -/
def State.sendUpdate (s : State) (i : SubId) (kb : Nat) : State :=
  let r := s.makeUpdate i kb
  let t := (r.1.onSieve i fun x => { x with updates := x.updates ++ [r.2] }).fitFades i kb r.2.xfade
  if s.passed i kb then
    (t.onSievStat i fun x => { x with lateUpdates := x.lateUpdates + 1, lateSeen := true }).raise srcSieveLate
      (BitVec.ofNat 32 i.val) (some i)
  else t

/-- The fine sample from which something at a beat holds; the first one while no start is set. -/
def State.fineOfBeat (s : State) (i : SubId) (kb : Nat) : Nat := if s.parser[i].start.isSome then s.fineFrom i kb else 0

/-- A weight switch that waits for this beat is fixed (R227). -/
def State.fixSwitch (s : State) (i : SubId) (b kb : Nat) : State :=
  match s.beam[i].loadAt with
  | some t =>
    if t ≤ b then
      let n := s.fineOfBeat i kb
      s.onBeam i fun x => { x with loadAt := none, stat := { x.stat with switchFs := BitVec.ofNat 64 n } }
    else s
  | none => s

/-- A coefficient swap that waits for the beat is scheduled (R103). -/
def State.fixSwap (s : State) (i : SubId) (kb : Nat) : State :=
  if s.sieve[i].swapAsk then (s.onSieve i fun x => { x with swapAsk := false }).addFade i (s.fineOfBeat i kb) else s

/-- Slices that have returned run again from this beat's index (R108). -/
def State.fixReturns (s : State) (i : SubId) (kb : Nat) : State :=
  if s.parser[i].start.isSome && decide (s.ks i ≤ kb) then
    s.sieve[i].returned.foldl (fun (t : State) sl => t.returnSlice i sl kb) s
  else s.onSieve i fun x => { x with returned := [] }

/-- One sub-array in ALIGN or OBSERVE at a beat that starts at `b`. A DC-blocker freeze comes in with its own index. -/
def State.beatSub (s : State) (i : SubId) (b : Nat) : State :=
  if !s.active i then s
  else
    let kb := s.obs[i].epoch.indexAt b
    let t := (s.actLoads i b).sendUpdate i kb
    (((((t.fixSwitch i b kb).fixSwap i kb).fixReturns i kb)).showSieve i).parserBeat i

/-! ### Per-beat events (R287 step 3) -/

/-- Each event whose counts have advanced since the last beat is raised once, its DETAIL the first of them that has. -/
def State.reportCounts (s : State) : State :=
  let w := s.watched
  let old := s.snap
  let t := { s with snap := w.map fun e => e.counts.map fun c => some c.2 }
  w.zipIdx.foldl (fun (u : State) e =>
    match e.1.advanced (old.getD e.2 []) with
    | some d => u.raise e.1.source d e.1.sub
    | none => u) t

/-- The sensors of a beat: power, the bank, and THERMAL_WARN above 100 degrees or a DRAM case above 80 degrees (R424). -/
def State.readSensors (s : State) (r : BeatReadings) : State :=
  let t := (s.onBellStat fun x => { x with powerDw := r.powerDw }).seeBank r.bank10mv
  let t := (allFin 42).foldl (fun (u : State) k => u.onTileReg k fun x => { x with temp := r.tiles[k] }) t
  if 800 < r.tjMax.toInt ∨ 640 < r.dramMax.toInt then t.raise srcThermalWarn (BitVec.ofNat 32 r.hotIsland.val) else t

/-- BNCH_HEALTH is refreshed (R330). -/
def State.refreshHealth (s : State) (r : BeatReadings) : State :=
  let t16 := s.time16
  let sa := (allFin 4).foldl (fun (a : Nat) i => a + (s.saState i).toNat * 16 ^ i.val) 0
  { s with bench := { s.bench with health :=
      { seq := s.bench.health.seq + 2, mode := s.mode, faultNLow := s.faultLow, escalated := satNat 8 (s.sourcesIn 3)
        saState := BitVec.ofNat 16 sa, secLo := BitVec.ofNat 32 (secOf t16), secHi := BitVec.ofNat 16 (secOf t16 / 2 ^ 32)
        ns := BitVec.ofNat 30 (nsOf t16), powerDw := r.powerDw, supply10mv := s.bell.stat.supply10mv, tjMax := r.tjMax
        dramMax := r.dramMax, clksState := s.clock.stat.state, timeState := s.time.stat.state
        tallyActive := BitVec.ofNat 32 (s.sourcesIn 1) } } }

/-- The work of a beat (R287). -/
def State.beatWork (s : State) (b : Nat) (r : BeatReadings) : State :=
  let t := { s with time := { s.time with beatAt := b } }.pulseLine 20
  let t := (allFin 4).foldl (fun (u : State) i => u.beatSub i b) t
  let t := t.takeEntries
  let t := (allFin 4).foldl (fun (u : State) k => u.checkLease k) t
  let t := (allFin 4).foldl (fun (u : State) k => u.benchBeat k) t
  let t := t.reportCounts
  let t := if t.time.capDropped then { t with time := { t.time with capDropped := false } }.raise srcTimeCaptureOvf 0 else t
  (t.readSensors r).refreshHealth r

/-! ### The schedule (R286, R288, R289) -/

/-- A millisecond in 2^-16 ns. -/
def ms16 : Nat := 1000000 * 2 ^ 16

/-- Beat `j` starts at `b`: its lag, its work, and the beat after it. -/
def State.runBeat (s : State) (j b : Nat) (r : BeatReadings) : State :=
  let lag : Nat := (b - j * ms16) / (1000 * 2 ^ 16)
  let due := max (b + ms16 / 2) ((j + 1) * ms16)
  let ends := b + r.workNs * 2 ^ 16
  let t := s.onTimeStat fun x =>
    { x with beat := BitVec.ofNat 64 j, lagUs := satNat 32 lag, maxLagUs := satNat 32 (max x.maxLagUs.toNat lag) }
  let t := t.onTimer 0 fun x => { x with reg := { x.reg with fired := x.reg.fired + 1 } }
  let t := { t with time := { t.time with nextBeat := some (j + 1, max due ends) } }.beatWork b r
  if due < ends then
    (t.onTimeStat fun x => { x with lateBeats := x.lateBeats + 1, lateSeen := true }).raise srcBeatLate (BitVec.ofNat 32 j)
  else t

/-- A DC-blocker freeze named for a time before a beat that follows skipped ones acts at that beat (R289). -/
def State.slipFreeze (s : State) (i : SubId) (b : Nat) : State :=
  let kb := s.obs[i].epoch.indexAt b
  s.onSieve i fun x => { x with freezeAsk := x.freezeAsk.map fun e => (max e.1 kb, e.2) }

/-- A beat would start more than 64 ms late: the beats up to the first grid instant from then on are skipped. -/
def State.slipBeat (s : State) (j b : Nat) : State :=
  let m := beatFrom b
  let t := { s with time := { s.time with nextBeat := some m } }
  let t := (allFin 4).foldl (fun (u : State) i => if u.active i then u.slipFreeze i m.2 else u) t
  (t.onTimeStat fun x => { x with slips := x.slips + 1, skippedBeats := x.skippedBeats + BitVec.ofNat 32 (m.1 - j), slipSeen := true }).raise
    srcBeatSlip (BitVec.ofNat 32 m.1)

/-- The Foreman runs: out of DORMANT, or past step 3 of the roll call (R429). -/
def State.foremanRuns (s : State) : Bool := s.running && (s.mode != modeDormant || decide (4 ≤ s.start.reg.step.toNat))

/-- BEAT (R287 to R289): the next beat's instant has come. -/
def execBeat (r : BeatReadings) (s : State) : Host.Outcome State Fault Refusal :=
  .next (match s.time.nextBeat with
    | none => s
    | some (j, b) =>
      if !s.foremanRuns || decide (s.time16 < b) then s
      else if j * ms16 + 64 * ms16 < b then
        let t := s.slipBeat j b
        let m := beatFrom b
        if s.time16 < m.2 then t else t.runBeat m.1 m.2 r
      else s.runBeat j b r)

end Sys2Proof.Machine
end

