-- ==== Sys2Proof/Machine/Clock.lean ====
section
/-! DEFINITION. The Clocksmith: measurement, qualification, dispute, selection and switching (R271 to R279). -/

namespace Sys2Proof.Machine

abbrev csFreerun : BitVec 3 := 0
abbrev csLocked : BitVec 3 := 1
abbrev csSwitching : BitVec 3 := 2
abbrev csHoldover : BitVec 3 := 3

abbrev qsUnused : BitVec 3 := 0
abbrev qsAbsent : BitVec 3 := 1
abbrev qsQualifying : BitVec 3 := 2
abbrev qsQualified : BitVec 3 := 3
abbrev qsDisputed : BitVec 3 := 4
abbrev qsWaiting : BitVec 3 := 5

/-- The rank of a source as its strap was sampled (R272, Table 11-2). -/
def ClksStat.rank (c : ClksStat) (x : Fin 3) : Nat :=
  if x.val = 0 then c.rankA.toNat else if x.val = 1 then c.rankB.toNat else c.rankC.toNat

/-- A change of one source. -/
def State.onRef (s : State) (x : Fin 3) (f : RefSource → RefSource) : State :=
  { s with clock := { s.clock with srcs := vmod s.clock.srcs x f } }

/-- A source. -/
def State.refOf (s : State) (x : Fin 3) : RefSource := s.clock.srcs[x]

/-- The sources of a rank in one of the states QUALIFIED and, where asked, DISPUTED; REF_A before REF_B before REC_A. -/
def State.ofRank (s : State) (r : Nat) (disputed : Bool) : List (Fin 3) :=
  (allFin 3).filter fun x =>
    decide (s.clock.stat.rank x = r) &&
      ((s.refOf x).qstate == qsQualified || (disputed && (s.refOf x).qstate == qsDisputed))

/-- The best rank that has a QUALIFIED source. -/
def State.bestRank (s : State) : Option Nat := [1, 2, 3].find? fun r => !(s.ofRank r false).isEmpty

/-- The selected source. -/
def State.selected (s : State) : Option (Fin 3) :=
  if h : s.clock.stat.selected.toNat < 3 then some ⟨s.clock.stat.selected.toNat, h⟩ else none

/-- The source R275 selects: of the best rank the one already selected, else the first; none while a dispute holds the
Clocksmith in HOLDOVER (R276). -/
def State.choice (s : State) : Option (Fin 3) :=
  if s.clock.disputeHold.isSome then none
  else
    match s.bestRank with
    | none => none
    | some r =>
      let c := s.ofRank r false
      match s.selected with
      | some x => if c.contains x then some x else c.head?
      | none => c.head?

/-- A switch to a source begins (R277): it is the selected source from here on (log entry 48). -/
def State.beginSwitch (s : State) (x : Fin 3) : State :=
  let held := if s.clock.stat.state = csHoldover then (s.now - s.clock.holdAt) / 1000000000 else 0
  let t := s.onClks fun c =>
    { c with state := csSwitching, selected := BitVec.ofNat 2 x.val, everLocked := true
             holdoverS := c.holdoverS + BitVec.ofNat 32 held }
  { t with clock := { t.clock with incoming := some x, switchAt := s.now } }

/-- HOLDOVER is entered (R279). -/
def State.enterHoldover (s : State) : State :=
  if s.clock.stat.state = csHoldover then s
  else
    let t := s.onClks fun c => { c with state := csHoldover, selected := 3, holdoverSeen := true }
    ({ t with clock := { t.clock with incoming := none, holdAt := s.now } }).raise srcClkHoldover
      (BitVec.ofNat 32 s.clock.stat.selected.toNat)

/-- Selection by R275, R276 and R279; not reconsidered during a switch (R278). -/
def State.reselect (s : State) : State :=
  if s.clock.stat.state = csSwitching then s
  else
    match s.choice with
    | some x => if s.clock.stat.state = csLocked ∧ s.selected = some x then s else s.beginSwitch x
    | none => if s.clock.stat.state = csFreerun ∧ s.clock.disputeHold.isNone then s else s.enterHoldover

/-- A switch ends, done or abandoned: WAITING sources start to qualify (R278). -/
def State.endClkSwitch (s : State) : State :=
  let t := (allFin 3).foldl (fun (u : State) x =>
    u.onRef x fun r => if r.qstate = qsWaiting then { r with qstate := qsQualifying, qual := 0 } else r) s
  { t with clock := { t.clock with incoming := none } }

/-- A qualified or disputed source is disqualified (R274, R276); a switch to it is abandoned and R275 selects again at
once (R278). -/
def State.disqualify (s : State) (x : Fin 3) (present : Bool) : State :=
  let t := s.onRef x fun r => { r with qstate := if present then qsQualifying else qsAbsent, qual := 0 }
  let t := (t.onClks fun c => { c with disqSeen := true, disqualifications := c.disqualifications + 1 }).raise srcClkDisq
    (BitVec.ofNat 32 x.val)
  let t := if t.clock.stat.state = csSwitching ∧ t.clock.incoming = some x then
      (t.onClks fun c => { c with state := csLocked }).endClkSwitch
    else t
  t.reselect

/-- A source would be selected in place of the incoming one: its rank is better (R278). -/
def State.betterThanIncoming (s : State) (x : Fin 3) : Bool :=
  match s.clock.incoming with
  | some y => s.clock.stat.state == csSwitching && decide (s.clock.stat.rank x < s.clock.stat.rank y)
  | none => false

/-- A measurement finds its source present (R273): within 4 ppm for REF_A and REF_B, and with block lock on port A for REC_A. -/
def State.measuredPresent (s : State) (x : Fin 3) (m : RefMeasure) : Bool :=
  m.present && (if x.val = 2 then (s.benchOf 2).stat.linkUp else decide (-4000 ≤ m.offset ∧ m.offset ≤ 4000))

/-- A source that has qualified is QUALIFIED, or WAITING where a switch must not reconsider its choice for it (R278). -/
def State.qualify (s : State) (x : Fin 3) : State :=
  if s.betterThanIncoming x then s.onRef x fun r => { r with qstate := qsWaiting, qual := 0 }
  else s.onRef x fun r => { r with qstate := qsQualified, qual := 400 }

/-- One measurement of one source (R273, R274): of a present one the frequency and offset are measured, whatever its rank. -/
def State.measureRef (s : State) (x : Fin 3) (m : RefMeasure) : State :=
  let present := s.measuredPresent x m
  let t := if present then
      s.onRef x fun r => { r with f100 := m.f100 && decide (x.val ≠ 2), offset := m.offset }
    else s
  if s.clock.stat.rank x = 0 then t.onRef x fun r => { r with qstate := qsUnused, qual := 0 }
  else
    let within (lim : Int) : Bool := decide (-lim ≤ m.offset ∧ m.offset ≤ lim)
    let q := (s.refOf x).qstate
    if q = qsQualified ∨ q = qsDisputed then if present && within 4000 then t else t.disqualify x present
    else if !present then t.onRef x fun r => { r with qstate := qsAbsent, qual := 0 }
    else if q = qsWaiting then t
    else if q = qsQualifying then
      let n := if within 2000 && !m.missing then (s.refOf x).qual + 1 else 0
      if n < 400 then t.onRef x fun r => { r with qual := n } else t.qualify x
    else if t.betterThanIncoming x then t.onRef x fun r => { r with qstate := qsWaiting, qual := 0 }
    else t.onRef x fun r => { r with qstate := qsQualifying, qual := 0 }

/-- The distance of two sources' offsets, 0.001 ppm. -/
def State.refGap (s : State) (x y : Fin 3) : Nat := ((s.refOf x).offset - (s.refOf y).offset).natAbs

/-- Every one of some sources lies within 1 ppm of every other (Table 11-3). -/
def State.refsAgree (s : State) (xs : List (Fin 3)) : Bool := xs.all fun x => xs.all fun y => decide (s.refGap x y ≤ 1000)

/-- The source with the smallest offset magnitude among those within 2 ppm. -/
def State.refKept (s : State) (xs : List (Fin 3)) : Option (Fin 3) :=
  (xs.filter fun x => decide ((s.refOf x).offset.natAbs ≤ 2000)).foldl (fun (a : Option (Fin 3)) x =>
    match a with
    | some y => if (s.refOf x).offset.natAbs < (s.refOf y).offset.natAbs then some x else a
    | none => some x) none

/-- The sources of the best rank that disagree become DISPUTED but for the kept one and those near it (R276). -/
def State.disputeRank (s : State) (r : Nat) (xs : List (Fin 3)) : State :=
  let kept := s.refKept xs
  let out := xs.filter fun x => match kept with
    | some y => decide (1000 < s.refGap x y)
    | none => true
  let t := out.foldl (fun (u : State) x => u.onRef x fun z => { z with qstate := qsDisputed }) s
  let t := t.onClks fun c => { c with dispute := true }
  let t := if kept.isSome then t
    else { t with clock := { t.clock with disputeHold := some ⟨(r - 1) % 3, Nat.mod_lt _ (by decide)⟩ } }
  t.raise srcClkDispute (BitVec.ofNat 32 r)

/-- Agreement of a rank is counted; after 4 s its disputed sources are QUALIFIED again and no dispute holds (R276). -/
def State.agreeRank (s : State) (k : Fin 3) : State :=
  let xs := s.ofRank (k.val + 1) true
  let n := if s.refsAgree xs && !xs.isEmpty then min 400 (s.clock.agree[k] + 1) else 0
  let t := { s with clock := { s.clock with agree := vset s.clock.agree k n } }
  if n < 400 then t
  else
    let t := xs.foldl (fun (u : State) x => if (u.refOf x).qstate = qsDisputed then u.qualify x else u) t
    if t.clock.disputeHold = some k then { t with clock := { t.clock with disputeHold := none } } else t

/-- A dispute that holds the Clocksmith ends when a source of its rank lies within 2 ppm: that source is kept (R276;
log entry 49). -/
def State.endDispute (s : State) : State :=
  match s.clock.disputeHold with
  | none => s
  | some k =>
    match s.refKept (s.ofRank (k.val + 1) true) with
    | some x =>
      let t := s.onRef x fun z => { z with qstate := qsQualified }
      { t with clock := { t.clock with disputeHold := none } }
    | none => s

/-- Disagreement within the best rank (R276). -/
def State.checkDispute (s : State) : State :=
  match s.bestRank with
  | some r => let xs := s.ofRank r false; if s.refsAgree xs then s else s.disputeRank r xs
  | none => s

/-- While LOCKED the estimate E follows the selected source; the spec does not give how, so E is a free value
(log entry 3). -/
def State.updateEstimate (s : State) : State :=
  if s.clock.stat.state = csLocked then
    ({ s with clock := { s.clock with est := signedOf 16 s.freeWord.toNat } }).drawn
  else s

/-- CLK_MEASURE (R273 to R279): 10 ms after the last measurement, while the always-on island is powered. -/
def execClkMeasure (a b c : RefMeasure) (s : State) : Host.Outcome State Fault Refusal :=
  .next (if s.bell.alive ∧ s.clock.lastMeasure + 10000000 ≤ s.now then
    let t := { s with clock := { s.clock with lastMeasure := s.now } }
    let t := ((t.measureRef 0 a).measureRef 1 b).measureRef 2 c
    let t := (allFin 3).foldl (fun (u : State) k => u.agreeRank k) t
    let t := if t.clock.stat.state = csSwitching then t else t.endDispute.checkDispute
    t.reselect.updateEstimate
    else s)

/-- REF_CYCLES_MISSING (R274, R279): eight cycles in a row are missing. -/
def execRefCyclesMissing (x : Fin 3) (s : State) : Host.Outcome State Fault Refusal :=
  let q := (s.refOf x).qstate
  .next (if !s.bell.alive ∨ q = qsUnused ∨ q = qsAbsent then s
    else if q = qsQualified ∨ q = qsDisputed then s.disqualify x false
    else s.onRef x fun r => { r with qstate := qsAbsent, qual := 0 })

/-- CLK_SWITCH (R277, R278): the phase has been measured for 50 ms and absorbed; WAITING sources start to qualify. -/
def execClkSwitch (phasePs : Int) (s : State) : Host.Outcome State Fault Refusal :=
  .next (if s.clock.stat.state = csSwitching ∧ s.clock.switchAt + 50000000 ≤ s.now then
    let t := s.onClks fun c =>
      { c with state := csLocked, switchSeen := true, switches := c.switches + 1
               buildoutPs := c.buildoutPs + BitVec.ofInt 32 phasePs }
    t.endClkSwitch.raise srcClkSwitch (BitVec.ofNat 32 s.clock.stat.selected.toNat)
    else s)

/-- CLKS_STAT as it reads: words 2 to 4 from the sources, OCXO_EST from E, and the seconds of a running HOLDOVER (R299). -/
def State.clksWords (s : State) : List Word :=
  let run := if s.clock.stat.state = csHoldover then (s.now - s.clock.holdAt) / 1000000000 else 0
  let c := { s.clock.stat with ocxoEst := BitVec.ofInt 16 s.clock.est, holdoverS := s.clock.stat.holdoverS + BitVec.ofNat 32 run }
  let src (x : Fin 3) : Word :=
    let r := s.refOf x
    putAt r.qstate 0 ||| bitAt r.f100 3 ||| putAt (BitVec.ofNat 9 r.qual) 4 |||
      putAt (BitVec.ofInt 16 (clampInt (-32767) 32767 r.offset)) 16
  ((c.words.set 2 (src 0)).set 3 (src 1)).set 4 (src 2)

end Sys2Proof.Machine
end

