-- ==== Sys2Proof/Machine/Baler.lean ====
section
/-! DEFINITION. The Baler: planes, codes, the stream format, and the jobs (R377 to R384). -/

namespace Sys2Proof.Machine

/-- The Baler's port. -/
def balePort : MasterId := 5

/-! ### Planes (R379) -/

/-- The coded-side order of a block's raw bytes. -/
def planes (w : Nat) (raw : List Byte) : List Byte :=
  let e := raw.length / w
  ((List.range w).flatMap fun p => (List.range e).map fun k => raw.getD (k * w + p) 0) ++ raw.drop (e * w)

/-- The raw order of a block's coded-side bytes. -/
def unplanes (w : Nat) (coded : List Byte) : List Byte :=
  let e := coded.length / w
  ((List.range e).flatMap fun k => (List.range w).map fun p => coded.getD (p * e + k) 0) ++ coded.drop (e * w)

/-! ### Codes (R380, R381) -/

/-- The bits of a number. -/
def bitlen (n : Nat) : Nat := if n = 0 then 0 else Nat.log2 n + 1

/-- The width a code is read in. -/
def codeWidth (maxBits have' : Nat) : Nat := min maxBits (bitlen have')

/-- The encoder's dictionary: a match extended by a byte, and the code of the extension. -/
abbrev BaleDict := List ((Nat × Byte) × Nat)

/-- Greedy longest match over the bytes of a block: the codes of the matches. `cur` is the match so far; an entry is
defined after each code but the last, while the dictionary has room. -/
def baleMatches (maxBits : Nat) : List Byte → Option Nat → BaleDict → Nat → List Nat
  | [], none, _, _ => []
  | [], some c, _, _ => [c]
  | b :: bs, none, d, next => baleMatches maxBits bs (some b.toNat) d next
  | b :: bs, some c, d, next =>
    match d.find? fun e => e.1 == (c, b) with
    | some e => baleMatches maxBits bs (some e.2) d next
    | none =>
      c :: (if next < 2 ^ maxBits then baleMatches maxBits bs (some b.toNat) (((c, b), next) :: d) (next + 1)
            else baleMatches maxBits bs (some b.toNat) d next)

/-- Every code of a block with its width: CLEAR, the matches, END. -/
def baleCodes (maxBits : Nat) (raw : List Byte) : List (Nat × Nat) :=
  let ms := baleMatches maxBits raw none [] 258 ++ [257]
  let have' (j : Nat) : Nat := min (2 ^ maxBits) (258 + (j - 1))
  (256, codeWidth maxBits 258) :: (List.range ms.length).map fun j => (ms.getD j 0, codeWidth maxBits (have' j))

/-- Codes packed least significant bit first; the last byte is filled with zero bits. -/
def packCodes (cs : List (Nat × Nat)) : List Byte :=
  let r := cs.foldl (fun (a : Nat × Nat) c => (a.1 + c.1 * 2 ^ a.2, a.2 + c.2)) (0, 0)
  leBytes ((r.2 + 7) / 8) r.1

/-- The content of a coded block. -/
def baleEncode (maxBits : Nat) (raw : List Byte) : List Byte := packCodes (baleCodes maxBits raw)

/-- The decoder's state: bits read, entries from 258 on in reverse, whether the next code is the first after CLEAR,
the match before, and the output reversed. -/
structure Unbale where
  pos     : Nat
  entries : List (List Byte)
  first   : Bool
  prev    : List Byte
  out     : List Byte
  deriving DecidableEq, Repr

/-- The entry of a code below `have`. -/
def Unbale.entry (u : Unbale) (k : Nat) : List Byte :=
  if k < 256 then [BitVec.ofNat 8 k] else u.entries.getD (u.entries.length - 1 - (k - 258)) []

/-- The decoder of R380 from the code after the first CLEAR on; none where the block is malformed. `n` is the number of
its bits and bounds the codes. -/
def unbaleLoop (maxBits bits total : Nat) : Nat → Unbale → Option (Nat × List Byte)
  | 0, _ => none
  | n + 1, u =>
    let have' := 258 + u.entries.length
    let w := codeWidth maxBits have'
    let k := bits / 2 ^ u.pos % 2 ^ w
    let v := { u with pos := u.pos + w }
    if total < u.pos + w then none
    else if k = 256 then unbaleLoop maxBits bits total n { v with entries := [], first := true }
    else if k = 257 then some (v.pos, v.out.reverse)
    else if u.first then
      if 255 < k then none
      else
        let e := [BitVec.ofNat 8 k]
        unbaleLoop maxBits bits total n { v with first := false, prev := e, out := e ++ v.out }
    else if have' < k then none
    else
      let e := if k < have' then u.entry k else u.prev ++ u.prev.take 1
      let more := if have' < 2 ^ maxBits then (u.prev ++ e.take 1) :: u.entries else u.entries
      unbaleLoop maxBits bits total n { v with entries := more, prev := e, out := e.reverse ++ v.out }

/-- The coded-side bytes of a coded block of `len` raw bytes; none where the block is malformed (R380). -/
def baleDecode (maxBits len : Nat) (content : List Byte) : Option (List Byte) :=
  let bits := leNat content
  let total := 8 * content.length
  if total < 9 ∨ bits % 512 ≠ 256 then none
  else
    match unbaleLoop maxBits bits total total ⟨9, [], true, [], []⟩ with
    | none => none
    | some (pos, out) =>
      if (pos + 7) / 8 = content.length ∧ bits / 2 ^ pos = 0 ∧ out.length = len then some out else none

/-! ### Stream (R378) -/

/-- The options of BALE (R377). -/
structure BaleOptions where
  planeLog : Nat
  planes   : Bool
  maxBits  : Nat
  blockLog : Nat
  deriving DecidableEq, Repr

/-- OPTIONS, or none where a field is out of range. -/
def baleOptions (w : Word) : Option BaleOptions :=
  let o : BaleOptions := ⟨fieldOf w 1 3, flagOf w 0, fieldOf w 4 4 + 9, fieldOf w 8 5⟩
  if (o.planes ∧ (o.planeLog = 0 ∨ 4 < o.planeLog)) ∨ (!o.planes ∧ o.planeLog ≠ 0) ∨ 16 < o.maxBits ∨ o.blockLog < 16 ∨
      24 < o.blockLog ∨ fieldOf w 13 19 ≠ 0 then none
  else some o

/-- Bytes with zeros up to a multiple of four. -/
def pad4 (bs : List Byte) : List Byte := bs ++ List.replicate ((4 - bs.length % 4) % 4) 0

/-- One block of the stream: header, content and padding (R378, R381). -/
def baleBlock (o : BaleOptions) (raw : List Byte) : List Byte :=
  let side := if o.planes then planes (2 ^ o.planeLog) raw else raw
  let coded := baleEncode o.maxBits side
  let stored := decide (raw.length < coded.length)
  let content := if stored then side else coded
  leBytes 4 content.length ++ [if stored then 1 else 0, 0, 0, 0] ++ pad4 content

/-- The 32-byte header (Table 14-8). -/
def baleHeader (o : BaleOptions) (rawBytes : Nat) (crc : Word) : List Byte :=
  let h := leBytes 4 0x454C4142 ++ [0x01, if o.planes then 1 else 0, BitVec.ofNat 8 o.planeLog, BitVec.ofNat 8 o.maxBits] ++
    leBytes 8 rawBytes ++ leBytes 4 (2 ^ o.blockLog) ++ leBytes 4 ((rawBytes + 2 ^ o.blockLog - 1) / 2 ^ o.blockLog) ++
    leBytes 4 crc.toNat
  h ++ leBytes 4 (crc32 h).toNat

/-! ### Jobs (R381 to R384) -/

/-- How a job ends. -/
inductive BaleEnd where
  /-- Bytes of the raw data and of the stream. -/
  | ok (raw stream : Nat)
  | nospace
  | check (offset : Nat)
  | other (offset : Nat)
  deriving DecidableEq, Repr

/-- The raw bytes of a job that has completed. -/
def BaleEnd.raw : BaleEnd → Nat
  | .ok raw _ => raw
  | _ => 0

/-- The stream bytes of a job that has completed. -/
def BaleEnd.stream : BaleEnd → Nat
  | .ok _ stream => stream
  | _ => 0

/-- Reads of the Baler; the offset of the failing read where one fails. -/
def State.baleRead (s : State) (a n : Nat) : State × Except Nat (List Byte) :=
  (kibPieces a n).foldl (fun r e =>
    match r.2 with
    | .error _ => r
    | .ok bs =>
      let u := r.1.busRead balePort e.1 e.2
      (u.1, if u.2.1 = respComplete then .ok (bs ++ u.2.2) else .error (e.1 - a))) (s, .ok [])

/-- Writes of the Baler; false where one fails. -/
def State.baleWrite (s : State) (a : Nat) (bs : List Byte) : State × Bool :=
  (kibPieces a bs.length).foldl (fun r e =>
    if r.2 then
      let u := r.1.busWrite balePort e.1 (((bs.drop (e.1 - a)).take e.2).map some)
      (u.1, decide (u.2 = respComplete))
    else r) (s, true)

/-- The blocks of a BALE from offset `off` of the source on; `at'` is where the next block goes, `n` bounds them. The self-check of a
block that differs stops the job once the block is written (R382); `bad` is the offset of that block. -/
def State.baleBlocks (o : BaleOptions) (src dst dstBytes len : Nat) (bad : Option Nat) :
    Nat → State → Nat → Nat → List Byte → State × Except BaleEnd (Nat × List Byte)
  | 0, s, _, at', raw => (s, .ok (at', raw))
  | n + 1, s, off, at', raw =>
    if len ≤ off then (s, .ok (at', raw))
    else
      let size := min (2 ^ o.blockLog) (len - off)
      match s.baleRead (src + off) size with
      | (t, .error e) => (t, .error (.other (off + e)))
      | (t, .ok bs) =>
        let blk := baleBlock o bs
        if dstBytes < at' + blk.length then (t, .error .nospace)
        else
          let w := t.baleWrite (dst + at') blk
          if !w.2 then (w.1, .error (.other off))
          else if bad = some off then (w.1, .error (.check off))
          else State.baleBlocks o src dst dstBytes len bad n w.1 (off + size) (at' + blk.length) (raw ++ bs)

/-- BALE (R381 to R383). -/
def State.baleJob (s : State) (o : BaleOptions) (src len dst dstBytes : Nat) (bad : Option Nat := none) : State × BaleEnd :=
  if dstBytes < 32 then (s, .nospace)
  else
    match s.baleWrite dst (List.replicate 32 0) with
    | (t, false) => (t, .other 0)
    | (t, true) =>
      match State.baleBlocks o src dst dstBytes len bad (len / 2 ^ o.blockLog + 1) t 0 32 [] with
      | (u, .error e) => (u, e)
      | (u, .ok (at', raw)) =>
        let w := u.baleWrite dst (baleHeader o len (crc32 raw))
        (w.1, if w.2 then .ok len at' else .other 0)

/-- The header of a stream, or the offset of the field at fault (R384). -/
def unbaleHeader (h : List Byte) : Except Nat (BaleOptions × Nat × Nat) :=
  let o : BaleOptions := ⟨leAt h 6 1, decide (leAt h 5 1 = 1), leAt h 7 1, Nat.log2 (leAt h 16 4)⟩
  let raw := leAt h 8 8
  let blocks := leAt h 20 4
  if leAt h 0 4 ≠ 0x454C4142 then .error 0
  else if leAt h 4 1 ≠ 1 then .error 4
  else if 1 < leAt h 5 1 then .error 5
  else if (o.planes ∧ (o.planeLog = 0 ∨ 4 < o.planeLog)) ∨ (!o.planes ∧ o.planeLog ≠ 0) then .error 6
  else if o.maxBits < 9 ∨ 16 < o.maxBits then .error 7
  else if o.blockLog < 16 ∨ 24 < o.blockLog ∨ leAt h 16 4 ≠ 2 ^ o.blockLog then .error 16
  else if blocks ≠ (raw + 2 ^ o.blockLog - 1) / 2 ^ o.blockLog then .error 20
  else if leAt h 28 4 ≠ (crc32 (h.take 28)).toNat then .error 28
  else .ok (o, raw, blocks)

/-- The blocks of an UNBALE from offset `off` of the stream on. -/
def State.unbaleBlocks (o : BaleOptions) (src srcBytes dst raw : Nat) :
    Nat → State → Nat → Nat → List Byte → State × Except Nat (Nat × List Byte)
  | 0, s, off, _, out => (s, .ok (off, out))
  | n + 1, s, off, done, out =>
    let len := min (2 ^ o.blockLog) (raw - done)
    if srcBytes < off + 8 then (s, .error off)
    else
      match s.baleRead (src + off) 8 with
      | (t, .error e) => (t, .error (off + e))
      | (t, .ok h) =>
        let coded := leAt h 0 4
        let size := (coded + 3) / 4 * 4
        if 1 < leAt h 4 1 ∨ leAt h 5 3 ≠ 0 ∨ srcBytes < off + 8 + size then (t, .error off)
        else
          match t.baleRead (src + off + 8) size with
          | (u, .error e) => (u, .error (off + 8 + e))
          | (u, .ok c) =>
            let content := c.take coded
            let side := if leAt h 4 1 = 1 then (if coded = len then some content else none)
              else baleDecode o.maxBits len content
            match side with
            | none => (u, .error off)
            | some b =>
              if (c.drop coded).any fun x => x != 0 then (u, .error off)
              else
                let bytes := if o.planes then unplanes (2 ^ o.planeLog) b else b
                let w := u.baleWrite (dst + done) bytes
                if w.2 then State.unbaleBlocks o src srcBytes dst raw n w.1 (off + 8 + size) (done + len) (out ++ bytes)
                else (w.1, .error off)

/-- UNBALE (R384). -/
def State.unbaleJob (s : State) (src srcBytes dst dstBytes : Nat) : State × BaleEnd :=
  if srcBytes < 32 then (s, .other 0)
  else
    match s.baleRead src 32 with
    | (t, .error e) => (t, .other e)
    | (t, .ok h) =>
      match unbaleHeader h with
      | .error e => (t, .other e)
      | .ok (o, raw, blocks) =>
        if dstBytes < raw then (t, .nospace)
        else
          match State.unbaleBlocks o src srcBytes dst raw blocks t 32 0 [] with
          | (u, .error e) => (u, .other e)
          | (u, .ok (off, out)) => (u, if (crc32 out).toNat = leAt h 24 4 then .ok raw off else .other 24)

end Sys2Proof.Machine
end

