-- ==== Sys2Proof/Machine/Tables.lean ====
section
/-! DEFINITION. Tables: the store, transactions, the rules of each class and what a commit does (R75, R76, R96, R102,
R125, R129, R165 to R167, R223 to R226, R231, R234, R243, R342 to R345, R401, R406, R416). -/

namespace Sys2Proof.Machine

/-! ### The table store (R344) -/

/-- The internal address of the table store (Table 14-1) and its bytes. -/
def storeBase : Nat := 0x100000000
/-- The bytes of the table store. -/
def storeBytes : Nat := 0x1000000

/-- Bytes rounded up to 4 KiB. -/
def up4K (n : Nat) : Nat := (n + 4095) / 4096 * 4096

/-- The ranges of the table store that are taken: open transactions and resident tables. -/
def State.storeTaken (s : State) : List (Nat × Nat) :=
  ((allFin 4).filterMap fun b => (s.benchOf b).txn.map fun x => (x.addr - storeBase, x.room)) ++
  (s.tables.filterMap fun e => if e.room = 0 then none else some (e.addr - storeBase, e.room))

/-- FREE_BYTES of the table store (R345). -/
def State.tableRoom (s : State) : Nat := storeBytes - s.storeTaken.foldl (fun (a : Nat) e => a + e.2) 0

/-- A transaction is opened (R344): its staging range is cleared; none where the store lacks the room. A WEIGHT table
stages only its header and words 0 to 4. -/
def State.openTxn (s : State) (b : BenchId) (cls : Nat) (sub : SubId) (length : Nat) : Option (State × Nat) :=
  let room := up4K (if cls = 8 then min length 36 else length)
  (fitIn s.storeTaken room storeBytes).map fun a =>
    let t : State := { s with mem := s.mem.zero (storeBase + a) room }
    (t.onBench b fun x => { x with txn := some ⟨cls, some sub, length, storeBase + a, room, 0⟩ }, storeBase + a)

/-! ### WEIGHT tables (R225, R226) -/

/-- The body of a WEIGHT table up to its weights: word `k`. -/
def State.stagedWord (s : State) (x : Txn) (k : Nat) : Word := BitVec.ofNat 32 (leNat (s.mem.load (x.addr + 4 * k) 4))

/-- The slots a WEIGHT table covers, from words 1 and 2 of its body. -/
def State.weightSpanOf (s : State) (x : Txn) : WeightSpan :=
  let w1 := s.stagedWord x 5
  let w2 := s.stagedWord x 6
  ⟨fieldOf w1 0 16, fieldOf w1 16 16, fieldOf w2 0 16, fieldOf w2 16 16⟩

/-- The address in the standby copy of weight `k` of a table: weight group, then beam, then input. -/
def State.weightPlace (s : State) (i : SubId) (w : WeightSpan) (k : Nat) : Option Nat :=
  let n := s.nInputs i
  let input := k % n
  let b := w.beam + k / n % w.beams
  let g := w.group + k / n / w.beams
  if n = 0 ∨ w.beams = 0 ∨ w.group + w.groups ≤ g ∨ s.weightGroups i ≤ g ∨ s.beams i ≤ b then none
  else some (s.weightAddr i (!SMap.get false s.beam[i].sel (selKey g b)) g b input)

/-- One word of a WEIGHT table from word 5 of its body on: two weights, the lower half first. -/
def State.putWeights (s : State) (i : SubId) (w : WeightSpan) (k : Nat) (v : Word) : State × Bool :=
  let one (t : State) (j : Nat) (bs : List Byte) : State × Bool := match t.weightPlace i w j with
    | some a => t.granWrite a bs
    | none => (t, true)
  let r := one s (2 * k) ((wordBytes v).take 2)
  if r.2 then one r.1 (2 * k + 1) ((wordBytes v).drop 2) else r

/-- The weights of a table as they stand in the standby copy. -/
def State.weightsOf (s : State) (i : SubId) (w : WeightSpan) : List Byte :=
  (List.range (w.beams * w.groups * s.nInputs i)).flatMap fun k => match s.weightPlace i w k with
    | some a => s.mem.load a 2
    | none => [0, 0]

/-! ### The outcome of a commit -/

/-- What the rules of a class make of a body: it takes effect, at once or at a boundary; BUSY; invalid at a byte offset; or
the module is in the wrong mode. -/
inductive Commit where
  | done (s : State) (pending : Bool)
  | busy
  | invalid (off : Nat)
  | wrongMode

/-- The body of a table breaks a rule at a body word. -/
def Commit.bad (w : Nat) : Commit := .invalid (bodyAt w)

/-! ### FMT (R75, R76, R234) -/

/-- An FMT table takes its place at once. -/
def State.putFmt (s : State) (n : Fin 64) (f : Fmt) : State := { s with fmt := { s.fmt with fmts := vset s.fmt.fmts n (some f) } }

/-- An FMT table replaces one of a sub-array: at once where the sub-array is outside ALIGN and OBSERVE or the number was
free, otherwise at its boundary (R22, R75). One that waits for the same boundary gives way to it; an ingress format whose
boundary lies before keeps the packets between the two. -/
def State.replaceFmt (s : State) (n : Fin 64) (f : Fmt) : State × Bool :=
  let keep (k : Nat) (e : Fin 64 × Fmt × SubId × Option Nat) : Bool := e.1 != n || (match e.2.2.2 with
    | some j => decide (j < k)
    | none => false)
  let wait (t : State) (k : Nat) : State := { t with fmt := { t.fmt with waiting := t.fmt.waiting.filter (keep k) } }
  match s.fmt.fmts[n] with
  | none => ((wait s 0).putFmt n f, false)
  | some old =>
    let i := old.sub
    if !s.active i then ((wait s 0).putFmt n f, false)
    else
      match f with
      | .ingress _ =>
        match s.parser[i].start with
        | none => ((wait s 0).putFmt n f, false)
        | some ks =>
          let k := ks + s.frontSpan i * 32768 * s.decim i
          let t := wait s k
          ({ t with fmt := { t.fmt with waiting := t.fmt.waiting ++ [(n, f, i, some k)] } }, true)
      | .egress _ =>
        let t := wait s 0
        ({ t with fmt := { t.fmt with waiting := t.fmt.waiting ++ [(n, f, i, none)] } }, true)

/-- A sub-array in ALIGN or OBSERVE uses the table of an FMT_ID. -/
def State.fmtUsed (s : State) (n : Fin 64) : Option Fmt :=
  match s.fmt.fmts[n] with
  | some f => if s.active f.sub then some f else none
  | none => none

/-- An egress format can reach a PLF lane through a destination entry it selects (Table 03-3). -/
def State.reachesPlf (s : State) (f : FmtOut) : Bool :=
  !s.fmt.addr.isEmpty &&
    (List.range (if f.destMode = 0 ∨ f.kind = 7 then 1 else f.destCount)).any fun k =>
      !(s.cfgOf (s.destPort (f.destBase + k))).pers

/-- The bytes of the power accumulator that the kind 4 formats would use with a new one in place (R234). -/
def State.powerBytes (s : State) (n : Fin 64) (f : FmtOut) : Nat :=
  let one (i : SubId) : Nat := s.beams i * s.fineChans i * 4
  one f.sub + (allFin 64).foldl (fun (a : Nat) m => if m = n then a else match s.fmt.fmts[m] with
    | some (.egress g) => if g.kind = 4 ∧ s.saState g.sub ≠ saFree then a + one g.sub else a
    | _ => a) 0

/-- The byte offset of the first rule of R75, R76 and R234 that a format breaks beside the formats in place. -/
def State.badFmt (s : State) (n : Fin 64) (f : Fmt) : Option Nat :=
  let used := s.fmtUsed n
  let kindChange : Bool := match used with
    | some old => old.kind != f.kind
    | none => false
  if kindChange then some 0
  else
    match f with
    | .ingress g =>
      let shape : Bool := match used with
        | some (.ingress o) => o.inputs != g.inputs || o.samples != g.samples
        | _ => false
      if shape || (s.active g.sub && s.slotLen g.sub % g.samples != 0) then some 3 else none
    | .egress g =>
      if (g.kind = 3 ∨ g.kind = 4) ∧ (s.saState g.sub = saFree ∨ s.beams g.sub = 0) then some 1
      else if g.kind = 4 ∧ 16777216 < s.powerBytes n g then some 1
      else if 960 < g.payloadMax ∧ s.reachesPlf g then some 2
      else none

/-- The commit of an FMT table. -/
def State.commitFmt (s : State) (sub : SubId) (body : List Word) : Commit :=
  let n : Fin 64 := ⟨fieldOf (bw body 0) 8 6, by unfold fieldOf; exact Nat.mod_lt _ (by decide)⟩
  if fieldOf (bw body 0) 0 8 = 6 then
    match checkAddr body with
    | .error off => .invalid off
    | .ok ws => .done { s with fmt := { s.fmt with addr := ws } } false
  else
    match parseFmt body with
    | .error off => .invalid off
    | .ok f =>
      if f.sub ≠ sub then .bad 1
      else
        match s.badFmt n f with
        | some w => .bad w
        | none =>
          let r := s.replaceFmt n f
          .done r.1 r.2

/-! ### CURVE (R129, R231, R406) -/

/-- The first of some thresholds that is zero at the start, too large, or lower than the one before it. -/
def badThreshold (limit : Nat) (ts : List Nat) : Option Nat :=
  (List.range ts.length).find? fun k =>
    decide ((k = 0 ∧ ts.getD 0 0 = 0) ∨ limit < ts.getD k 0 ∨ (0 < k ∧ ts.getD k 0 < ts.getD (k - 1) 0))

/-- A requantisation curve takes the place of the one with its number in every sub-array that uses it (R129). -/
def State.putCurve (s : State) (id : Fin 16) (c : Curve) : State × Bool :=
  let t := { s with front := { s.front with curves := vset s.front.curves id (some c) } }
  let users := (allFin 4).filter fun i => s.active i && s.usedCurve i == id && s.cellar[i].cfg.format == c.wide
  (users.foldl (fun (u : State) i =>
    u.onAssay i fun x => { x with curve := x.curve ++ [(s.frontSpan i * 32768, c)] }) t, !users.isEmpty)

/-- The commit of a curve of kind 0. -/
def State.commitCurve0 (s : State) (body : List Word) : Commit :=
  let id := fieldOf (bw body 0) 8 8
  let wide := flagOf (bw body 0) 16
  let levels := fieldOf (bw body 1) 0 8
  let ts := (List.range levels).map fun k => fieldOf (bw body (2 + k / 2)) (16 * (k % 2)) 16
  if h : id < 16 then
    if levels ≠ (if wide then 127 else 7) then .bad 1
    else if body.length ≠ 2 + (levels + 1) / 2 then .bad (min body.length (2 + (levels + 1) / 2))
    else
      match badThreshold 32767 ts with
      | some k => .bad (2 + k / 2)
      | none =>
        let inUse : Bool := (allFin 4).any fun i => s.active i && s.usedCurve i == ⟨id, h⟩
        let changes : Bool := match s.curve ⟨id, h⟩ with
          | some o => o.wide != wide
          | none => false
        if inUse && changes then .bad 0
        else
          let r := s.putCurve ⟨id, h⟩ ⟨wide, ts⟩
          .done r.1 r.2
  else .bad 0

/-- The commit of a beam curve. -/
def State.commitCurve1 (s : State) (body : List Word) : Commit :=
  let id := fieldOf (bw body 0) 8 8
  let ts := (body.drop 2).map fun w => w.toNat
  if h : id < 8 then
    if fieldOf (bw body 1) 0 8 ≠ 127 then .bad 1
    else if body.length ≠ 129 then .bad (min body.length 129)
    else
      match badThreshold (2 ^ 23 - 1) ts with
      | some k => .bad (2 + k)
      | none =>
        let t := { s with tiles := { s.tiles with curves := vset s.tiles.curves ⟨id, h⟩ (some ts) } }
        let uses (i : SubId) : Bool := s.active i && s.beam[i].cfg.curveId.toNat == id
        .done ((allFin 4).foldl (fun (u : State) i => if s.active i then u else u.applyBeamCurve i) t) ((allFin 4).any fun i => uses i)
  else .bad 0

/-- The bands of a ride-through curve body. -/
def bandsOf (body : List Word) : List Band :=
  (List.range (fieldOf (bw body 1) 0 4)).map fun n =>
    ⟨fieldOf (bw body (2 + 2 * n)) 0 16, fieldOf (bw body (2 + 2 * n)) 16 16, (bw body (3 + 2 * n)).toNat⟩

/-- A band breaks R406 beside the bands before it. -/
def Band.bad (x : Band) (before : List Band) : Bool :=
  decide (x.hi ≤ x.lo) || (before.any fun y => decide (x.lo < y.hi) && decide (y.lo < x.hi)) ||
  decide (x.lo < 6000 ∧ 4000 < x.hi) || decide ((x.lo < 3300 ∨ 6000 < x.hi) ∧ 25000 < x.maxUs)

/-- The commit of a ride-through curve. -/
def State.commitCurve2 (s : State) (body : List Word) : Commit :=
  let n := fieldOf (bw body 1) 0 4
  let bands := bandsOf body
  if fieldOf (bw body 0) 8 8 ≠ 0 then .bad 0
  else if n = 0 ∨ 8 < n then .bad 1
  else if body.length ≠ 2 + 2 * n then .bad (min body.length (2 + 2 * n))
  else
    match (List.range n).find? fun k => match bands[k]? with
        | some x => x.bad (bands.take k)
        | none => false with
    | some k => .bad (2 + 2 * k)
    | none =>
      if s.bell.event.isSome then .done { s with bell := { s.bell with curveNext := some bands } } true
      else .done { s with bell := { s.bell with curve := bands, curveNext := none } } false

/-- The commit of a CURVE table. -/
def State.commitCurve (s : State) (body : List Word) : Commit :=
  match fieldOf (bw body 0) 0 8 with
  | 0 => s.commitCurve0 body
  | 1 => s.commitCurve1 body
  | 2 => s.commitCurve2 body
  | _ => .bad 0

/-! ### PLAN (R164 to R167, R223) -/

/-- Every block position in ascending (I, J) order. -/
def allPositions (n : Nat) : List (Nat × Nat) :=
  (List.range n).flatMap fun i => ((List.range n).filter fun j => decide (i ≤ j)).map fun j => (i, j)

/-- A PLAN body: the plan, or the body word at fault. -/
def parsePlan (nb : Nat) (body : List Word) : Except Nat Plan :=
  let w (k : Nat) : Word := bw body k
  let custom := flagOf (w 0) 4
  let count := fieldOf (w 5) 0 10
  let order := (body.drop 6).map fun v => (fieldOf v 0 5, fieldOf v 8 5)
  let p : Plan :=
    { sLog2 := fieldOf (w 0) 2 2, custom := custom, corr := (w 1).setWidth 40 ||| ((w 2).setWidth 8).setWidth 40 <<< 32
      beam := (w 3).setWidth 40 ||| ((w 4).setWidth 8).setWidth 40 <<< 32
      order := if custom then order else allPositions nb }
  if body.length < 6 then .error body.length
  else if body.length ≠ 6 + count ∨ (!custom ∧ count ≠ 0) then .error 5
  else if custom ∧ !((allPositions nb).all (fun e => order.contains e) && order.length == (allPositions nb).length) then .error 6
  else .ok p

/-- The tiles of a mask. -/
def tilesIn (m : BitVec 40) : Nat := popCount 40 m.toNat

/-- A plan in force or pending for another sub-array names a tile of a mask. -/
def State.tilesTaken (s : State) (i : SubId) (m : BitVec 40) : Bool :=
  (allFin 4).any fun j => j != i && ([s.loom[j].plan, s.loom[j].planNext].any fun o => match o with
    | some p => (p.corr ||| p.beam) &&& m != 0
    | none => false)

/-- The body word of the first rule of R166 and R223 that a plan breaks. -/
def State.badPlan (s : State) (i : SubId) (p : Plan) : Option Nat :=
  let m := if s.cellar[i].cfg.format then 4 else 1
  let sp := 2 ^ p.sLog2
  let h := s.halves i
  if 2 * m < sp ∨ (sp = 1 ∧ h = 2) then some 0
  else if p.corr = 0 then some 1
  else if p.corr &&& p.beam ≠ 0 then some 3
  else if s.tilesTaken i p.corr then some 1
  else if s.tilesTaken i p.beam then some 3
  else if s.positions i * sp / h < tilesIn p.corr then some 1
  else if p.beam ≠ 0 ∧ (s.beams i = 0 ∨ s.cellar[i].cfg.format ∨ s.beams i * s.nb i / 128 < tilesIn p.beam) then some 3
  else if p.beam = 0 ∧ s.beams i ≠ 0 then some 3
  else none

/-- The plan a body gives a sub-array, or the byte offset of its first fault (R166, R223, R343). -/
def State.planOf (s : State) (sub : SubId) (body : List Word) : Except Nat Plan :=
  if fieldOf (bw body 0) 0 2 ≠ sub.val ∨ s.saState sub = saFree then .error (bodyAt 0)
  else
    match parsePlan (s.nb sub) body with
    | .error w => .error (bodyAt w)
    | .ok p => match s.badPlan sub p with
      | some w => .error (bodyAt w)
      | none => .ok p

/-- The commit of a PLAN table. -/
def State.commitPlan (s : State) (sub : SubId) (body : List Word) : Commit :=
  match s.planOf sub body with
  | .error off => .invalid off
  | .ok p =>
    if !s.active sub then .done (s.applyPlan sub p) false
    else if s.loom[sub].planNext.isSome then .busy
    else .done ((s.onLoom sub fun x => { x with planNext := some p }).showLoom sub) true

/-! ### SEQ (R416) -/

/-- The steps of a SEQ body. -/
def parseSteps (body : List Word) : List SeqStep :=
  (List.range (fieldOf (bw body 0) 4 8)).map fun n =>
    let w := bw body (1 + 2 * n)
    ⟨fieldOf w 0 4, fieldOf w 8 8, fieldOf w 16 16, (bw body (2 + 2 * n)).toNat⟩

/-- A step names AON or a code outside Tables 16-5 to 16-7, or gates an island that R410 keeps powered. -/
def SeqStep.bad (x : SeqStep) (id : Nat) : Bool :=
  decide (x.op = 0 ∨ 8 < x.op ∨ x.timeout = 0) ||
  (decide (1 ≤ x.op ∧ x.op ≤ 3) && decide (x.target = 0 ∨ 12 ≤ x.target)) ||
  ((x.op == 5 || x.op == 6) && decide (79 ≤ x.target ∨ x.target = 75)) ||
  (id == 2 && x.op == 6 && !shedIslands.contains x.target)

/-- The targets of the steps of one opcode that are DRAM rails. -/
def dramSteps (op : Nat) (steps : List SeqStep) : List Nat :=
  (steps.filter fun x => x.op == op && decide (6 ≤ x.target) && decide (x.target ≤ 9)).map fun x => x.target

/-- A list rises strictly. -/
def rises : List Nat → Bool
  | a :: b :: rest => decide (a < b) && rises (b :: rest)
  | _ => true

/-- The rails that are on once the steps are done, from all on. -/
def railsAfter (steps : List SeqStep) : Nat → Bool := fun r =>
  steps.foldl (fun (a : Bool) x => if x.target = r ∧ x.op = 1 then true else if x.target = r ∧ x.op = 2 then false else a) true

/-- The commit of a SEQ table. -/
def State.commitSeq (s : State) (body : List Word) : Commit :=
  let id := fieldOf (bw body 0) 0 4
  let n := fieldOf (bw body 0) 4 8
  let steps := parseSteps body
  if h : id < 6 then
    if n = 0 ∨ 128 < n ∨ body.length ≠ 1 + 2 * n then .bad 0
    else
      match (List.range n).find? fun k => match steps[k]? with
          | some x => x.bad id
          | none => false with
      | some k => .bad (1 + 2 * k)
      | none =>
        if !rises (dramSteps 1 steps) || !rises (dramSteps 2 steps).reverse ||
            (id == 1 && (List.range 9).any fun r => railsAfter steps (r + 1)) then .bad 1
        else .done { s with bell := { s.bell with seqs := vset s.bell.seqs ⟨id, h⟩ steps } } false
  else .bad 0

/-! ### TALLY (R401) -/

/-- The commit of a TALLY table. -/
def State.commitTally (s : State) (body : List Word) : Commit :=
  let n := fieldOf (bw body 0) 0 9
  let es := (List.range n).map fun k => talyEntry fun j => bw body (1 + 4 * k + j)
  if n = 0 ∨ 256 < n ∨ body.length ≠ 1 + 4 * n then .bad 0
  else
    match (List.range n).find? fun k => match es[k]? with
        | some c => c.bad || (es.take k).any fun o => o.source == c.source
        | none => false with
    | some k => .bad (1 + 4 * k)
    | none => .done { s with tally := { s.tally with queued := s.tally.queued ++ es } } true

/-! ### COEF (R101, R102) -/

/-- The commit of a COEF table. -/
def State.commitCoef (s : State) (sub : SubId) (body : List Word) : Commit :=
  let x := s.sieve[sub]
  let n := s.coefsOf sub
  if fieldOf (bw body 0) 0 2 ≠ sub.val ∨ s.saState sub = saFree then .bad 0
  else if bw body 1 ≠ x.cfg.words.getD 0 0 then .bad 1
  else if fieldOf (bw body 2) 0 17 ≠ n ∨ body.length ≠ 3 + n then .bad 2
  else
    match (List.range n).find? fun k => ((bw body (3 + k)).setWidth 18).signExtend 32 != bw body (3 + k) with
    | some k => .bad (3 + k)
    | none =>
      if !x.fades.isEmpty || x.swapWaits (s.unformed sub) then .busy
      else
        let toStandby := s.active sub
        let bank : Bool := if toStandby then !x.stat.activeBank else x.stat.activeBank
        let vs := (body.drop 3).map fun w => w.toInt
        let k : Fin 2 := if bank then 1 else 0
        let t : State := { s with front := { s.front with
          banks := vmod s.front.banks k fun m => SMap.setRange 0 m x.cfg.coefBase.toNat vs } }
        .done (t.onSieve sub fun y =>
          { y with bankFull := if toStandby then vset y.bankFull k true else vset (Vector.replicate 2 false) k true
                   stat := { y.stat with standbyValid := toStandby } }) false

/-! ### KERNEL (R125) -/

/-- The commit of a KERNEL table. -/
def State.commitKernel (s : State) (body : List Word) : Commit :=
  let w (k : Nat) : Word := bw body k
  let id := fieldOf (w 0) 0 8
  let count := fieldOf (w 2) 16 13
  let coefs := fieldOf (w 3) 0 13
  let k : Kernel :=
    { id := id, pLog2 := fieldOf (w 0) 8 4, rate := (w 1).toNat, entry := fieldOf (w 2) 0 12, count := count
      ags := (body.drop 4).take 128, code := (body.drop 132).take (4 * count), coef := body.drop (132 + 4 * count) }
  let badInstr (pc : Nat) : Bool :=
    let m := k.instr pc
    !m.legal || m.outOfRange || (m.op == opLoop && decide (m.target ≤ pc)) ||
      ((m.op == opLoop || m.op == opJump) && decide (count ≤ m.target))
  if !(decide (6 ≤ id ∧ id ≤ 12) || decide (16 ≤ id ∧ id ≤ 63)) || decide (k.pLog2 < 6 ∨ 12 < k.pLog2) then .bad 0
  else if k.rate = 0 then .bad 1
  else if count = 0 ∨ 4096 < count ∨ count ≤ k.entry then .bad 2
  else if 4096 < coefs then .bad 3
  else if body.length ≠ 132 + 4 * count + coefs then .bad (min body.length (132 + 4 * count + coefs))
  else
    let badAg := (List.range 128).find? fun j => agOutOfRange (j % 16) (w (4 + j))
    match badAg, (List.range count).find? fun pc => badInstr pc with
    | some j, _ => .bad (4 + j)
    | none, some pc => .bad (132 + 4 * pc)
    | none, none =>
      let others := s.front.kernels.filter fun q => q.id != id
      let users := 7 + (others.filter fun q => decide (16 ≤ q.id)).length + (if 16 ≤ id then 1 else 0)
      if ((allFin 4).any fun i => s.active i && s.front.mill[i].kernelId.toNat == id) || decide (16 < users) then .bad 0
      else .done { s with front := { s.front with kernels := others ++ [k] } } false

/-! ### WEIGHT (R225, R226) -/

/-- The commit of a WEIGHT table, its weights in the standby copy. -/
def State.commitWeight (s : State) (sub : SubId) (x : Txn) : Commit :=
  let w (k : Nat) : Word := s.stagedWord x (4 + k)
  let sp := s.weightSpanOf x
  let n := s.nInputs sub
  let c := s.beam[sub].cfg
  if fieldOf (w 0) 0 2 ≠ sub.val ∨ s.saState sub = saFree ∨ fieldOf (w 0) 2 3 ≠ c.wgroupLog2.toNat then .bad 0
  else if sp.beam % 8 ≠ 0 ∨ sp.beams % 8 ≠ 0 ∨ sp.beams = 0 ∨ s.beams sub < sp.beam + sp.beams then .bad 1
  else if sp.groups = 0 ∨ s.weightGroups sub < sp.group + sp.groups then .bad 2
  else if fieldOf (w 3) 0 16 ≠ n then .bad 3
  else if x.length ≠ 36 + 2 * (sp.beams * sp.groups * n) ∨ x.covered ≠ x.length then .bad 5
  else
    match (s.weightsOf sub sp).zipIdx.find? fun e => e.1 == 0x80 with
    | some e => .bad (5 + e.2 / 4)
    | none => .done (s.onBeam sub fun y => { y with ready := y.ready ++ [sp], stat := { y.stat with weightReady := true } }) true

/-! ### DELAY (R96) -/

/-- The commit of a DELAY table. -/
def State.commitDelay (s : State) (sub : SubId) (body : List Word) : Commit :=
  let n := s.nInputs sub
  let c := s.coarse sub
  let set := fieldOf (bw body 0) 8 8
  if fieldOf (bw body 0) 0 2 ≠ sub.val ∨ s.saState sub = saFree then .bad 0
  else if bw body 4 = 0 then .bad 4
  else if fieldOf (bw body 5) 0 16 ≠ n then .bad 5
  else if fieldOf (bw body 6) 0 16 ≠ c then .bad 6
  else
    let len := 7 + 2 * c + 2 * n * (delayOrder body + 1) + n * c
    if body.length ≠ len then .bad (min body.length len)
    else if 4 ≤ (s.tables.filter fun e => e.cls == 9 && e.identity.toNat / 256 == sub.val && e.identity.toNat % 256 != set).length then
      .bad 0
    else .done (s.onSieve sub fun x => { x with loads := x.loads.filter fun l => l.set != set }) false

/-! ### HASH (R243) -/

/-- The masks of a HASH table come into force (HASH_SRC of GRAN_CFG). -/
def State.useMasks (s : State) (ms : List Nat) : State :=
  { s with gran := { s.gran with masks := ms, cfg := { s.gran.cfg with hashSrc := true } } }

/-- The masks of a HASH body. -/
def hashMasks (body : List Word) : List Nat := (List.range 11).map fun k => fieldOf (bw body (k + 1)) 0 30

/-- The commit of a HASH table. -/
def State.commitHash (s : State) (body : List Word) : Commit :=
  let ms := hashMasks body
  if body.length ≠ 12 then .bad (min body.length 12)
  else
    match (List.range 11).find? fun k => badMask k (ms.getD k 0) with
    | some k => .bad (k + 1)
    | none =>
      if s.gran.regions.any fun r => r.kind != 6 then .busy
      else if s.mode ≠ modeProvision ∧ s.mode ≠ modeWorkshop then .wrongMode
      else .done (s.useMasks ms).zeroGranary false

/-! ### The commit (R342, R344) -/

/-- The rules of a class over a body. -/
def State.commitBody (s : State) (x : Txn) (body : List Word) : Commit :=
  let sub := x.sub.getD 0
  match x.cls with
  | 1 => s.commitFmt sub body
  | 2 => s.commitCurve body
  | 3 => s.commitPlan sub body
  | 4 => s.commitSeq body
  | 5 => s.commitTally body
  | 6 => s.commitCoef sub body
  | 7 => s.commitKernel body
  | 8 => s.commitWeight sub x
  | 9 => s.commitDelay sub body
  | _ => s.commitHash body

/-- IDENTITY of a table (R345). -/
def tableIdentity (cls : Nat) (w0 : Word) : Word :=
  match cls with
  | 1 => w0 &&& 0x3FFF
  | 2 => w0 &&& 0xFFFF
  | 3 => w0 &&& 3
  | 6 => w0 &&& 3
  | 7 => w0 &&& 0xFF
  | 8 => w0 &&& 3
  | 9 => BitVec.ofNat 32 (fieldOf w0 8 8 + 256 * fieldOf w0 0 2)
  | _ => 0

/-- Two entries are one table: the same identity, where FMT tables other than the address table are named by FMT_ID alone,
SEQ tables by SEQ_ID, and COEF tables by their bank as well. -/
def sameTable (a b : TableEntry) : Bool :=
  a.cls == b.cls &&
    (if a.cls = 1 then (a.identity.toNat % 256 == 6) == (b.identity.toNat % 256 == 6) && a.identity.toNat / 256 == b.identity.toNat / 256
     else if a.cls = 4 then fieldOf (bw a.body 0) 0 4 == fieldOf (bw b.body 0) 0 4
     else if a.cls = 6 then a.identity == b.identity && a.bank == b.bank
     else a.identity == b.identity)

/-- A committed table still waits for its boundary. -/
def State.tableWaits (s : State) (e : TableEntry) : Bool :=
  let id := e.identity.toNat
  match e.cls with
  | 1 => s.fmt.waiting.any fun x => x.1.val == id / 256 && id % 256 != 6
  | 2 =>
    if id % 256 = 0 then
      (allFin 4).any fun i => s.active i && s.front.assay[i].cfg.curveId.toNat == id / 256 &&
        s.front.assay[i].curve.any fun x => decide (s.front.assay[i].span * spanLen ≤ x.1 ∧ x.1 ≠ 0)
    else if id % 256 = 1 then
      (allFin 4).any fun i => s.active i && s.beam[i].cfg.curveId.toNat == id / 256 &&
        s.beam[i].curve != s.tiles.curves[s.beam[i].cfg.curveId.toFin]
    else s.bell.curveNext.isSome
  | 3 => (allFin 4).any fun i => i.val == id && s.loom[i].planNext.isSome
  | 5 => !s.tally.queued.isEmpty
  | 8 => (allFin 4).any fun i => i.val == id && s.beam[i].stat.weightReady
  | _ => false

/-- Tables whose boundary has come are in force and replace what they replaced. -/
def State.settleTables (s : State) : State :=
  s.tables.foldl (fun (t : State) e =>
    if e.standing = TableWhere.pending ∧ !t.tableWaits e then
      let now : TableEntry := { e with standing := .inForce }
      { t with tables := (t.tables.filter fun o => !sameTable o e) ++ [now] }
    else t) s

/-- A committed table is listed; an earlier one that waited for the same place is gone, and so is one it replaces at once.
COEF written outside ALIGN and OBSERVE leaves the other bank empty (R102). -/
def State.listTable (s : State) (e : TableEntry) : State :=
  let keep (o : TableEntry) : Bool :=
    !(sameTable o e && (e.standing == .inForce || o.standing == .pending)) &&
    !(e.cls == 6 && o.cls == 6 && o.identity == e.identity && (allFin 4).any fun i => i.val == e.identity.toNat && !s.active i)
  { s with tables := (s.tables.filter keep) ++ [e] }

/-- The entry a commit lists. -/
def Txn.entry (x : Txn) (s : State) (crc : Word) (body : List Word) (pending : Bool) : TableEntry :=
  let bank : Bool := match x.sub with
    | some i => if s.active i then !s.sieve[i].stat.activeBank else s.sieve[i].stat.activeBank
    | none => false
  { cls := x.cls, identity := tableIdentity x.cls (bw body 0), length := x.length, crc := crc
    body := if x.cls = 8 then [] else body, standing := if pending then .pending else .inForce
    room := if x.cls = 8 then 0 else x.room, addr := x.addr, bank := bank && x.cls == 6 }

/-- The bytes of a staged table. -/
def State.stagedBytes (s : State) (x : Txn) : List Byte :=
  if x.cls = 8 then s.mem.load x.addr 36 ++ s.weightsOf (x.sub.getD 0) (s.weightSpanOf x) else s.mem.load x.addr x.length

/-- TABLE_COMMIT of a bench's transaction (R342 to R344). -/
def State.commit (s : State) (b : BenchId) (x : Txn) : State × Reply :=
  let s := s.settleTables
  let bs := s.stagedBytes x
  let ws := bytesWords bs
  let crc := bw ws 3
  let header := bw ws 0 == 0x5054424C && fieldOf (bw ws 1) 0 8 == x.cls && fieldOf (bw ws 1) 8 8 == 1 &&
    (bw ws 2).toNat == x.length && decide (x.length % 4 = 0) && crc == crc32 (bs.drop 16)
  if !header then (s, { status := stTableInvalid, detail := 0xFFFFFFFF })
  else
    let body := ws.drop 4
    if x.cls = 2 ∧ !(if fieldOf (bw body 0) 0 8 = 2 then s.holdsWork b else s.holdsAnyObs b) then (s, Reply.plain stNoLease)
    else
      match s.commitBody x body with
      | .busy => (s, Reply.plain stBusy)
      | .wrongMode => (s, Reply.plain stWrongMode)
      | .invalid off => (s, { status := stTableInvalid, detail := BitVec.ofNat 32 off })
      | .done t pending =>
        let e := x.entry s crc body pending
        let t := (t.onBench b fun y => { y with txn := none }).listTable e
        (if e.room = 0 then { t with mem := t.mem.zero x.addr x.room } else t, Reply.ok)

/-! ### TABLE_QUERY (R345) -/

/-- The four words of an entry. -/
def tableWords (identity : Word) (length : Nat) (crc : Word) (standing : Nat) (b : Nat) : List Word :=
  [identity, BitVec.ofNat 32 length, crc, BitVec.ofNat 32 (standing + 4 * b)]

/-- A listed table as TABLE_QUERY gives it; COEF of the standby bank waits for its swap. -/
def State.listed (s : State) (e : TableEntry) : List Word :=
  let standby : Bool := e.cls == 6 && (allFin 4).any fun i => i.val == e.identity.toNat && s.sieve[i].stat.activeBank != e.bank
  tableWords e.identity e.length e.crc (if e.standing = TableWhere.pending ∨ standby then 1 else 0) 0

/-- The entries of a class: in force, pending, and staged by any bench. -/
def State.tableList (s : State) (cls : Nat) : List (List Word) :=
  let own := s.tables.filter fun e => e.cls == cls
  ((own.filter fun e => e.standing == .inForce) ++ (own.filter fun e => e.standing == .pending)).map (fun e => s.listed e) ++
  (allFin 4).filterMap fun b => match (s.benchOf b).txn with
    | some x =>
      if x.cls = cls then
        some (tableWords (if x.length ≤ 16 then 0 else tableIdentity cls (s.stagedWord x 4)) x.length (s.stagedWord x 3) 2 b.val)
      else none
    | none => none

/-- TABLE_QUERY from entry `first` on. -/
def State.tableQuery (s : State) (cls first : Nat) : Reply :=
  let es := s.settleTables.tableList cls
  { status := stOk, detail := BitVec.ofNat 32 es.length
    results := BitVec.ofNat 32 s.settleTables.tableRoom :: ((es.drop first).take 255).flatten }

/-! ### Tables of the configuration store (R129, R345; log entry 40) -/

/-- One table of the factory image; LENGTH, CRC and the body it is not known to have are its own. -/
def factoryEntry (cls id : Nat) : TableEntry :=
  { cls := cls, identity := if cls = 4 then 0 else BitVec.ofNat 32 id, length := (Config.factoryTable cls id 0).toNat
    crc := Config.factoryTable cls id 1, body := if cls = 4 then [BitVec.ofNat 32 id] else [] }

/-- The tables of the factory image: curves 0 and 1, the ride-through curve, the vendor kernels and the rail sequences. -/
def factoryTables : List TableEntry :=
  [factoryEntry 2 0, factoryEntry 2 0x100, factoryEntry 2 2] ++ ((List.range 7).map fun k => factoryEntry 7 (6 + k)) ++
  (List.range 6).map fun k => factoryEntry 4 k

end Sys2Proof.Machine
end

