-- ==== Sys2Proof/Machine/Params.lean ====
section
/-! DEFINITION. The parameters of a command packet and the order in which a command is tested (R333, R335, R337, R338). -/

namespace Sys2Proof

/-- LENGTH: the words of a packet with its header. -/
def Packet.len (p : Packet) : Nat := p.params.length + 2

/-- Word `k` of a packet, from word 2 on; words past the end read as zero. -/
def Packet.w (p : Packet) (k : Nat) : Word := p.params.getD (k - 2) 0

/-- A field of a word of a packet. -/
def Packet.bits (p : Packet) (k lo n : Nat) : Nat := Machine.fieldOf (p.w k) lo n

/-- A bit of a word of a packet. -/
def Packet.bit (p : Packet) (k i : Nat) : Bool := (p.w k).getLsbD i

/-- A sub-array number at bit `lo` of a word. -/
def Packet.sub (p : Packet) (k : Nat := 2) (lo : Nat := 0) : SubId :=
  ⟨p.bits k lo 2, by unfold Packet.bits Machine.fieldOf; exact Nat.mod_lt _ (by decide)⟩

/-- A word has ones among the bits of a mask: reserved bits that are not zero (R6). -/
def Packet.stray (p : Packet) (k : Nat) (mask : Word) : Bool := p.w k &&& mask != 0

/-- A flag is set that the opcode does not use (R333). -/
def Packet.badFlags (p : Packet) (used : BitVec 8 := 0) : Bool := p.flags &&& ~~~used != 0

/-- A flag of Table 13-1. -/
def Packet.flag (p : Packet) (i : Nat) : Bool := p.flags.getLsbD i

/-- A time in words `k` to `k + 2`, in 2^-16 ns (R337). -/
def Packet.time (p : Packet) (k : Nat) : Nat :=
  Machine.time16Of ((p.w k).toNat + p.bits (k + 1) 0 16 * 2 ^ 32) (p.bits (k + 2) 0 30) (p.bits (k + 1) 16 16)

/-- A time whose NS is out of range or whose reserved bits are set (R337). -/
def Packet.badTime (p : Packet) (k : Nat) : Bool := decide (999999999 < (p.w (k + 2)).toNat)

/-- A 64-bit number in two words. -/
def Packet.long (p : Packet) (k : Nat) : Nat := (p.w k).toNat + (p.w (k + 1)).toNat * 2 ^ 32

/-- An address in two words (R337). -/
def Packet.addr (p : Packet) (k : Nat) : Nat := (p.w k).toNat + p.bits (k + 1) 0 12 * 2 ^ 32

/-- An address whose reserved bits are set. -/
def Packet.badAddr (p : Packet) (k : Nat) : Bool := p.stray (k + 1) 0xFFFFF000

/-- A point in words `k` to `k + 2`: a span number or a time (R337). -/
def Packet.point (p : Packet) (k : Nat) : Nat := if p.flag 1 then p.long k else p.time k

/-- A point whose layout is broken. -/
def Packet.badPoint (p : Packet) (k : Nat) : Bool := if p.flag 1 then p.w (k + 2) != 0 else p.badTime k

/-- The octet number at bit 0 of word 2. -/
def Packet.octet (p : Packet) : OctetId := ⟨p.bits 2 0 4, by unfold Packet.bits Machine.fieldOf; exact Nat.mod_lt _ (by decide)⟩

/-- The lane number at bit 0 of word 2. -/
def Packet.lane (p : Packet) : LaneId := ⟨p.bits 2 0 7, by unfold Packet.bits Machine.fieldOf; exact Nat.mod_lt _ (by decide)⟩

/-- The source number at bit 0 of word 2. -/
def Packet.source (p : Packet) : SourceId := ⟨p.bits 2 0 8, by unfold Packet.bits Machine.fieldOf; exact Nat.mod_lt _ (by decide)⟩

/-- The tile number at bit 0 of word 2, where it is one. -/
def Packet.tile (p : Packet) : Option TileId := if h : p.bits 2 0 6 < 42 then some ⟨p.bits 2 0 6, h⟩ else none

end Sys2Proof

namespace Sys2Proof.Machine

/-- A command answers with the first of its tests that applies, and otherwise acts (R335); a refused command leaves the
module unchanged. -/
def State.answer (s : State) (tests : List (Bool × BitVec 8)) (act : State × Reply) : State × Reply :=
  match tests.find? fun e => e.1 with
  | some e => (s, Reply.plain e.2)
  | none => act

/-- The tests of R335 in their order: LENGTH, lease, condition, parameters. -/
def tests (length lease cond params : Bool) : List (Bool × BitVec 8) :=
  [(!length, stBadLength), (!lease, stNoLease), (!cond, stWrongMode), (!params, stBadParam)]

/-- OBSERVATION of any sub-array, or WORKSHOP. -/
def State.holdsObsWork (s : State) (b : BenchId) : Bool := s.holdsAnyObs b || s.holdsWork b

/-- An OK answer of a changed module. -/
def done (s : State) (results : List Word := []) : State × Reply := (s, Reply.ok results)

/-- A mode in which observations run. -/
def State.obsMode (s : State) : Bool := s.mode == modeProvision || s.mode == modeAlign || s.mode == modeObserve

/-- The data path is there: a recovery boot refuses commands that need it (R440; log entry 53). -/
def State.dataPath (s : State) : Bool := !s.start.recovery

/-- A sub-array is FREE or DEFINED. -/
def State.idleSub (s : State) (i : SubId) : Bool := s.saState i == saFree || s.saState i == saDefined

/-- A sub-array is not FREE. -/
def State.isDefined (s : State) (i : SubId) : Bool := s.saState i != saFree

end Sys2Proof.Machine
end

