-- ==== Sys2Proof/Machine/ObsCommands.lean ====
section
/-! DEFINITION. The commands on tables, observations and steering, opcodes 0x20 to 0x49 (R338, R342 to R353). -/

namespace Sys2Proof.Machine

/-! ### Tables (Table 13-8) -/

/-- Classes whose tables name a sub-array (Table 13-7). -/
def namesSub (cls : Nat) : Bool := [1, 3, 6, 8, 9].contains cls

/-- TABLE_BEGIN (R344). -/
def cmdTableBegin (b : BenchId) (p : Packet) (s : State) : State × Reply :=
  let cls := p.bits 2 0 8
  let i := p.sub 2 8
  let n := (p.w 3).toNat
  let known := decide (1 ≤ cls ∧ cls ≤ 10)
  let params := !p.badFlags && !p.stray 2 0xFFFFFC00 && known && (namesSub cls || i == 0) &&
    (cls == 8 || decide (16 ≤ n ∧ n ≤ 16777216))
  let x := s.beam[i].stat
  s.answer (tests (p.len == 4) (!known || s.mayTable b cls i) (s.benchOf b).txn.isNone params)
    (if cls = 8 ∧ (x.weightReady ∨ x.switchPending) then (s, Reply.plain stBusy)
     else
       match (s.settleTables).openTxn b cls i n with
       | some (t, a) => done t (words64 a)
       | none => (s, Reply.plain stNospace))

/-- TABLE_COMMIT (R342 to R344). -/
def cmdTableCommit (b : BenchId) (p : Packet) (s : State) : State × Reply :=
  match (s.benchOf b).txn with
  | some x => s.answer (tests (p.len == 2) (s.mayTable b x.cls (x.sub.getD 0)) true (!p.badFlags)) (s.commit b x)
  | none => s.answer (tests (p.len == 2) true false true) (done s)

/-- TABLE_ABORT (R344). -/
def cmdTableAbort (b : BenchId) (p : Packet) (s : State) : State × Reply :=
  match (s.benchOf b).txn with
  | some x => s.answer (tests (p.len == 2) (s.mayTable b x.cls (x.sub.getD 0)) true (!p.badFlags)) (done (s.dropTxn b))
  | none => s.answer (tests (p.len == 2) true false true) (done s)

/-- TABLE_QUERY (R345). -/
def cmdTableQuery (b : BenchId) (p : Packet) (s : State) : State × Reply :=
  let cls := p.bits 2 0 8
  s.answer (tests (p.len == 3) (s.holdsAny b) true (!p.badFlags && !p.stray 2 0xFF000000 && decide (1 ≤ cls ∧ cls ≤ 10)))
    (s, s.tableQuery cls (p.bits 2 8 16))

/-! ### Observations (Tables 13-10 and 13-11) -/

/-- What an OBS_DEFINE packet carries. -/
def defineOf (p : Packet) : ObsParams :=
  { sub := p.sub, format := p.bit 2 2, fir := p.bit 2 3, pLog2 := p.bits 2 4 4, taps := p.bits 2 8 5
    decimM1 := p.bits 2 13 6, dtapsM1 := p.bits 2 19 9, depth := p.bits 2 28 4, mask := (p.w 3).toNat
    coarse := p.bits 4 0 16, intM1 := p.bits 5 0 20, wgroup := p.bits 5 20 3, beams := p.bits 6 0 11, sumM1 := p.bits 6 16 16
    epoch := p.time 7, periodFrac := (p.w 10).toNat, periodNs := p.bits 11 0 16 }

/-- OBS_DEFINE (R347). -/
def cmdObsDefine (b : BenchId) (p : Packet) (s : State) : State × Reply :=
  let i := p.sub
  let release := p.flag 3
  let params := !p.badFlags 0x08 &&
    (release || (!p.stray 4 0xFFFF0000 && !p.stray 5 0xFF800000 && !p.stray 6 0x0000F800 && !p.stray 11 0xFFFF0000 && !p.badTime 7))
  s.answer (tests (p.len == if release then 3 else 12) (s.holdsObs b i) (s.obsMode && s.idleSub i) params)
    (if release then done (s.obsRelease i)
     else
       let r := s.obsDefine (defineOf p)
       (r.1, Reply.plain r.2))

/-- The plan of a bench's open PLAN transaction for a sub-array (R348). -/
def State.stagedPlan (s : State) (b : BenchId) (i : SubId) : Option Plan :=
  match (s.benchOf b).txn with
  | some x =>
    if x.cls = 3 ∧ x.sub = some i then
      match s.planOf i ((bytesWords (s.stagedBytes x)).drop 4) with
      | .ok q => some q
      | .error _ => none
    else none
  | none => none

/-- OBS_CHECK (R348). -/
def cmdObsCheck (b : BenchId) (p : Packet) (s : State) : State × Reply :=
  let i := p.sub
  let staged : Option Plan := if p.flag 4 then s.stagedPlan b i else none
  let c := s.budgets (staged.map fun q => (i, q))
  s.answer (tests (p.len == 3) (s.holdsAny b) (s.isDefined i)
      (!p.badFlags 0x10 && !p.stray 2 0xFFFFFFFC && (!p.flag 4 || staged.isSome)))
    (s, { status := if c.fails then stOverBudget else stOk, detail := BitVec.ofNat 32 c.detail, results := c.words })

/-- OBS_ARM (R349). -/
def cmdObsArm (b : BenchId) (p : Packet) (s : State) : State × Reply :=
  let i := p.sub
  s.answer (tests (p.len == 3) (s.holdsObs b i) (s.obsMode && s.saState i == saDefined && s.time.stat.state != 0)
      (!p.badFlags && !p.stray 2 0xFFFFFFFC))
    (s.obsArm i)

/-- OBS_START_AT (R350). -/
def cmdObsStartAt (b : BenchId) (p : Packet) (s : State) : State × Reply :=
  let i := p.sub
  s.answer (tests (p.len == 6) (s.holdsObs b i) (s.saState i == saAlign)
      (!p.badFlags && !p.stray 2 0xFFFFFFFC && !p.badTime 3))
    (s.startAt i (p.time 3) false)

/-- OBS_STOP_AT (R351): in ALIGN the point is ignored. -/
def cmdObsStopAt (b : BenchId) (p : Packet) (s : State) : State × Reply :=
  let i := p.sub
  s.answer (tests (p.len == 6) (s.holdsObs b i) (s.active i)
      (!p.badFlags 0x02 && !p.stray 2 0xFFFFFFFC && (s.saState i == saAlign || !p.badPoint 3)))
    (s.stopObs i (s.pointSpan i (p.flag 1) (p.point 3)))

/-- DRAIN_AT (R199, R200). -/
def cmdDrainAt (b : BenchId) (p : Packet) (s : State) : State × Reply :=
  let i := p.sub
  s.answer (tests (p.len == 6) (s.holdsObs b i) (s.active i) (!p.badFlags 0x02 && !p.stray 2 0xFFFFFFFC && !p.badPoint 3))
    (s.drainAt i (s.pointSpan i (p.flag 1) (p.point 3)))

/-- RESYNC_AT (R105, R107). -/
def cmdResyncAt (b : BenchId) (p : Packet) (s : State) : State × Reply :=
  let i := p.sub
  s.answer (tests (p.len == 6) (s.holdsObs b i) (s.saState i == saObserve) (!p.badFlags && !p.stray 2 0xFFFFFFFC && !p.badTime 3))
    (s.resyncAt i (p.time 3))

/-! ### Steering (Table 13-11) -/

/-- The words of one DELAY_LOAD entry for an ORDER. -/
def loadWords (order : Nat) : Nat := 3 + 2 * order

/-- ORDER of the DELAY_LOAD: the resident set's, or the one its LENGTH fits where the set is not resident. -/
def State.loadOrder (s : State) (i : SubId) (p : Packet) : Option Nat :=
  let fits (o : Nat) : Bool := p.len == 6 + p.bits 2 16 12 * loadWords o
  match s.delaySet i (p.bits 2 8 8) with
  | some e => if fits (delayOrder e.body) then some (delayOrder e.body) else none
  | none => (List.range 4).find? fits

/-- The entries of a DELAY_LOAD: input and coefficients. -/
def loadEntries (p : Packet) (order : Nat) : List (Nat × List Nat) :=
  (List.range (p.bits 2 16 12)).map fun k =>
    let a := 6 + k * loadWords order
    (p.bits a 0 12, (List.range (order + 1)).map fun q => p.long (a + 1 + 2 * q))

/-- DELAY_LOAD (R353). -/
def cmdDelayLoad (b : BenchId) (p : Packet) (s : State) : State × Reply :=
  let i := p.sub
  let order := s.loadOrder i p
  let o := order.getD 0
  let ins := loadEntries p o
  let nums := ins.map fun e => e.1
  let params := !p.badFlags && !p.stray 2 0xF00000FC && !p.badTime 3 && (s.delaySet i (p.bits 2 8 8)).isSome &&
    ((List.range (p.bits 2 16 12)).all fun k => !p.stray (6 + k * loadWords o) 0xFFFFF000) &&
    (nums.all fun n => (s.inputs i).contains n) && nums.eraseDups.length == nums.length && decide (s.time16 ≤ p.time 3)
  s.answer (tests order.isSome (s.holdsObs b i) (s.active i) params) (s.delayLoad i (p.bits 2 8 8) (p.time 3) ins)

/-- WEIGHT_LOAD (R227). -/
def cmdWeightLoad (b : BenchId) (p : Packet) (s : State) : State × Reply :=
  let i := p.sub
  let timed := p.flag 2
  s.answer (tests (p.len == if timed then 6 else 3) (s.holdsObs b i) (s.isDefined i)
      (!p.badFlags 0x04 && !p.stray 2 0xFFFFFFFC && !(timed && p.badTime 3)))
    (s.weightLoad i (if timed then some (p.time 3) else none))

/-- COEF_SWAP (R103). -/
def cmdCoefSwap (b : BenchId) (p : Packet) (s : State) : State × Reply :=
  let i := p.sub
  let timed := p.flag 2
  s.answer (tests (p.len == if timed then 6 else 3) (s.holdsObs b i) (s.isDefined i)
      (!p.badFlags 0x04 && !p.stray 2 0xFFFFFFFC && !(timed && p.badTime 3)))
    (s.coefSwap i (if timed then some (p.time 3) else none))

/-- DCB_FREEZE (R89). -/
def cmdDcbFreeze (b : BenchId) (p : Packet) (s : State) : State × Reply :=
  let i := p.sub
  s.answer (tests (p.len == 6) (s.holdsObs b i) (s.active i) (!p.badFlags && !p.stray 2 0xFFFFFEFC))
    (s.dcbFreeze i (p.bit 2 8) (p.w 3).toNat (p.long 4))

/-- CELLAR_TRIGGER (R143). -/
def cmdCellarTrigger (b : BenchId) (p : Packet) (s : State) : State × Reply :=
  let i := p.sub
  let pre := p.bits 2 8 4
  let post := p.bits 2 12 4
  s.answer (tests (p.len == 6) (s.holdsObs b i) (s.saState i == saObserve)
      (!p.badFlags && !p.stray 2 0xFFFF00FC && !p.badTime 3 && decide (pre + post + 1 ≤ 6)))
    (s.cellarTrigger i pre post (p.time 3))

/-- CELLAR_RELEASE (R145). -/
def cmdCellarRelease (b : BenchId) (p : Packet) (s : State) : State × Reply :=
  s.answer (tests (p.len == 2) (s.holdsObs b (s.front.capture.subarray.toFin) || s.holdsWork b) s.dataPath (!p.badFlags))
    (done s.releaseCapture)

end Sys2Proof.Machine
end

