-- ==== Sys2Proof/Machine/Commands.lean ====
section
/-! DEFINITION. The commands on time, lanes, the Tally, modes, tiles and octets, opcodes 0x50 to 0x63 and 0x80 to 0x93
(R27, R55, R56, R60, R176, R281 to R283, R291, R294, R338, R355, R401, Table 13-12). -/

namespace Sys2Proof.Machine

/-! ### Time (R281 to R283, R291, R294) -/

/-- TIME_GET. -/
def cmdTimeGet (b : BenchId) (p : Packet) (s : State) : State × Reply :=
  s.answer (tests (p.len == 2) (s.holdsAny b) true (!p.badFlags))
    (done s (timeWords s.time16 ++ [putAt s.time.stat.state 0 ||| putAt s.clock.stat.state 2]))

/-- TIME_INCREMENT (R281). -/
def cmdTimeIncrement (b : BenchId) (p : Packet) (s : State) : State × Reply :=
  let inc := (p.w 2).toNat + p.bits 3 0 8 * 2 ^ 32
  s.answer (tests (p.len == 6) (s.holdsTime b) true
      (!p.badFlags && !p.stray 3 0xFFFFFF00 && !p.stray 5 0xFFFF0000 && decide (0x03FF7CED92 ≤ inc ∧ inc ≤ 0x040083126E)))
    (done (s.setIncrement inc (p.long 4)))

/-- TIME_STEP (R283). -/
def cmdTimeStep (b : BenchId) (p : Packet) (s : State) : State × Reply :=
  let relative := p.flag 5
  let ns := p.bits 4 0 30
  let off := time16Of ((p.w 2).toNat + p.bits 3 0 16 * 2 ^ 32) ns (p.bits 3 16 16) * 2 ^ 16
  let params := !p.badFlags 0x20 && decide (ns ≤ 999999999) && !p.stray 4 0x40000000 &&
    (if relative then !p.stray 3 0x8000 else !p.stray 4 0x80000000)
  let tk := if !relative then off
    else if p.bit 4 31 then (s.time.tk + wrap32tk - off) % wrap32tk else (s.time.tk + off) % wrap32tk
  s.answer (tests (p.len == 5) (s.holdsTime b) ((allFin 4).all fun i => !s.active i) params) (done (s.stepTime tk))

/-- The refusals of TIMER_SET for an action other than OFF (R291, Table 11-6). -/
def State.badTimer (s : State) (p : Packet) : Bool :=
  let action := p.bits 2 4 3
  let target := p.bits 2 8 8
  let width := p.bits 2 16 16
  let period := p.long 6
  decide (4 < action) || p.stray 2 0x88 || p.badTime 3 || p.stray 7 0xFFFF0000 || decide (p.time 3 < s.time16) ||
  decide ((if action = 2 then 15 else 3) < target) || decide (width = 0) || decide (period ≠ 0 ∧ period ≤ width * 4) ||
  decide ((action = 1 ∨ action = 2) ∧ period ≠ 0 ∧ period < 1000) || decide (action = 3 ∧ period ≠ 0) ||
  decide (action = 4 ∧ period ≠ 0 ∧ period < 1000000000)

/-- TIMER_SET (R291). -/
def cmdTimerSet (b : BenchId) (p : Packet) (s : State) : State × Reply :=
  let action := p.bits 2 4 3
  let target := p.bits 2 8 8
  let lease := s.holdsTime b &&
    ((action != 3 && action != 4) || decide (3 < target) || s.holdsObs b (p.sub 2 8))
  let t : TimerId := ⟨p.bits 2 0 3, by unfold Packet.bits fieldOf; exact Nat.mod_lt _ (by decide)⟩
  s.answer (tests (p.len == 9) lease true (!p.badFlags && t != 0 && (action == 0 || !s.badTimer p)))
    (done (s.setTimer t (BitVec.ofNat 3 action) (BitVec.ofNat 8 target) (BitVec.ofNat 16 (p.bits 2 16 16)) (p.time 3)
      (BitVec.ofNat 48 (p.long 6)) (p.w 8)))

/-- CAPTURE_GET (R294). -/
def cmdCaptureGet (b : BenchId) (p : Packet) (s : State) : State × Reply :=
  let src : Fin 4 := p.sub
  let n := p.bits 2 8 5
  let r := s.takeCaptures src n
  s.answer (tests (p.len == 3) (s.holdsTime b) true (!p.badFlags && !p.stray 2 0xFFFFE0FC && decide (1 ≤ n ∧ n ≤ 16)))
    (r.1, { status := stOk, detail := BitVec.ofNat 32 (r.2.length + 256 * r.1.time.captures[src].length)
            results := r.2.flatMap Capture.words })

/-! ### Lanes and octets (R27, R53, R55, R56, R60) -/

/-- An FMT table in force names an octet: an ingress format by OCTET_MASK, an egress format by the ports of the destination
entries it selects. -/
def State.namesOctet (s : State) (f : Fmt) (o : OctetId) : Bool :=
  match f with
  | .ingress g => g.octetMask.getLsbD o.val
  | .egress g => !s.fmt.addr.isEmpty &&
      (List.range (if g.destMode = 0 ∨ g.kind = 7 then 1 else g.destCount)).any fun k => octetOf (s.destPort (g.destBase + k)) == o

/-- The sub-arrays whose FMT tables in force name an octet (R338). -/
def State.octetSubs (s : State) (o : OctetId) : List SubId :=
  (allFin 4).filter fun i => s.fmt.fmts.toList.any fun e => match e with
    | some f => f.sub == i && s.namesOctet f o
    | none => false

/-- The lease "octet" of R338. -/
def State.octetLease (s : State) (b : BenchId) (o : OctetId) : Bool :=
  let subs := s.octetSubs o
  if subs.isEmpty then s.holdsObsWork b else subs.all fun i => s.holdsObs b i

/-- The settings that LANE_SET writes, over those it leaves (Table 02-9). -/
def laneSettings (p : Packet) (c : LaneOctCfg) : LaneOctCfg :=
  { c with
    ethTrain := p.bit 3 6, laneEn := BitVec.ofNat 8 (p.bits 3 8 8), rxInvert := BitVec.ofNat 8 (p.bits 3 16 8)
    txInvert := BitVec.ofNat 8 (p.bits 3 24 8), errLimit := BitVec.ofNat 16 (p.bits 4 0 16)
    replayLimit := BitVec.ofNat 4 (p.bits 4 16 4), startPreset := BitVec.ofNat 3 (p.bits 4 20 3), loopback := p.bit 4 23
    unidir := p.bit 4 24, expectTag0 := p.w 5, expectTag1 := p.w 6 }

/-- What LANE_SET does at once on a lane: TAG_OK compares the last TAG seen with the new EXPECT_TAG (R61), and a loopback that
begins takes what is sent from now on (Table 02-9). A lane in SYNC has seen a TAG once it has judged one. -/
def State.renewLane (s : State) (begins : Bool) (l : LaneId) : State :=
  let want := s.expectTag l
  s.onLane l fun x =>
    let seen := x.isUp || (x.st == lsSync && (x.stat.tagOk || x.tagRaised))
    { x with
      stat := { x.stat with tagOk := if seen then decide (want = 0xFF ∨ want = x.stat.peerTag.toNat) else x.stat.tagOk }
      loopFrom := if begins then s.out.length else x.loopFrom
      loopGot := if begins then 0 else x.loopGot }

/-- The lanes whose LANE_EN, RX_INVERT or TX_INVERT changes train in full (Table 02-8); the other fields take effect at
once (R28). -/
def State.setLanes (s : State) (o : OctetId) (c : LaneOctCfg) : State :=
  let old := (s.octet o).cfg
  let t := s.onOctet o fun x => { x with cfg := c }
  let t := (allFin 8).foldl (fun (u : State) n => u.renewLane (c.loopback && !old.loopback) (laneAt o n)) t
  let changed := (old.laneEn ^^^ c.laneEn) ||| (old.rxInvert ^^^ c.rxInvert) ||| (old.txInvert ^^^ c.txInvert)
  (allFin 8).foldl (fun (u : State) n =>
    if changed.getLsbD n.val then
      (let v := u.settleFrame (laneAt o n)
       if old.laneEn.getLsbD n.val then v.trainLane (laneAt o n) else v.startLane (laneAt o n) false)
    else u) t

/-- LANE_SET (R60). -/
def cmdLaneSet (b : BenchId) (p : Packet) (s : State) : State × Reply :=
  let o := p.octet
  let c := (s.octet o).cfg
  let params := !p.badFlags && !p.stray 2 0xFFFFFFF0 && !p.stray 3 0x80 && !p.stray 4 0xFE000000 &&
    p.bit 3 0 == c.enable && p.bit 3 1 == c.dir && p.bit 3 2 == c.pers && p.bits 3 3 3 == c.ethLayout.toNat &&
    p.bits 4 16 4 != 0 && decide (p.bits 4 20 3 ≤ 5)
  s.answer (tests (p.len == 7) (s.octetLease b o) (s.dataPath && (!p.bit 4 23 || s.mode == modeWorkshop)) params)
    (if (s.octet o).change.isSome then (s, Reply.plain stBusy) else done (s.setLanes o (laneSettings p c)))

/-- One lane trains as LANE_TRAIN asks: in full unless it is OFF, or through RETRAIN where it is UP. An Ethernet lane has no
RETRAIN (R59): it trains in full either way (log 6). -/
def State.trainAsked (s : State) (full : Bool) (l : LaneId) : State :=
  let st := (s.laneOf l).st
  if full then (if st = lsOff then s else s.trainLane l)
  else if st = lsUp then (if s.isEth l then s.trainLane l else s.retrainLane l) else s

/-- LANE_TRAIN (R53). -/
def cmdLaneTrain (b : BenchId) (p : Packet) (s : State) : State × Reply :=
  let l := p.lane
  let full := p.bit 2 8
  let st := (s.laneOf l).st
  s.answer (tests (p.len == 3) (s.octetLease b (octetOf l)) (st != lsOff && (full || st == lsUp))
      (!p.badFlags && !p.stray 2 0xFFFFFC80))
    (done (if p.bit 2 9 then (allFin 8).foldl (fun (t : State) n => t.trainAsked full (laneAt (octetOf l) n)) s
           else s.trainAsked full l))

/-- The offsets of one axis of an eye scan. -/
def eyeAxis (lo hi : Int) (step : Nat) : List Int :=
  if step = 0 ∨ hi < lo then [] else (List.range ((hi - lo).toNat / step + 1)).map fun k => lo + (k * step : Nat)

/-- EYE_SCAN (R55, R56). -/
def cmdEyeScan (b : BenchId) (p : Packet) (s : State) : State × Reply :=
  let l := p.lane
  let x := s.laneOf l
  let hs := eyeAxis (signedOf 8 (p.bits 3 0 8)) (signedOf 8 (p.bits 3 8 8)) (p.bits 3 16 8)
  let vs := eyeAxis (signedOf 8 (p.bits 4 0 8)) (signedOf 8 (p.bits 4 8 8)) (p.bits 4 16 8)
  let n := hs.length * vs.length
  let within' (lo hi : Int) (xs : List Int) : Bool := xs.all fun v => decide (lo ≤ v ∧ v ≤ hi)
  let params := !p.badFlags && !p.stray 2 0xFFE0FC80 && !p.stray 3 0xFF000000 && !p.stray 4 0xFF000000 && p.bits 2 8 2 != 3 &&
    decide (20 ≤ p.bits 2 16 5) && n != 0 && decide (n ≤ 4096) &&
    within' (-32) 31 [signedOf 8 (p.bits 3 0 8), signedOf 8 (p.bits 3 8 8)] &&
    within' (-127) 127 [signedOf 8 (p.bits 4 0 8), signedOf 8 (p.bits 4 8 8)]
  let cond := x.st != lsOff && x.st != lsWait && x.st != lsHunt && x.st != lsFault
  let eye : LaneEye :=
    { lane := BitVec.ofNat 7 l.val, eye := BitVec.ofNat 2 (p.bits 2 8 2), status := 1, dwellLog2 := BitVec.ofNat 5 (p.bits 2 16 5)
      pointsTotal := BitVec.ofNat 16 n, startSec := BitVec.ofNat 32 (secOf s.time16) }
  s.answer (tests (p.len == 5) (s.holdsAny b) cond params)
    (if x.eye.status = 1 ∨ x.st = lsTrain ∨ x.st = lsRetrain then (s, Reply.plain stBusy)
     else
       (s.onLane l fun y => { y with eye := eye, eyePts := [], eyeLeft := hs.flatMap fun h => vs.map fun v => (h, v) },
        { status := stOk, detail := BitVec.ofNat 32 n }))

/-- LANE_STATS (Table 13-12). -/
def cmdLaneStats (b : BenchId) (p : Packet) (s : State) : State × Reply :=
  s.answer (tests (p.len == 3) (s.holdsAny b) true (!p.badFlags && !p.stray 2 0xFFFFFFF0))
    (done s (timeWords s.time16 ++ (allFin 8).flatMap fun n =>
      let x := s.laneOf (laneAt p.octet n)
      x.stat.words ++ x.cnt.words))

/-- OCTET_SET (R27, R28). -/
def cmdOctetSet (b : BenchId) (p : Packet) (s : State) : State × Reply :=
  let o := p.octet
  let waits := (s.octetSubs o).filter fun i => s.active i
  let c : OctetChange := ⟨p.bit 2 4, p.bit 2 5, p.bit 2 6, BitVec.ofNat 3 (p.bits 2 7 3), waits⟩
  s.answer (tests (p.len == 3) (s.octetLease b o) s.dataPath (!p.badFlags && !p.stray 2 0xFFFFFC00 && decide (p.bits 2 7 3 ≤ 3)))
    (if (s.octet o).change.isSome then (s, Reply.plain stBusy)
     else if waits.isEmpty then done (s.applyOctet o c)
     else (s.onOctet o fun x => { x with change := some c }, Reply.plain stAccepted))

/-! ### Tally (R391, R401) -/

/-- TALLY_GET: records past the last source are cut. -/
def cmdTallyGet (b : BenchId) (p : Packet) (s : State) : State × Reply :=
  let first := p.bits 2 0 8
  let n := p.bits 2 8 8
  s.answer (tests (p.len == 3) (s.holdsAny b) true (!p.badFlags && !p.stray 2 0xFFFF0000 && decide (8 * n ≤ 1021)))
    (done s (((allFin 256).drop first).take n |>.flatMap fun i => s.talySrcWords i))

/-- TALLY_CLEAR (R391). -/
def cmdTallyClear (b : BenchId) (p : Packet) (s : State) : State × Reply :=
  let all' := p.bit 2 8
  s.answer (tests (p.len == 3) (s.holdsObsWork b) true
      (!p.badFlags && !p.stray 2 0xFFFFFE00 && (all' || assignedSource p.source.val)))
    (done (if all' then s.clearSources else s.clearSource p.source))

/-- TALLY_CONFIG (R401). -/
def cmdTallyConfig (b : BenchId) (p : Packet) (s : State) : State × Reply :=
  let c := talyEntry fun k => p.w (3 + k)
  let params := !p.badFlags && !p.stray 2 0xFFFFFF00 && !p.stray 3 0xFF00FC00 && !p.stray 5 0xE0F80000 && p.w 6 == 0 &&
    c.source.toNat == p.source.val && !c.bad
  s.answer (tests (p.len == 7) (s.holdsObsWork b) true params) (done (s.setEntry c))

/-! ### Modes (R355, R421) -/

/-- The mode that the sub-array states give (Table 16-9). -/
def State.subMode (s : State) : BitVec 4 :=
  if (allFin 4).any fun i => s.saState i == saObserve then modeObserve
  else if (allFin 4).any fun i => s.saState i == saAlign then modeAlign else modeProvision

/-- No sub-array is in ALIGN or OBSERVE. -/
def State.noneActive (s : State) : Bool := (allFin 4).all fun i => !s.active i

/-- The lease of MODE_REQUEST (R355). -/
def State.modeLease (s : State) (b : BenchId) (m : Nat) : Bool :=
  let easy := (m == 1 || m == 2) && s.noneActive && s.mode != modeHold && s.mode != modeWorkshop
  s.holdsWork b || (easy && s.holdsAnyObs b)

/-- Table 16-9 lists the requested transition and its condition holds; a channel in FAULT keeps the module out of PROVISION
(R256), and RIDE and recovery refuse every request (R411, R440; log entry 53). -/
def State.modeAllowed (s : State) (m : Nat) : Bool :=
  let c := s.mode.toNat
  if s.start.recovery then false
  else if m = 6 then c != 0 && c != 5
  else if m = 2 then
    ((allFin 32).all fun k => (s.chan k).stat.state != gsFault) &&
      (c == 1 || (c == 6 && (allFin 32).all fun k => (s.chan k).stat.state != gsFrozen))
  else if m = 7 then ((c == 1 || c == 2) && s.noneActive) || c == 6
  else if m = 1 then ((c == 2 || c == 7) && s.noneActive) || c == 6
  else false

/-- A mode request that is allowed: the module after it, and whether the request waits for its sequence. -/
def State.moveMode (s : State) (b : BenchId) (m : Nat) : State × Bool :=
  let target := BitVec.ofNat 4 m
  let wait (id : Fin 6) : State × Bool :=
    (s.beginSeq id (.mode target (some b)), true)
  if m = 6 then (s.requestHold, false)
  else if s.mode = modeHold then
    if m = 2 then ((s.runNow 4).setMode s.subMode, false)
    else
      let t := (allFin 4).foldl (fun (u : State) i => u.stopNow i) s
      ((t.runNow (if m = 1 then 5 else 4)).setMode target, false)
  else if s.mode = modeStandby then wait 4
  else if m = 1 then wait 5
  else (s.setMode target, false)

/-- MODE_REQUEST (R355): the answer waits where a sequence runs. -/
def cmdModeRequest (b : BenchId) (p : Packet) (s : State) : State × Option Reply :=
  let m := p.bits 2 0 4
  match (tests (p.len == 3) (s.modeLease b m) (decide (8 ≤ m) || s.modeAllowed m)
      (!p.badFlags && !p.stray 2 0xFFFFFFF0 && decide (m < 8))).find? fun e => e.1 with
  | some e => (s, some (Reply.plain e.2))
  | none =>
    if s.bell.running.isSome then (s, some (Reply.plain stBusy))
    else
      let r := s.moveMode b m
      (r.1, if r.2 then none else some Reply.ok)

/-! ### Tiles (R176) -/

/-- The lease "tile" of R338. -/
def State.tileLease (s : State) (b : BenchId) (t : Option TileId) : Bool :=
  match t.bind fun k => s.tileSub k with
  | some i => s.holdsObs b i
  | none => s.holdsObsWork b

/-- A TILE_RESTORE whose self-test ends by a failure of the tile or its retirement is answered FAULTED (R176; log entry 77). -/
def State.failRestore (s : State) (t : TileId) : State :=
  match (s.tile t).asked with
  | some (b, _) => (s.onTile t fun x => { x with asked := none }).finishCommand b (Reply.plain stFaulted)
  | none => s

/-- TILE_RETIRE (R176). -/
def cmdTileRetire (b : BenchId) (p : Packet) (s : State) : State × Reply :=
  s.answer (tests (p.len == 3) (s.tileLease b p.tile) s.dataPath (!p.badFlags && !p.stray 2 0xFFFFFFC0 && p.tile.isSome))
    (match p.tile with
     | some t =>
       let r := s.askRetire t
       (if r.2 = 0 then r.1.failRestore t else r.1, Reply.plain (if r.2 = 0 then stOk else if r.2 = 1 then stAccepted else if r.2 = 2 then stBusy else stBadParam))
     | none => (s, Reply.plain stBadParam))

/-- TILE_RESTORE (R176): the answer waits for the self-test. -/
def cmdTileRestore (b : BenchId) (p : Packet) (s : State) : State × Option Reply :=
  match (tests (p.len == 3) (s.tileLease b p.tile) s.dataPath (!p.badFlags && !p.stray 2 0xFFFFFFC0 && p.tile.isSome)).find?
      fun e => e.1 with
  | some e => (s, some (Reply.plain e.2))
  | none =>
    match p.tile with
    | none => (s, some (Reply.plain stBadParam))
    | some t =>
      let st := (s.tile t).reg.state
      if st = tsTesting then (s, some (Reply.plain stBusy))
      else if st ≠ tsRetired then (s, some (Reply.plain stBadParam))
      else
        ((s.askIsland (tileIsland t) true).onTile t fun x =>
          { x with test := .restore, asked := some (b, p.tag), reg := { x.reg with state := tsTesting } }, none)

end Sys2Proof.Machine
end

