-- ==== Sys2Proof/Machine/MoveCommands.lean ====
section
/-! DEFINITION. The commands that move data and test blocks: BULK_WRITE, BULK_READ, BALE, UNBALE, SELFTEST, PEEK and POKE
(R180, R260, R315, R354, R357, R377 to R384, Tables 13-13 and 13-14). -/

namespace Sys2Proof.Machine

/-- The ports of the bench mover and of the Foreman's own accesses (Table 14-2). -/
abbrev moverPort : MasterId := 6
abbrev foremanPort : MasterId := 0

/-! ### Areas (Table 13-13) -/

/-- Where a range lies. -/
inductive Area where
  | stage | region | scratch | other | none
  deriving DecidableEq, Repr

/-- The area of a range of at least one byte: it must lie wholly in one area (R354). -/
def State.areaOf (s : State) (b : BenchId) (a n : Nat) : Area :=
  let n := max n 1
  let staged : Option Area := match (s.benchOf b).txn with
    | some x => if within a n x.addr x.length then some .stage
      else if meets (a, n) (x.addr, x.length) then some .none else none
    | none => none
  match staged with
  | some r => r
  | none =>
    match s.gran.regions.find? fun (r : Region) => meets (a, n) (r.base, r.bytes) with
    | some r => if within a n r.base r.bytes then (if r.kind = 6 then .scratch else .region) else .none
    | none => if a + n ≤ 2 ^ 44 then .other else .none

/-- The lease of the bench's open transaction. -/
def State.stageLease (s : State) (b : BenchId) : Bool :=
  match (s.benchOf b).txn with
  | some x => s.mayTable b x.cls (x.sub.getD 0)
  | none => false

/-- The lease for reading an area; an area that is none needs none. -/
def State.readLease (s : State) (b : BenchId) (r : Area) : Bool :=
  match r with
  | .stage => s.stageLease b
  | .region | .scratch => s.holdsAny b
  | .other => s.holdsWork b
  | .none => true

/-- The lease for writing an area. -/
def State.writeLease (s : State) (b : BenchId) (r : Area) : Bool :=
  match r with
  | .stage => s.stageLease b
  | .scratch => s.holdsObsWork b
  | .other => s.holdsWork b
  | .region | .none => true

/-- The condition for an area: the Granary is not there in a recovery boot, every other address only in WORKSHOP. -/
def State.areaMode (s : State) (r : Area) : Bool :=
  match r with
  | .region | .scratch => s.dataPath
  | .other => s.mode == modeWorkshop
  | .stage | .none => true

/-! ### Copies (R315, R354) -/

/-- Free words (log entry 3). -/
def State.freeWords (s : State) (n : Nat) : State × List Word :=
  (s.drawn n, (List.range n).map fun (k : Nat) => Config.freeWord (s.freeCount + k))

/-- A range that a copy leaves undefined: each byte that a memory holds there becomes a free value. -/
def State.undefine (s : State) (m : MasterId) (a n : Nat) : State :=
  (kibPieces a n).foldl (fun (t : State) e =>
    match t.targetOf m e.1 with
    | some (k, c) =>
      if (1 ≤ k ∧ k ≤ 4) ∨ 8 ≤ k then
        let r := t.freeBytes e.2
        { r.1 with mem := r.1.mem.store c r.2 }
      else t
    | none => t) s

/-- Bytes written in ascending order; the bytes written before the piece that met an error response, if one did. -/
def State.copyOut (s : State) (m : MasterId) (a : Nat) (bs : List Byte) : State × Option Nat :=
  (kibPieces a bs.length).foldl (fun (r : State × Option Nat) e =>
    match r.2 with
    | some _ => r
    | none =>
      let w := r.1.busWrite m e.1 (((bs.drop (e.1 - a)).take e.2).map some)
      (w.1, if w.2 = respComplete then none else some (e.1 - a))) (s, none)

/-- Bytes read in ascending order: the bytes before an error response, and where one was met. -/
def State.copyIn (s : State) (m : MasterId) (a n : Nat) : State × List Byte × Option Nat :=
  (kibPieces a n).foldl (fun (r : State × List Byte × Option Nat) e =>
    match r.2.2 with
    | some _ => r
    | none =>
      let w := r.1.busRead m e.1 e.2
      if w.2.1 = respComplete then (w.1, r.2.1 ++ w.2.2, none) else (w.1, r.2.1, some (e.1 - a))) (s, [], none)

/-- Weights routed into the standby copy from word `k` of a WEIGHT table's later words on; how many words went before one
met an error response, if one did (R226, R344). -/
def State.routeWeights (s : State) (i : SubId) (w : WeightSpan) : Nat → List Word → State × Option Nat
  | _, [] => (s, none)
  | k, v :: vs =>
    let r := s.putWeights i w k v
    if r.2 then r.1.routeWeights i w (k + 1) vs else (s, some k)

/-- A weight of the standby copy that a failed copy leaves undefined becomes a free value. -/
def State.undefineWeight (s : State) (i : SubId) (w : WeightSpan) (k : Nat) : State :=
  match s.weightPlace i w k with
  | some a =>
    let r := s.freeBytes 2
    { r.1 with mem := r.1.mem.store a r.2 }
  | none => s

/-- A BULK_WRITE into the staging range of a WEIGHT table, from a byte offset of the table on (R226, R344): the words
copied, where a word met an error response. -/
def State.stageWeights (s : State) (b : BenchId) (x : Txn) (off : Nat) (ws : List Word) : State × Option Nat :=
  let i := x.sub.getD 0
  let head := ws.take ((36 - off) / 4)
  let t : State := { s with mem := s.mem.store (x.addr + off) (wordsBytes head) }
  let body := ws.drop head.length
  let first := (max off 36 - 36) / 4
  let w := t.weightSpanOf x
  let r := t.routeWeights i w first body
  let reach := match r.2 with
    | some k => 36 + 4 * k
    | none => off + 4 * ws.length
  let u := r.1.onBench b fun y => { y with txn := y.txn.map fun (z : Txn) => { z with covered := max z.covered reach } }
  match r.2 with
  | some k =>
    ((List.range (2 * (first + body.length - k))).foldl (fun (v : State) j => v.undefineWeight i w (2 * k + j)) u,
      some (head.length + k - first))
  | none => (u, none)

/-- The tests that both bulk commands share. -/
def bulkParams (p : Packet) : Bool :=
  let off := p.bits 2 0 18
  let n := p.bits 3 0 19
  !p.badFlags && !p.stray 2 0xFFFC0000 && !p.stray 3 0xFFF80000 && !p.badAddr 4 && p.addr 4 % 4 == 0 &&
    decide (1 ≤ n ∧ n ≤ 262144 ∧ off + n ≤ 262144)

/-- The answer to a copy: the words copied. -/
def copied (words : Nat) (fault : Option Nat) : Reply :=
  match fault with
  | some k => { status := stFaulted, detail := BitVec.ofNat 32 k }
  | none => { status := stOk, detail := BitVec.ofNat 32 words }

/-- A WEIGHT table's copies start at or below what has been covered (R344). -/
def State.stageGap (s : State) (b : BenchId) (a : Nat) : Bool :=
  match (s.benchOf b).txn with
  | some x => x.cls == 8 && decide (x.covered < a - x.addr)
  | none => false

/-- BULK_WRITE (R315, R354). -/
def cmdBulkWrite (b : BenchId) (p : Packet) (s : State) : State × Reply :=
  let off := p.bits 2 0 18
  let n := p.bits 3 0 19
  let a := p.addr 4
  let r := s.areaOf b a (4 * n)
  let params := bulkParams p && r != .none && r != .region && !(r == .stage && s.stageGap b a)
  s.answer (tests (p.len == 6) (s.writeLease b r) (s.areaMode r) params)
    (let ws := SMap.getRange 0 (s.benchOf b).bulk off n
     match r, (s.benchOf b).txn with
     | .stage, some x =>
       if x.cls = 8 then
         let c := s.stageWeights b x (a - x.addr) ws
         (c.1, copied n c.2)
       else
         let c := s.copyOut moverPort a (wordsBytes ws)
         (c.1, copied n c.2)
     | _, _ =>
       let c := s.copyOut moverPort a (wordsBytes ws)
       match c.2 with
       | some k => (c.1.undefine moverPort (a + k) (4 * n - k), copied n (some (k / 4)))
       | none => (c.1, copied n none))

/-- BULK_READ (R315, R354). -/
def cmdBulkRead (b : BenchId) (p : Packet) (s : State) : State × Reply :=
  let off := p.bits 2 0 18
  let n := p.bits 3 0 19
  let a := p.addr 4
  let r := s.areaOf b a (4 * n)
  s.answer (tests (p.len == 6) (s.readLease b r) (s.areaMode r) (bulkParams p && r != .none))
    (let c := s.copyIn moverPort a (4 * n)
     let ws := bytesWords c.2.1
     let f := c.1.freeWords (n - ws.length)
     (f.1.onBench b fun x => { x with bulk := SMap.setRange 0 x.bulk off (ws ++ f.2) },
       copied n (c.2.2.map fun k => k / 4)))

/-! ### BALE and UNBALE (R377 to R384) -/

/-- A change of BALE_STAT. -/
def State.onBale (s : State) (f : BaleStat → BaleStat) : State := { s with move := { s.move with bale := f s.move.bale } }

/-- The island of the Baler. -/
abbrev balerIsland : IslandId := 77

/-- A completed job is counted. -/
def State.countBale (s : State) (raw stream : Nat) : State :=
  s.onBale fun x => { x with state := 0, jobs := x.jobs + 1, rawBytes := x.rawBytes + BitVec.ofNat 64 raw
                             streamBytes := x.streamBytes + BitVec.ofNat 64 stream }

/-- A running job ends: it is counted and its command answered (R314, R354). -/
def State.endBaler (s : State) : State :=
  match s.move.baleRun with
  | some x =>
    let t := ({ s with move := { s.move with baleRun := none } } : State).countBale x.raw x.stream
    if x.answered then t else t.finishCommand x.bench (Reply.ok x.results)
  | none => s

/-- The last byte of the running job is coded. -/
def State.balerDue (s : State) : Bool :=
  match s.move.baleRun with
  | some x => decide (x.endsAt ≤ s.now)
  | none => false

/-- A job runs until its last byte is coded, one raw byte in half a nanosecond, after what the Baler still has to do for a closed
session; its command is answered at the end (log entry 24). -/
def State.runBaler (s : State) (b : BenchId) (code : BitVec 2) (raw stream outBytes : Nat) : State :=
  let start := match s.move.baleRun with
    | some x => max s.now x.endsAt
    | none => s.now
  let t := s.endBaler.onBale fun x => { x with state := code }
  { t with move := { t.move with baleRun := some ⟨b, start + (raw + 1) / 2, raw, stream, words64 outBytes, false⟩ } }

/-- What the end of its work means for a job: it runs until its time has passed, or, where it failed or has no bytes, it is answered
at once. -/
def State.endBale (s : State) (b : BenchId) (code : BitVec 2) (e : BaleEnd) (outBytes : Nat) : State × Option Reply :=
  let s := s.onBale fun x => { x with bench := BitVec.ofNat 2 b.val }
  let failed (d : Nat) (t : State) : State × Option Reply :=
    (t.onBale fun x => { x with lastDetail := BitVec.ofNat 32 d }, some { status := stFaulted, detail := BitVec.ofNat 32 d })
  match e with
  | .ok raw stream =>
    if raw = 0 then (s.countBale raw stream, some (Reply.ok (words64 outBytes))) else (s.runBaler b code raw stream outBytes, none)
  | .nospace => (s.onBale fun x => { x with failedNospace := x.failedNospace + 1, lastDetail := 0 }, some (Reply.plain stNospace))
  | .check d =>
    failed d ((s.onBale fun x => { x with failedCheck := x.failedCheck + 1, checkSeen := true }).raise srcBaleCheck
      (BitVec.ofNat 32 d))
  | .other d => failed d (s.onBale fun x => { x with failedOther := x.failedOther + 1 })

/-- The tests that both Baler commands share. -/
def State.baleTests (s : State) (b : BenchId) (p : Packet) (options : Bool) : List (Bool × BitVec 8) :=
  let src := s.areaOf b (p.addr 2) (p.long 4)
  let dst := s.areaOf b (p.addr 6) (p.long 8)
  let lease := s.readLease b src && (dst != .scratch || s.writeLease b dst)
  let params := !p.badFlags && !p.badAddr 2 && !p.badAddr 6 && !p.stray 5 0xFFFF0000 && !p.stray 9 0xFFFF0000 && options &&
    src != .none && dst == .scratch
  tests (p.len == 11) lease (s.areaMode src) params

/-- The Baler runs a job for another bench (R354). -/
def State.balerBusy (s : State) (b : BenchId) : Bool :=
  match s.move.baleRun with
  | some x => x.bench != b
  | none => false

/-- A Baler command answers with the first of its tests that applies, FAULTED while its island is off, and otherwise runs its job. -/
def State.balerAnswer (s : State) (tests : List (Bool × BitVec 8)) (act : State × Option Reply) : State × Option Reply :=
  match (tests ++ [(!s.islandOn balerIsland, stFaulted)]).find? fun e => e.1 with
  | some e => (s, some (Reply.plain e.2))
  | none => act

/-- A BALE whose options are right: its job, and what a destination that ran out of space is left as (R381 to R383). -/
def State.doBale (s : State) (b : BenchId) (p : Packet) (o : BaleOptions) : State × Option Reply :=
  let bad := match p.meets with
    | .selfCheck k => some (2 ^ o.blockLog * k)
    | _ => none
  let r := s.baleJob o (p.addr 2) (p.long 4) (p.addr 6) (p.long 8) bad
  let t := if r.2 = BaleEnd.nospace then
      r.1.undefine balePort (p.addr 6 + min 32 (p.long 8)) (p.long 8 - min 32 (p.long 8)) else r.1
  t.endBale b 1 r.2 r.2.stream

/-- BALE (R377, R381 to R383). -/
def cmdBale (b : BenchId) (p : Packet) (s : State) : State × Option Reply :=
  let o := baleOptions (p.w 10)
  s.balerAnswer (s.baleTests b p o.isSome ++ [(s.balerBusy b, stBusy)])
    (match o with
     | none => (s, some (Reply.plain stBadParam))
     | some o => s.doBale b p o)

/-- UNBALE (R384). -/
def cmdUnbale (b : BenchId) (p : Packet) (s : State) : State × Option Reply :=
  s.balerAnswer (s.baleTests b p (p.w 10 == 0) ++ [(s.balerBusy b, stBusy)])
    (let r := s.unbaleJob (p.addr 2) (p.long 4) (p.addr 6) (p.long 8)
     r.1.endBale b 2 r.2 r.2.raw)

/-! ### SELFTEST (R357, Table 13-14) -/

/-- The answer to a self-test: PASSED, FAILED and, where the target has one, the mask of failures. -/
def testReply (passed failed : Nat) (mask : List Word) : Reply :=
  { status := if failed = 0 then stOk else stFaulted, detail := BitVec.ofNat 32 failed
    results := [BitVec.ofNat 32 passed, BitVec.ofNat 32 failed] ++ mask }

/-- A tile tested under target 1: one that fails is RETIRED at once with cause SELFTEST (R180). -/
def State.testTile (s : State) (t : TileId) (pass : Bool) : State :=
  let u := s.onTileReg t fun r => r.tested pass
  if pass ∨ (u.tile t).reg.state = tsRetired then u else (u.onTileReg t fun r => { r with lastCause := 5 }).retireNow t

/-- Target 1: which tiles fail is free. -/
def State.testTiles (s : State) (mask : Nat) : State × Reply :=
  let r := s.freeWords 2
  let bad := mask &&& ((r.2.getD 0 0).toNat + (r.2.getD 1 0).toNat * 2 ^ 32)
  let t := (allFin 42).foldl (fun (u : State) k => if mask.testBit k.val then u.testTile k (!bad.testBit k.val) else u) r.1
  let failed := popCount 42 bad
  (t, testReply (popCount 42 mask - failed) failed [BitVec.ofNat 32 bad, BitVec.ofNat 32 (bad / 2 ^ 32)])

/-- The page that a DRAM row holds: the low eleven bits of the page number are those whose hash gives the row's channel,
subchannel and bank (R242). -/
def State.rowPage (s : State) (r : RepairRow) : Nat :=
  let high := r.row.toNat * 2048
  let want := r.chan.toNat + 32 * r.sub.toNat + 128 * r.bank.toNat
  high + maskOf 11 fun k => want.testBit k != hashBit (s.gran.masks.getD k 0) high

/-- The bank group whose repair resource a row uses. -/
def repairGroup (r : RepairRow) : Nat := r.chan.toNat * 64 + r.sub.toNat * 16 + r.bank.toNat / 4

/-- One PENDING entry of GRAN_REPAIR is worked (R260): whether the device reports failure is free. -/
def State.repairRow (s : State) (k : Nat) (r : RepairRow) : State :=
  let put (t : State) (st : BitVec 2) : State :=
    { t with gran := { t.gran with repair := setNth t.gran.repair k { r with state := st } } }
  if s.gran.used.contains (repairGroup r) then put s 2
  else if s.freeWord.getLsbD 0 then put s.drawn 3
  else
    let t : State := put s.drawn 1
    { t with gran := { t.gran with used := repairGroup r :: t.gran.used }
             mem := t.mem.zero (granAddr (31 * t.rowPage r)) (31 * 64) }

/-- Target 2: the PENDING entries in order. -/
def State.testRepair (s : State) : State × Reply :=
  let work := ((List.range s.gran.repair.length).zip s.gran.repair).filter fun e => e.2.state == 0
  let t := work.foldl (fun (u : State) e => u.repairRow e.1 e.2) s
  let good := (work.filter fun e => ((t.gran.repair[e.1]?).map fun (x : RepairRow) => x.state) == some 1).length
  (t, testReply good (work.length - good) [])

/-- Target 3: which engines fail is free. -/
def State.testEngines (s : State) (mask : Nat) : State × Reply :=
  let bad := mask &&& s.freeWord.toNat
  let failed := popCount 32 bad
  (s.drawn, testReply (popCount 32 mask - failed) failed [BitVec.ofNat 32 bad, 0])

/-- Targets 4 and 5: the spec does not say what PASSED and FAILED count, so both are free. -/
def State.testSram (s : State) : State × Reply :=
  let r := s.freeWords 2
  (r.1, testReply (r.2.getD 0 0).toNat (r.2.getD 1 0).toNat [])

/-- SELFTEST (R357). -/
def cmdSelftest (b : BenchId) (p : Packet) (s : State) : State × Reply :=
  let target := p.bits 2 0 8
  let mask := p.long 3
  let maskOk := if target = 1 then !p.stray 4 0xFFFFFC00 else if target = 3 then p.w 4 == 0 else mask == 0
  s.answer (tests (p.len == 5) (s.holdsWork b) (s.mode == modeWorkshop)
      (!p.badFlags && !p.stray 2 0xFFFFFF00 && decide (1 ≤ target ∧ target ≤ 5) && maskOk))
    (if target = 1 then s.testTiles mask
     else if target = 2 then s.testRepair
     else if target = 3 then s.testEngines mask
     else if target = 5 ∧ !s.noneActive then (s, Reply.plain stBusy)
     else s.testSram)

/-! ### PEEK and POKE (R357) -/

/-- Words read one access each: those read, and whether an error response ended them. -/
def State.peekWords (s : State) (a : Nat) : Nat → State × List Word × Bool
  | 0 => (s, [], true)
  | n + 1 =>
    let r := s.busRead foremanPort a 4
    if r.2.1 = respComplete then
      let q := r.1.peekWords (a + 4) n
      (q.1, bytesWords r.2.2 ++ q.2.1, q.2.2)
    else (r.1, [], false)

/-- Words written one access each: how many, and whether an error response ended them. -/
def State.pokeWords (s : State) (a : Nat) : List Word → State × Nat × Bool
  | [] => (s, 0, true)
  | v :: vs =>
    let r := s.busWrite foremanPort a ((wordBytes v).map some)
    if r.2 = respComplete then
      let q := r.1.pokeWords (a + 4) vs
      (q.1, q.2.1 + 1, q.2.2)
    else (r.1, 0, false)

/-- PEEK. -/
def cmdPeek (b : BenchId) (p : Packet) (s : State) : State × Reply :=
  let n := p.bits 4 0 10
  s.answer (tests (p.len == 5) (s.holdsWork b) (s.mode == modeWorkshop)
      (!p.badFlags && !p.badAddr 2 && p.addr 2 % 4 == 0 && !p.stray 4 0xFFFFFC00 && decide (1 ≤ n ∧ n ≤ 1021)))
    (let r := s.peekWords (p.addr 2) n
     (r.1, if r.2.2 then Reply.ok r.2.1 else { status := stFaulted, detail := BitVec.ofNat 32 r.2.1.length }))

/-- POKE. -/
def cmdPoke (b : BenchId) (p : Packet) (s : State) : State × Reply :=
  s.answer (tests (decide (4 ≤ p.len)) (s.holdsWork b) (s.mode == modeWorkshop)
      (!p.badFlags && !p.badAddr 2 && p.addr 2 % 4 == 0))
    (let r := s.pokeWords (p.addr 2) (p.params.drop 2)
     (r.1, if r.2.2 then Reply.ok else { status := stFaulted, detail := BitVec.ofNat 32 r.2.1 }))

end Sys2Proof.Machine
end

