-- ==== Sys2Proof/Machine/Image.lean ====
section
/-! DEFINITION. The configuration store: copies, images, signers and the choice of a copy (R433 to R440), and STORE_WRITE,
STORE_ACTIVATE and STORE_QUERY (R356, R437). -/

namespace Sys2Proof.Machine

/-! ### The image (R434) -/

/-- COPY_BYTES (R433). -/
def copyBytes : Nat := 133169152

/-- Bytes of an image area from an offset on; an erased byte reads 0xFF. -/
def StoreCopy.bytes (c : StoreCopy) (off n : Nat) : List Byte := SMap.getRange 0xFF c.image off n

/-- Word `k` of an image. -/
def StoreCopy.word (c : StoreCopy) (k : Nat) : Word := BitVec.ofNat 32 (leNat (c.bytes (4 * k) 4))

/-- A big-endian number of 48 bytes. -/
def StoreCopy.big (c : StoreCopy) (off : Nat) : Nat := beNat (c.bytes off 48)

/-- A directory entry: type, offset and bytes. -/
structure Section where
  type  : Nat
  off   : Nat
  bytes : Nat
  deriving DecidableEq, Repr

/-- The directory of an image. -/
def StoreCopy.sections (c : StoreCopy) : List Section :=
  (List.range (fieldOf (c.word 1) 16 7)).map fun k =>
    ⟨(c.word (256 + 4 * k)).toNat, (c.word (257 + 4 * k)).toNat, (c.word (258 + 4 * k)).toNat⟩

/-- The first section of a type. -/
def StoreCopy.section (c : StoreCopy) (type : Nat) : Option Section := c.sections.find? fun (x : Section) => x.type == type

/-- Word `k` of a section. -/
def StoreCopy.sectionWord (c : StoreCopy) (x : Section) (k : Nat) : Word := c.word (x.off / 4 + k)

/-- A TABLE section: its class, and the words of its body. -/
def StoreCopy.tableClass (c : StoreCopy) (x : Section) : Nat := fieldOf (c.sectionWord x 1) 0 8

/-- The body of a TABLE section. -/
def StoreCopy.tableBody (c : StoreCopy) (x : Section) : List Word := bytesWords (c.bytes (x.off + 16) (x.bytes - 16))

/-- A store table of a class and identity (Table 17-7). -/
def storeTable (cls : Nat) (w0 : Word) : Bool :=
  match cls with
  | 2 => fieldOf w0 0 8 == 0 || fieldOf w0 0 8 == 2
  | 4 | 5 | 10 => true
  | 7 => decide (6 ≤ fieldOf w0 0 8 ∧ fieldOf w0 0 8 ≤ 12)
  | _ => false

/-- What tells one store table from another: class and identity, and for SEQ its SEQ_ID. -/
def StoreCopy.tableKey (c : StoreCopy) (x : Section) : Nat × Nat :=
  let w0 := c.sectionWord x 4
  (c.tableClass x, if c.tableClass x = 4 then fieldOf w0 0 4 else (tableIdentity (c.tableClass x) w0).toNat)

/-- The TABLE sections. -/
def StoreCopy.tables (c : StoreCopy) : List Section := c.sections.filter fun (x : Section) => x.type == 2

/-- A directory entry has a type, an offset and a size that R434 allows. -/
def StoreCopy.sectionOk (c : StoreCopy) (image : Nat) (k : Nat) (x : Section) : Bool :=
  decide (1 ≤ x.type ∧ x.type ≤ 5) && c.word (259 + 4 * k) == 0 && decide (x.off % 4 = 0) &&
  decide (1024 + 16 * c.sections.length ≤ x.off ∧ x.off + x.bytes ≤ image) &&
  (match x.type with
   | 1 => decide (x.bytes ≤ 6291456)
   | 2 => decide (20 ≤ x.bytes) && storeTable (c.tableClass x) (c.sectionWord x 4)
   | 3 => decide (x.bytes = 288)
   | 4 => decide (x.bytes = 8) && decide ((c.sectionWord x 0).toNat ≤ 600000)
   | _ => decide (x.bytes = 100))

/-- Two sections overlap. -/
def Section.overlaps (x y : Section) : Bool := decide (x.off < y.off + y.bytes) && decide (y.off < x.off + x.bytes)

/-- The directory obeys R434. -/
def StoreCopy.directoryOk (c : StoreCopy) (image : Nat) : Bool :=
  let xs := c.sections
  (xs.zipIdx.all fun e => c.sectionOk image e.2 e.1) &&
  (xs.zipIdx.all fun e => (xs.drop (e.2 + 1)).all fun y => !e.1.overlaps y) &&
  (xs.filter fun (x : Section) => x.type == 1).length == 1 &&
  (c.tables.zipIdx.all fun e => (c.tables.drop (e.2 + 1)).all fun y => c.tableKey e.1 != c.tableKey y)

/-- IMAGE_BYTES as the image header gives it. -/
def StoreCopy.imageBytes (c : StoreCopy) : Nat := (c.word 2).toNat

/-- The image header has the right MAGIC, FORMAT and MEMBER, reserved fields of zero, and its fields in range (Table 17-6). -/
def StoreCopy.headerOk (c : StoreCopy) : Bool :=
  let w := c.word
  let signer := flagOf (w 5) 0
  w 0 == 0x4D56494D && fieldOf (w 1) 0 8 == 1 && fieldOf (w 1) 8 8 == 4 && decide (1 ≤ fieldOf (w 1) 16 7 ∧ fieldOf (w 1) 16 7 ≤ 64) &&
  fieldOf (w 1) 23 9 == 0 && decide (2048 ≤ c.imageBytes ∧ c.imageBytes ≤ copyBytes ∧ c.imageBytes % 4 = 0) &&
  decide ((w 4).toNat ≤ 64) && fieldOf (w 5) 3 29 == 0 && (signer || fieldOf (w 5) 1 2 == 0) && w 6 == 0 && w 7 == 0 &&
  (List.range 188).all fun k => w (68 + k) == 0

/-- DIGEST matches; bytes programmed twice in a sector make it fail (R437). -/
def StoreCopy.digestOk (c : StoreCopy) : Bool :=
  c.spoiled.isEmpty && sha384 (c.bytes 1024 (c.imageBytes - 1024)) == c.bytes 32 48

/-- Structure and digest of an image (R356). -/
def StoreCopy.imageOk (c : StoreCopy) : Bool := c.headerOk && c.directoryOk c.imageBytes && c.digestOk

/-! ### Signers (R438) -/

/-- The root key is accepted: no owner slot is burned, or the highest has ROOT_ALLOWED. -/
def State.rootAccepted (s : State) : Bool :=
  match s.start.owners.getLast? with
  | some o => o.rootAllowed
  | none => true

/-- The SHA-384 of a signer's public key, as a number. -/
def StoreCopy.keyDigest (c : StoreCopy) : BitVec 384 := BitVec.ofNat 384 (beNat (sha384 (c.bytes 80 96)))

/-- The signer of an image is accepted. -/
def State.signerOk (s : State) (c : StoreCopy) : Bool :=
  let n := s.start.owners.length
  decide (s.start.minSecurity ≤ (c.word 4).toNat) &&
  (if flagOf (c.word 5) 0 then
     decide (0 < n) && decide (fieldOf (c.word 5) 1 2 + 1 = n) &&
       (match s.start.owners.getLast? with
        | some o => o.digest == c.keyDigest
        | none => false)
   else c.keyDigest == Config.rootDigest && s.rootAccepted)

/-- SIGNATURE verifies. -/
def StoreCopy.signatureOk (c : StoreCopy) : Bool :=
  ecdsaVerify (c.big 80, c.big 128) (beNat (sha384 (c.bytes 0 176))) (c.big 176) (c.big 224)

/-! ### Choosing a copy (R436) -/

/-- Which copy: false is A. -/
def State.copyOf (s : State) (b : Bool) : StoreCopy := if b then s.start.copyB else s.start.copyA

/-- SEQ of a readable copy header. -/
def StoreCopy.seq (c : StoreCopy) : Option Word := if c.factory then some Config.factorySeq else c.header.map fun h => h.seq

/-- A copy is valid. The factory image is as delivered: its structure, digest and signature by the root key are good. -/
def State.copyValid (s : State) (b : Bool) : Bool :=
  let c := s.copyOf b
  if c.factory then s.rootAccepted && decide (s.start.minSecurity ≤ Config.factorySecurity.toNat)
  else
    match c.header with
    | some h => decide (h.imageBytes = c.imageBytes) && c.imageOk && s.signerOk c && c.signatureOk
    | none => false

/-- `a` is newer than `b` by serial arithmetic. -/
def newer (a b : Word) : Bool := decide (1 ≤ (a - b).toNat ∧ (a - b).toNat ≤ 2 ^ 31 - 1)

/-- The copy validated first: B where its header is readable and newer. -/
def State.firstCopy (s : State) : Bool :=
  match s.start.copyA.seq, s.start.copyB.seq with
  | some a, some b => newer b a
  | none, some _ => true
  | _, none => false

/-- The copy that a start boots; none where neither is valid. -/
def State.bootChoice (s : State) : Option Bool :=
  let f := s.firstCopy
  if s.copyValid f then some f else if s.copyValid (!f) then some (!f) else none

/-- START_CFG of a copy: REF_WAIT_MS and the cold-start word of BELL_CFG. -/
def StoreCopy.startCfg (c : StoreCopy) : Option (Nat × Word) :=
  if c.factory then none
  else (c.section 4).map fun x => ((c.sectionWord x 0).toNat, c.sectionWord x 1)

/-- REF_WAIT_MS: of the copy a start would boot (log entry 53). -/
def State.refWaitMs (s : State) : Nat :=
  match (s.bootChoice.bind fun b => (s.copyOf b).startCfg) with
  | some e => e.1
  | none => 4500

/-- FW_VERSION of a copy. -/
def StoreCopy.fwVersion (c : StoreCopy) : Word := if c.factory then Config.fwVersion else c.word 3

/-- SECURITY_VERSION of a copy. -/
def StoreCopy.security (c : StoreCopy) : Nat := if c.factory then Config.factorySecurity.toNat else (c.word 4).toNat

/-! ### Writing a copy (R356, R437) -/

/-- The lease of the store commands: STORE, or WORKSHOP in recovery (R440). -/
def State.storeLease (s : State) (b : BenchId) : Bool := if s.start.recovery then s.holdsWork b else s.holdsStore b

/-- The copy that store commands write: the one that did not boot, copy A in recovery. -/
def State.targetCopy (s : State) : Bool := if s.start.recovery then false else !s.start.storeCopy

/-- A change of the copy that store commands write. -/
def State.onTarget (s : State) (f : StoreCopy → StoreCopy) : State :=
  { s with start :=
    if s.targetCopy then { s.start with copyB := f s.start.copyB } else { s.start with copyA := f s.start.copyA } }

/-- A byte is programmed: a second program of a byte of a sector spoils the sector. -/
def StoreCopy.program (c : StoreCopy) (off : Nat) (bs : List Byte) : StoreCopy :=
  let sectors := (List.range ((off + bs.length + 65535) / 65536 - off / 65536)).map fun k => off / 65536 + k
  let fresh := sectors.filter fun k => !c.erased.contains k
  let erased := fresh.foldl (fun (m : SMap Byte) k => SMap.clear m (65536 * k) (65536 * k + 65536)) c.image
  let written := fresh.foldl (fun (m : SMap Bool) k => SMap.clear m (65536 * k) (65536 * k + 65536)) c.written
  let twice := sectors.filter fun k =>
    (List.range 65536).any fun o => decide (off ≤ 65536 * k + o) && decide (65536 * k + o < off + bs.length) &&
      SMap.get false written (65536 * k + o)
  { c with
    image := SMap.setRange 0xFF erased off bs
    written := SMap.setRange false written off (List.replicate bs.length true)
    erased := c.erased ++ fresh, spoiled := c.spoiled ++ twice.filter fun k => !c.spoiled.contains k }

/-- Bytes programmed into the copy that did not boot; with `first` its header is invalidated before (R356). -/
def State.programStore (s : State) (first : Bool) (off : Nat) (bs : List Byte) : State :=
  s.onTarget fun c =>
    let c := if first then { c with factory := false, header := none, writing := true, erased := [], spoiled := [], written := [] }
      else if c.factory then { c with factory := false, header := some ⟨Config.factorySeq, Config.factoryBytes.toNat⟩ }
      else c
    { c.program off bs with writing := true }

/-- STORE_WRITE. After a program or read-back failure the range holds free values (log entry 54). -/
def cmdStoreWrite (b : BenchId) (p : Packet) (s : State) : State × Reply :=
  let off := p.bits 2 0 18
  let n := p.bits 3 0 19
  let at' := (p.w 4).toNat
  let params := !p.badFlags && !p.stray 2 0x7FFC0000 && !p.stray 3 0xFFF80000 && at' % 4 == 0 &&
    decide (1 ≤ n ∧ n ≤ 262144 ∧ off + n ≤ 262144)
  s.answer (tests (p.len == 5) (s.storeLease b) true params)
    (if copyBytes < at' + 4 * n then (s, Reply.plain stNospace)
     else if p.meets = .program then
       ((s.drawn (4 * n)).programStore (p.bit 2 31) at' ((List.range (4 * n)).map fun k => Config.freeByte (s.freeCount + k)),
         Reply.plain stFaulted)
     else done (s.programStore (p.bit 2 31) at' (wordsBytes (SMap.getRange 0 (s.benchOf b).bulk off n))))

/-! ### Activation (R356, R437, R439) -/

/-- The byte offset in the image of the first table section that breaks its class rules. -/
def State.badSection (s : State) (c : StoreCopy) : Option Nat :=
  c.tables.findSome? fun (x : Section) =>
    let bs := c.bytes x.off x.bytes
    let ws := bytesWords bs
    let cls := c.tableClass x
    let header := bw ws 0 == 0x5054424C && fieldOf (bw ws 1) 8 8 == 1 && (bw ws 2).toNat == x.bytes && decide (x.bytes % 4 = 0) &&
      bw ws 3 == crc32 (bs.drop 16)
    if !header then some x.off
    else
      let fresh : State := { s with gran := { s.gran with regions := [] }, front := { s.front with kernels := [] }
                                    obs := Vector.replicate 4 {}
                                    bell := { s.bell with event := none, stat := { s.bell.stat with mode := modeWorkshop } } }
      match fresh.commitBody ⟨cls, none, x.bytes, 0, 0, 0⟩ (ws.drop 4) with
      | .invalid off => some (x.off + off)
      | _ => none

/-- The owner key of an image: digest and ROOT_ALLOWED. -/
def StoreCopy.ownerKey (c : StoreCopy) : Option OwnerSlot :=
  (c.section 5).map fun x => ⟨BitVec.ofNat 384 (beNat (sha384 (c.bytes x.off 96))), flagOf (c.sectionWord x 24) 0⟩

/-- An OWNER_KEY is acted on: the next slot is burned unless the key is the current owner's; none where no slot is free. -/
def State.provision (s : State) (c : StoreCopy) : Option State :=
  match c.ownerKey with
  | none => some s
  | some k =>
    if (s.start.owners.getLast?.map fun (o : OwnerSlot) => o.digest) = some k.digest then some s
    else if 4 ≤ s.start.owners.length then none
    else some { s with start := { s.start with owners := s.start.owners ++ [k] } }

/-- The unit area as STORE_ACTIVATE writes it, from the values in force (R435). -/
def State.unitArea (s : State) : UnitArea :=
  { trained := s.gran.trained
    taps := (allFin 128).map fun l => ((s.laneOf l).stat.words.getD 1 0, ((s.laneOf l).stat.words.getD 3 0).setWidth 16)
    retired := BitVec.ofNat 42 (maskOf 42 fun k => if h : k < 42 then (s.tile ⟨k, h⟩).reg.state == tsRetired else false)
    mgmt := s.bench.mgmt.toList }

/-- SEQ of the copy that STORE_ACTIVATE makes (R437, R440). -/
def State.nextSeq (s : State) : Word :=
  if s.start.recovery then
    match s.start.copyA.seq, s.start.copyB.seq with
    | some a, some b => (if newer b a then b else a) + 1
    | some a, none => a + 1
    | none, some b => b + 1
    | none, none => 1
  else s.start.storeSeq + 1

/-- STORE_ACTIVATE. -/
def cmdStoreActivate (b : BenchId) (p : Packet) (s : State) : State × Reply :=
  let c := s.copyOf s.targetCopy
  let restart := p.bits 2 0 2
  s.answer (tests (p.len == 3) (s.storeLease b) c.writing (!p.badFlags && !p.stray 2 0xFFFFFFFC && decide (restart ≤ 2)))
    (if !c.imageOk then (s, Reply.plain stTableInvalid)
     else if !(s.signerOk c && c.signatureOk) then (s, Reply.plain stAuth)
     else
       match s.badSection c with
       | some off => (s, { status := stTableInvalid, detail := BitVec.ofNat 32 off })
       | none =>
         match s.provision c with
         | none => (s, Reply.plain stTableInvalid)
         | some t =>
           if p.meets = .program then (s, Reply.plain stFaulted)
           else
           let seq := s.nextSeq
           let t := t.onTarget fun c => { c with header := some ⟨seq, c.imageBytes⟩, area := s.unitArea, writing := false }
           done { t with start := { t.start with restart := if restart = 1 then some 5 else if restart = 2 then some 4 else none } } [seq])

/-- The four words of a copy in STORE_QUERY. -/
def State.copyWords (s : State) (b : Bool) : List Word :=
  let c := s.copyOf b
  let st : Word := if c.writing then 2 else if s.copyValid b then 1 else 0
  [st, c.seq.getD 0, c.fwVersion,
    if c.factory then Config.factoryBytes else match c.header with
      | some h => BitVec.ofNat 32 h.imageBytes
      | none => c.word 2]

/-- STORE_QUERY. -/
def cmdStoreQuery (b : BenchId) (p : Packet) (s : State) : State × Reply :=
  s.answer (tests (p.len == 2) (s.holdsAny b) true (!p.badFlags))
    (done s ([bitAt s.start.storeCopy 0 ||| bitAt s.start.recovery 1, BitVec.ofNat 32 copyBytes] ++
      s.copyWords false ++ s.copyWords true))

end Sys2Proof.Machine
end

