-- ==== Sys2Proof/Machine/Starts.lean ====
section
/-! DEFINITION. Starts, cold and warm, and the roll call (R399, R400, R415, R426 to R441). -/

namespace Sys2Proof.Machine

/-! ### Ladders (R393) -/

/-- A step of a source's ladder. -/
inductive LadderStep where
  | trap | blockReset | chipReset
  deriving DecidableEq, Repr

/-- The ladder that FALLBACK selects for a source; BLOCK_RESET is left out for a source with no block reset. -/
def ladderOf (i : SourceId) (fallback : BitVec 3) : List LadderStep :=
  let block : List LadderStep := if hasBlockReset i.val then [.blockReset] else []
  match fallback.toNat with
  | 2 => [.trap]
  | 3 => .trap :: block
  | 4 => .trap :: block ++ [.chipReset]
  | _ => []

/-- A SEVERE or ESCALATED source's ladder is complete: its first expiry has passed and no step is left. -/
def TallySource.ladderDone (x : TallySource) (i : SourceId) : Bool :=
  x.reg.state == 3 && decide ((ladderOf i x.cfg.fallback).length ≤ x.reg.step.toNat)

/-- Every SEVERE or ESCALATED source whose ladder is not complete restarts its grace timer when the Foreman runs again (R399). -/
def State.restartGraces (s : State) : State :=
  let m := s.monoMs
  (allFin 256).foldl (fun (t : State) i => t.onSource i fun x =>
    if 2 ≤ x.reg.state.toNat ∧ !x.ladderDone i ∧ x.cfg.fallback ≠ 0 then { x with grace := some (m + x.cfg.graceMs.toNat) } else x) s

/-! ### What a start keeps (Table 17-3, R415, R426) -/

/-- What no start touches: the queue of the model, the free values, real time, the store and the fuses, the pins. -/
def State.keepAlways (s t : State) : State :=
  { t with
    pending := s.pending, now := s.now, freeCount := s.freeCount, out := s.out
    gran := { t.gran with repair := s.gran.repair, used := s.gran.used }
    bench := { t.bench with perstHigh := s.bench.perstHigh }
    side := { t.side with cblHigh := s.side.cblHigh }
    start := { t.start with copyA := s.start.copyA, copyB := s.start.copyB, owners := s.start.owners
                            minSecurity := s.start.minSecurity } }

/-- The Bellows record of the start that begins. -/
def State.markStart (s : State) (old : BellStart) (warm : Bool) (cause : BitVec 4) : State :=
  { s with start := { s.start with
    rollAt := s.now, stepAt := s.now
    reg := { kind := warm, cause := cause, step := 1, starts := old.starts + 1
             warmStarts := if warm then old.warmStarts + 1 else old.warmStarts } } }

/-- A management port's link and the SEQs and SESSION_IDs used so far outlive a start; a warm start keeps more of a bench. -/
def keepBench (old : Bench) (b : BenchId) (warm : Bool) : Bench :=
  { stat := { bench := BitVec.ofNat 2 b.val, linkUp := if b.val < 2 then warm && old.stat.linkUp else old.stat.linkUp
              irqEnable := if warm && decide (b.val < 2) then old.stat.irqEnable else 0 } }

/-- The benches after the beginning of a start. -/
def State.keepBenches (s t : State) (warm : Bool) : State :=
  let x := s.bench
  let y : BenchBlock :=
    { t.bench with benches := Vector.ofFn fun b => keepBench (x.benches[b]) b warm, keySeq := x.keySeq, usedIds := x.usedIds
                   funcs := if warm then x.funcs.map fun (f : PcieFunc) => { f with pba := 0 } else Vector.replicate 2 {}
                   keys := if warm then x.keys else Vector.replicate 8 []
                   mgmt := if warm then x.mgmt else Vector.replicate 2 {} }
  { t with bench := y }

/-- Only the always-on island is ON. -/
def aonOnly : Vector Island 79 := Vector.ofFn fun i : Fin 79 => if i.val = 75 then { state := 2, target := true } else {}

/-- An event in progress goes on across a start, which powers the islands itself (R431; log entry 53). -/
def SupplyEvent.atStart (e : SupplyEvent) : SupplyEvent := { e with rodeFrom := none, offBefore := BitVec.allOnes 79 }

/-- A cold start begins while the always-on island stays powered (R415, R426). -/
def State.coldStartOf (s : State) (cause : BitVec 4) : State :=
  let c := s.clock.stat
  let t : State := s.keepAlways {}
  let t := s.keepBenches t false
  let t : State := { t with
    clock := { s.clock with
      stat := { state := c.state, selected := c.selected, everLocked := c.everLocked, rankA := c.rankA, rankB := c.rankB, rankC := c.rankC }
      holdAt := s.now }
    tally := { monoBase := if cause = 6 then s.tally.monoBase else s.now }
    gran := { t.gran with trained := s.gran.trained }
    start := { t.start with aonAt := s.start.aonAt }
    bell := {
      stat := { lastShutdown := s.bell.stat.lastShutdown, supply10mv := s.bell.stat.supply10mv, powerDw := s.bell.stat.powerDw
                bank10mv := s.bell.stat.bank10mv, isolated := s.bell.stat.isolated, classNow := s.bell.stat.classNow }
      events := s.bell.events, event := s.bell.event.map SupplyEvent.atStart
      islands := aonOnly, lastTest := s.bell.lastTest, rideAt := s.bell.rideAt, goodSince := s.bell.goodSince
      highAt := s.bell.highAt
      straps := s.bell.straps, alive := true } }
  (t.markStart s.start.reg false cause).beginSeq 0 .rollCall

/-- The capture that a warm start keeps: a FILLING one keeps its complete spans (R147). -/
def State.keptCapture (s : State) : State :=
  let t := (allFin 4).foldl (fun (u : State) i => u.cutCapture i false) s
  (allFin 4).foldl (fun (u : State) i => { u with gran := { u.gran with regions := u.freedRegions i } }) t

/-- A tile after a chip reset: the retired set, LAST_CAUSE and RETIRE_SEC are kept (R181). -/
def Tile.warm (x : Tile) : Tile :=
  if x.reg.state = tsRetired then
    { reg := { state := tsRetired, logical := noLogical, lastCause := x.reg.lastCause, retireSec := x.reg.retireSec } }
  else { reg := { logical := noLogical, lastCause := x.reg.lastCause } }

/-- A source across a chip reset: its grace timer stops until the Foreman runs, and HOLD has ended (R396, R399). -/
def TallySource.warm (x : TallySource) : TallySource := { x with grace := none, reg := { x.reg with held := false } }

/-- Tables in force that outlive the reset of the table store: the ride-through curve, SEQ, TALLY and HASH (Table 17-3). -/
def warmTables (es : List TableEntry) : List TableEntry :=
  (es.filter fun (e : TableEntry) => (e.cls == 2 && e.identity.toNat % 256 == 2) || e.cls == 4 || (e.cls == 5 && e.standing == .inForce) ||
    e.cls == 10).map fun (e : TableEntry) => { e with room := 0, addr := 0 }

/-- A warm start begins (R211, R432, Table 17-3). -/
def State.warmStartOf (s : State) (cause : BitVec 4) : State :=
  let k := s.keptCapture
  let t : State := s.keepAlways {}
  let t := s.keepBenches t true
  let chan (x : GranChan) : GranChan :=
    { stat := { state := if x.stat.state = gsOff then gsOff else gsSelf }, sreAt := s.now }
  let cap := k.front.capture
  let t : State := { t with
    mem := SMap.keep s.mem granBase granEnd
    tables := warmTables s.tables
    time := { s.time with
      stat := { state := s.time.stat.state, incFrac := s.time.stat.incFrac, incInt := s.time.stat.incInt }
      timers := ({} : TimeBlock).timers, captures := Vector.replicate 4 [], capDropped := false, nextBeat := none
      lastSync := Vector.replicate 2 none }
    clock := s.clock
    tally := { s.tally with srcs := s.tally.srcs.map TallySource.warm, queued := [], resetting := 0 }
    gran := { s.gran with
      cfg := { hashSrc := s.gran.cfg.hashSrc }, chans := s.gran.chans.map chan
      freeze := { s.gran.freeze with warmKept := s.gran.freeze.valid, frozenMask := 0 }, regions := k.gran.regions }
    front := { t.front with capture := if cap.state = 0 then cap else { cap with warmKept := true } }
    tiles := { t.tiles with tiles := s.tiles.tiles.map Tile.warm }
    start := { t.start with aonAt := s.start.aonAt, area := s.start.area }
    bell := { s.bell with
      stat := { s.bell.stat with mode := modeDormant, rideInHold := false
                                 prevMode := if s.mode = modeDormant then s.bell.stat.prevMode else s.mode }
      event := s.bell.event.map SupplyEvent.atStart
      running := none
      islands := Vector.ofFn fun i : Fin 79 =>
        if i.val = 71 ∨ i.val = 74 ∨ i.val = 75 then { state := 2, target := true } else {} } }
  t.markStart s.start.reg true cause

/-- The roll call before this start reached step 4; a recovery boot does not run it (log entry 53). -/
def State.reachedFour (s : State) : Bool := decide (4 ≤ s.start.reg.step.toNat) && !s.start.reg.recovery

/-- A start of a cause of Table 17-1; a shutdown in progress always completes first (R414). -/
def State.beginStart (s : State) (cause : BitVec 4) : State :=
  if !s.bell.alive ∨ s.bell.falling then s
  else if (cause = 2 ∨ cause = 3 ∨ cause = 5) ∧ s.bell.stat.pwrGood ∧ s.reachedFour then s.warmStartOf cause
  else s.coldStartOf cause

/-- A start that STORE_ACTIVATE asked for follows its reply. -/
def State.takeRestart (s : State) : State :=
  match s.start.restart with
  | some c => ({ s with start := { s.start with restart := none } } : State).beginStart c
  | none => s

/-! ### Step 3: the booted copy (R434 to R436, R440) -/

/-- A TABLE section of the booted copy is loaded; a warm start reloads curves of kind 0 and kernels only. -/
def State.loadTable (s : State) (c : StoreCopy) (warm : Bool) (x : Section) : State :=
  let body := c.tableBody x
  let cls := c.tableClass x
  let ride := cls == 2 && fieldOf (bw body 0) 0 8 == 2
  if warm && (ride || cls == 4 || cls == 5 || cls == 10) then s
  else
    let e : TableEntry := { cls := cls, identity := tableIdentity cls (bw body 0), length := x.bytes, crc := c.sectionWord x 3, body := body }
    let take (o : Commit) : State := match o with
      | .done t _ => t
      | _ => s
    let t := match cls with
      | 2 => take (s.commitCurve body)
      | 4 => take (s.commitSeq body)
      | 5 => (List.range (fieldOf (bw body 0) 0 9)).foldl (fun (u : State) k => u.setEntry (talyEntry fun j => bw body (1 + 4 * k + j))) s
      | 7 => take (s.commitKernel body)
      | _ => s.useMasks (hashMasks body)
    t.listTable e

/-- The entry of BENCH_KEYS for a slot: present, classes, key. -/
def StoreCopy.keyEntry (c : StoreCopy) (x : Section) (k : Nat) : Bool × Nat × List Byte :=
  (flagOf (c.sectionWord x (9 * k)) 0, fieldOf (c.sectionWord x (9 * k)) 8 5, c.bytes (x.off + 36 * k + 4) 32)

/-- The keys of the booted copy: words 8 to 10 of BNCH_MGMT and the slots (R322, R331). -/
def State.loadKeys (s : State) (es : List (Bool × Nat × List Byte)) : State :=
  let present := maskOf 8 fun k => (es.getD k (false, 0, [])).1
  let classes := (List.range 8).foldl (fun (a : Nat) k =>
    let e := es.getD k (false, 0, [])
    if e.1 then a + e.2.1 * 2 ^ (8 * k) else a) 0
  { s with bench := { s.bench with
    keys := Vector.ofFn fun k : Fin 8 => let e := es.getD k.val (false, 0, []); if e.1 then e.2.2 else []
    mgmt := s.bench.mgmt.map fun (m : BnchMgmt) =>
      { m with keysPresent := BitVec.ofNat 8 present, keyClasses := BitVec.ofNat 64 classes } } }

/-- The IPv6 link-local address of a MAC address: the prefix FE80::/64 and the modified EUI-64 (log entry 71). -/
def linkLocal (mac : BitVec 48) : BitVec 128 :=
  BitVec.ofNat 128 (0xFE80 * 2 ^ 112 + (mac.toNat / 2 ^ 24 ^^^ 0x020000) * 2 ^ 40 + 0xFFFE * 2 ^ 24 + mac.toNat % 2 ^ 24)

/-- Port addresses from the manufacturing record: base for port A, base + 1 for port B, IPv6 link-local addresses, V4_EN clear
(R435, R440, R453). -/
def State.defaultPorts (s : State) : State :=
  { s with bench := { s.bench with mgmt := Vector.ofFn fun k : Fin 2 =>
      let mac := Config.macBase + BitVec.ofNat 48 k.val
      { s.bench.mgmt[k] with mac := mac, ipv6 := linkLocal mac, v4En := false } } }

/-- The unit area of the booted copy (R435): the factory image's is taken as failing its UNIT_CRC (log entry 40). -/
def State.loadArea (s : State) (c : StoreCopy) (warm : Bool) : State :=
  if c.factory then
    let t : State := { s with start := { s.start with area := {}, reg := { s.start.reg with unitDefault := true } } }
    if warm then t else t.defaultPorts
  else
    let t : State := { s with start := { s.start with area := c.area } }
    if warm then t
    else { t with bench := { t.bench with mgmt := Vector.ofFn fun k : Fin 2 => c.area.mgmt.getD k.val {} } }

/-- A valid copy boots. -/
def State.bootCopy (s : State) (b : Bool) : State :=
  let c := s.copyOf b
  let warm := s.start.reg.kind
  let t : State := { s with start := { s.start with
    fwVersion := c.fwVersion, storeSeq := c.seq.getD 0, storeCopy := b, recovery := false, idValid := true
    reg := { s.start.reg with copy := b, firstInvalid := b != s.firstCopy } } }
  let t := t.loadArea c warm
  if c.factory then { t with tables := t.tables ++ factoryTables.filter fun (e : TableEntry) => !t.tables.any fun o => sameTable o e }
  else
    let t := c.tables.foldl (fun (u : State) x => u.loadTable c warm x) t
    if warm then t
    else
      let t := match c.section 3 with
        | some x => t.loadKeys ((List.range 8).map fun k => c.keyEntry x k)
        | none => t.loadKeys []
      match c.startCfg with
      | some e => { t with bell := { t.bell with cfg := t.bell.cfg.written fun k => if k = 0 then some e.2 else none } }
      | none => t

/-- The recovery boot (R440). -/
def State.bootRecovery (s : State) : State :=
  let t : State := { s with start := { s.start with
    fwVersion := Config.recoveryFwVersion, storeSeq := 0, storeCopy := false, recovery := true, idValid := true, area := {}
    reg := { s.start.reg with recovery := true, firstInvalid := true } } }
  t.defaultPorts.loadKeys [(true, 16, Config.recoveryKey.toList)]

/-- The ROM code copies the firmware of the booted copy into Foreman SRAM through its alias (R359). Of the factory image and of
the recovery firmware the spec gives no bytes, and none are copied (log entry 40). -/
def State.copyFirmware (s : State) (b : Bool) : State :=
  let c := s.copyOf b
  match c.section 1 with
  | some x => if c.factory then s else { s with mem := s.mem.store foremanBase (c.bytes x.off x.bytes) }
  | none => s

/-- The work of step 3: a copy or recovery boots, REMAP is set (R359), the Foreman runs. -/
def State.bootStep (s : State) : State :=
  let t := match s.bootChoice with
    | some b => (s.bootCopy b).copyFirmware b
    | none => s.bootRecovery
  { t with move := { t.move with exch := { t.move.exch with ctrl := { remap := true } } } }

/-! ### The steps of the roll call (R427 to R431) -/

/-- The islands a step powers (Table 17-2). -/
def stepIslands (n : Nat) : List Nat :=
  match n with
  | 1 => [71, 75]
  | 2 => [74]
  | 3 => [72, 73, 76]
  | 4 => [51, 52, 53, 54]
  | 5 => [46, 47, 48, 49, 50]
  | 6 => [42, 43, 44, 45]
  | 7 => List.range 42
  | 8 => (List.range 16).map fun k => 55 + k
  | _ => [77, 78]

/-- A step's islands are powered as it begins (log entry 53); retired tiles and disabled octets stay off. -/
def State.powerStep (s : State) (n : Nat) : State :=
  (stepIslands n).foldl (fun (t : State) i =>
    if h : i < 79 then (if t.keptOff i then t else t.onIsland ⟨i, h⟩ fun x => { x with state := 2, target := true, since := s.now }) else t) s

/-- The maxima of Table 17-2, ms. -/
def stepMax (warm : Bool) (n : Nat) : Nat :=
  (if warm then [100, 0, 800, 100, 100, 100, 100, 600, 600] else [500, 4500, 1500, 3000, 500, 500, 500, 2000, 1000]).getD (n - 1) 0

/-- The duration of a step in its field of BELL_START. -/
def BellStart.timed (r : BellStart) (n ms : Nat) : BellStart :=
  let v : BitVec 16 := satNat 16 ms
  match n with
  | 1 => { r with step1Ms := v }
  | 2 => { r with step2Ms := v }
  | 3 => { r with step3Ms := v }
  | 4 => { r with step4Ms := v }
  | 5 => { r with step5Ms := v }
  | 6 => { r with step6Ms := v }
  | 7 => { r with step7Ms := v }
  | 8 => { r with step8Ms := v }
  | _ => { r with step9Ms := v }

/-- A step ends: its duration, and whether it outlasted its maximum (R430). -/
def State.endStep (s : State) (n : Nat) : State :=
  let dt := s.now - s.start.stepAt
  let slow := decide (1000000 * stepMax s.start.reg.kind n < dt)
  { s with start := { s.start with reg :=
    let r := s.start.reg.timed n (dt / 1000000)
    { r with slowSteps := if slow then r.slowSteps ||| (1 <<< (n - 1) : BitVec 9) else r.slowSteps } } }

/-- Training begins (R254, R255): in a warm start a channel with no source trains in full. -/
def State.trainAll (s : State) : State :=
  let full := s.start.reg.kind && !(s.gran.trained || s.start.area.trained)
  { s with gran := { s.gran with chans := s.gran.chans.map fun (x : GranChan) =>
      { x with stat := { x.stat with state := gsTraining, trainFull := full } } } }

/-- A step begins: what it does as it begins. -/
def State.enterStep (s : State) (n : Nat) : State :=
  let t : State := { s with start := { s.start with stepAt := s.now, waiting := false, reg := { s.start.reg with step := BitVec.ofNat 4 n } } }
  let t := t.powerStep n
  match n with
  | 4 => t.trainAll
  | 8 => (allFin 16).foldl (fun (u : State) o => if (u.octet o).cfg.enable then u.startOctet o s.start.reg.kind 4 else u) t
  | 9 => t.beginSeq 5 .nothing
  | _ => t

/-- What step 4 leaves of channels whose training and fill no other event has ended (R254 to R257). -/
def State.granaryStep (s : State) (r : StepReport) : State :=
  let t := (allFin 32).foldl (fun (u : State) c => u.trainChan c (r.failedChans.getLsbD c.val)) s
  let t := (allFin 4).foldl (fun (u : State) q =>
    if (quadChans q).any fun c => (u.chan c).stat.state == gsFilling then u.zeroQuad q else u) t
  let t := (allFin 32).foldl (fun (u : State) c => u.onChan c fun x =>
    { x with stat := { x.stat with state := if x.stat.state = gsFilling then gsActive else x.stat.state
                                   trainFull := x.stat.trainFull || (s.start.reg.kind && r.fullChans.getLsbD c.val) } }) t
  { t with gran := { t.gran with trained := t.gran.trained || !s.start.reg.kind || r.fullChans != 0 } }

/-- Step 5 clears the Ledger and the Shelf (Table 17-2). -/
def State.clearSrams (s : State) : State :=
  { s with mem := (s.mem.zero ledgerBase 0xE000000).zero shelfBase 0x2000000 }

/-- Step 6: the engines of every slice that powers load kernel 6 (R427); slices that failed to power, engines that failed
their test (R430). -/
def State.engineStep (s : State) (r : StepReport) : State :=
  let t := (allFin 4).foldl (fun (u : State) k =>
    if r.badSlices.getLsbD k.val then
      let i : IslandId := ⟨42 + k.val, by omega⟩
      (u.onIsland i fun x => { x with state := 1, gated := true }).raise srcIslandGate (BitVec.ofNat 32 i.val)
    else u) s
  (allFin 32).foldl (fun (u : State) e =>
    u.onEngine e fun x => { x with stat := { x.stat with
      kernelId := if r.badSlices.getLsbD (sliceOf e).val then x.stat.kernelId else 6
      state := if r.badEngines.getLsbD e.val then 3 else x.stat.state } }) t

/-- Step 7, one tile: retired as the store lists it, or because it failed; a tile retired before a warm start stays so (R180,
R181). -/
def State.startTile (s : State) (r : StepReport) (t : TileId) : State :=
  let fails := r.badTiles.getLsbD t.val
  let listed := !s.start.reg.kind && s.start.area.retired.getLsbD t.val
  let u := s.onTileReg t fun x => x.tested !fails
  if (u.tile t).reg.state = tsRetired then u
  else if listed ∨ fails then
    let u := u.announceFail t
    (u.onIsland (tileIsland t) fun x => { x with state := 0, target := false }).onTileReg t fun x =>
      { x with state := tsRetired, logical := noLogical, lastCause := if listed then 7 else 5
               retireSec := BitVec.ofNat 32 (secOf s.time16) }
  else u

/-- Step 7: self-tests, then logical numbers 0 to 39 in ascending physical order; the rest are spares (R173). -/
def State.tileStep (s : State) (r : StepReport) : State :=
  let t := (allFin 42).foldl (fun (u : State) k => u.startTile r k) s
  let good := (allFin 42).filter fun k => (t.tile k).reg.state != tsRetired
  (good.zipIdx.foldl (fun (u : State) e => u.onTileReg e.1 fun x =>
    if e.2 < 40 then { x with state := tsFree, logical := BitVec.ofNat 6 e.2 } else { x with state := tsSpare, logical := noLogical }) t).showAll

/-- Every enabled lane is UP, or step 8 has reached its maximum. -/
def State.lanesReady (s : State) : Bool :=
  decide (s.start.stepAt + 1000000 * stepMax s.start.reg.kind 8 ≤ s.now) ||
  (allFin 128).all fun l => !((s.cfgOf l).enable && (s.cfgOf l).laneEn.getLsbD (posOf l)) || (s.laneOf l).st == lsUp

/-- The roll call is complete (R427, R429, R432, R438). -/
def State.finishRoll (s : State) : State :=
  let total := (s.now - s.start.rollAt) / 1000000
  let sec := if s.start.recovery then s.start.minSecurity else max s.start.minSecurity (s.copyOf s.start.storeCopy).security
  let t : State := { s with
    bench := { s.bench with serving := true }
    start := { s.start with minSecurity := sec, reg := { s.start.reg with step := 10, totalMs := satNat 32 total } } }
  let t := t.setMode modeStandby
  if s.start.reg.kind then (t.setIrq 0 irqMode).setIrq 1 irqMode else t

/-- The steps after step 3: the Foreman runs beats again, and in a warm start the grace timers restart (R286, R399). -/
def State.foremanUp (s : State) : State :=
  let t : State := { s with time := { s.time with nextBeat := some (beatFrom s.time16) } }
  if s.start.reg.kind then t.restartGraces else t

/-- Step 1 has ended well: rails are up or were confirmed. In a warm start step 2 ends at once. -/
def State.afterRails (s : State) : State :=
  let t := (s.endStep 1).enterStep 2
  if s.start.reg.kind then
    let t := t.endStep 2
    ({ t with start := { t.start with reg := { t.start.reg with freerun := t.clock.stat.state != csLocked } } } : State).enterStep 3
  else t

/-- The step in progress ends, where its condition holds, and the next begins. -/
def State.rollStep (s : State) (r : StepReport) : State :=
  let n := s.start.reg.step.toNat
  match n with
  | 1 =>
    if r.railsFailed then
      { s with bell := { s.bell with running := none }, start := { s.start with reg := { s.start.reg with step := 0 } } }
    else if s.start.reg.kind || (s.bell.running.isNone && s.bell.stat.pwrGood) then s.afterRails
    else s
  | 2 =>
    if s.clock.stat.state = csLocked ∨ s.start.aonAt + 1000000 * s.refWaitMs ≤ s.now then
      let t := s.endStep 2
      ({ t with start := { t.start with reg := { t.start.reg with freerun := t.clock.stat.state != csLocked } } } : State).enterStep 3
    else s
  | 3 =>
    let t := (s.bootStep.endStep 3).enterStep (if s.bootChoice.isNone then 9 else 4)
    t.foremanUp
  | 4 =>
    let t := if s.start.waiting then s else (s.granaryStep r).endStep 4
    if t.bell.event.isSome then { t with start := { t.start with waiting := true } } else t.enterStep 5
  | 5 => (s.clearSrams.endStep 5).enterStep 6
  | 6 => ((s.engineStep r).endStep 6).enterStep 7
  | 7 => ((s.tileStep r).endStep 7).enterStep 8
  | 8 => if s.lanesReady then (s.endStep 8).enterStep 9 else s
  | 9 => if s.bell.running.isNone then (s.endStep 9).finishRoll else s
  | _ => s

/-! ### Causes (Table 17-1) -/

/-- POWER_UP (R272, R426): everything but the store, the fuses and the pins is at its reset value, and the straps are sampled. -/
def execPowerUp (straps : Straps) (v : BitVec 16) (s : State) : Host.Outcome State Fault Refusal :=
  let t : State := s.keepAlways {}
  let ref (rank : BitVec 2) : RefSource := { qstate := if rank = 0 then qsUnused else qsAbsent }
  let t : State := { t with
    now := 0
    clock := { stat := { rankA := straps.rankA, rankB := straps.rankB, rankC := straps.rankC }
               srcs := ⟨#[ref straps.rankA, ref straps.rankB, ref straps.rankC], rfl⟩ }
    bell := { straps := straps, alive := true, islands := aonOnly, stat := { supply10mv := v } } }
  .next ((t.markStart {} false 0).beginSeq 0 .rollCall)

/-- RESET_N (R426): released after a low level of so many microseconds. -/
def execResetN (lowUs : Nat) (s : State) : Host.Outcome State Fault Refusal :=
  .next (if lowUs < 10 then s else s.beginStart (if 1000000 ≤ lowUs then 1 else 2))

/-- AUTO_RESTART (R415): the input has stayed within 41.0 V to 59.0 V for 1 s after a shutdown. -/
def execAutoRestart (v : BitVec 16) (s : State) : Host.Outcome State Fault Refusal :=
  let t := if s.bell.alive then s.noteInput v else s
  .next (if s.bell.alive ∧ s.bell.down ∧ s.mode = modeDormant ∧ !s.rolling ∧ s.bell.cfg.autoRestart ∧ goodInput v ∧
      t.bell.goodSince + 1000000000 ≤ s.now then t.beginStart 6
    else t)

end Sys2Proof.Machine
end

