-- ==== Sys2Proof/Machine/Escalate.lean ====
section
/-! DEFINITION. Escalation of a Tally source: the ladder, block resets and chip resets (R392 to R397). -/

namespace Sys2Proof.Machine

/-! ### Block resets (Tables 15-1 and 16-12) -/

/-- The instance that a block reset of a source names: the lane sources share the octet of their lane (R397). -/
def resetInstance (i : SourceId) (detail : Word) : Nat × Nat :=
  if i.val ≤ 4 then (0, detail.toNat / 8) else (i.val, detail.toNat)

/-- Kernel reload and restart of an engine. -/
def State.resetEngine (s : State) (e : EngineId) : State :=
  let x := s.engine e
  match x.kernel with
  | some k =>
    if x.stat.state = 1 ∨ x.stat.state = 2 then
      let i := x.stat.subarray.toFin
      (s.onEngine e fun y => { y.started i k with stat := { (y.started i k).stat with restarts := satInc y.stat.restarts } }).showEngines i
    else s
  | none => s

/-- A self-test of a tile, whose jobs go back to their queue (R180). -/
def State.resetTile (s : State) (t : TileId) : State :=
  let st := (s.tile t).reg.state
  if st = tsFailed ∨ st = tsRetired ∨ st = tsTesting then s
  else
    (s.returnJobs t).onTile t fun x =>
      { x with test := if st = tsSpare then .spare else .suspect, reg := { x.reg with state := tsTesting } }

/-- Full training of an octet; while one that a reset began is still in progress, the reset is taken as done (R397). -/
def State.resetOctet (s : State) (o : OctetId) : State :=
  if s.tally.resetting.getLsbD o.val ∧ s.octetTrains o then s
  else
    let t := s.trainOctet o
    { t with tally := { t.tally with resetting := t.tally.resetting ||| (1 <<< o.val : BitVec 16) } }

/-- Power-down and power-up of an island: the power-up follows the shutdown (R419). -/
def State.resetIsland (s : State) (i : IslandId) : State :=
  if s.keptOff i.val then s else (s.askIsland i false).askIsland i true

/-- The reset of the instance that the newest event of a source names (R394). -/
def State.blockReset (s : State) (i : SourceId) (detail : Word) : State :=
  let n := detail.toNat
  if i.val ≤ 4 then s.resetOctet ⟨n / 8 % 16, Nat.mod_lt _ (by decide)⟩
  else if i = srcMillFault then s.resetEngine ⟨n % 32, Nat.mod_lt _ (by decide)⟩
  else if i = srcLoomCheck then (if h : n < 42 then s.resetTile ⟨n, h⟩ else s)
  else if i = srcDrayError then s.resetDrayman none
  else if i = srcBaleCheck then s.resetMaster balePort none
  else if i = srcRailSeq then s.seqAgain (n % 256)
  else if i = srcIslandGate then (if h : n < 79 then s.resetIsland ⟨n, h⟩ else s)
  else if i = srcForemanWdog then
    let m : MasterId := ⟨n % 4, by omega⟩
    (s.resetMaster m none).emit (.coreReset m.val)
  else s

/-! ### The ladder (R393 to R397) -/

/-- The next step of a source's ladder. -/
def TallySource.nextLadder (x : TallySource) (i : SourceId) : Option LadderStep := (ladderOf i x.cfg.fallback)[x.reg.step.toNat]?

/-- A grace timer has expired. -/
def TallySource.expired (x : TallySource) (m : Nat) : Bool :=
  match x.grace with
  | some g => decide (2 ≤ x.reg.state.toNat ∧ g ≤ m)
  | none => false

/-- A step has been taken: STEP counts it, and the timer restarts where further steps remain. -/
def TallySource.stepped (x : TallySource) (i : SourceId) (m : Nat) : TallySource :=
  let n := x.reg.step.toNat + 1
  { x with
    grace := if n < (ladderOf i x.cfg.fallback).length then some (m + x.cfg.graceMs.toNat) else none
    reg := { x.reg with step := BitVec.ofNat 2 n } }

/-- The sources whose timers have expired with a given step next: their resets fall due together (R397). -/
def State.dueWith (s : State) (k : LadderStep) (same : SourceId → Bool) : List SourceId :=
  let m := s.monoMs
  (allFin 256).filter fun j => let x := s.source j
    x.expired m && x.reg.state == 3 && x.nextLadder j == some k && same j

/-- Each of some sources takes its step. -/
def State.stepAll (s : State) (js : List SourceId) : State :=
  let m := s.monoMs
  js.foldl (fun (t : State) j => t.onSource j fun x => x.stepped j m) s

/-- The chip reset step: a warm start, or HOLD within 600 s of the last one (R394, R395, R397). -/
def State.chipStep (s : State) (i : SourceId) : State :=
  let m := s.monoMs
  let js := s.dueWith .chipReset fun _ => true
  let t := s.stepAll js
  let soon := match s.tally.lastChip with
    | some c => decide (m < c + 600000)
    | none => false
  let t16 := s.time16
  let stat (f : TalyStat → TalyStat) : State := { t with tally := { t.tally with stat := f t.tally.stat } }
  if soon then (stat fun x => { x with chipToHold := x.chipToHold + 1 }).requestHold
  else
    let u := stat fun x =>
      { x with chipResets := x.chipResets + 1, lastChipSource := BitVec.ofNat 8 (js.headD i).val
               lastChipSecLo := BitVec.ofNat 32 (secOf t16), lastChipSecHi := BitVec.ofNat 16 (secOf t16 / 2 ^ 32) }
    ({ u with tally := { u.tally with lastChip := some m } } : State).beginStart 3

/-- The first expiry: the source is ESCALATED (R394). -/
def TallySource.escalate (x : TallySource) : TallySource :=
  if x.reg.state = 2 then
    { x with reg := { x.reg with state := 3, escalatedSeen := true, escalations := satInc x.reg.escalations } }
  else x

/-- One expiry of a source's grace timer (R394, R396). -/
def State.expire (s : State) (i : SourceId) : State :=
  let x := s.source i
  if x.cfg.fallback = 0 ∨ 4 < x.cfg.fallback.toNat then s.onSource i fun y => { y with grace := none }
  else
    let t := s.onSource i TallySource.escalate
    match (t.source i).nextLadder i with
    | none => t.onSource i fun y => { y with grace := none }
    | some .trap => (t.stepAll [i]).emit (.trap i x.reg.lastDetail)
    | some k =>
      if t.mode = modeHold then t.onSource i fun y => { y with grace := none, reg := { y.reg with held := true } }
      else
        match k with
        | .blockReset =>
          let same (j : SourceId) : Bool := resetInstance j (t.source j).reg.lastDetail == resetInstance i x.reg.lastDetail
          (t.stepAll (t.dueWith .blockReset same)).blockReset i x.reg.lastDetail
        | _ => t.chipStep i

/-- The grace timer of a source that has not cleared expires (R394). -/
def State.graceExpiry (s : State) (src : SourceId) : State :=
  if (s.source src).expired s.monoMs ∧ s.running then s.expire src else s

end Sys2Proof.Machine
end

