-- ==== Sys2Proof/Machine/RecordCmds.lean ====
section
/-! DEFINITION. GET_RECORD, SET_RECORD, IDENTIFY and GET_STATUS (R328 to R332, R339 to R341), over the records of every
block. -/

namespace Sys2Proof.Machine

/-! ### What records read as -/

/-- PART_NUMBER: "PRS-MV4096-2T", first character lowest, padded with zeros (Table 12-10). -/
def partNumber : BitVec 128 :=
  BitVec.ofNat 128 (leNat [0x50, 0x52, 0x53, 0x2D, 0x4D, 0x56, 0x34, 0x30, 0x39, 0x36, 0x2D, 0x32, 0x54])

/-- A base address register that is implemented (Table 12-2). -/
structure PcieBar where
  bytes        : Nat
  wide         : Bool := true
  prefetchable : Bool := false
  deriving DecidableEq, Repr

/-- The power states of a function (Table 12-2). -/
inductive PcieState where
  | d0 | d3hot
  deriving DecidableEq, Repr

/-- The capabilities of a function (Table 12-2). -/
inductive PcieCap where
  | express
  | power (states : List PcieState)
  | msix (vectors : Nat)
  | aer
  | serial
  deriving DecidableEq, Repr

/-- What a function does not support (Table 12-2). -/
inductive PcieFeature where
  | sriov | ats | pri | pasid | intx | msi | atomics | tph
  deriving DecidableEq, Repr

/-- What a PCI Express function presents in configuration space (R307, Tables 12-2 and 18-8). -/
structure PcieConfig where
  vendor     : BitVec 16 := 0x1F3D
  device     : BitVec 16 := 0x4D56
  subVendor  : BitVec 16 := 0x1F3D
  subsystem  : BitVec 16 := 0x0001
  classCode  : BitVec 24 := 0x118000
  /-- ID_INFO.SILICON_REV bits [7:0]. -/
  revision   : BitVec 8
  /-- BAR0 with BAR1, BAR2 with BAR3, BAR4, BAR5 and the expansion ROM; none for one that is not implemented. -/
  bars       : List (Option PcieBar) := [some { bytes := 0x40000 }, some { bytes := 0x200000 }, none, none, none]
  capabilities : List PcieCap := [.express, .power [.d0, .d3hot], .msix 16, .aer, .serial]
  maxPayload : Nat := 512
  functionLevelReset : Bool := true
  unsupported : List PcieFeature := [.sriov, .ats, .pri, .pasid, .intx, .msi, .atomics, .tph]
  /-- The Device Serial Number, equal to ID_INFO.SERIAL. -/
  serial     : BitVec 64
  deriving DecidableEq, Repr

/-- The configuration of each function: constants of the module, which no command changes (R307). -/
def pcieConfig : PcieConfig := { revision := Config.siliconRev.setWidth 8, serial := Config.serial }

/-- ID_INFO as it reads: words 5 to 8 are zero until step 3 of the roll call has ended (R328, R429). -/
def State.idWords (s : State) : List Word :=
  let base : IdInfo := { serial := Config.serial, partNumber := partNumber }
  (if s.start.idValid then
    { base with siliconRev := Config.siliconRev, moduleRev := Config.moduleRev, fwVersion := s.start.fwVersion
                storeSeq := s.start.storeSeq, storeCopy := s.start.storeCopy, recovery := s.start.recovery
                pcieBif := s.bell.straps.pcieBif }
  else base).words

/-- LOOM_POOL as it reads (Table 07-10). -/
def State.poolWords (s : State) : List Word :=
  let mask (f : TileId → Bool) : Nat := maskOf 42 fun n => if h : n < 42 then f ⟨n, h⟩ else false
  let gone := mask fun t => (s.tile t).reg.state == tsRetired
  let free := maskOf 40 fun n => (s.planOwner n).isNone
  ({ present := BitVec.ofNat 6 (popCount 40 (maskOf 40 fun n => s.isHeld n))
     spares := BitVec.ofNat 2 (popCount 42 (mask fun t => (s.tile t).reg.state == tsSpare))
     retiredLo := BitVec.ofNat 32 gone, retiredHi := BitVec.ofNat 10 (gone / 2 ^ 32)
     freeLo := BitVec.ofNat 32 free, freeHi := BitVec.ofNat 8 (free / 2 ^ 32) } : LoomPool).words

/-- LOOM_LOST: TOTAL and sixteen entries, newest first (R186). -/
def State.lostWords (s : State) : List Word :=
  let ws := (s.tiles.lost.take 16).flatMap fun (x : LoomLost) => x.words
  s.tiles.lostTotal :: (ws ++ List.replicate (64 - ws.length) 0)

/-- LANE_EYE: the header and one word per grid point; points not yet measured read zero (R63). -/
def Lane.eyeWords (x : Lane) : List Word :=
  x.eye.words ++ x.eyePts ++ List.replicate (x.eye.pointsTotal.toNat - x.eyePts.length) 0

/-- The gain groups of an input of a sub-array, two per word, from the shadow copy; an input outside the sub-array has
none (R131; log entry 65). -/
def State.gainWords (s : State) (i : SubId) (input : Nat) : List Word :=
  if !(s.inputs i).contains input then []
  else
    let x := s.front.assay[i]
    let g := 2 ^ x.cfg.gainGroupLog2.toNat
    let n := (s.fineChans i + g - 1) / g
    let at' (k : Nat) : Word := if k < n then (SMap.get x.fill x.shadow (gainKey input k)).setWidth 32 else 0
    (List.range ((n + 1) / 2)).map fun k => at' (2 * k) ||| (at' (2 * k + 1) <<< 16)

/-- BELL_STAT as it reads: ISLANDS_ON, and RIDE_MS with the ride in progress (Table 16-14). -/
def State.bellWords (s : State) : List Word :=
  let on := maskOf 79 fun n => if h : n < 79 then s.islandOn ⟨n, h⟩ else false
  ({ s.addRideMs.bell.stat with islandsOn := BitVec.ofNat _ on } : BellStat).words

/-- An index below a bound as a `Fin`. -/
def inRange (n k : Nat) : Option (Fin n) := if h : k < n then some ⟨k, h⟩ else none

/-- The records of lanes and formats (block 1). -/
def State.laneRecord (s : State) (rec k : Nat) : Option (List Word) :=
  match rec with
  | 1 => (inRange 16 k).map fun o => (s.octet o).cfg.words
  | 2 => (inRange 128 k).map fun l => (s.laneOf l).stat.words
  | 3 => (inRange 128 k).map fun l => (s.laneOf l).cnt.words
  | 4 => (inRange 128 k).map fun l => (s.laneOf l).eyeWords
  | 5 => (inRange 16 k).map fun o => (s.octet o).ingr.words
  | 6 => (inRange 64 k).map fun f => (s.egrOf f).words
  | _ => none

/-- The records of the front end and the Cellar (blocks 2 to 5). -/
def State.frontRecord (s : State) (block rec k : Nat) : Option (List Word) :=
  match block, rec with
  | 2, 1 => (inRange 4 k).map fun i => s.sieve[i].cfg.words
  | 2, 2 => (inRange 4 k).map fun i => s.sieve[i].stat.words
  | 3, 1 => (inRange 4 k).map fun i => s.front.mill[i].words
  | 3, 2 => (inRange 32 k).map fun e => (s.engine e).stat.words
  | 4, 1 => (inRange 4 k).map fun i => s.front.assay[i].cfg.words
  | 4, 2 => (inRange 4 k).map fun i => s.front.assay[i].stat.words
  | 4, 3 => (inRange 4 (k / 4096)).map fun i => s.gainWords i (k % 4096)
  | 4, 4 => (inRange 4 (k / 4096)).map fun i => (SMap.get {} s.front.assay[i].levels (k % 4096)).words
  | 5, 1 => (inRange 4 k).map fun i => s.cellar[i].cfg.words
  | 5, 2 => (inRange 4 k).map fun i => s.cellar[i].stat.words
  | 5, 3 => if k = 0 then some s.front.capture.words else none
  | _, _ => none

/-- LOOM_STAT.STATE (Table 07-7): the first span that the Loom has not finished tells whether it waits, is on schedule or is
behind. -/
def State.loomState (s : State) (i : SubId) : BitVec 3 :=
  let x := s.loom[i]
  let span := if x.finishAt.isNone then x.running.getD x.next else x.next
  let avail := s.cellar[i].avail
  if !s.active i ∨ x.plan.isNone then 0
  else if s.loomHeld then 4
  else if avail ≤ span then 1
  else if span + 1 < avail then 3
  else 2

/-- The records of the Loom, the Ledger and the beams (blocks 6 and 7). -/
def State.loomRecord (s : State) (block rec k : Nat) : Option (List Word) :=
  match block, rec with
  | 6, 1 => (inRange 4 k).map fun i => s.loom[i].cfg.words
  | 6, 2 => (inRange 4 k).map fun i => ({ s.loom[i].stat with state := s.loomState i } : LoomStat).words
  | 6, 3 => (inRange 42 k).map fun t => (s.tile t).reg.words
  | 6, 4 => if k = 0 then some s.poolWords else none
  | 6, 5 => if k = 0 then some s.lostWords else none
  | 6, 6 => (inRange 4 k).map fun i => s.beam[i].cfg.words
  | 6, 7 => (inRange 4 k).map fun i => s.beam[i].stat.words
  | 7, 1 => (inRange 4 k).map fun i => s.ledger[i].cfg.words
  | 7, 2 => (inRange 4 k).map fun i => s.ledger[i].stat.words
  | _, _ => none

/-- The records of the Granary, the Exchange, the Drayman and the Baler (blocks 8 and 13 to 15). -/
def State.memRecord (s : State) (block rec k : Nat) : Option (List Word) :=
  match block, rec with
  | 8, 1 => if k = 0 then some s.gran.cfg.words else none
  | 8, 2 => (inRange 32 k).map fun c => (s.chan c).stat.words
  | 8, 3 => if k = 0 then some s.gran.freeze.words else none
  | 8, 4 => if k = 0 then some s.granMapWords else none
  | 8, 5 => if k = 0 then some s.repairWords else none
  | 13, 1 => if k = 0 then some s.move.exch.ctrl.words else none
  | 13, 2 => if k = 0 then some s.move.exch.stat.words else none
  | 13, 3 => (inRange 8 k).map fun p => s.move.exch.ports[p].words
  | 14, 1 => (inRange 16 k).map fun c => (s.dray c).reg.words
  | 15, 1 => if k = 0 then some s.move.bale.words else none
  | _, _ => none

/-- The records of time, the benches, identity, the Tally and the Bellows (blocks 9 to 12, 16 and 17). -/
def State.ctlRecord (s : State) (block rec k : Nat) : Option (List Word) :=
  match block, rec with
  | 9, 1 => if k = 0 then some s.clksWords else none
  | 10, 1 => if k = 0 then some s.time.cfg.words else none
  | 10, 2 => if k = 0 then some s.timeStatWords else none
  | 10, 3 => (inRange 8 k).map fun t => (s.shownTimer t).reg.words
  | 10, 4 => (inRange 4 k).map fun i => s.obs[i].epoch.words
  | 11, 1 => (inRange 4 k).map fun b => (s.benchOf b).stat.words
  | 11, 2 => if k = 0 then some s.bench.health.words else none
  | 11, 3 => (inRange 2 k).map fun p => s.bench.mgmt[p].words
  | 11, 4 => if k = 0 then some s.leaseWords else none
  | 12, 1 => if k = 0 then some s.idWords else none
  | 16, 1 => (inRange 256 k).map fun i => s.talySrcWords i
  | 16, 2 => if k = 0 then some s.talyStatWords else none
  | 16, 3 => (inRange 256 k).map fun i => (s.source i).cfg.words
  | 17, 1 => if k = 0 then some s.bell.cfg.words else none
  | 17, 2 => if k = 0 then some s.bellWords else none
  | 17, 3 => (inRange 16 k).map fun e => s.bell.events[e].words
  | 17, 4 => if k = 0 then some s.start.reg.words else none
  | _, _ => none

/-- The words of a record of Table 13-5 and of the later chapters; none for an unknown code or an index out of range. -/
def State.recordWords (s : State) (code k : Nat) : Option (List Word) :=
  let block := code / 256
  let rec' := code % 256
  match block with
  | 1 => s.laneRecord rec' k
  | 2 | 3 | 4 | 5 => s.frontRecord block rec' k
  | 6 | 7 => s.loomRecord block rec' k
  | 8 | 13 | 14 | 15 => s.memRecord block rec' k
  | _ => s.ctlRecord block rec' k

/-- The fields that clear on a read of their word (Table 00-5): MAX_LAG, SR_WAIT_MAX and MAX_LAG_US. -/
def State.clearOnRead (s : State) (code k lo n : Nat) : State :=
  let has (w : Nat) : Bool := decide (lo ≤ w ∧ w < lo + n)
  match code with
  | 0x0502 => match inRange 4 k with
    | some i => if has 5 then s.onCellStat i fun x => { x with maxLag := 0 } else s
    | none => s
  | 0x0802 => match inRange 32 k with
    | some c => if has 12 then s.onGranStat c fun x => { x with srWaitMax := 0 } else s
    | none => s
  | 0x0A02 => if has 7 then s.onTimeStat fun x => { x with maxLagUs := 0 } else s
  | _ => s

/-! ### Reading -/

/-- GET_RECORD (R340). -/
def cmdGetRecord (b : BenchId) (p : Packet) (s : State) : State × Reply :=
  let code := p.bits 2 0 16
  let k := p.bits 2 16 16
  let off := p.bits 3 0 16
  let n := p.bits 3 16 16
  let lease := code == 0x0C01 || code == 0x0B02 || (code == 0x0B01 && k == b.val) || s.holdsAny b
  let ws := s.recordWords code k
  let len := (ws.getD []).length
  s.answer (tests (p.len == 4) lease true (!p.badFlags && ws.isSome && decide (n ≤ 1021) && decide (off < len)))
    (let got := ((ws.getD []).drop off).take (if n = 0 then 1021 else n)
     (s.clearOnRead code k off got.length, { status := stOk, detail := BitVec.ofNat 32 len, results := got }))

/-- IDENTIFY (R328). -/
def cmdIdentify (_b : BenchId) (p : Packet) (s : State) : State × Reply :=
  s.answer (tests (p.len == 2) true true (!p.badFlags)) (s, Reply.ok s.idWords)

/-- GET_STATUS (Table 13-4): BNCH_HEALTH words 0 to 11, then BNCH_STAT words 0 to 6 of the bench. -/
def cmdGetStatus (b : BenchId) (p : Packet) (s : State) : State × Reply :=
  s.answer (tests (p.len == 2) true true (!p.badFlags))
    (s, Reply.ok (s.bench.health.words.take 12 ++ (s.benchOf b).stat.words.take 7))

/-! ### Writing -/

/-- The words a SET_RECORD carries: word `k` of the record, where it is written. -/
abbrev Writes := Nat → Option Word

/-- Bit `i` of word `k` is written as 1. -/
def Writes.one (ws : Writes) (k i : Nat) : Bool := match ws k with
  | some w => w.getLsbD i
  | none => false

/-- A field that spans words `lo` to `hi` is written in part only (R341). -/
def Writes.torn (ws : Writes) (lo hi : Nat) : Bool :=
  let n := ((List.range (hi + 1 - lo)).filter fun j => (ws (lo + j)).isSome).length
  decide (n ≠ 0 ∧ n ≠ hi + 1 - lo)

/-- What a write of a record comes to: the module and OK, or the module as it was and the status that refuses. -/
abbrev Wrote := State × BitVec 8

/-- SIEV_CFG (R109): OUT_SHIFT from the next front-end span boundary; the rest is read where it takes effect. -/
def State.setSieve (s : State) (i : SubId) (ws : Writes) : Wrote :=
  let old := s.sieve[i].cfg
  let c := old.written ws
  let bad := c.outShift.toNat < 12 ∨ 22 < c.outShift.toNat ∨ (c.dcbShift ≠ 0 ∧ (c.dcbShift.toNat < 4 ∨ 20 < c.dcbShift.toNat)) ∨
    1048576 < c.dcbSettle.toNat ∨ 12 < c.xfadeLog2.toNat
  if bad then (s, stBadParam)
  else
    let t := s.onSieve i fun x => { x with cfg := c }
    (if s.active i ∧ c.outShift ≠ old.outShift then
      t.onSieve i fun x => { x with outShift := x.outShift ++ [(s.frontSpan i * spanLen, c.outShift.toNat)] }
    else t, stOk)

/-- MILL_CFG (R133). -/
def State.setMill (s : State) (i : SubId) (ws : Writes) : Wrote :=
  let c := s.front.mill[i].written ws
  let fits := match s.kernel c.kernelId.toNat with
    | some k => k.pLog2 == s.sieve[i].cfg.pLog2.toNat
    | none => false
  if (ws 0).isNone then (s, stOk)
  else if s.active i then (s, stWrongMode)
  else if !fits then (s, stBadParam)
  else ({ s with front := { s.front with mill := vset s.front.mill i c } }, stOk)

/-- ASSY_CFG (Table 05-12, R131): CURVE_ID from the next front-end span boundary, and GAIN_COMMIT. -/
def State.setAssay (s : State) (i : SubId) (ws : Writes) : Wrote :=
  let old := s.front.assay[i].cfg
  let c := old.written ws
  let fits := match s.curve c.curveId.toFin with
    | some k => k.wide == c.format
    | none => false
  if (ws 0).isSome && !fits then (s, stBadParam)
  else if ws.one 0 2 ∧ s.front.assay[i].stat.gainPending then (s, stBusy)
  else
    let t := s.onAssay i fun x => { x with cfg := c }
    let t := if s.active i ∧ t.usedCurve i ≠ s.usedCurve i then
        t.onAssay i fun x => { x with curve := x.curve ++ [(s.frontSpan i * spanLen, t.ownCurve i)] }
      else t
    (if ws.one 0 2 then (t.gainCommit i).1 else t, stOk)

/-- ASSY_GAIN (R131): the shadow copy. -/
def State.setGain (s : State) (i : SubId) (input n : Nat) (ws : Writes) : Wrote :=
  if s.front.assay[i].stat.gainPending then (s, stBusy)
  else
    let x := s.front.assay[i]
    let g := 2 ^ x.cfg.gainGroupLog2.toNat
    let groups := (s.fineChans i + g - 1) / g
    let put (m : SMap (BitVec 16)) (k : Nat) (v : BitVec 16) : SMap (BitVec 16) :=
      if k < groups then SMap.set x.fill m (gainKey input k) v else m
    let m := (List.range n).foldl (fun (m : SMap (BitVec 16)) k => match ws k with
      | some w => put (put m (2 * k) (w.setWidth 16)) (2 * k + 1) ((w >>> 16).setWidth 16)
      | none => m) x.shadow
    (s.onAssay i fun y => { y with shadow := m }, stOk)

/-- LOOM_CFG (R182): at the next boundary, or at once outside ALIGN and OBSERVE. -/
def State.setLoom (s : State) (i : SubId) (ws : Writes) : Wrote :=
  let c := s.loom[i].cfg.written ws
  if 2 < c.cutFrom.toNat ∨ c.cutTarget.toNat < 5000 ∨ 10000 < c.cutTarget.toNat then (s, stBadParam)
  else
    let t := s.onLoom i fun x => { x with cfg := c }
    (if s.active i then t else t.onLoom i fun x => { x with cutFrom := c.cutFrom.toNat, target := c.cutTarget.toNat }, stOk)

/-- LEDG_CFG (R212). -/
def State.setLedger (s : State) (i : SubId) (ws : Writes) : Wrote :=
  let c := s.ledger[i].cfg.written ws
  if 6 < c.wrecGroupLog2.toNat ∨ 32 < c.shift.toNat then (s, stBadParam)
  else (s.onLedger i fun x => { x with cfg := c }, stOk)

/-- LOOM_BEAM_CFG (R238). -/
def State.setBeam (s : State) (i : SubId) (ws : Writes) : Wrote :=
  let c := s.beam[i].cfg.written ws
  if s.tiles.curves[c.curveId.toFin].isNone ∧ (ws 0).isSome then (s, stBadParam)
  else
    let t := s.onBeam i fun x => { x with cfg := c }
    (if s.active i then t else t.applyBeamCurve i, stOk)

/-- GRAN_CFG (R265). -/
def State.setGran (s : State) (ws : Writes) : Wrote :=
  let c := s.gran.cfg.written ws
  if c.srIdleUs = 0 then (s, stBadParam) else ({ s with gran := { s.gran with cfg := c } }, stOk)

/-- Row `k` of a GRAN_REPAIR image (R269). -/
def repairRowOf (image : List Word) (k : Nat) : RepairRow :=
  let a := image.getD (1 + 2 * k) 0
  { chan := a.setWidth 5, sub := (a >>> 5).setWidth 2, bank := (a >>> 7).setWidth 4, state := (a >>> 11).setWidth 2
    auto := a.getLsbD 13, row := (image.getD (2 + 2 * k) 0).setWidth 19 }

/-- GRAN_REPAIR (R261): the list as the write leaves it keeps every DONE entry, and adds only PENDING ones (log entry 66). -/
def State.setRepair (s : State) (ws : Writes) : Wrote :=
  let old := s.repairWords
  let image := old.zipIdx.map fun (e : Word × Nat) => (ws e.2).getD e.1
  let count := fieldOf (image.getD 0 0) 0 5
  let rows := (List.range (min count 16)).map (repairRowOf image)
  let keeps := s.gran.repair.all fun (r : RepairRow) => r.state != 1 || rows.contains r
  let adds := rows.all fun (r : RepairRow) => s.gran.repair.contains r || (r.state == 0 && !r.auto)
  if s.mode ≠ modeWorkshop then (s, stWrongMode)
  else if !keeps || !adds then (s, stBadParam)
  else if 16 < count then (s, stNospace)
  else ({ s with gran := { s.gran with repair := rows } }, stOk)

/-- TIME_CFG (R300). -/
def State.setTime (s : State) (ws : Writes) : Wrote :=
  let c := s.time.cfg.written ws
  if c.dreqIntervalLog2.toInt < -4 ∨ 4 < c.dreqIntervalLog2.toInt ∨ c.ppsOutWidthUs = 0 then (s, stBadParam)
  else
    let old := s.time.cfg
    let t := { s with time := { s.time with cfg := c } }
    (if old.dreqEn = c.dreqEn ∧ old.dreqPort = c.dreqPort ∧ old.dreqIntervalLog2 = c.dreqIntervalLog2 then t else t.dreqPassed, stOk)

/-- BNCH_STAT (R329): IRQ_STATUS and IRQ_ENABLE. -/
def State.setBench (s : State) (b : BenchId) (ws : Writes) : Wrote :=
  let t := match ws 3 with
    | some w => s.clearIrq b (w.setWidth 6)
    | none => s
  (match ws 4 with
  | some w => t.writeIrqEnable b (w.setWidth 6)
  | none => t, stOk)

/-- BNCH_MGMT (R331): in effect once the reply has been sent. -/
def State.setMgmt (s : State) (p : PortId) (ws : Writes) : Wrote :=
  if ws.torn 0 1 ∨ ws.torn 3 6 then (s, stBadParam)
  else ({ s with bench := { s.bench with mgmtNext := some (p, s.bench.mgmt[p].written ws) } }, stOk)

/-- DRAY_CHAN of a host channel (R370, R376): STOP, then GO. -/
def State.setDray (s : State) (c : DrayId) (ws : Writes) : Wrote :=
  let st := (s.dray c).reg.state
  let stop := ws.one 0 17
  let r := (s.dray c).reg.written ws
  if c.val < 12 ∨ ws.torn 1 2 ∨ r.trigSrc = 3 then (s, stBadParam)
  else if ws.one 0 16 ∧ !stop ∧ st ≠ dcIdle ∧ st ≠ dcError then (s, stBusy)
  else
    let t := s.onDrayReg c fun x => x.written ws
    let t := if stop then t.drayStop c else t
    (if ws.one 0 16 then t.drayGo c else t, stOk)

/-- BELL_CFG (Table 16-13). -/
def State.setBell (s : State) (ws : Writes) : Wrote :=
  let c := s.bell.cfg.written ws
  if c.recoverMs.toNat < 10 ∨ 10000 < c.recoverMs.toNat then (s, stBadParam)
  else ({ s with bell := { s.bell with cfg := c } }, stOk)

/-- The W1C bits of the records that have no other writable field; the others take nothing. -/
def State.clearSeen (s : State) (code k : Nat) (ws : Writes) : State :=
  let on {n : Nat} (f : Fin n → State) : State := match inRange n k with
    | some i => f i
    | none => s
  match code with
  | 0x0102 => on fun l => s.onLaneStat l fun x => x.written ws
  | 0x0202 => on fun i => s.onSievStat i fun x => x.written ws
  | 0x0302 => on fun e => s.onEngine e fun x => { x with stat := x.stat.written ws }
  | 0x0402 => on fun i => s.onAssyStat i fun x => x.written ws
  | 0x0502 => on fun i => s.onCellStat i fun x => x.written ws
  | 0x0602 => on fun i => s.onLoomStat i fun x => x.written ws
  | 0x0603 => on fun t => s.onTileReg t fun x => x.written ws
  | 0x0607 => on fun i => s.onBeamStat i fun x => x.written ws
  | 0x0702 => on fun i => s.onLedgStat i fun x => x.written ws
  | 0x0802 => on fun c => s.onGranStat c fun x => x.written ws
  | 0x0901 => s.onClks fun x => x.written ws
  | 0x0A02 => s.onTimeStat fun x => x.written ws
  | 0x0A03 => on fun t => s.onTimer t fun x => { x with reg := x.reg.written ws }
  | 0x0D02 => s.onExchStat fun x => x.written ws
  | 0x0F01 => s.onBale fun x => x.written ws
  | 0x1001 => on fun i => s.onSource i fun x => { x with reg := x.reg.written ws }
  | 0x1102 => s.onBellStat fun x => x.written ws
  | _ => s

/-- The records that SET_RECORD always refuses with BAD_PARAM (R60, R150, R152, R267, R268, R303, R402, R425, R441 and the
record lists of chapters 14 and 15). -/
def refusedRecord (code : Nat) : Bool :=
  [0x0101, 0x0501, 0x0503, 0x0803, 0x0804, 0x0A04, 0x0D01, 0x1003, 0x1103, 0x1104].contains code

/-- A record is written (R341). -/
def State.writeRecord (s : State) (code k len : Nat) (ws : Writes) : Wrote :=
  let on {n : Nat} (f : Fin n → Wrote) (j : Nat := k) : Wrote := match inRange n j with
    | some i => f i
    | none => (s, stBadParam)
  match code with
  | 0x0201 => on fun i => s.setSieve i ws
  | 0x0301 => on fun i => s.setMill i ws
  | 0x0401 => on fun i => s.setAssay i ws
  | 0x0403 => on (fun i => s.setGain i (k % 4096) len ws) (k / 4096)
  | 0x0601 => on fun i => s.setLoom i ws
  | 0x0606 => on fun i => s.setBeam i ws
  | 0x0701 => on fun i => s.setLedger i ws
  | 0x0801 => s.setGran ws
  | 0x0805 => s.setRepair ws
  | 0x0A01 => s.setTime ws
  | 0x0B01 => on fun b => s.setBench b ws
  | 0x0B03 => on fun p => s.setMgmt p ws
  | 0x0E01 => on fun c => s.setDray c ws
  | 0x1101 => s.setBell ws
  | _ => if refusedRecord code then (s, stBadParam) else (s.clearSeen code k ws, stOk)

/-- The records indexed by sub-array. -/
def subRecord (code : Nat) : Bool :=
  [0x0201, 0x0202, 0x0301, 0x0401, 0x0402, 0x0501, 0x0502, 0x0601, 0x0602, 0x0606, 0x0607, 0x0701, 0x0702, 0x0A04].contains code

/-- The lease of SET_RECORD (R341). Another bench's BNCH_STAT allows the clearing of IRQ_STATUS alone (log entry 65). -/
def State.recordLease (s : State) (b : BenchId) (code k : Nat) (ws : Writes) : Bool :=
  let obs (j : Nat) : Bool := match inRange 4 j with
    | some i => s.holdsObs b i
    | none => s.holdsAny b
  if subRecord code then obs k
  else if code = 0x0403 then obs (k / 4096)
  else if code = 0x0A01 then s.holdsTime b
  else if code = 0x0B03 ∨ code = 0x0805 ∨ code = 0x1101 then s.holdsWork b
  else if code = 0x0801 ∨ code = 0x0E01 then s.holdsObsWork b
  else if code = 0x0B01 then k == b.val || (s.holdsAny b && (ws 4).isNone)
  else s.holdsAny b

/-- SET_RECORD (R341): every word at one instant, or none. -/
def cmdSetRecord (b : BenchId) (p : Packet) (s : State) : State × Reply :=
  let code := p.bits 2 0 16
  let k := p.bits 2 16 16
  let off := p.bits 3 0 16
  let n := p.bits 3 16 16
  let ws : Writes := fun j => if off ≤ j ∧ j < off + n then some (p.w (4 + (j - off))) else none
  let words := s.recordWords code k
  let len := (words.getD []).length
  let r := s.writeRecord code k len ws
  let ranged := !p.badFlags && words.isSome && decide (1 ≤ n ∧ n ≤ 1021 ∧ off < len ∧ off + n ≤ len)
  s.answer [(!(decide (4 ≤ p.len) && p.len == n + 4), stBadLength), (!s.recordLease b code k ws, stNoLease),
    (r.2 == stWrongMode, stWrongMode), (!ranged || r.2 == stBadParam, stBadParam), (r.2 != stOk, r.2)]
    (r.1, Reply.ok)

end Sys2Proof.Machine
end

