-- ==== Sys2Proof/Machine/Benches.lean ====
section
/-! DEFINITION. Sessions and leases as commands, the dispatch of command packets, and how benches are served (R310 to R314,
R321 to R327, R333 to R338). -/

namespace Sys2Proof.Machine

/-! ### HELLO, LEASE, RELEASE, HEARTBEAT (R322 to R327) -/

/-- HELLO under a key slot (R324). On a management port the command that opens the session is command 0 of it, and what the
bench knows of its host carries over. -/
def cmdHello (b : BenchId) (slot : Fin 8) (p : Packet) (s : State) : State × Reply :=
  let x := s.benchOf b
  let taken := decide (2 ≤ b.val) && x.stat.isOpen && (x.stat.keySlot.toNat != slot.val || !p.flag 0)
  s.answer (tests (p.len == 2) true true (!p.badFlags 1) ++ [(taken, stBusy)])
    (let t := (if x.stat.isOpen then s.closeSession b else s).openSession b slot
     let t := if b.val < 2 then t
       else t.onBench b fun y =>
         { y with peer := x.peer, lastSeq := x.lastSeq, stat := { y.stat with postTail := 1, postHead := 1 } }
     (t, Reply.ok [(t.benchOf b).stat.sessionId, BitVec.ofNat 32 (1024 + 65536 * b.val), s.start.fwVersion]))

/-- A class of Table 12-8 with its sub-array, in word 2 of LEASE and RELEASE. -/
def classOk (p : Packet) : Bool := decide (1 ≤ p.bits 2 0 3 ∧ p.bits 2 0 3 ≤ 5) && (p.bits 2 0 3 == 1 || p.bits 2 4 2 == 0)

/-- LEASE (R326): BUSY before AUTH; in recovery every class but WORKSHOP is refused with AUTH (R440). -/
def cmdLease (b : BenchId) (p : Packet) (s : State) : State × Reply :=
  let cls := p.bits 2 0 3
  let i := p.sub 2 4
  let held := match s.leaseHolder cls i with
    | some c => c != b
    | none => false
  s.answer (tests (p.len == 3) true true
      (!p.badFlags && !p.stray 2 0xFC00FFC8 && classOk p && decide (1 ≤ p.bits 2 16 10 ∧ p.bits 2 16 10 ≤ 600)) ++
      [(held, stBusy), (!s.keyMay b cls || (s.start.recovery && cls != 5), stAuth)])
    (done (((s.setHolder b cls i true).onBench b fun x => { x with timeoutS := BitVec.ofNat 16 (p.bits 2 16 10) }).renew b))

/-- RELEASE (R326, R327). -/
def cmdRelease (b : BenchId) (p : Packet) (s : State) : State × Reply :=
  let all := p.bit 2 8
  s.answer (tests (p.len == 3) true true
      (!p.badFlags && !p.stray 2 0xFFFFFEC8 && (if all then p.w 2 == 0x100 else classOk p)))
    (done (if all then s.dropLeases b else s.dropLease b (p.bits 2 0 3) (p.sub 2 4)))

/-- HEARTBEAT (R326): every lease of the bench is renewed. -/
def cmdHeartbeat (b : BenchId) (p : Packet) (s : State) : State × Reply :=
  s.answer (tests (p.len == 2) true true (!p.badFlags)) (done (s.renew b) (s.leaseWords.take 1))

/-! ### Dispatch (Table 13-3) -/

/-- What carrying out a command gives: the module and the reply, or none where the reply waits for the command's end
(R176, R355). -/
abbrev Ran := State × Option Reply

/-- A command answered at once. -/
def atOnce (r : State × Reply) : Ran := (r.1, some r.2)

/-- Sessions, records and tables. -/
def State.runLow (s : State) (b : BenchId) (op : Nat) (p : Packet) : Ran :=
  atOnce (match op with
  | 0x01 => cmdHello b (if b.val < 2 then 0 else ⟨(s.benchOf b).stat.keySlot.toNat, (s.benchOf b).stat.keySlot.isLt⟩) p s
  | 0x02 => cmdLease b p s
  | 0x03 => cmdRelease b p s
  | 0x04 => cmdHeartbeat b p s
  | 0x10 => cmdIdentify b p s
  | 0x11 => cmdGetRecord b p s
  | 0x12 => cmdSetRecord b p s
  | 0x13 => cmdGetStatus b p s
  | 0x20 => cmdTableBegin b p s
  | 0x21 => cmdTableCommit b p s
  | 0x22 => cmdTableAbort b p s
  | 0x23 => cmdTableQuery b p s
  | _ => (s, Reply.plain stBadOpcode))

/-- Observations, the Cellar and time. -/
def State.runObs (s : State) (b : BenchId) (op : Nat) (p : Packet) : Ran :=
  atOnce (match op with
  | 0x30 => cmdObsDefine b p s
  | 0x31 => cmdObsCheck b p s
  | 0x32 => cmdObsArm b p s
  | 0x33 => cmdObsStartAt b p s
  | 0x34 => cmdObsStopAt b p s
  | 0x35 => cmdDrainAt b p s
  | 0x36 => cmdResyncAt b p s
  | 0x40 => cmdDelayLoad b p s
  | 0x41 => cmdWeightLoad b p s
  | 0x42 => cmdCoefSwap b p s
  | 0x43 => cmdDcbFreeze b p s
  | 0x48 => cmdCellarTrigger b p s
  | 0x49 => cmdCellarRelease b p s
  | 0x50 => cmdTimeGet b p s
  | 0x51 => cmdTimeIncrement b p s
  | 0x52 => cmdTimeStep b p s
  | 0x53 => cmdTimerSet b p s
  | 0x54 => cmdCaptureGet b p s
  | _ => (s, Reply.plain stBadOpcode))

/-- Lanes, bulk copies, the Tally, modes, tiles, the store, the Baler and the WORKSHOP commands. -/
def State.runHigh (s : State) (b : BenchId) (op : Nat) (p : Packet) : Ran :=
  match op with
  | 0x60 => atOnce (cmdLaneSet b p s)
  | 0x61 => atOnce (cmdLaneTrain b p s)
  | 0x62 => atOnce (cmdEyeScan b p s)
  | 0x63 => atOnce (cmdLaneStats b p s)
  | 0x70 => atOnce (cmdBulkWrite b p s)
  | 0x71 => atOnce (cmdBulkRead b p s)
  | 0x80 => atOnce (cmdTallyGet b p s)
  | 0x81 => atOnce (cmdTallyClear b p s)
  | 0x82 => atOnce (cmdTallyConfig b p s)
  | 0x90 => cmdModeRequest b p s
  | 0x91 => atOnce (cmdTileRetire b p s)
  | 0x92 => cmdTileRestore b p s
  | 0x93 => atOnce (cmdOctetSet b p s)
  | 0xA0 => atOnce (cmdStoreWrite b p s)
  | 0xA1 => atOnce (cmdStoreActivate b p s)
  | 0xA2 => atOnce (cmdStoreQuery b p s)
  | 0xB0 => cmdBale b p s
  | 0xB1 => cmdUnbale b p s
  | 0xF0 => atOnce (cmdSelftest b p s)
  | 0xF1 => atOnce (cmdPeek b p s)
  | 0xF2 => atOnce (cmdPoke b p s)
  | _ => (s, some (Reply.plain stBadOpcode))

/-- A command packet of an opcode is carried out; an unknown opcode is answered BAD_OPCODE (R335). -/
def State.runOp (s : State) (b : BenchId) (op : BitVec 8) (p : Packet) : Ran :=
  if op.toNat < 0x30 then s.runLow b op.toNat p else if op.toNat < 0x60 then s.runObs b op.toNat p else s.runHigh b op.toNat p

/-! ### Taking a command and answering it (R310, R312 to R314) -/

/-- The Foreman takes a command of a bench: POST_HEAD advances, on a management port POST_TAIL with it, and the turn is
the bench's. -/
def State.taken (s : State) (b : BenchId) : State :=
  let t := s.onBnch b fun x => { x with postHead := x.postHead + 1, postTail := if b.val < 2 then x.postTail else x.postTail + 1 }
  { t with bench := { t.bench with turn := b } }

/-- What waits for a reply to be sent takes effect: BNCH_MGMT (R331), and the start that STORE_ACTIVATE asked for. -/
def State.settle (s : State) : State :=
  let t := match s.bench.mgmtNext with
    | some (p, r) => { s with bench := { s.bench with mgmt := vset s.bench.mgmt p r, mgmtNext := none } }
    | none => s
  t.takeRestart

/-- A command carried out is answered, or its answer waits. COMMANDS counts it unless R313 kept it from being executed. -/
def State.answered (b : BenchId) (op : BitVec 8) (tag : Word) (counted : Bool) (r : Ran) : State :=
  match r.2 with
  | some y => (r.1.putReply b (y.words op tag) counted).settle
  | none => r.1.onBench b fun x => { x with executing := some (op, tag) }

/-- The opcodes of Table 13-3. -/
def knownOp (op : Nat) : Bool :=
  [0x01, 0x02, 0x03, 0x04, 0x10, 0x11, 0x12, 0x13, 0x20, 0x21, 0x22, 0x23, 0x30, 0x31, 0x32, 0x33, 0x34, 0x35, 0x36, 0x40, 0x41,
   0x42, 0x43, 0x48, 0x49, 0x50, 0x51, 0x52, 0x53, 0x54, 0x60, 0x61, 0x62, 0x63, 0x70, 0x71, 0x80, 0x81, 0x82, 0x90, 0x91, 0x92,
   0x93, 0xA0, 0xA1, 0xA2, 0xB0, 0xB1, 0xF0, 0xF1, 0xF2].contains op

/-- A command is carried out. A firmware fault in it raises CMD_INTERNAL and answers INTERNAL; its effect is undefined, and the row
says whether the command acted (R336; log entry 79). -/
def State.carriedOut (s : State) (p : Packet) (run : State → Ran) : Ran :=
  match p.meets with
  | .firmware acted => ((if acted then (run s).1 else s).raise srcCmdInternal 0, some (Reply.plain stInternal))
  | _ => run s

/-- A packet of an opcode, of LENGTH 1024 at most, is carried out by `run` and answered (R313). -/
def State.carry (s : State) (b : BenchId) (op : BitVec 8) (p : Packet) (run : State → Ran) : State :=
  let t := s.taken b
  if 1024 < p.len then State.answered b op p.tag false (t, some (Reply.plain stBadLength))
  else State.answered b op p.tag true (t.carriedOut p run)

/-- A packet as raw words is taken and answered (R313, R333, R335). Words of a Post slot that the host did not write are
free values; a COMMAND datagram must carry as many words as LENGTH says (log entry 67). -/
def State.carryRaw (s : State) (b : BenchId) (ws : List Word) : State :=
  let w0 := ws.getD 0 0
  let tag := ws.getD 1 0
  let len := fieldOf w0 0 16
  let op : BitVec 8 := (w0 >>> 24).setWidth 8
  if len < 2 ∨ 1024 < len then State.answered b op tag false (s.taken b, some (Reply.plain stBadLength))
  else if b.val < 2 ∨ len = ws.length then
    let r := (s.taken b).freeWords (len - ws.length)
    State.answered b op tag true (r.1.runOp b op { flags := (w0 >>> 16).setWidth 8, tag := tag, params := ((ws.take len) ++ r.2).drop 2 })
  else State.answered b op tag true (s.taken b, some (Reply.plain (if knownOp op.toNat then stBadLength else stBadOpcode)))

/-! ### Waiting commands (R311, R314, R321) -/

/-- The ranges that a command reaches on the Exchange, with the port it reaches them through (R315, R354, R357, R377). -/
def busRanges (op : Nat) (p : Packet) : List (MasterId × Nat × Nat) :=
  match op with
  | 0x70 | 0x71 => [(moverPort, p.addr 4, 4 * p.bits 3 0 19)]
  | 0xB0 | 0xB1 => [(balePort, p.addr 2, p.long 4), (balePort, p.addr 6, p.long 8)]
  | 0xF1 => [(foremanPort, p.addr 2, 4 * p.bits 4 0 10)]
  | 0xF2 => [(foremanPort, p.addr 2, 4 * (p.len - 4))]
  | _ => []

/-- Another master's lock holds an access of a command: it waits at its bench until the lock ends (R367, log entry 15). -/
def State.busLocked (s : State) (op : Nat) (p : Packet) : Bool := (busRanges op p).any fun e => s.lockedOut e.1 [e.2]

/-- As `busLocked`, for raw words of a packet that is carried out. -/
def State.rawLocked (s : State) (ws : List Word) : Bool :=
  let len := fieldOf (ws.getD 0 0) 0 16
  decide (2 ≤ len) && decide (len ≤ 1024) &&
    s.busLocked (fieldOf (ws.getD 0 0) 24 8) { flags := 0, tag := 0, params := ((ws ++ List.replicate (len - ws.length) 0).take len).drop 2 }

/-- The next command of a bench, where the Foreman may take one: the roll call is over, none executes, a PCI Express bench
has a free Reply slot, and no lock holds its accesses (R312, R314, R367, R429). -/
def State.waitingAt (s : State) (b : BenchId) : Option (List Word) :=
  let x := s.benchOf b
  let next :=
    if !s.bench.serving || x.executing.isSome then none
    else if b.val < 2 then if x.replies.length < 16 then x.post.head? else none
    else (x.held.find? fun e => e.1 == x.stat.postTail).map fun e => e.2
  next.filter fun ws => !s.rawLocked ws

/-- The waiting command of a bench leaves its queue. -/
def State.unqueue (s : State) (b : BenchId) : State :=
  s.onBench b fun x => if b.val < 2 then { x with post := x.post.drop 1 } else { x with held := x.held.filter fun e => e.1 != x.stat.postTail }

/-- The bench whose turn comes first after the one last served (R314). -/
def State.nextBench (s : State) : Option (BenchId × List Word) :=
  ([1, 2, 3, 4].map fun k => (s.bench.turn + (BitVec.ofNat 2 k).toFin : BenchId)).findSome? fun b => (s.waitingAt b).map fun ws => (b, ws)

/-- Waiting commands are taken round robin, at most `n` of them. -/
def State.serveN : Nat → State → State
  | 0, s => s
  | n + 1, s => match s.nextBench with
    | some (b, ws) => State.serveN n ((s.unqueue b).carryRaw b ws)
    | none => s

/-- Every command that can be taken is taken (R314). -/
def State.serve (s : State) : State :=
  s.serveN ((allFin 4).foldl (fun (n : Nat) b => n + (s.benchOf b).post.length + (s.benchOf b).held.length) 0)

/-! ### A command that reaches a bench -/

/-- The words of a packet (R333). -/
def packetWords (op : BitVec 8) (p : Packet) : List Word :=
  (putAt op 24 ||| putAt p.flags 16 ||| BitVec.ofNat 32 (p.len % 65536)) :: p.tag :: p.params

/-- The Foreman can take the next command of a bench at once: nothing of the bench is before it. -/
def State.free (s : State) (b : BenchId) : Bool :=
  let x := s.benchOf b
  s.bench.serving && x.executing.isNone &&
    (if b.val < 2 then x.post.isEmpty && decide (x.replies.length < 16) else x.held.all fun e => e.1 != x.stat.postTail)

/-- A packet waits in the Post ring, where it has room (R311). -/
def State.postRaw (s : State) (b : BenchId) (ws : List Word) : State :=
  if 16 ≤ (s.benchOf b).post.length then s.protoError b 1
  else s.onBench b fun x => { x with post := x.post ++ [ws], stat := { x.stat with postTail := x.stat.postTail + 1 } }

/-- A packet of a management port waits under the first index after E that nothing holds, inside the window of R321. -/
def State.holdRaw (s : State) (b : BenchId) (ws : List Word) : State :=
  let x := s.benchOf b
  match (List.range 16).find? fun k => x.held.all fun e => e.1 != x.stat.postTail + BitVec.ofNat 16 k with
  | some k => s.onBench b fun y => { y with held := y.held ++ [(x.stat.postTail + BitVec.ofNat 16 k, ws)] }
  | none => s.protoError b 3

/-- A packet can reach a bench: a PCI Express function out of reset, or an open session of a management port. -/
def State.reaches (s : State) (b : BenchId) : Bool :=
  if b.val < 2 then s.running && s.bench.perstHigh else s.bench.serving && (s.benchOf b).stat.isOpen

/-- A packet that cannot reach its bench: a management port counts it in SEQ_DROP outside a session, and counts nothing
before the benches open (R320, R429). -/
def State.missed (s : State) (b : BenchId) : State :=
  if decide (2 ≤ b.val) && s.bench.serving then s.onBnch b fun x => { x with seqDrop := x.seqDrop + 1 } else s

/-- A packet that cannot be taken at once waits. -/
def State.wait (s : State) (b : BenchId) (ws : List Word) : State :=
  if b.val < 2 then s.postRaw b ws else (s.onBench b fun x => { x with lastDgram := s.now }).holdRaw b ws

/-- The host of a PCI Express bench advances POST_TAIL; to a management-port bench the command is an accepted datagram (R323). -/
def State.posted (s : State) (b : BenchId) : State :=
  if b.val < 2 then s.onBnch b fun x => { x with postTail := x.postTail + 1 } else s.onBench b fun x => { x with lastDgram := s.now }

/-- The next command of a bench is the packet `p` of an opcode, whose work is `run`: it is taken and answered, or waits
(log entry 68). -/
def State.hand (s : State) (b : BenchId) (op : BitVec 8) (p : Packet) (run : State → Ran) : State :=
  if !s.reaches b then s.missed b
  else if s.free b then ((s.posted b).carry b op p run).serve
  else s.wait b (packetWords op p)

/-- As `hand`, for a command that moves data on the Exchange: it waits while another master's lock holds its accesses (R367). -/
def State.handBus (s : State) (b : BenchId) (op : BitVec 8) (p : Packet) (run : State → Ran) : State :=
  if s.reaches b && s.free b && s.busLocked op.toNat p then s.wait b (packetWords op p) else s.hand b op p run

/-- As `hand`, for raw words. -/
def State.handRaw (s : State) (b : BenchId) (ws : List Word) : State :=
  if !s.reaches b then s.missed b
  else if s.free b && !s.rawLocked ws then ((s.posted b).carryRaw b ws).serve
  else s.wait b ws

/-- After a row of the Exchange that ended a lock, the commands it held are taken (R367). -/
def State.served (s t : State) : State := if s.move.exch.locks.all t.move.exch.locks.contains then t else t.serve

/-! ### Session-opening HELLO on a management port (R320, R324) -/

/-- A reply to a HELLO that opened no session: to its sender, under its key slot, with SESSION_ID 0 and SEQ 1 (log entry 69). -/
def State.replyStray (s : State) (b : BenchId) (slot : Fin 8) (peer : Option Peer) (words : List Word) : State :=
  match benchPort b, peer with
  | some port, some peer =>
    let msg := dgramHeader 0x02 b.val slot.val words.length 0 1 0 0 0 ++ words.flatMap fun w => beBytes 4 w.toNat
    s.emit (.datagram port peer (msg ++ s.tagOf slot msg))
  | _, _ => s

/-- A HELLO that asks for a session from outside one: where it succeeds the session is its sender's. -/
def State.openFrom (s : State) (b : BenchId) (slot : Fin 8) (peer : Option Peer) (seq : Nat) (p : Packet) : State :=
  let r := cmdHello b slot p s
  if r.2.status = stOk then
    State.answered b 0x01 p.tag true ((r.1.onBench b fun x => { x with peer := peer, lastSeq := seq }), some r.2)
  else s.replyStray b slot peer (r.2.words 0x01 p.tag)

/-- The row HELLO on a management port: it reaches the module as a datagram with SESSION_ID 0 and the next SEQ of its key
slot; an empty slot is counted in AUTH_FAIL (log entry 68). -/
def State.helloRow (s : State) (b : BenchId) (slot : Fin 8) (p : Packet) : State :=
  if !s.bench.serving then s
  else if s.bench.keys[slot].isEmpty then
    s.onBench b fun x => { x with authSeen := true, stat := { x.stat with authFail := x.stat.authFail + 1 } }
  else
    let seq := s.bench.keySeq[slot] + 1
    ({ s with bench := { s.bench with keySeq := vset s.bench.keySeq slot seq } } : State).openFrom b slot none seq p

end Sys2Proof.Machine
end

