-- ==== Sys2Proof/Machine/Datagrams.lean ====
section
/-! DEFINITION. Bench datagrams and the windows of PCI Express benches: what the host writes and sends (R310 to R312, R317 to
R324, R447). -/

namespace Sys2Proof.Machine

/-! ### Bench datagrams (R319) -/

/-- A received bench datagram, field by field (Table 12-6). -/
structure Dgram where
  type    : Nat
  slot    : Nat
  session : Word
  seq     : Nat
  cmd     : BitVec 16
  offset  : Nat
  aux     : Nat
  payload : List Word
  deriving DecidableEq, Repr

/-- The fields of a datagram's bytes. -/
def dgramOf (bs : List Byte) : Dgram :=
  { type := beAt bs 3 1, slot := beAt bs 5 1, session := BitVec.ofNat 32 (beAt bs 8 4), seq := beAt bs 12 8
    cmd := BitVec.ofNat 16 (beAt bs 20 2), offset := beAt bs 24 4, aux := beAt bs 28 4
    payload := (List.range (beAt bs 6 2)).map fun k => BitVec.ofNat 32 (beAt bs (32 + 4 * k) 4) }

/-- A Bulk range of a BULK_PUT or a BULK_GET lies in the window (Table 12-4). -/
def bulkFits (off n : Nat) : Bool := decide (1 ≤ n ∧ n ≤ 1024 ∧ off + n ≤ 262144)

/-- MAGIC, VERSION, TYPE, BENCH and length are right (R320). A Bulk range outside the window counts as a wrong header (log
entry 69). -/
def headerOk (b : BenchId) (bs : List Byte) : Bool :=
  let d := dgramOf bs
  beAt bs 0 2 == 0x5342 && beAt bs 2 1 == 1 && beAt bs 4 1 == b.val && decide (beAt bs 6 2 ≤ 1024) &&
  bs.length == 48 + 4 * beAt bs 6 2 &&
  (match d.type with
  | 1 => true
  | 3 => bulkFits d.offset d.payload.length
  | 5 => d.payload.isEmpty && bulkFits d.offset d.aux
  | _ => false)

/-- The tag verifies under a key slot that holds a key (R320). -/
def State.tagOk (s : State) (slot : Nat) (bs : List Byte) : Bool :=
  match inRange 8 slot with
  | some k => !s.bench.keys[k].isEmpty && bytesAt bs (bs.length - 16) 16 == s.tagOf k (bs.take (bs.length - 16))
  | none => false

/-- The datagram opens a session: a HELLO with SESSION_ID 0 (R320, R324). -/
def Dgram.opens (d : Dgram) : Bool := d.type == 1 && d.session == 0 && (d.payload.getD 0 0) >>> 24 == 1

/-- A datagram is accepted: its SEQ counts for its key slot, and for the session its sender is the one to answer. -/
def State.acceptSeq (s : State) (slot : Fin 8) (seq : Nat) : State :=
  { s with bench := { s.bench with keySeq := vset s.bench.keySeq slot (max s.bench.keySeq[slot] seq) } }

/-- A COMMAND datagram of an open session by its CMD_NUM (R321). -/
def State.takeCommand (s : State) (b : BenchId) (d : Dgram) : State :=
  let x := s.benchOf b
  let ahead := (d.cmd - x.stat.postTail).toNat
  if ahead < 16 then
    if x.held.any fun e => e.1 == d.cmd then s
    else (s.onBench b fun y => { y with held := y.held ++ [(d.cmd, d.payload)] }).serve
  else
    match if 2 ^ 16 - 16 ≤ ahead then x.stored.find? fun e => e.1 == d.cmd else none with
    | some e => (s.sendDatagram b 0x02 d.cmd.toNat 0 0 e.2).onBnch b fun y => { y with retx := y.retx + 1 }
    | none => if x.executing.isSome ∧ ahead = 2 ^ 16 - 1 then s else s.protoError b 3

/-- The words of a BULK_PUT are stored and acknowledged (R321). -/
def State.takeBulkPut (s : State) (b : BenchId) (d : Dgram) : State :=
  let t := s.onBench b fun x => { x with bulk := SMap.setRange 0 x.bulk d.offset d.payload }
  t.sendDatagram b 0x04 0 (BitVec.ofNat 32 d.offset) (BitVec.ofNat 32 d.payload.length) []

/-- A BULK_GET is answered with the words asked for (R321). -/
def State.takeBulkGet (s : State) (b : BenchId) (d : Dgram) : State :=
  s.sendDatagram b 0x06 0 (BitVec.ofNat 32 d.offset) 0 (SMap.getRange 0 (s.benchOf b).bulk d.offset d.aux)

/-- A HELLO from outside a session: it is command 0, and its LENGTH is that of its payload (R313, R321, R324). -/
def State.takeHello (s : State) (b : BenchId) (slot : Fin 8) (peer : Peer) (d : Dgram) : State :=
  let w0 := d.payload.getD 0 0
  let p : Packet := { flags := (w0 >>> 16).setWidth 8, tag := d.payload.getD 1 0, params := d.payload.drop 2 }
  if d.cmd ≠ 0 then s.protoError b 3
  else if fieldOf w0 0 16 = d.payload.length ∧ 2 ≤ d.payload.length then s.openFrom b slot (some peer) d.seq p
  else s.replyStray b slot (some peer) ((Reply.plain stBadLength).words 0x01 (d.payload.getD 1 0))

/-- A received bench datagram is dropped and counted, or accepted (R320). Before the benches open it is dropped without being
counted (R429). A datagram of a session under another key slot counts as a wrong slot (log entry 69). -/
def State.datagram (s : State) (port : PortId) (peer : Peer) (bs : List Byte) : State :=
  let b := portBench port
  let d := dgramOf bs
  let x := s.benchOf b
  if !s.bench.serving then s
  else if !headerOk b bs then s.onBnch b fun y => { y with malformed := y.malformed + 1 }
  else if !s.tagOk d.slot bs ∨ (!d.opens ∧ x.stat.isOpen ∧ d.session = x.stat.sessionId ∧ d.slot ≠ x.stat.keySlot.toNat) then
    s.onBench b fun y => { y with authSeen := true, stat := { y.stat with authFail := y.stat.authFail + 1 } }
  else
    let slot : Fin 8 := Fin.ofNat 8 d.slot
    let ok := if d.opens then decide (s.bench.keySeq[slot] < d.seq)
      else x.stat.isOpen && d.session == x.stat.sessionId && decide (x.lastSeq < d.seq)
    if !ok then s.onBnch b fun y => { y with seqDrop := y.seqDrop + 1 }
    else
      let t := s.acceptSeq slot d.seq
      if d.opens then t.takeHello b slot peer d
      else
        let t := t.onBench b fun y => { y with lastSeq := d.seq, peer := some peer, lastDgram := s.now }
        match d.type with
        | 1 => t.takeCommand b d
        | 3 => t.takeBulkPut b d
        | _ => t.takeBulkGet b d

/-- COMMAND_DATAGRAM (R321). -/
def execCommandDatagram (port : PortId) (peer : Peer) (bytes : List Byte) (s : State) : Host.Outcome State Fault Refusal :=
  .next (s.datagram port peer bytes)

/-- BULK_PUT (R321). -/
def execBulkPut (port : PortId) (peer : Peer) (bytes : List Byte) (s : State) : Host.Outcome State Fault Refusal :=
  .next (s.datagram port peer bytes)

/-- BULK_GET (R321). -/
def execBulkGet (port : PortId) (peer : Peer) (bytes : List Byte) (s : State) : Host.Outcome State Fault Refusal :=
  .next (s.datagram port peer bytes)

/-- NOTIFY_REPEAT (R321): a second has passed, and an enabled bit is still set. -/
def execNotifyRepeat (port : PortId) (s : State) : Host.Outcome State Fault Refusal :=
  let b := portBench port
  let x := s.benchOf b
  .next (match x.notifyAt with
    | some t => if t ≤ s.now ∧ x.stat.irqStatus &&& x.stat.irqEnable ≠ 0 then s.notify b else s
    | none => s)

/-- SESSION_IDLE_CLOSE (R323). -/
def execSessionIdleClose (port : PortId) (s : State) : Host.Outcome State Fault Refusal := .next (s.idleClose port)

/-! ### The windows of a PCI Express bench (R310 to R312) -/

/-- What the host can write of BAR0 and BAR2: the PCI Express island is powered and out of reset. -/
def State.mapped (s : State) : Bool := s.running && s.bench.perstHigh

/-- POST_TAIL is written (R311): the slots up to the new POST_TAIL hold the packets given; a slot the host did not write has free
words. A write back behind packets not yet taken withdraws them. -/
def State.postTo (s : State) (f : FuncId) (value : BitVec 16) (packets : List (List Word)) : State :=
  let b := funcBench f
  let x := s.benchOf b
  let n := (value - x.stat.postHead).toNat
  (if 16 < n then s.protoError b 1
    else
      let more := n - x.post.length
      let new := packets.take more
      let r := (List.range (more - new.length)).foldl (fun (a : State × List (List Word)) _ =>
        let w := a.1.freeWords 2
        (w.1, a.2 ++ [w.2])) (s, [])
      (r.1.onBench b fun y =>
        { y with post := y.post.take n ++ new ++ r.2, stat := { y.stat with postTail := value } }).serve)

/-- REPLY_HEAD is written (R311). -/
def State.freeReplies (s : State) (f : FuncId) (value : BitVec 16) : State :=
  let b := funcBench f
  let x := s.benchOf b
  let n := (value - x.stat.replyHead).toNat
  if x.replies.length < n then s.protoError b 2
  else (s.onBench b fun y => { y with replies := y.replies.drop n, stat := { y.stat with replyHead := value } }).serve

/-- The MSI-X messages that a function holds pending and may now send are sent (R308, R317). -/
def State.flushMsix (s : State) (f : FuncId) : State :=
  let x := s.bench.funcs[f]
  if !x.busMaster || !(s.benchOf (funcBench f)).stat.linkUp then s
  else
    let go := (allFin 16).filter fun v => x.pba.getLsbD v.val && !x.masked.getLsbD v.val
    ({ s with bench := { s.bench with funcs := vmod s.bench.funcs f fun y => { y with pba := y.pba &&& y.masked } } }).emits
      (go.map fun v => .msix f v)

/-- A word of the MSI-X table: its entries are four words, the last of which holds the vector's mask in bit 0. -/
def PcieFunc.tableWord (x : PcieFunc) (k : Nat) : Word :=
  if k % 4 = 3 then bitAt (x.masked.getLsbD (k / 4)) 0 else SMap.get 0 x.msixTable k

/-- A word that the host reads in BAR0 at a word offset (Table 12-3); what the map leaves unassigned reads zero (R309). -/
def State.bar0Read (s : State) (f : FuncId) (k : Nat) : Word :=
  let x := s.bench.funcs[f]
  if k < 0x400 then s.idWords.getD k 0
  else if k < 0x800 then (s.benchOf (funcBench f)).stat.words.getD (k - 0x400) 0
  else if k < 0xC00 then s.bench.health.words.getD (k - 0x800) 0
  else if 0xC000 ≤ k ∧ k < 0xC040 then x.tableWord (k - 0xC000)
  else if k = 0xE000 then x.pba.setWidth 32
  else 0

/-- A word that the host reads in BAR2 at a word offset (Table 12-4): a Post or Reply slot that the rings hold, or the Bulk window. The
words of a slot that the rings do not hold are free values (log entry 70). -/
def State.bar2Read (s : State) (f : FuncId) (k : Nat) : Word :=
  let x := s.benchOf (funcBench f)
  let slot (ring : List (List Word)) (head : BitVec 16) : Word :=
    match ring[((BitVec.ofNat 4 (k / 1024)) - head.setWidth 4).toNat]? with
    | some ws => ws.getD (k % 1024) (Config.readOpaque k)
    | none => Config.readOpaque k
  if k < 0x4000 then slot x.post x.stat.postHead
  else if k < 0x8000 then slot x.replies x.stat.replyHead
  else if 0x40000 ≤ k ∧ k < 0x80000 then SMap.get 0 x.bulk (k - 0x40000)
  else 0

/-- A word that the host writes in BAR0 at a word offset: the host's two indices, the interrupt words and the MSI-X table; every other
write is discarded (R309, R310, R329). The slots up to a new POST_TAIL hold the packets given. -/
def State.bar0Write (s : State) (f : FuncId) (k : Nat) (w : Word) (packets : List (List Word) := []) : State :=
  if k = 0x401 then s.postTo f (w.setWidth 16) packets
  else if k = 0x402 then s.freeReplies f (w.setWidth 16)
  else if k = 0x403 then s.clearIrq (funcBench f) (w.setWidth 6)
  else if k = 0x404 then s.writeIrqEnable (funcBench f) (w.setWidth 6)
  else if 0xC000 ≤ k ∧ k < 0xC040 then
    let n := k - 0xC000
    let v : BitVec 16 := 1 <<< (n / 4)
    let change (x : PcieFunc) : PcieFunc :=
      if n % 4 = 3 then { x with masked := if w.getLsbD 0 then x.masked ||| v else x.masked &&& ~~~v }
      else { x with msixTable := SMap.set 0 x.msixTable n w }
    ({ s with bench := { s.bench with funcs := vmod s.bench.funcs f change } } : State).flushMsix f
  else s

/-- A word that the host writes in BAR2 at a word offset: the Bulk window (R315). What it writes into Post slots comes with the
POST_TAIL that hands them over (log entry 70), and nothing reads what it writes into the Reply window. -/
def State.bar2Write (s : State) (f : FuncId) (k : Nat) (w : Word) : State :=
  if 0x40000 ≤ k ∧ k < 0x80000 then s.onBench (funcBench f) fun x => { x with bulk := SMap.set 0 x.bulk (k - 0x40000) w } else s

/-- A write of several words is applied word by word, each within its own target; one with poisoned data is discarded (R309). -/
def State.barWrite (s : State) (f : FuncId) (two : Bool) (k : Nat) (ws : List Word) (poisoned : Bool := false) : State :=
  if poisoned ∨ !s.mapped then s
  else ws.zipIdx.foldl (fun (t : State) e => if two then t.bar2Write f (k + e.2) e.1 else t.bar0Write f (k + e.2) e.1) s

/-- POST_TAIL_WRITE (R311). -/
def execPostTailWrite (f : FuncId) (value : BitVec 16) (packets : List (List Word)) (s : State) : Host.Outcome State Fault Refusal :=
  .next (if s.mapped then s.bar0Write f 0x401 (value.setWidth 32) packets else s)

/-- REPLY_HEAD_WRITE (R311). -/
def execReplyHeadWrite (f : FuncId) (value : BitVec 16) (s : State) : Host.Outcome State Fault Refusal :=
  .next (s.barWrite f false 0x402 [value.setWidth 32])

/-- IRQ_ENABLE_WRITE (R317). -/
def execIrqEnableWrite (f : FuncId) (value : BitVec 6) (s : State) : Host.Outcome State Fault Refusal :=
  .next (s.barWrite f false 0x404 [value.setWidth 32])

/-- IRQ_STATUS_CLEAR (R317). -/
def execIrqStatusClear (f : FuncId) (value : BitVec 6) (s : State) : Host.Outcome State Fault Refusal :=
  .next (s.barWrite f false 0x403 [value.setWidth 32])

/-! ### Links and resets (R306, R308, R323, R447) -/

/-- A function is reset (R323): its session closes, its MSI-X and Bus Master Enable take the standard's values after reset
(log entry 70). -/
def State.resetFunction (s : State) (f : FuncId) : State :=
  let t := s.closeSession (funcBench f)
  { t with bench := { t.bench with funcs := vset t.bench.funcs f {} } }

/-- FUNCTION_LEVEL_RESET (R323, R369): the bench mover is a master that is reset. -/
def execFunctionLevelReset (f : FuncId) (s : State) : Host.Outcome State Fault Refusal :=
  .next (if s.mapped then ((s.resetFunction f).resetMaster moverPort none).serve else s)

/-- The functions that share a function's link (Table 12-1). -/
def State.linkOf (s : State) (f : FuncId) : List FuncId := if s.bell.straps.pcieBif then [f] else [0, 1]

/-- LINK_UP of the functions of a link. -/
def State.setLink (s : State) (fs : List FuncId) (up : Bool) : State :=
  fs.foldl (fun (t : State) f => t.onBnch (funcBench f) fun x => { x with linkUp := up }) s

/-- PERST_N (R447): low holds the PCI Express island in reset, a hot reset of both functions. -/
def execPerstN (high : Bool) (s : State) : Host.Outcome State Fault Refusal :=
  let t : State := { s with bench := { s.bench with perstHigh := high } }
  .next (if high || !s.bench.perstHigh || !s.running then t
    else ((((t.setLink [0, 1] false).resetFunction 0).resetFunction 1).resetMaster moverPort none).serve)

/-- PCIE_LINK_DOWN (R323): the session stays open. -/
def execPcieLinkDown (f : FuncId) (s : State) : Host.Outcome State Fault Refusal := .next (s.setLink (s.linkOf f) false)

/-- PCIE_LINK_UP (R306): the island is powered and out of reset; messages held pending leave. -/
def execPcieLinkUp (f : FuncId) (s : State) : Host.Outcome State Fault Refusal :=
  .next (if s.mapped ∧ s.islandOn 71 then
    (s.linkOf f).foldl (fun (t : State) g => t.flushMsix g) (s.setLink (s.linkOf f) true)
  else s)

/-- BUS_MASTER_ENABLE (R308). -/
def execBusMasterEnable (f : FuncId) (s : State) : Host.Outcome State Fault Refusal :=
  .next (if s.mapped then
    ({ s with bench := { s.bench with funcs := vmod s.bench.funcs f fun y => { y with busMaster := true } } } : State).flushMsix f
  else s)

/-- MSIX_UNMASK (R317). -/
def execMsixUnmask (f : FuncId) (vec : Fin 16) (s : State) : Host.Outcome State Fault Refusal :=
  .next (if s.mapped then
    ({ s with bench := { s.bench with funcs := vmod s.bench.funcs f fun y =>
      { y with masked := y.masked &&& ~~~(1 <<< vec.val : BitVec 16) } } } : State).flushMsix f
  else s)

/-- REC_A loses or gains what makes it present (R273): block lock on port A. -/
def State.recA (s : State) (lock : Bool) : State :=
  let q := (s.refOf 2).qstate
  if q = qsUnused then s
  else if lock then if q = qsAbsent then s.onRef 2 fun r => { r with qstate := qsQualifying, qual := 0 } else s
  else if q = qsQualified ∨ q = qsDisputed then s.disqualify 2 false
  else s.onRef 2 fun r => { r with qstate := qsAbsent, qual := 0 }

/-- MGMT_BLOCK_LOCK (R273, R444): the PHYs are powered in every mode. -/
def execMgmtBlockLock (port : PortId) (s : State) : Host.Outcome State Fault Refusal :=
  let t := s.onBnch (portBench port) fun x => { x with linkUp := true }
  .next (if !s.bell.alive then s else if port = 0 then t.recA true else t)

/-- MGMT_BLOCK_LOCK_LOSS (R273). -/
def execMgmtBlockLockLoss (port : PortId) (s : State) : Host.Outcome State Fault Refusal :=
  let t := s.onBnch (portBench port) fun x => { x with linkUp := false }
  .next (if !s.bell.alive then s else if port = 0 then t.recA false else t)

end Sys2Proof.Machine
end

