-- ==== Sys2Proof/Machine/Ptp.lean ====
section
/-! DEFINITION. Frames of the management ports: bench datagrams, PTP capture and transparent clock, ARP and neighbour
solicitations, forwarding, and Delay_Req (R295 to R298, R318). Frames are given and sent with their FCS. -/

namespace Sys2Proof.Machine

/-! ### What a frame holds -/

/-- The headers of a received frame. `ipVer` is 0, 4 or 6; `pay` is the offset of what the EtherType or UDP carries. -/
structure MgmtFrame where
  dst   : Nat
  src   : Nat
  tag   : Option Nat
  ether : Nat
  ipVer : Nat := 0
  srcIp : Nat := 0
  dstIp : Nat := 0
  udp   : Bool := false
  sport : Nat := 0
  dport : Nat := 0
  /-- The offset of the UDP header, and the length of its payload. -/
  udpAt : Nat := 0
  pay   : Nat
  len   : Nat
  deriving DecidableEq, Repr

/-- The headers of a frame's bytes without FCS. Fragments carry no UDP header to read. -/
def frameHead (bs : List Byte) : MgmtFrame :=
  let tagged := beAt bs 12 2 == 0x8100
  let at' := if tagged then 18 else 14
  let ether := beAt bs (at' - 2) 2
  let base : MgmtFrame :=
    { dst := beAt bs 0 6, src := beAt bs 6 6, tag := if tagged then some (beAt bs 14 2) else none, ether := ether, pay := at'
      len := bs.length - at' }
  let withUdp (f : MgmtFrame) (u : Nat) : MgmtFrame :=
    { f with udp := true, udpAt := u, sport := beAt bs u 2, dport := beAt bs (u + 2) 2, pay := u + 8, len := beAt bs (u + 4) 2 - 8 }
  if ether = 0x0800 ∧ beAt bs at' 1 / 16 = 4 then
    let f := { base with ipVer := 4, srcIp := beAt bs (at' + 12) 4, dstIp := beAt bs (at' + 16) 4 }
    if beAt bs (at' + 9) 1 = 17 ∧ beAt bs (at' + 6) 2 % 0x4000 = 0 then withUdp f (at' + 4 * (beAt bs at' 1 % 16)) else f
  else if ether = 0x86DD ∧ beAt bs at' 1 / 16 = 6 then
    let f := { base with ipVer := 6, srcIp := beAt bs (at' + 8) 16, dstIp := beAt bs (at' + 24) 16 }
    if beAt bs (at' + 6) 1 = 17 then withUdp f (at' + 40) else f
  else base

/-- A frame with FCS of a length Ethernet allows and a right FCS. -/
def mgmtFcsOk (frame : List Byte) : Bool :=
  decide (64 ≤ frame.length) && leNat (frame.drop (frame.length - 4)) == (crc32 (frame.take (frame.length - 4))).toNat

/-- A PTP frame (R295): version 2, over EtherType 0x88F7 or UDP ports 319 and 320. -/
def MgmtFrame.isPtp (f : MgmtFrame) (bs : List Byte) : Bool :=
  (f.ether == 0x88F7 || (f.udp && (f.dport == 319 || f.dport == 320))) && beAt bs (f.pay + 1) 1 % 16 == 2

/-! ### A port's addresses (R318) -/

/-- An IP address of a port, of an enabled version. -/
def BnchMgmt.owns (m : BnchMgmt) (f : MgmtFrame) : Bool :=
  (f.ipVer == 4 && m.v4En && f.dstIp == m.ipv4.toNat) || (f.ipVer == 6 && m.v6En && f.dstIp == m.ipv6.toNat)

/-- The frame carries the port's VLAN tag where TAGGED is set, and none otherwise. -/
def BnchMgmt.tagFits (m : BnchMgmt) (f : MgmtFrame) : Bool :=
  match f.tag with
  | some t => m.tagged && t % 4096 == m.vlanId.toNat
  | none => !m.tagged

/-- The frame's destination is the port itself: its IP address over UDP, else its MAC address. -/
def BnchMgmt.addressed (m : BnchMgmt) (f : MgmtFrame) : Bool := if f.udp then m.owns f else f.dst == m.mac.toNat

/-- The frame's destination is a PTP multicast address (R297). -/
def MgmtFrame.ptpMulticast (f : MgmtFrame) : Bool :=
  if f.ipVer = 4 then f.dstIp == 0xE0000181
  else if f.ipVer = 6 then f.dstIp == 0xFF0E * 2 ^ 112 + 0x181
  else f.dst == 0x011B19000000

/-- Bench datagrams that a port consumes (R318). -/
def BnchMgmt.benchFrame (m : BnchMgmt) (f : MgmtFrame) : Bool := f.udp && m.owns f && f.dport == m.udpPort.toNat && m.tagFits f

/-! ### The transparent clock (R296) -/

/-- The residence time is added to correctionField; a sum that would overflow is the largest value. -/
def corrected (old residence : Nat) : Nat :=
  let v := signedOf 64 old + (residence : Int)
  if 2 ^ 63 ≤ v then 0x7FFFFFFFFFFFFFFF else codeOf 64 v

/-- Bytes of a frame are replaced. -/
def putBytes (bs : List Byte) (off : Nat) (new : List Byte) : List Byte := bs.take off ++ new ++ bs.drop (off + new.length)

/-- A checksum updated for a change of bytes at an even offset. -/
def checksumFor (old : Nat) (was now : List Byte) : Nat :=
  checksum16 (65535 - old + (sum16 (was.map fun (x : Byte) => ~~~x) + sum16 now))

/-- A forwarded frame without FCS: event messages of PTP are corrected, with their UDP checksum. -/
def forwardedBytes (bs : List Byte) (residence : Nat) : List Byte :=
  let f := frameHead bs
  if !f.isPtp bs || decide (3 < beAt bs f.pay 1 % 16) then bs
  else
    let was := bytesAt bs (f.pay + 8) 8
    let new := beBytes 8 (corrected (beNat was) residence)
    let bs1 := putBytes bs (f.pay + 8) new
    let sum := beAt bs (f.udpAt + 6) 2
    if f.udp && (f.ipVer == 6 || sum != 0) then
      let c := checksumFor sum was new
      putBytes bs1 (f.udpAt + 6) (beBytes 2 (if c = 0 then 0xFFFF else c))
    else bs1

/-- Bytes with their FCS. -/
def withFcs (bs : List Byte) : List Byte := bs ++ leBytes 4 (crc32 bs).toNat

/-- The other management port. -/
def otherPort (p : PortId) : PortId := if p = 0 then 1 else 0

/-! ### Capture (R297) -/

/-- CONSUME of a port. -/
def State.consumes (s : State) (p : PortId) : Bool := if p = 0 then s.time.cfg.consumeA else s.time.cfg.consumeB

/-- The message of a PTP frame as a capture holds it: at most 64 bytes. -/
def ptpMessage (f : MgmtFrame) (bs : List Byte) : List Byte := bytesAt bs f.pay (min 64 (min (beAt bs (f.pay + 2) 2) (bs.length - f.pay)))

/-- A received PTP frame is captured where R297 says so; a captured Sync tells Delay_Req where to go (R298). -/
def State.ptpReceived (s : State) (p : PortId) (f : MgmtFrame) (bs : List Byte) : State :=
  let type := beAt bs f.pay 1 % 16
  let m := s.bench.mgmt[p]
  if s.consumes p && beAt bs (f.pay + 4) 1 == s.time.cfg.ptpDomain.toNat && [0, 8, 9, 11].contains type &&
      (m.addressed f || f.ptpMulticast) then
    let msg := ptpMessage f bs
    let t := s.capture { at16 := s.time16, source := 3, port := p == 1, msg := msg, len := msg.length }
    if type = 0 then
      let t := if (s.time.lastSync[p]).isNone ∧ (p == 1) = s.time.cfg.dreqPort then t.dreqPassed else t
      let multi := f.ptpMulticast
      { t with time := { t.time with lastSync := vset t.time.lastSync p (some
          { transport := if f.udp then f.ipVer else 0, vlan := f.tag.map fun v => BitVec.ofNat 16 v
            dstMac := BitVec.ofNat 48 (if multi then f.dst else f.src), dstIp := BitVec.ofNat 128 (if multi then f.dstIp else f.srcIp) }) } }
    else t
  else s

/-! ### Address resolution (R318) -/

/-- A frame of a port, with the tag of the frame it answers. -/
def State.sendMgmt (s : State) (p : PortId) (dst : Nat) (tag : Option Nat) (ether : Nat) (body : List Byte) : State :=
  s.emit (.mgmtFrame p (etherFrame (beBytes 6 dst) (beBytes 6 s.bench.mgmt[p].mac.toNat) tag ether body))

/-- ARP requests for the port's IPv4 address are answered (layout of the ARP standard; log entry 71). -/
def State.answerArp (s : State) (p : PortId) (f : MgmtFrame) (bs : List Byte) : State :=
  let m := s.bench.mgmt[p]
  if f.ether == 0x0806 && beAt bs (f.pay + 6) 2 == 1 && m.v4En && m.tagFits f && beAt bs (f.pay + 24) 4 == m.ipv4.toNat then
    s.sendMgmt p (beAt bs (f.pay + 8) 6) f.tag 0x0806
      (beBytes 8 0x0001080006040002 ++ beBytes 6 m.mac.toNat ++ beBytes 4 m.ipv4.toNat ++ bytesAt bs (f.pay + 8) 10)
  else s

/-- Neighbour solicitations for the port's IPv6 address are answered (layout of the neighbour discovery standard; log
entry 71). -/
def State.answerNs (s : State) (p : PortId) (f : MgmtFrame) (bs : List Byte) : State :=
  let m := s.bench.mgmt[p]
  let at' := f.pay + 40
  if f.ipVer == 6 && beAt bs (f.pay + 6) 1 == 58 && beAt bs at' 1 == 135 && m.v6En && m.tagFits f && beAt bs (at' + 8) 16 == m.ipv6.toNat then
    let known := f.srcIp != 0
    let dstIp := if known then f.srcIp else 0xFF02 * 2 ^ 112 + 1
    let src := beBytes 16 m.ipv6.toNat
    let tail := beBytes 4 (if known then 0x60000000 else 0x20000000) ++ src ++ [2, 1] ++ beBytes 6 m.mac.toNat
    let sum := checksum16 (sum16 (src ++ beBytes 16 dstIp) + 32 + 58 + sum16 ([136, 0, 0, 0] ++ tail))
    s.sendMgmt p (if known then f.src else 0x333300000001) f.tag 0x86DD
      (beBytes 4 (6 * 2 ^ 28) ++ beBytes 2 32 ++ [58, 255] ++ src ++ beBytes 16 dstIp ++ [136, 0] ++ beBytes 2 sum ++ tail)
  else s

/-! ### A received frame -/

/-- Frames are handled out of DORMANT, from the end of step 3 of a roll call, with the port island ON (R429, R444). -/
def State.framesRun (s : State) : Bool := s.foremanRuns && s.islandOn 76

/-- MGMT_FRAME_RECEIVED (R295): a bench datagram or a unicast PTP frame of the port's own is consumed; every other frame goes
on to the other port, corrected where R296 says so. A frame with a wrong FCS is dropped. -/
def execMgmtFrameReceived (port : PortId) (frame : List Byte) (residence : Nat) (s : State) : Host.Outcome State Fault Refusal :=
  let bs := frame.take (frame.length - 4)
  let f := frameHead bs
  let m := s.bench.mgmt[port]
  .next (if !s.framesRun || !mgmtFcsOk frame then s
    else if m.benchFrame f then
      s.datagram port { mac := BitVec.ofNat 48 f.src, v6 := f.ipVer == 6, ip := BitVec.ofNat 128 f.srcIp, port := BitVec.ofNat 16 f.sport }
        (bytesAt bs f.pay (min f.len (bs.length - f.pay)))
    else if f.isPtp bs then
      let t := s.ptpReceived port f bs
      if m.addressed f then t else t.emit (.mgmtFrame (otherPort port) (withFcs (forwardedBytes bs residence)))
    else ((s.answerArp port f bs).answerNs port f bs).emit (.mgmtFrame (otherPort port) frame))

/-! ### Delay_Req (R298) -/

/-- A Delay_Req message: fields that R298 leaves to IEEE 1588 take its values (log entry 71). -/
def State.dreqMessage (s : State) (p : PortId) : List Byte :=
  let mac := s.bench.mgmt[p].mac.toNat
  [0x01, 0x02] ++ beBytes 2 44 ++ [BitVec.ofNat 8 s.time.cfg.ptpDomain.toNat, 0, 0, 0] ++ List.replicate 12 0 ++
    beBytes 3 (mac / 2 ^ 24) ++ [0xFF, 0xFE] ++ beBytes 3 (mac % 2 ^ 24) ++ beBytes 2 (p.val + 1) ++
    beBytes 2 s.time.dreqSeq.toNat ++ [0x01, 0x7F] ++ List.replicate 10 0

/-- The frame that carries a Delay_Req over the transport of the last captured Sync. -/
def State.dreqFrame (s : State) (p : PortId) (y : SyncSeen) (msg : List Byte) : List Byte :=
  let m := s.bench.mgmt[p]
  let tag := y.vlan.map fun v => v.toNat
  let eth (type : Nat) (body : List Byte) : List Byte := etherFrame (beBytes 6 y.dstMac.toNat) (beBytes 6 m.mac.toNat) tag type body
  match y.transport with
  | 4 =>
    let a := beBytes 4 m.ipv4.toNat
    let b := beBytes 4 y.dstIp.toNat
    eth 0x0800 (ipv4Packet a b 0 64 0 (udpDatagram a b 319 319 msg))
  | 6 =>
    let a := beBytes 16 m.ipv6.toNat
    let b := beBytes 16 y.dstIp.toNat
    eth 0x86DD (ipv6Packet a b 0 64 (udpDatagram a b 319 319 (msg ++ [0, 0])))
  | _ => eth 0x88F7 msg

/-- DELAY_REQ (R298): the next instant has come; the frame leaves now and is captured with its egress timestamp. -/
def execDelayReq (s : State) : Host.Outcome State Fault Refusal :=
  let p : PortId := if s.time.cfg.dreqPort then 1 else 0
  let due := s.dreqInstant
  .next (match s.time.lastSync[p] with
    | some y =>
      if s.framesRun && s.time.cfg.dreqEn && s.time.lastDreq != some due then
        let msg := s.dreqMessage p
        let t := s.emit (.mgmtFrame p (s.dreqFrame p y msg))
        let t := { t with time := { t.time with lastDreq := some due, dreqSeq := t.time.dreqSeq + 1 } }
        t.capture { at16 := s.time16, source := 3, port := p == 1, dir := true, msg := msg, len := 44 }
      else s
    | none => s)

end Sys2Proof.Machine
end

