-- ==== Sys2Proof/Machine/Sideband.lean ====
section
/-! DEFINITION. The I2C sideband (R449). -/

namespace Sys2Proof.Machine

/-- The words of a sideband page (Table 18-3): BELL_STAT, ID_INFO, and BNCH_HEALTH, which is zero until step 9 ends. -/
def State.pageWords (s : State) : List Word :=
  match s.side.page.toNat with
  | 0 => s.bellWords.take 12
  | 1 => s.idWords.take 16
  | 2 => if s.bench.serving then s.bench.health.words.take 12 else List.replicate 12 0
  | _ => []

/-- I2C_WRITE (R449): one byte sets the pointer; a longer write, or page 3, is not acknowledged. -/
def execI2cWrite (bytes : List Byte) (s : State) : Host.Outcome State Fault Refusal :=
  .next (if !s.bell.alive then s
    else match bytes with
      | [x] =>
        if x >>> 6 = 3 then s.emit (.i2cAck false)
        else ({ s with side := { s.side with page := (x >>> 6).setWidth 2, word := x.toNat % 64 } } : State).emit (.i2cAck true)
      | _ => s.emit (.i2cAck false))

/-- I2C_READ (R449): bytes from the pointer's word onward, which advances by one word per four bytes; past the end of the
page they are zero. -/
def execI2cRead (count : Nat) (s : State) : Host.Outcome State Fault Refusal :=
  let bs := wordsBytes (s.pageWords.drop s.side.word)
  .next (if !s.bell.alive then s
    else ({ s with side := { s.side with word := s.side.word + count / 4 } } : State).emit (.i2cBytes (bytesAt bs 0 count)))

end Sys2Proof.Machine
end

