-- ==== Sys2Proof/Machine/CommandRows.lean ====
section
/-! DEFINITION. The rows that hand a bench a command packet, and the rows after which a waiting command may be taken. -/

namespace Sys2Proof.Machine

/-- HELLO (R324). -/
def execHello (b : BenchId) (keySlot : Fin 8) (p : Packet) (s : State) : Host.Outcome State Fault Refusal :=
  .next (if b.val < 2 then s.hand b 0x01 p fun t => atOnce (cmdHello b 0 p t) else s.helloRow b keySlot p)

/-- LEASE (R326). -/
def execLease (b : BenchId) (p : Packet) (s : State) : Host.Outcome State Fault Refusal :=
  .next (s.hand b 0x02 p fun t => atOnce (cmdLease b p t))

/-- RELEASE (R327). -/
def execRelease (b : BenchId) (p : Packet) (s : State) : Host.Outcome State Fault Refusal :=
  .next (s.hand b 0x03 p fun t => atOnce (cmdRelease b p t))

/-- HEARTBEAT (R326). -/
def execHeartbeat (b : BenchId) (p : Packet) (s : State) : Host.Outcome State Fault Refusal :=
  .next (s.hand b 0x04 p fun t => atOnce (cmdHeartbeat b p t))

/-- IDENTIFY (R328). -/
def execIdentify (b : BenchId) (p : Packet) (s : State) : Host.Outcome State Fault Refusal :=
  .next (s.hand b 0x10 p fun t => atOnce (cmdIdentify b p t))

/-- GET_RECORD (R340). -/
def execGetRecord (b : BenchId) (p : Packet) (s : State) : Host.Outcome State Fault Refusal :=
  .next (s.hand b 0x11 p fun t => atOnce (cmdGetRecord b p t))

/-- SET_RECORD (R341). -/
def execSetRecord (b : BenchId) (p : Packet) (s : State) : Host.Outcome State Fault Refusal :=
  .next (s.hand b 0x12 p fun t => atOnce (cmdSetRecord b p t))

/-- GET_STATUS (R338). -/
def execGetStatus (b : BenchId) (p : Packet) (s : State) : Host.Outcome State Fault Refusal :=
  .next (s.hand b 0x13 p fun t => atOnce (cmdGetStatus b p t))

/-- TABLE_BEGIN (R344). -/
def execTableBegin (b : BenchId) (p : Packet) (s : State) : Host.Outcome State Fault Refusal :=
  .next (s.hand b 0x20 p fun t => atOnce (cmdTableBegin b p t))

/-- TABLE_COMMIT (R344). -/
def execTableCommit (b : BenchId) (p : Packet) (s : State) : Host.Outcome State Fault Refusal :=
  .next (s.hand b 0x21 p fun t => atOnce (cmdTableCommit b p t))

/-- TABLE_ABORT (R344). -/
def execTableAbort (b : BenchId) (p : Packet) (s : State) : Host.Outcome State Fault Refusal :=
  .next (s.hand b 0x22 p fun t => atOnce (cmdTableAbort b p t))

/-- TABLE_QUERY (R345). -/
def execTableQuery (b : BenchId) (p : Packet) (s : State) : Host.Outcome State Fault Refusal :=
  .next (s.hand b 0x23 p fun t => atOnce (cmdTableQuery b p t))

/-- OBS_DEFINE (R347). -/
def execObsDefine (b : BenchId) (p : Packet) (s : State) : Host.Outcome State Fault Refusal :=
  .next (s.hand b 0x30 p fun t => atOnce (cmdObsDefine b p t))

/-- OBS_CHECK (R348). -/
def execObsCheck (b : BenchId) (p : Packet) (s : State) : Host.Outcome State Fault Refusal :=
  .next (s.hand b 0x31 p fun t => atOnce (cmdObsCheck b p t))

/-- OBS_ARM (R349). -/
def execObsArm (b : BenchId) (p : Packet) (s : State) : Host.Outcome State Fault Refusal :=
  .next (s.hand b 0x32 p fun t => atOnce (cmdObsArm b p t))

/-- OBS_START_AT (R350). -/
def execObsStartAt (b : BenchId) (p : Packet) (s : State) : Host.Outcome State Fault Refusal :=
  .next (s.hand b 0x33 p fun t => atOnce (cmdObsStartAt b p t))

/-- OBS_STOP_AT (R351). -/
def execObsStopAt (b : BenchId) (p : Packet) (s : State) : Host.Outcome State Fault Refusal :=
  .next (s.hand b 0x34 p fun t => atOnce (cmdObsStopAt b p t))

/-- DRAIN_AT (R200). -/
def execDrainAt (b : BenchId) (p : Packet) (s : State) : Host.Outcome State Fault Refusal :=
  .next (s.hand b 0x35 p fun t => atOnce (cmdDrainAt b p t))

/-- RESYNC_AT (R107). -/
def execResyncAt (b : BenchId) (p : Packet) (s : State) : Host.Outcome State Fault Refusal :=
  .next (s.hand b 0x36 p fun t => atOnce (cmdResyncAt b p t))

/-- DELAY_LOAD (R353). -/
def execDelayLoad (b : BenchId) (p : Packet) (s : State) : Host.Outcome State Fault Refusal :=
  .next (s.hand b 0x40 p fun t => atOnce (cmdDelayLoad b p t))

/-- WEIGHT_LOAD (R227). -/
def execWeightLoad (b : BenchId) (p : Packet) (s : State) : Host.Outcome State Fault Refusal :=
  .next (s.hand b 0x41 p fun t => atOnce (cmdWeightLoad b p t))

/-- COEF_SWAP (R103). -/
def execCoefSwap (b : BenchId) (p : Packet) (s : State) : Host.Outcome State Fault Refusal :=
  .next (s.hand b 0x42 p fun t => atOnce (cmdCoefSwap b p t))

/-- DCB_FREEZE (R89). -/
def execDcbFreeze (b : BenchId) (p : Packet) (s : State) : Host.Outcome State Fault Refusal :=
  .next (s.hand b 0x43 p fun t => atOnce (cmdDcbFreeze b p t))

/-- CELLAR_TRIGGER (R143). -/
def execCellarTrigger (b : BenchId) (p : Packet) (s : State) : Host.Outcome State Fault Refusal :=
  .next (s.hand b 0x48 p fun t => atOnce (cmdCellarTrigger b p t))

/-- CELLAR_RELEASE (R145). -/
def execCellarRelease (b : BenchId) (p : Packet) (s : State) : Host.Outcome State Fault Refusal :=
  .next (s.hand b 0x49 p fun t => atOnce (cmdCellarRelease b p t))

/-- TIME_GET (R338). -/
def execTimeGet (b : BenchId) (p : Packet) (s : State) : Host.Outcome State Fault Refusal :=
  .next (s.hand b 0x50 p fun t => atOnce (cmdTimeGet b p t))

/-- TIME_INCREMENT (R281). -/
def execTimeIncrement (b : BenchId) (p : Packet) (s : State) : Host.Outcome State Fault Refusal :=
  .next (s.hand b 0x51 p fun t => atOnce (cmdTimeIncrement b p t))

/-- TIME_STEP (R283). -/
def execTimeStep (b : BenchId) (p : Packet) (s : State) : Host.Outcome State Fault Refusal :=
  .next (s.hand b 0x52 p fun t => atOnce (cmdTimeStep b p t))

/-- TIMER_SET (R291). -/
def execTimerSet (b : BenchId) (p : Packet) (s : State) : Host.Outcome State Fault Refusal :=
  .next (s.hand b 0x53 p fun t => atOnce (cmdTimerSet b p t))

/-- CAPTURE_GET (R294). -/
def execCaptureGet (b : BenchId) (p : Packet) (s : State) : Host.Outcome State Fault Refusal :=
  .next (s.hand b 0x54 p fun t => atOnce (cmdCaptureGet b p t))

/-- LANE_SET (R60). -/
def execLaneSet (b : BenchId) (p : Packet) (s : State) : Host.Outcome State Fault Refusal :=
  .next (s.hand b 0x60 p fun t => atOnce (cmdLaneSet b p t))

/-- LANE_TRAIN (R53). -/
def execLaneTrain (b : BenchId) (p : Packet) (s : State) : Host.Outcome State Fault Refusal :=
  .next (s.hand b 0x61 p fun t => atOnce (cmdLaneTrain b p t))

/-- EYE_SCAN (R56). -/
def execEyeScan (b : BenchId) (p : Packet) (s : State) : Host.Outcome State Fault Refusal :=
  .next (s.hand b 0x62 p fun t => atOnce (cmdEyeScan b p t))

/-- LANE_STATS (R338). -/
def execLaneStats (b : BenchId) (p : Packet) (s : State) : Host.Outcome State Fault Refusal :=
  .next (s.hand b 0x63 p fun t => atOnce (cmdLaneStats b p t))

/-- BULK_WRITE (R315). -/
def execBulkWrite (b : BenchId) (p : Packet) (s : State) : Host.Outcome State Fault Refusal :=
  .next (s.handBus b 0x70 p fun t => atOnce (cmdBulkWrite b p t))

/-- BULK_READ (R315). -/
def execBulkRead (b : BenchId) (p : Packet) (s : State) : Host.Outcome State Fault Refusal :=
  .next (s.handBus b 0x71 p fun t => atOnce (cmdBulkRead b p t))

/-- TALLY_GET (R402). -/
def execTallyGet (b : BenchId) (p : Packet) (s : State) : Host.Outcome State Fault Refusal :=
  .next (s.hand b 0x80 p fun t => atOnce (cmdTallyGet b p t))

/-- TALLY_CLEAR (R391). -/
def execTallyClear (b : BenchId) (p : Packet) (s : State) : Host.Outcome State Fault Refusal :=
  .next (s.hand b 0x81 p fun t => atOnce (cmdTallyClear b p t))

/-- TALLY_CONFIG (R401). -/
def execTallyConfig (b : BenchId) (p : Packet) (s : State) : Host.Outcome State Fault Refusal :=
  .next (s.hand b 0x82 p fun t => atOnce (cmdTallyConfig b p t))

/-- MODE_REQUEST (R355). -/
def execModeRequest (b : BenchId) (p : Packet) (s : State) : Host.Outcome State Fault Refusal :=
  .next (s.hand b 0x90 p fun t => cmdModeRequest b p t)

/-- TILE_RETIRE (R176). -/
def execTileRetire (b : BenchId) (p : Packet) (s : State) : Host.Outcome State Fault Refusal :=
  .next (s.hand b 0x91 p fun t => atOnce (cmdTileRetire b p t))

/-- TILE_RESTORE (R176). -/
def execTileRestore (b : BenchId) (p : Packet) (s : State) : Host.Outcome State Fault Refusal :=
  .next (s.hand b 0x92 p fun t => cmdTileRestore b p t)

/-- OCTET_SET (R27). -/
def execOctetSet (b : BenchId) (p : Packet) (s : State) : Host.Outcome State Fault Refusal :=
  .next (s.hand b 0x93 p fun t => atOnce (cmdOctetSet b p t))

/-- STORE_WRITE (R437). -/
def execStoreWrite (b : BenchId) (p : Packet) (s : State) : Host.Outcome State Fault Refusal :=
  .next (s.hand b 0xA0 p fun t => atOnce (cmdStoreWrite b p t))

/-- STORE_ACTIVATE (R437). -/
def execStoreActivate (b : BenchId) (p : Packet) (s : State) : Host.Outcome State Fault Refusal :=
  .next (s.hand b 0xA1 p fun t => atOnce (cmdStoreActivate b p t))

/-- STORE_QUERY (R338). -/
def execStoreQuery (b : BenchId) (p : Packet) (s : State) : Host.Outcome State Fault Refusal :=
  .next (s.hand b 0xA2 p fun t => atOnce (cmdStoreQuery b p t))

/-- BALE (R381). -/
def execBale (b : BenchId) (p : Packet) (s : State) : Host.Outcome State Fault Refusal :=
  .next (s.handBus b 0xB0 p fun t => cmdBale b p t)

/-- UNBALE (R384). -/
def execUnbale (b : BenchId) (p : Packet) (s : State) : Host.Outcome State Fault Refusal :=
  .next (s.handBus b 0xB1 p fun t => cmdUnbale b p t)

/-- SELFTEST (R357). -/
def execSelftest (b : BenchId) (p : Packet) (s : State) : Host.Outcome State Fault Refusal :=
  .next (s.hand b 0xF0 p fun t => atOnce (cmdSelftest b p t))

/-- PEEK (R357). -/
def execPeek (b : BenchId) (p : Packet) (s : State) : Host.Outcome State Fault Refusal :=
  .next (s.handBus b 0xF1 p fun t => atOnce (cmdPeek b p t))

/-- POKE (R357). -/
def execPoke (b : BenchId) (p : Packet) (s : State) : Host.Outcome State Fault Refusal :=
  .next (s.handBus b 0xF2 p fun t => atOnce (cmdPoke b p t))

/-- BAD_OPCODE (R335): a packet given as raw words. -/
def execBadOpcode (b : BenchId) (words : List Word) (s : State) : Host.Outcome State Fault Refusal := .next (s.handRaw b words)

/-! ### Rows whose end frees a bench -/

/-- EXCHANGE_BURST (R358 to R368): a burst, and the commands that a lock it ended held. -/
def execExchangeBurst (u : Burst) (s : State) : Host.Outcome State Fault Refusal := .next (s.served (s.burst u))

/-- BRIDGE_TIMEOUT (R362): a burst to a bridge that is not completed within 100 µs. -/
def execBridgeTimeout (u : Burst) (s : State) : Host.Outcome State Fault Refusal := .next (s.served (s.bridgeTimeout u))

/-- TICK (R280): time passes. A locked sequence that ends with it lets the commands go on that it held, and so does a job of the Baler
that it ends. -/
def execTick (n : Nat) (s : State) : Host.Outcome State Fault Refusal :=
  let t := s.served (s.tick n)
  .next (if t.balerDue then t.endBaler.serve else t)

/-- LOCK_BREAK (R368): a lock still held 64 µs after its grant. -/
def execLockBreak (s : State) : Host.Outcome State Fault Refusal := .next (s.served s.breakLock)

/-- MASTER_RESET (R369, R376). -/
def execMasterReset (m : MasterId) (inFlight : Option (Burst × Nat)) (s : State) : Host.Outcome State Fault Refusal :=
  .next (s.served (s.masterReset m inFlight))

/-- GRACE_EXPIRY (R394): the grace timer of a source expires; a core that a block reset resets may have held a lock. -/
def execGraceExpiry (src : SourceId) (s : State) : Host.Outcome State Fault Refusal := .next (s.served (s.graceExpiry src))

/-- SEQ_STEP (R416): a sequence that ends may answer a MODE_REQUEST (R355). -/
def execSeqStep (met : Bool) (s : State) : Host.Outcome State Fault Refusal := .next (s.seqStepOf met).serve

/-- RAIL_SEQ (R417). -/
def execRailSeq (s : State) : Host.Outcome State Fault Refusal := .next s.railSeqOf.serve

/-- ROLL_CALL_STEP (R427, R430): a roll call runs and no shutdown does. What was posted before is acted on when the benches
open (R429). -/
def execRollCallStep (r : StepReport) (s : State) : Host.Outcome State Fault Refusal :=
  .next (if s.bell.alive && !s.bell.falling && s.rolling then (s.rollStep r).serve else s)

/-- SUPPLY_EVENT_BEGIN (R404, R410, R413): the FAULTED of a Baler job that it ends lets its bench go on. -/
def execSupplyEventBegin (v bank : BitVec 16) (s : State) : Host.Outcome State Fault Refusal :=
  .next (if s.move.baleRun.isSome then (s.supplyBegin v bank).serve else s.supplyBegin v bank)

/-- TILE_CLOCK_LOSS (R171): a tile that loses its clock in the self-test of a TILE_RESTORE has failed it (R176). -/
def execTileClockLoss (t : TileId) (s : State) : Host.Outcome State Fault Refusal :=
  let u := s.clockLoss t
  .next (if (s.tile t).test = TileTest.restore ∧ (u.tile t).test ≠ TileTest.restore then (u.failRestore t).serve else u)

/-- TILE_SELFTEST_DONE (R176, R180): a self-test whose island is gated has no end. The TILE_RESTORE that waits for the test is answered OK or FAULTED. -/
def execTileSelftestDone (t : TileId) (pass : Bool) (s : State) : Host.Outcome State Fault Refusal :=
  let u := if !s.islandOn (tileIsland t) then s else s.selftestDone t pass
  .next (match (s.tile t).asked with
    | some (b, _) => if (u.tile t).asked.isSome then u else (u.finishCommand b (Reply.plain (if pass then stOk else stFaulted))).serve
    | none => u)

end Sys2Proof.Machine
end

