-- ==== Sys2Proof/Machine/Dispatch.lean ====
section
/-! DEFINITION. One arm per command: each calls its meaning, or is rejected by name. -/

namespace Sys2Proof.Machine

def exec (i : Instr) (s : State) : Host.Outcome State Fault Refusal :=
  match i with
  | .hello b keySlot p => Sys2Proof.Machine.execHello b keySlot p s
  | .lease b p => Sys2Proof.Machine.execLease b p s
  | .release b p => Sys2Proof.Machine.execRelease b p s
  | .heartbeat b p => Sys2Proof.Machine.execHeartbeat b p s
  | .identify b p => Sys2Proof.Machine.execIdentify b p s
  | .getRecord b p => Sys2Proof.Machine.execGetRecord b p s
  | .setRecord b p => Sys2Proof.Machine.execSetRecord b p s
  | .getStatus b p => Sys2Proof.Machine.execGetStatus b p s
  | .tableBegin b p => Sys2Proof.Machine.execTableBegin b p s
  | .tableCommit b p => Sys2Proof.Machine.execTableCommit b p s
  | .tableAbort b p => Sys2Proof.Machine.execTableAbort b p s
  | .tableQuery b p => Sys2Proof.Machine.execTableQuery b p s
  | .obsDefine b p => Sys2Proof.Machine.execObsDefine b p s
  | .obsCheck b p => Sys2Proof.Machine.execObsCheck b p s
  | .obsArm b p => Sys2Proof.Machine.execObsArm b p s
  | .obsStartAt b p => Sys2Proof.Machine.execObsStartAt b p s
  | .obsStopAt b p => Sys2Proof.Machine.execObsStopAt b p s
  | .drainAt b p => Sys2Proof.Machine.execDrainAt b p s
  | .resyncAt b p => Sys2Proof.Machine.execResyncAt b p s
  | .delayLoad b p => Sys2Proof.Machine.execDelayLoad b p s
  | .weightLoad b p => Sys2Proof.Machine.execWeightLoad b p s
  | .coefSwap b p => Sys2Proof.Machine.execCoefSwap b p s
  | .dcbFreeze b p => Sys2Proof.Machine.execDcbFreeze b p s
  | .cellarTrigger b p => Sys2Proof.Machine.execCellarTrigger b p s
  | .cellarRelease b p => Sys2Proof.Machine.execCellarRelease b p s
  | .timeGet b p => Sys2Proof.Machine.execTimeGet b p s
  | .timeIncrement b p => Sys2Proof.Machine.execTimeIncrement b p s
  | .timeStep b p => Sys2Proof.Machine.execTimeStep b p s
  | .timerSet b p => Sys2Proof.Machine.execTimerSet b p s
  | .captureGet b p => Sys2Proof.Machine.execCaptureGet b p s
  | .laneSet b p => Sys2Proof.Machine.execLaneSet b p s
  | .laneTrain b p => Sys2Proof.Machine.execLaneTrain b p s
  | .eyeScan b p => Sys2Proof.Machine.execEyeScan b p s
  | .laneStats b p => Sys2Proof.Machine.execLaneStats b p s
  | .bulkWrite b p => Sys2Proof.Machine.execBulkWrite b p s
  | .bulkRead b p => Sys2Proof.Machine.execBulkRead b p s
  | .tallyGet b p => Sys2Proof.Machine.execTallyGet b p s
  | .tallyClear b p => Sys2Proof.Machine.execTallyClear b p s
  | .tallyConfig b p => Sys2Proof.Machine.execTallyConfig b p s
  | .modeRequest b p => Sys2Proof.Machine.execModeRequest b p s
  | .tileRetire b p => Sys2Proof.Machine.execTileRetire b p s
  | .tileRestore b p => Sys2Proof.Machine.execTileRestore b p s
  | .octetSet b p => Sys2Proof.Machine.execOctetSet b p s
  | .storeWrite b p => Sys2Proof.Machine.execStoreWrite b p s
  | .storeActivate b p => Sys2Proof.Machine.execStoreActivate b p s
  | .storeQuery b p => Sys2Proof.Machine.execStoreQuery b p s
  | .bale b p => Sys2Proof.Machine.execBale b p s
  | .unbale b p => Sys2Proof.Machine.execUnbale b p s
  | .selftest b p => Sys2Proof.Machine.execSelftest b p s
  | .peek b p => Sys2Proof.Machine.execPeek b p s
  | .poke b p => Sys2Proof.Machine.execPoke b p s
  | .badOpcode b words => Sys2Proof.Machine.execBadOpcode b words s
  | .postTailWrite f value packets => Sys2Proof.Machine.execPostTailWrite f value packets s
  | .replyHeadWrite f value => Sys2Proof.Machine.execReplyHeadWrite f value s
  | .irqEnableWrite f value => Sys2Proof.Machine.execIrqEnableWrite f value s
  | .irqStatusClear f value => Sys2Proof.Machine.execIrqStatusClear f value s
  | .gainCommit k => Sys2Proof.Machine.execGainCommit k s
  | .go c => Sys2Proof.Machine.execGo c s
  | .stop c => Sys2Proof.Machine.execStop c s
  | .commandDatagram port peer bytes => Sys2Proof.Machine.execCommandDatagram port peer bytes s
  | .bulkPut port peer bytes => Sys2Proof.Machine.execBulkPut port peer bytes s
  | .bulkGet port peer bytes => Sys2Proof.Machine.execBulkGet port peer bytes s
  | .notifyRepeat port => Sys2Proof.Machine.execNotifyRepeat port s
  | .sessionIdleClose port => Sys2Proof.Machine.execSessionIdleClose port s
  | .functionLevelReset f => Sys2Proof.Machine.execFunctionLevelReset f s
  | .perstN high => Sys2Proof.Machine.execPerstN high s
  | .frameEnd l => Sys2Proof.Machine.execFrameEnd l s
  | .ack l payload => Sys2Proof.Machine.execAck l payload s
  | .nak l payload => Sys2Proof.Machine.execNak l payload s
  | .link l payload => Sys2Proof.Machine.execLink l payload s
  | .trainReq l payload => Sys2Proof.Machine.execTrainReq l payload s
  | .trainSts l payload metric => Sys2Proof.Machine.execTrainSts l payload metric s
  | .trainReqResend l => Sys2Proof.Machine.execTrainReqResend l s
  | .trainTimeout l => Sys2Proof.Machine.execTrainTimeout l s
  | .ackRepeat l => Sys2Proof.Machine.execAckRepeat l s
  | .replayTimeout l => Sys2Proof.Machine.execReplayTimeout l s
  | .filler l => Sys2Proof.Machine.execFiller l s
  | .fillGap l => Sys2Proof.Machine.execFillGap l s
  | .blockReceived l hdr payload reads => Sys2Proof.Machine.execBlockReceived l hdr payload reads s
  | .huntTimeout l => Sys2Proof.Machine.execHuntTimeout l s
  | .signalDetected l => Sys2Proof.Machine.execSignalDetected l s
  | .laneBringupTimeout l => Sys2Proof.Machine.execLaneBringupTimeout l s
  | .retrainTimeout l => Sys2Proof.Machine.execRetrainTimeout l s
  | .laneFaultRetry l => Sys2Proof.Machine.execLaneFaultRetry l s
  | .eyeScanPoint l errors => Sys2Proof.Machine.execEyeScanPoint l errors s
  | .ethAlignLoss l => Sys2Proof.Machine.execEthAlignLoss l s
  | .ethFrameReceived l frame fec => Sys2Proof.Machine.execEthFrameReceived l frame fec s
  | .ingressSamplePacket l bytes => Sys2Proof.Machine.execIngressSamplePacket l bytes s
  | .ingressStatusPacket l bytes => Sys2Proof.Machine.execIngressStatusPacket l bytes s
  | .ingressJump k => Sys2Proof.Machine.execIngressJump k s
  | .egressFrameSend port => Sys2Proof.Machine.execEgressFrameSend port s
  | .egressStall fmt waitedMs => Sys2Proof.Machine.execEgressStall fmt waitedMs s
  | .sieveSlot k sl => Sys2Proof.Machine.execSieveSlot k sl s
  | .xfadeEnd k => Sys2Proof.Machine.execXfadeEnd k s
  | .frontEndSpanBoundary k => Sys2Proof.Machine.execFrontEndSpanBoundary k s
  | .nop e => Sys2Proof.Machine.execNop e s
  | .bf4 e => Sys2Proof.Machine.execBf4 e s
  | .bf2 e => Sys2Proof.Machine.execBf2 e s
  | .move e => Sys2Proof.Machine.execMove e s
  | .cmul e => Sys2Proof.Machine.execCmul e s
  | .load e => Sys2Proof.Machine.execLoad e s
  | .unload e => Sys2Proof.Machine.execUnload e s
  | .xfer e => Sys2Proof.Machine.execXfer e s
  | .loop e => Sys2Proof.Machine.execLoop e s
  | .jump e => Sys2Proof.Machine.execJump e s
  | .setreg e => Sys2Proof.Machine.execSetreg e s
  | .nullFrame e => Sys2Proof.Machine.execNullFrame e s
  | .assayFrame sl => Sys2Proof.Machine.execAssayFrame sl s
  | .gainCopyback k => Sys2Proof.Machine.execGainCopyback k s
  | .condemn k => Sys2Proof.Machine.execCondemn k s
  | .spanAvailable k => Sys2Proof.Machine.execSpanAvailable k s
  | .unitStaged k => Sys2Proof.Machine.execUnitStaged k s
  | .shelfEcc k site => Sys2Proof.Machine.execShelfEcc k site s
  | .jobStart t => Sys2Proof.Machine.execJobStart t s
  | .jobComputeDone t upsets => Sys2Proof.Machine.execJobComputeDone t upsets s
  | .jobCheck t => Sys2Proof.Machine.execJobCheck t s
  | .jobTimeout t => Sys2Proof.Machine.execJobTimeout t s
  | .tileClockLoss t => Sys2Proof.Machine.execTileClockLoss t s
  | .tileSelftestDone t pass => Sys2Proof.Machine.execTileSelftestDone t pass s
  | .spareSelftest t => Sys2Proof.Machine.execSpareSelftest t s
  | .loomSpanBoundary k => Sys2Proof.Machine.execLoomSpanBoundary k s
  | .spanStart k => Sys2Proof.Machine.execSpanStart k s
  | .ledgerSetComplete k => Sys2Proof.Machine.execLedgerSetComplete k s
  | .ledgerEcc k site => Sys2Proof.Machine.execLedgerEcc k site s
  | .beamJobStart t failAt => Sys2Proof.Machine.execBeamJobStart t failAt s
  | .beamUnitComplete k => Sys2Proof.Machine.execBeamUnitComplete k s
  | .beamCursorPacket fmt => Sys2Proof.Machine.execBeamCursorPacket fmt s
  | .granaryAccess src op addr rd => Sys2Proof.Machine.execGranaryAccess src op addr rd s
  | .srIdle c => Sys2Proof.Machine.execSrIdle c s
  | .srExit c sinceSreNs => Sys2Proof.Machine.execSrExit c sinceSreNs s
  | .refreshRateRead c rate temp => Sys2Proof.Machine.execRefreshRateRead c rate temp s
  | .zqCalibration => Sys2Proof.Machine.execZqCalibration s
  | .granaryTrainingDone q failed => Sys2Proof.Machine.execGranaryTrainingDone q failed s
  | .zeroFillDone q => Sys2Proof.Machine.execZeroFillDone q s
  | .clkMeasure a b c => Sys2Proof.Machine.execClkMeasure a b c s
  | .refCyclesMissing src => Sys2Proof.Machine.execRefCyclesMissing src s
  | .clkSwitch phasePs => Sys2Proof.Machine.execClkSwitch phasePs s
  | .tick n => Sys2Proof.Machine.execTick n s
  | .slewEnd => Sys2Proof.Machine.execSlewEnd s
  | .timeFreeRun => Sys2Proof.Machine.execTimeFreeRun s
  | .beat r => Sys2Proof.Machine.execBeat r s
  | .timerFire t => Sys2Proof.Machine.execTimerFire t s
  | .ppsOut => Sys2Proof.Machine.execPpsOut s
  | .edgeCapture src quarterNs => Sys2Proof.Machine.execEdgeCapture src quarterNs s
  | .mgmtFrameReceived port frame residence => Sys2Proof.Machine.execMgmtFrameReceived port frame residence s
  | .delayReq => Sys2Proof.Machine.execDelayReq s
  | .exchangeBurst burst => Sys2Proof.Machine.execExchangeBurst burst s
  | .bridgeTimeout burst => Sys2Proof.Machine.execBridgeTimeout burst s
  | .lockBreak => Sys2Proof.Machine.execLockBreak s
  | .masterReset m inFlight => Sys2Proof.Machine.execMasterReset m inFlight s
  | .drayTrigger c line => Sys2Proof.Machine.execDrayTrigger c line s
  | .descriptorStart c => Sys2Proof.Machine.execDescriptorStart c s
  | .descriptorComplete c => Sys2Proof.Machine.execDescriptorComplete c s
  | .tallyEvent src detail sub => Sys2Proof.Machine.execTallyEvent src detail sub s
  | .graceExpiry src => Sys2Proof.Machine.execGraceExpiry src s
  | .quietPeriod src => Sys2Proof.Machine.execQuietPeriod src s
  | .autoClear src detail => Sys2Proof.Machine.execAutoClear src detail s
  | .foremanWdog core => Sys2Proof.Machine.execForemanWdog core s
  | .supplyEventBegin v10mV bank10mV => Sys2Proof.Machine.execSupplyEventBegin v10mV bank10mV s
  | .supplyTransient extreme10mV => Sys2Proof.Machine.execSupplyTransient extreme10mV s
  | .swellIsolate v10mV => Sys2Proof.Machine.execSwellIsolate v10mV s
  | .supplyEventEnd v10mV bank10mV => Sys2Proof.Machine.execSupplyEventEnd v10mV bank10mV s
  | .rideEnd bank10mV => Sys2Proof.Machine.execRideEnd bank10mV s
  | .supplyLoss v10mV bank10mV => Sys2Proof.Machine.execSupplyLoss v10mV bank10mV s
  | .autoRestart v10mV => Sys2Proof.Machine.execAutoRestart v10mV s
  | .bankTest uF bank10mV => Sys2Proof.Machine.execBankTest uF bank10mV s
  | .railFault rail => Sys2Proof.Machine.execRailFault rail s
  | .railSeq => Sys2Proof.Machine.execRailSeq s
  | .seqStep met => Sys2Proof.Machine.execSeqStep met s
  | .islandPowerDone k => Sys2Proof.Machine.execIslandPowerDone k s
  | .islandGate k => Sys2Proof.Machine.execIslandGate k s
  | .cableOvercurrent o => Sys2Proof.Machine.execCableOvercurrent o s
  | .thermalCrit k tj dram forMs => Sys2Proof.Machine.execThermalCrit k tj dram forMs s
  | .resetN lowUs => Sys2Proof.Machine.execResetN lowUs s
  | .powerUp straps v10mV => Sys2Proof.Machine.execPowerUp straps v10mV s
  | .rollCallStep r => Sys2Proof.Machine.execRollCallStep r s
  | .i2cWrite bytes => Sys2Proof.Machine.execI2cWrite bytes s
  | .i2cRead count => Sys2Proof.Machine.execI2cRead count s
  | .dropout v10mV bank10mV => Sys2Proof.Machine.execDropout v10mV bank10mV s
  | .pcieLinkDown f => Sys2Proof.Machine.execPcieLinkDown f s
  | .pcieLinkUp f => Sys2Proof.Machine.execPcieLinkUp f s
  | .mgmtBlockLock port => Sys2Proof.Machine.execMgmtBlockLock port s
  | .mgmtBlockLockLoss port => Sys2Proof.Machine.execMgmtBlockLockLoss port s
  | .remoteFault l on => Sys2Proof.Machine.execRemoteFault l on s
  | .ethPcsAligned l => Sys2Proof.Machine.execEthPcsAligned l s
  | .ethTrainDone l ok => Sys2Proof.Machine.execEthTrainDone l ok s
  | .cblPresentN o high => Sys2Proof.Machine.execCblPresentN o high s
  | .busMasterEnable f => Sys2Proof.Machine.execBusMasterEnable f s
  | .msixUnmask f vec => Sys2Proof.Machine.execMsixUnmask f vec s

end Sys2Proof.Machine
end

