-- ==== Sys2Proof/Safety.lean ====
section
/-! DEFINITION. What a safe run is, and the words in which statements speak of commands: the state in which a command
packet is taken, the state after its reply, and what a step left as it was. -/

namespace Sys2Proof

/-- The step from a state answers a next state. -/
def Safe (s : Machine.State) : Prop := ∃ t, Machine.step s = .next t

/-- No step of the first `k` from a state stops. -/
def SafeFor : Nat → Machine.State → Prop
  | 0, _ => True
  | k + 1, s => ∃ t, Machine.step s = .next t ∧ SafeFor k t

/-- A packet of `n` words that sets no flag but the ones its opcode uses (R333), whose command meets no fault of the hardware or
the firmware (R336, R356, R382; log entry 79). -/
def Packet.sized (p : Packet) (n : Nat) (used : BitVec 8 := 0) : Prop :=
  p.len = n ∧ p.badFlags used = false ∧ p.meets = .nothing

namespace Machine

/-- A command packet reaches bench `b` and the Foreman takes it at once (R310, R314; log entry 68). -/
def State.ready (s : State) (b : BenchId) : Prop := s.reaches b = true ∧ s.free b = true

/-- The module as the command that bench `b` hands over finds it: posted, taken, and the bench's turn served (R310, R314). -/
def State.handed (s : State) (b : BenchId) : State := (s.posted b).taken b

/-- The module once a command has acted and its reply has gone out; commands that waited are then taken (R310, R314). -/
def State.replied (b : BenchId) (op : BitVec 8) (p : Packet) (r : State × Reply) : State :=
  (State.answered b op p.tag true (atOnce r)).serve

/-- The module once a command has begun whose reply waits for its end (R176, R355). -/
def State.begun (b : BenchId) (op : BitVec 8) (p : Packet) (t : State) : State :=
  (State.answered b op p.tag true (t, none)).serve

/-- Every byte of memory reads as before. -/
def State.sameMemory (s t : State) : Prop := ∀ a, t.mem.byte a = s.mem.byte a

/-- Nothing changed but the lanes and what left the module. -/
def State.onlyLanes (s t : State) : Prop := t = { s with lane := t.lane, out := t.out }

/-- Nothing changed but the lanes, the Tally and the benches it tells, and what left the module. -/
def State.onlyLanesTally (s t : State) : Prop :=
  t = { s with lane := t.lane, out := t.out, tally := t.tally, bench := t.bench }

/-- Nothing changed but the Tally and the benches it tells, and what left the module. -/
def State.onlyTally (s t : State) : Prop := t = { s with out := t.out, tally := t.tally, bench := t.bench }

/-- Nothing changed but one engine of the Mill and the count of free values drawn. -/
def State.onlyEngine (s : State) (e : EngineId) (t : State) : Prop :=
  (∀ d, d ≠ e → t.engine d = s.engine d) ∧ t = { s with front := { s.front with engines := t.front.engines }, freeCount := t.freeCount }

end Machine
end Sys2Proof
end

