-- ==== Sys2Proof/Certificates/Slice0/Obligations.lean ====
section
/-! DEFINITION. The statements for the provers: what a step does with the queue, what every command and event does where it
acts and what it leaves alone, and the invariants that every step keeps. -/

open Sys2Proof Sys2Proof.Machine

/-! ### The step, reset and the invariant -/

/-- A step takes the command at the front of the queue and runs it with the queue's rest; with nothing waiting the module
stays as it is (the block's queue: the model's own, log entry 2). -/
def Obligations.StepRunsFrontCommand : Prop :=
  (∀ (c : Instr) (s : State), step { s with pending := c :: s.pending } = exec c s) ∧
  (∀ s : State, s.pending = [] → step s = .next s)

/-! ### Sessions and leases (chapter 12) -/

/-- HELLO on a PCI Express bench, and HELLO that opens a session on a management port (R324): the reply gives the new
SESSION_ID, the Bulk window's size with the bench number, and FW_VERSION. A new SESSION_ID is nonzero and has not been used
since the always-on island powered up (R324), while a word is left. -/
def Obligations.HelloOpensASession : Prop :=
  (∀ (s : State) (b : BenchId) (slot : Fin 8) (p : Packet), s.ready b → b.val < 2 → p.sized 2 1 →
    let u := s.handed b
    let t := (if (u.benchOf b).stat.isOpen then u.closeSession b else u).openSession b 0
    exec (.hello b slot p) s =
        .next (State.replied b 0x01 p
          (t, Reply.ok [(t.benchOf b).stat.sessionId, BitVec.ofNat 32 (1024 + 65536 * b.val), t.start.fwVersion])) ∧
      (t.benchOf b).stat.isOpen = true) ∧
  (∀ (s : State) (b : BenchId) (slot : Fin 8) (p : Packet), s.bench.serving = true → 2 ≤ b.val →
    s.bench.keys[slot].isEmpty = false → (s.benchOf b).stat.isOpen = false → p.sized 2 1 →
    ∃ (u : State) (id : Word),
      exec (.hello b slot p) s =
        .next (State.answered b 0x01 p.tag true
          (u, some (Reply.ok [id, BitVec.ofNat 32 (1024 + 65536 * b.val), s.start.fwVersion]))) ∧
      (u.benchOf b).stat.isOpen = true ∧ (u.benchOf b).stat.keySlot.toNat = slot.val ∧ (u.benchOf b).stat.sessionId = id ∧
      (u.benchOf b).stat.postTail = 1 ∧ (u.benchOf b).stat.postHead = 1 ∧ u.bench.keySeq[slot] = s.bench.keySeq[slot] + 1) ∧
  (∀ (s : State) (b : BenchId) (slot : Fin 8), s.bench.usedIds.length + 2 < 2 ^ 32 →
     let id := ((s.openSession b slot).benchOf b).stat.sessionId
     id ≠ 0 ∧ id ∉ s.bench.usedIds ∧ (s.openSession b slot).bench.usedIds = id :: s.bench.usedIds)

/-- LEASE, RELEASE and HEARTBEAT (R326, R327): a class that no other bench holds and the key allows is granted with its
timeout; RELEASE ends one lease or all of them; HEARTBEAT renews every lease and returns word 0 of BNCH_LEASES. A granted
lease is held by the bench that asked, and by no other bench for an exclusive class; the other classes and sub-arrays keep
their holders (Table 12-8, R325). -/
def Obligations.LeaseCommandsComplete : Prop :=
  (∀ (s : State) (b : BenchId) (p : Packet), s.ready b →
     let u := s.handed b
     let cls := p.bits 2 0 3
     let i := p.sub 2 4
     (p.sized 3 → p.stray 2 0xFC00FFC8 = false → classOk p = true → 1 ≤ p.bits 2 16 10 → p.bits 2 16 10 ≤ 600 →
       (∀ c, u.leaseHolder cls i = some c → c = b) → u.keyMay b cls = true → (u.start.recovery = false ∨ cls = 5) →
       exec (.lease b p) s =
         .next (State.replied b 0x02 p
           ((((u.setHolder b cls i true).onBench b fun x => { x with timeoutS := BitVec.ofNat 16 (p.bits 2 16 10) }).renew b),
             Reply.ok))) ∧
     (p.sized 3 → p.stray 2 0xFFFFFEC8 = false → p.bit 2 8 = false → classOk p = true →
       exec (.release b p) s = .next (State.replied b 0x03 p (u.dropLease b cls i, Reply.ok))) ∧
     (p.sized 3 → p.w 2 = 0x100 → exec (.release b p) s = .next (State.replied b 0x03 p (u.dropLeases b, Reply.ok))) ∧
     (p.sized 2 → exec (.heartbeat b p) s =
       .next (State.replied b 0x04 p
         ((u.onBench b fun x => { x with lastHb := u.now, warned := false }), Reply.ok (u.leaseWords.take 1))))) ∧
  (∀ (s : State) (b c : BenchId) (i j : SubId) (k : Nat), 1 ≤ k → k ≤ 5 →
     let t := s.setHolder b k i true
     t.holdsClass b k i = true ∧
     (k ≠ 2 → c ≠ b → t.holdsClass c k i = false) ∧
     (∀ m, 1 ≤ m → m ≤ 5 → m ≠ k → t.holdsClass c m j = s.holdsClass c m j) ∧
     (k = 1 → j ≠ i → t.holdsClass c 1 j = s.holdsClass c 1 j) ∧ s.sameMemory t)

/-! ### Commands on time, lanes, the Tally, modes and tiles (chapters 02, 07, 11, 13, 15, 16) -/

/-- TIME_GET, TIME_INCREMENT, TIME_STEP, TIMER_SET and CAPTURE_GET (R281, R283, R291, R294, Table 13-12). What TIME_INCREMENT
and TIME_STEP leave in the Timekeeper (R281, R283, R289): the base increment or the slew, and the new time with its step
counted, the beat schedule taken up at the first beat at or after it. -/
def Obligations.TimeCommandsComplete : Prop :=
  (∀ (s : State) (b : BenchId) (p : Packet), s.ready b →
     let u := s.handed b
     (p.sized 2 → u.holdsAny b = true →
       exec (.timeGet b p) s =
         .next (State.replied b 0x50 p (u, Reply.ok (timeWords u.time16 ++ [putAt u.time.stat.state 0 ||| putAt u.clock.stat.state 2])))) ∧
     (∀ inc, p.sized 6 → u.holdsTime b = true → p.stray 3 0xFFFFFF00 = false → p.stray 5 0xFFFF0000 = false →
       inc = (p.w 2).toNat + p.bits 3 0 8 * 2 ^ 32 → 0x03FF7CED92 ≤ inc → inc ≤ 0x040083126E →
       exec (.timeIncrement b p) s = .next (State.replied b 0x51 p (u.setIncrement inc (p.long 4), Reply.ok))) ∧
     (∀ off, p.sized 5 0x20 → u.holdsTime b = true → (∀ i, u.active i = false) → p.bits 4 0 30 ≤ 999999999 →
       p.stray 4 0x40000000 = false → off = time16Of ((p.w 2).toNat + p.bits 3 0 16 * 2 ^ 32) (p.bits 4 0 30) (p.bits 3 16 16) * 2 ^ 16 →
       (p.flag 5 = false → p.stray 4 0x80000000 = false →
         exec (.timeStep b p) s = .next (State.replied b 0x52 p (u.stepTime off, Reply.ok))) ∧
       (p.flag 5 = true → p.stray 3 0x8000 = false → p.bit 4 31 = false →
         exec (.timeStep b p) s = .next (State.replied b 0x52 p (u.stepTime ((u.time.tk + off) % wrap32tk), Reply.ok))) ∧
       (p.flag 5 = true → p.stray 3 0x8000 = false → p.bit 4 31 = true →
         exec (.timeStep b p) s = .next (State.replied b 0x52 p (u.stepTime ((u.time.tk + wrap32tk - off) % wrap32tk), Reply.ok)))) ∧
     (∀ t : TimerId, p.sized 9 → t.val = p.bits 2 0 3 → t ≠ 0 → u.holdsTime b = true →
       (p.bits 2 4 3 = 0 ∨ u.badTimer p = false) →
       ((p.bits 2 4 3 = 3 ∨ p.bits 2 4 3 = 4) → 3 < p.bits 2 8 8 ∨ u.holdsObs b (p.sub 2 8) = true) →
       exec (.timerSet b p) s =
         .next (State.replied b 0x53 p
           (u.setTimer t (BitVec.ofNat 3 (p.bits 2 4 3)) (BitVec.ofNat 8 (p.bits 2 8 8)) (BitVec.ofNat 16 (p.bits 2 16 16))
             (p.time 3) (BitVec.ofNat 48 (p.long 6)) (p.w 8), Reply.ok))) ∧
     (p.sized 3 → u.holdsTime b = true → p.stray 2 0xFFFFE0FC = false → 1 ≤ p.bits 2 8 5 → p.bits 2 8 5 ≤ 16 →
       let q := u.time.captures[(p.sub : Fin 4)]
       let n := p.bits 2 8 5
       exec (.captureGet b p) s =
         .next (State.replied b 0x54 p
           ({ u with time := { u.time with captures := vset u.time.captures (p.sub : Fin 4) (q.drop n) } },
             { status := stOk, detail := BitVec.ofNat 32 ((q.take n).length + 256 * (q.drop n).length)
               results := (q.take n).flatMap Capture.words })))) ∧
  (∀ (s : State) (inc ticks : Nat),
    let t := s.setIncrement inc ticks
    t.time.tk = s.time.tk ∧ t.time.lastInc = some s.now ∧
    (ticks = 0 → t.time.incBase = inc ∧ t.time.slewLeft = 0 ∧ t.time.stat.slewing = false) ∧
    (ticks ≠ 0 → t.time.incBase = s.time.incBase ∧ t.time.slewInc = inc ∧ t.time.slewLeft = ticks ∧ t.time.stat.slewing = true) ∧
    t = { s with time := t.time } ∧ s.sameMemory t) ∧
  (∀ (s : State) (tk : Nat), tk ≤ s.time.tk →
    let t := s.stepTime tk
    t.time.tk = tk ∧ t.time.nextBeat = some (beatFrom (tk / 2 ^ 16)) ∧ t.time.stat.steps = s.time.stat.steps + 1 ∧
    t.time.stat.stepSeen = true ∧ (s.time.stat.state = 0 → t.time.stat.state ≠ 0) ∧ t.time.timers = s.time.timers ∧
    s.sameMemory t)

/-- LANE_SET, LANE_TRAIN, EYE_SCAN, LANE_STATS and OCTET_SET (R27, R53, R55, R56, R60, Table 13-12). -/
def Obligations.LaneCommandsComplete : Prop :=
  ∀ (s : State) (b : BenchId) (p : Packet), s.ready b →
    let u := s.handed b
    let o := p.octet
    let l := p.lane
    (p.sized 7 → u.octetLease b o = true → u.start.recovery = false → (p.bit 4 23 = true → u.mode = modeWorkshop) →
      p.stray 2 0xFFFFFFF0 = false → p.stray 3 0x80 = false → p.stray 4 0xFE000000 = false → p.bit 3 0 = (u.octet o).cfg.enable →
      p.bit 3 1 = (u.octet o).cfg.dir → p.bit 3 2 = (u.octet o).cfg.pers → p.bits 3 3 3 = (u.octet o).cfg.ethLayout.toNat →
      p.bits 4 16 4 ≠ 0 → p.bits 4 20 3 ≤ 5 → (u.octet o).change = none →
      exec (.laneSet b p) s = .next (State.replied b 0x60 p (u.setLanes o (laneSettings p (u.octet o).cfg), Reply.ok))) ∧
    (p.sized 3 → u.octetLease b (octetOf l) = true → p.stray 2 0xFFFFFC80 = false → (u.laneOf l).st ≠ lsOff →
      (p.bit 2 8 = true ∨ (u.laneOf l).st = lsUp) → p.bit 2 9 = false →
      exec (.laneTrain b p) s =
        .next (State.replied b 0x61 p (if p.bit 2 8 then u.trainLane l else u.retrainLane l, Reply.ok))) ∧
    (p.sized 3 → u.octetLease b (octetOf l) = true → p.stray 2 0xFFFFFC80 = false → (u.laneOf l).st ≠ lsOff →
      (p.bit 2 8 = true ∨ (u.laneOf l).st = lsUp) → p.bit 2 9 = true →
      exec (.laneTrain b p) s =
        .next (State.replied b 0x61 p
          ((allFin 8).foldl (fun (t : State) n => t.trainAsked (p.bit 2 8) (laneAt (octetOf l) n)) u, Reply.ok))) ∧
    (∀ (hs vs : List Int), p.sized 5 → u.holdsAny b = true →
      hs = eyeAxis (signedOf 8 (p.bits 3 0 8)) (signedOf 8 (p.bits 3 8 8)) (p.bits 3 16 8) →
      vs = eyeAxis (signedOf 8 (p.bits 4 0 8)) (signedOf 8 (p.bits 4 8 8)) (p.bits 4 16 8) →
      p.stray 2 0xFFE0FC80 = false → p.stray 3 0xFF000000 = false → p.stray 4 0xFF000000 = false → p.bits 2 8 2 ≠ 3 →
      20 ≤ p.bits 2 16 5 → hs.length * vs.length ≠ 0 → hs.length * vs.length ≤ 4096 →
      -32 ≤ signedOf 8 (p.bits 3 0 8) → signedOf 8 (p.bits 3 0 8) ≤ 31 → -32 ≤ signedOf 8 (p.bits 3 8 8) →
      signedOf 8 (p.bits 3 8 8) ≤ 31 → -127 ≤ signedOf 8 (p.bits 4 0 8) → -127 ≤ signedOf 8 (p.bits 4 8 8) →
      ((u.laneOf l).st = lsUp ∨ (u.laneOf l).st = lsSync) → (u.laneOf l).eye.status ≠ 1 →
      ∃ e : LaneEye,
        exec (.eyeScan b p) s =
          .next (State.replied b 0x62 p
            ((u.onLane l fun y => { y with eye := e, eyePts := [], eyeLeft := hs.flatMap fun h => vs.map fun v => (h, v) }),
              { status := stOk, detail := BitVec.ofNat 32 (hs.length * vs.length) })) ∧
        e.status = 1 ∧ e.pointsDone = 0 ∧ e.pointsTotal = BitVec.ofNat 16 (hs.length * vs.length) ∧
        e.lane = BitVec.ofNat 7 l.val ∧ e.eye = BitVec.ofNat 2 (p.bits 2 8 2)) ∧
    (p.sized 3 → u.holdsAny b = true → p.stray 2 0xFFFFFFF0 = false →
      exec (.laneStats b p) s =
        .next (State.replied b 0x63 p
          (u, Reply.ok (timeWords u.time16 ++ (allFin 8).flatMap fun n =>
            (u.laneOf (laneAt o n)).stat.words ++ (u.laneOf (laneAt o n)).cnt.words)))) ∧
    (p.sized 3 → u.octetLease b o = true → u.start.recovery = false → p.stray 2 0xFFFFFC00 = false → p.bits 2 7 3 ≤ 3 →
      (u.octet o).change = none →
      let waits := (u.octetSubs o).filter fun i => u.active i
      let c : OctetChange := ⟨p.bit 2 4, p.bit 2 5, p.bit 2 6, BitVec.ofNat 3 (p.bits 2 7 3), waits⟩
      exec (.octetSet b p) s =
        .next (State.replied b 0x93 p
          (if waits = [] then (u.applyOctet o c, Reply.ok)
           else (u.onOctet o fun x => { x with change := some c }, Reply.plain stAccepted))))

/-- TALLY_GET, TALLY_CLEAR and TALLY_CONFIG (R391, R401, R402). A cleared source is QUIET: no stamps, no grace timer, no step
and no HOLD; RECOVERIES counts a recovery and not a clearing, and EVENTS, the last event and the escalations stay; an event of
the same millisecond is counted after the clear and starts a new window (R391). -/
def Obligations.TallyCommandsComplete : Prop :=
  (∀ (s : State) (b : BenchId) (p : Packet), s.ready b →
     let u := s.handed b
     (p.sized 3 → u.holdsAny b = true → p.stray 2 0xFFFF0000 = false → 8 * p.bits 2 8 8 ≤ 1021 →
       exec (.tallyGet b p) s =
         .next (State.replied b 0x80 p
           (u, Reply.ok ((((allFin 256).drop (p.bits 2 0 8)).take (p.bits 2 8 8)).flatMap fun i => u.talySrcWords i)))) ∧
     (p.sized 3 → u.holdsObsWork b = true → p.stray 2 0xFFFFFE00 = false → p.bit 2 8 = false → assignedSource p.source.val = true →
       exec (.tallyClear b p) s =
         .next (State.replied b 0x81 p
           (if (u.source p.source).shownState u.monoMs = 0 then u else u.clearTo p.source false, Reply.ok))) ∧
     (p.sized 3 → u.holdsObsWork b = true → p.stray 2 0xFFFFFE00 = false → p.bit 2 8 = true →
       exec (.tallyClear b p) s =
         .next (State.replied b 0x81 p ((allFin 256).foldl (fun (t : State) i => t.clearSource i) u, Reply.ok))) ∧
     (∀ c : TalyCfg, p.sized 7 → u.holdsObsWork b = true → p.stray 2 0xFFFFFF00 = false → p.stray 3 0xFF00FC00 = false →
       p.stray 5 0xE0F80000 = false → p.w 6 = 0 → c = talyEntry (fun k => p.w (3 + k)) → c.source.toNat = p.source.val → c.bad = false →
       exec (.tallyConfig b p) s =
         .next (State.replied b 0x82 p ((u.onSource p.source fun x => { x with cfg := c }), Reply.ok)))) ∧
  (∀ (s : State) (i : SourceId) (r : Bool),
    let x := s.source i
    let again := x.stamps.filter fun k => k == s.monoMs
    let t := s.clearTo i r
    (again = [] → t = s.onSource i fun y => y.quieted r) ∧
    (again ≠ [] → x.cfg.windowMs ≠ 0 →
      (t.source i).stamps = again ∧ (t.source i).reg.events = x.reg.events ∧ (t.source i).cfg = x.cfg ∧
      (t.source i).reg.state = (if x.cfg.enable = true ∧ x.cfg.threshold.toNat ≤ again.length then 2 else 1)) ∧
    (∀ j, j ≠ i → t.source j = s.source j)) ∧
  (∀ (x : TallySource) (r : Bool),
    let y := x.quieted r
    y.reg.state = 0 ∧ y.stamps = [] ∧ y.grace = none ∧ y.reg.step = 0 ∧ y.reg.held = false ∧ y.reg.events = x.reg.events ∧
    y.reg.lastDetail = x.reg.lastDetail ∧ y.reg.escalations = x.reg.escalations ∧ y.cfg = x.cfg ∧
    (∀ m, y.shownState m = 0) ∧ (r = false → y.reg.recoveries = x.reg.recoveries) ∧
    (r = true → y.reg.recoveries.toNat = min (x.reg.recoveries.toNat + 1) (2 ^ 16 - 1)))

/-- MODE_REQUEST, TILE_RETIRE and TILE_RESTORE (R176, R355, Table 16-9). -/
def Obligations.ModeAndTileCommandsComplete : Prop :=
  ∀ (s : State) (b : BenchId) (p : Packet), s.ready b → p.sized 3 →
    let u := s.handed b
    let m := p.bits 2 0 4
    (p.stray 2 0xFFFFFFF0 = false → m < 8 → u.modeLease b m = true → u.modeAllowed m = true → u.bell.running = none →
      (m = 6 → exec (.modeRequest b p) s = .next (State.replied b 0x90 p (u.requestHold, Reply.ok))) ∧
      (m ≠ 6 → u.mode = modeStandby →
        exec (.modeRequest b p) s =
          .next (State.begun b 0x90 p
            (u.beginSeq 4 (.mode (BitVec.ofNat 4 m) (some b))))) ∧
      (m = 1 → u.mode = modeProvision ∨ u.mode = modeWorkshop →
        exec (.modeRequest b p) s =
          .next (State.begun b 0x90 p
            (u.beginSeq 5 (.mode 1 (some b))))) ∧
      (m = 7 → u.mode = modeProvision →
        exec (.modeRequest b p) s = .next (State.replied b 0x90 p (u.setMode modeWorkshop, Reply.ok))) ∧
      (m = 2 → u.mode = modeHold →
        exec (.modeRequest b p) s = .next (State.replied b 0x90 p ((u.runNow 4).setMode u.subMode, Reply.ok))) ∧
      (m = 1 ∨ m = 7 → u.mode = modeHold →
        exec (.modeRequest b p) s =
          .next (State.replied b 0x90 p
            ((((allFin 4).foldl (fun (t : State) i => t.stopNow i) u).runNow (if m = 1 then 5 else 4)).setMode (BitVec.ofNat 4 m),
              Reply.ok)))) ∧
    (∀ k : TileId, p.tile = some k → p.stray 2 0xFFFFFFC0 = false → u.tileLease b (some k) = true → u.start.recovery = false →
      ((u.tile k).reg.state ≠ tsRetired → ¬ ((u.tile k).reg.state = tsTesting ∧ (u.tile k).test = .restore) →
        (u.tile k).retire = false →
        ∃ v n, u.askRetire k = (v, n) ∧
          exec (.tileRetire b p) s = .next (State.replied b 0x91 p (v, Reply.plain (if n = 0 then stOk else stAccepted)))) ∧
      ((u.tile k).reg.state = tsRetired →
        exec (.tileRestore b p) s =
          .next (State.begun b 0x92 p ((u.askIsland (tileIsland k) true).onTile k fun x =>
            { x with test := .restore, asked := some (b, p.tag), reg := { x.reg with state := tsTesting } }))))

/-! ### The windows, links and datagrams of a bench (chapter 12) -/

/-- What the host of a PCI Express function writes (R310, R311, R317): packets join the Post ring and commands are taken, or a
protocol error is recorded; Reply slots are freed; interrupt bits are enabled and cleared. -/
def Obligations.HostWindowWrites : Prop :=
  ∀ (s : State) (f : FuncId), s.mapped = true →
    let b := funcBench f
    let x := s.benchOf b
    (∀ value packets, x.post.length ≤ (value - x.stat.postHead).toNat → (value - x.stat.postHead).toNat ≤ 16 →
      packets.length = (value - x.stat.postHead).toNat - x.post.length →
      exec (.postTailWrite f value packets) s =
        .next ((s.onBench b fun y => { y with post := y.post ++ packets, stat := { y.stat with postTail := value } }).serve)) ∧
    (∀ value packets, 16 < (value - x.stat.postHead).toNat →
      ∃ t, exec (.postTailWrite f value packets) s = .next t ∧ (t.benchOf b).stat.protoCode = 1 ∧
        (t.benchOf b).post = x.post ∧ (t.benchOf b).stat.postTail = x.stat.postTail ∧
        (t.benchOf b).stat.irqStatus.getLsbD 5 = true ∧ t = { s with bench := t.bench, out := t.out } ∧ s.sameMemory t) ∧
    (∀ value, (value - x.stat.replyHead).toNat ≤ x.replies.length →
      exec (.replyHeadWrite f value) s =
        .next ((s.onBench b fun y =>
          { y with replies := y.replies.drop (value - x.stat.replyHead).toNat, stat := { y.stat with replyHead := value } }).serve)) ∧
    (∀ value, x.replies.length < (value - x.stat.replyHead).toNat →
      ∃ t, exec (.replyHeadWrite f value) s = .next t ∧ (t.benchOf b).stat.protoCode = 2 ∧
        (t.benchOf b).stat.replyHead = x.stat.replyHead ∧ t = { s with bench := t.bench, out := t.out } ∧ s.sameMemory t) ∧
    (∀ value, ∃ t, exec (.irqEnableWrite f value) s = .next t ∧ (t.benchOf b).stat.irqEnable = value ∧
      (t.benchOf b).stat.irqStatus = x.stat.irqStatus ∧ t = { s with bench := t.bench, out := t.out } ∧ s.sameMemory t) ∧
    (∀ value, ∃ t, exec (.irqStatusClear f value) s = .next t ∧ (t.benchOf b).stat.irqStatus = x.stat.irqStatus &&& ~~~value ∧
      t.bench.funcs[f].pba = s.bench.funcs[f].pba &&& ~~~(value.setWidth 16) ∧ t = { s with bench := t.bench } ∧ s.sameMemory t)

/-- An interrupt bit that becomes set while enabled sends its MSI-X message where the function may, and otherwise is held
pending; a bit already set sends nothing (R308, R317). Resets and links (R306, R308, R323, R447): a function level reset and
PERST_N low close sessions; a link that goes down leaves them open; pending messages leave once they may. -/
def Obligations.InterruptsFunctionsAndLinks : Prop :=
  (∀ (s : State) (f : FuncId) (n : Fin 6),
     let b := funcBench f
     let v : Fin 16 := ⟨n.val, by omega⟩
     ((s.benchOf b).stat.irqStatus.getLsbD n.val = true → s.setIrq b n = s) ∧
     ((s.benchOf b).stat.irqStatus.getLsbD n.val = false →
       ((s.setIrq b n).benchOf b).stat.irqStatus = (s.benchOf b).stat.irqStatus ||| (1 <<< n.val) ∧
       ((s.benchOf b).stat.irqEnable.getLsbD n.val = false → (s.setIrq b n).out = s.out) ∧
       ((s.benchOf b).stat.irqEnable.getLsbD n.val = true →
         ((s.bench.funcs[f].busMaster = true ∧ s.bench.funcs[f].masked.getLsbD n.val = false ∧ (s.benchOf b).stat.linkUp = true) →
           (s.setIrq b n).out = s.out ++ [.msix f v]) ∧
         ((s.bench.funcs[f].busMaster = false ∨ s.bench.funcs[f].masked.getLsbD n.val = true ∨ (s.benchOf b).stat.linkUp = false) →
           (s.setIrq b n).out = s.out ∧ (s.setIrq b n).bench.funcs[f].pba.getLsbD n.val = true))) ∧
     s.setIrq b n = { s with bench := (s.setIrq b n).bench, out := (s.setIrq b n).out }) ∧
  (∀ (s : State) (f : FuncId),
     (s.mapped = true →
       ∃ t : State, exec (.functionLevelReset f) s = .next t.serve ∧ (t.benchOf (funcBench f)).stat.isOpen = false ∧
         (t.benchOf (funcBench f)).post = [] ∧ (t.benchOf (funcBench f)).replies = [] ∧ t.bench.funcs[f] = {}) ∧
     (exec (.perstN true) s = .next { s with bench := { s.bench with perstHigh := true } }) ∧
     (s.bench.perstHigh = true → s.running = true →
       ∃ t : State, exec (.perstN false) s = .next t.serve ∧ t.bench.perstHigh = false ∧ (t.benchOf 0).stat.isOpen = false ∧
         (t.benchOf 1).stat.isOpen = false ∧ (t.benchOf 0).stat.linkUp = false ∧ (t.benchOf 1).stat.linkUp = false) ∧
     (∃ t, exec (.pcieLinkDown f) s = .next t ∧ (t.benchOf (funcBench f)).stat.linkUp = false ∧
       (t.benchOf (funcBench f)).stat.isOpen = (s.benchOf (funcBench f)).stat.isOpen ∧ t = { s with bench := t.bench } ∧ s.sameMemory t) ∧
     (s.mapped = true → s.islandOn 71 = true →
       ∃ t, exec (.pcieLinkUp f) s = .next t ∧ (t.benchOf (funcBench f)).stat.linkUp = true ∧
         t = { s with bench := t.bench, out := t.out } ∧ s.sameMemory t) ∧
     (s.mapped = true → (s.benchOf (funcBench f)).stat.linkUp = true →
       ∃ t, exec (.busMasterEnable f) s = .next t ∧ t.bench.funcs[f].busMaster = true ∧
         t.out = s.out ++ (((allFin 16).filter fun v =>
           s.bench.funcs[f].pba.getLsbD v.val && !s.bench.funcs[f].masked.getLsbD v.val).map fun v => Output.msix f v) ∧
         t.bench.funcs[f].pba = s.bench.funcs[f].pba &&& s.bench.funcs[f].masked ∧
         t = { s with bench := t.bench, out := t.out } ∧ s.sameMemory t) ∧
     (∀ v : Fin 16, s.mapped = true → s.bench.funcs[f].busMaster = true → (s.benchOf (funcBench f)).stat.linkUp = true →
       ∃ t, exec (.msixUnmask f v) s = .next t ∧ t.bench.funcs[f].masked.getLsbD v.val = false ∧
         (s.bench.funcs[f].pba.getLsbD v.val = true → Output.msix f v ∈ t.out) ∧ t.bench.funcs[f].pba.getLsbD v.val = false ∧
         t = { s with bench := t.bench, out := t.out } ∧ s.sameMemory t))

/-- Management ports (R273, R295 to R298, R444): LINK_UP follows block lock, and on port A so does the presence of REC_A; a bench
datagram goes to its bench, a PTP frame of the port's own is captured where it may be and consumed, and every other frame goes on
to the other port; a Delay_Req leaves once an interval, over what the last captured Sync used. -/
def Obligations.ManagementPortEvents : Prop :=
  (∀ (s : State) (port : PortId), s.bell.alive = true →
    (∃ t, exec (.mgmtBlockLock port) s = .next t ∧ (t.benchOf (portBench port)).stat.linkUp = true ∧
      (port = 0 → (s.refOf 2).qstate = qsAbsent → (t.refOf 2).qstate = qsQualifying ∧ (t.refOf 2).qual = 0) ∧
      t = { s with bench := t.bench, clock := t.clock } ∧ s.sameMemory t) ∧
    (∃ t, exec (.mgmtBlockLockLoss port) s = .next t ∧ (t.benchOf (portBench port)).stat.linkUp = false ∧
      (port = 0 → (s.refOf 2).qstate ≠ qsUnused → (t.refOf 2).qstate = qsAbsent) ∧
      t = { s with bench := t.bench, clock := t.clock, tally := t.tally, out := t.out } ∧ s.sameMemory t)) ∧
  (∀ (s : State) (port : PortId) (frame : List Byte) (residence : Nat),
    let bs := frame.take (frame.length - 4)
    let f := frameHead bs
    let m := s.bench.mgmt[port]
    (s.framesRun = false ∨ mgmtFcsOk frame = false → exec (.mgmtFrameReceived port frame residence) s = .next s) ∧
    (s.framesRun = true → mgmtFcsOk frame = true →
      (m.benchFrame f = true →
        exec (.mgmtFrameReceived port frame residence) s =
          .next (s.datagram port { mac := BitVec.ofNat 48 f.src, v6 := f.ipVer == 6, ip := BitVec.ofNat 128 f.srcIp, port := BitVec.ofNat 16 f.sport }
            (bytesAt bs f.pay (min f.len (bs.length - f.pay))))) ∧
      (m.benchFrame f = false → f.isPtp bs = true → m.addressed f = true →
        ∃ t, exec (.mgmtFrameReceived port frame residence) s = .next t ∧ t.out = s.out ∧ t = { s with time := t.time } ∧ s.sameMemory t) ∧
      (m.benchFrame f = false → f.isPtp bs = true → m.addressed f = false →
        ∃ t, exec (.mgmtFrameReceived port frame residence) s = .next t ∧
          t.out = s.out ++ [.mgmtFrame (otherPort port) (withFcs (forwardedBytes bs residence))] ∧
          t = { s with time := t.time, out := t.out } ∧ s.sameMemory t) ∧
      (m.benchFrame f = false → f.isPtp bs = false →
        ∃ t o, exec (.mgmtFrameReceived port frame residence) s = .next t ∧
          t.out = s.out ++ o ++ [.mgmtFrame (otherPort port) frame] ∧ t = { s with out := t.out } ∧ s.sameMemory t))) ∧
  (∀ (s : State) (y : SyncSeen), let p : PortId := if s.time.cfg.dreqPort then 1 else 0
    s.time.lastSync[p] = some y →
    (s.framesRun = true → s.time.cfg.dreqEn = true → s.time.lastDreq ≠ some s.dreqInstant →
      ∃ t, exec .delayReq s = .next t ∧ t.out = s.out ++ [.mgmtFrame p (s.dreqFrame p y (s.dreqMessage p))] ∧
        t.time.lastDreq = some s.dreqInstant ∧ t.time.dreqSeq = s.time.dreqSeq + 1 ∧
        t = { s with time := t.time, out := t.out } ∧ s.sameMemory t) ∧
    (s.time.cfg.dreqEn = false ∨ s.time.lastDreq = some s.dreqInstant → exec .delayReq s = .next s))

/-- A datagram of an open session that passes every test of R320 (R318, R321): its sender becomes the peer; a COMMAND with the
next CMD_NUM is queued and taken; the words of a BULK_PUT enter the Bulk window and are acknowledged; a BULK_GET is answered.
What R320 drops: a datagram with a wrong header counts in MALFORMED, one whose tag does not verify in AUTH_FAIL, one outside
the session or with an old SEQ in SEQ_DROP; nothing else changes. -/
def Obligations.DatagramsAreTakenOrDropped : Prop :=
  (∀ (s : State) (port : PortId) (peer : Peer) (bytes : List Byte) (slot : Fin 8),
     let b := portBench port
     let d := dgramOf bytes
     let x := s.benchOf b
     s.bench.serving = true → headerOk b bytes = true → s.tagOk d.slot bytes = true → d.slot = slot.val → d.opens = false →
     x.stat.isOpen = true → d.session = x.stat.sessionId → d.slot = x.stat.keySlot.toNat → x.lastSeq < d.seq →
     let v := (s.acceptSeq slot d.seq).onBench b fun y => { y with lastSeq := d.seq, peer := some peer, lastDgram := s.now }
     (d.type = 1 → d.cmd = x.stat.postTail → (∀ e ∈ x.held, e.1 ≠ d.cmd) →
       exec (.commandDatagram port peer bytes) s =
         .next ((v.onBench b fun y => { y with held := y.held ++ [(d.cmd, d.payload)] }).serve)) ∧
     (d.type = 3 →
       ∃ t bs, exec (.bulkPut port peer bytes) s = .next t ∧
         (t.benchOf b).bulk = SMap.setRange 0 x.bulk d.offset d.payload ∧ (t.benchOf b).peer = some peer ∧
         (t.benchOf b).lastSeq = d.seq ∧ (t.benchOf b).ownSeq = x.ownSeq + 1 ∧ t.out = s.out ++ [.datagram port peer bs] ∧
         t = { s with bench := t.bench, out := t.out } ∧ s.sameMemory t) ∧
     (d.type = 5 →
       ∃ t bs, exec (.bulkGet port peer bytes) s = .next t ∧ (t.benchOf b).bulk = x.bulk ∧ (t.benchOf b).peer = some peer ∧
         (t.benchOf b).ownSeq = x.ownSeq + 1 ∧ t.out = s.out ++ [.datagram port peer bs] ∧
         t = { s with bench := t.bench, out := t.out } ∧ s.sameMemory t)) ∧
  (∀ (s : State) (port : PortId) (peer : Peer) (bytes : List Byte),
     let b := portBench port
     let d := dgramOf bytes
     let x := s.benchOf b
     s.bench.serving = true →
     (headerOk b bytes = false →
       exec (.commandDatagram port peer bytes) s = .next (s.onBnch b fun y => { y with malformed := y.malformed + 1 })) ∧
     (headerOk b bytes = true → s.tagOk d.slot bytes = false →
       ∃ t, exec (.commandDatagram port peer bytes) s = .next t ∧ (t.benchOf b).stat.authFail = x.stat.authFail + 1 ∧
         (t.benchOf b).held = x.held ∧ (t.benchOf b).lastSeq = x.lastSeq ∧ t = { s with bench := t.bench } ∧ s.sameMemory t) ∧
     (headerOk b bytes = true → s.tagOk d.slot bytes = true → d.opens = false → x.stat.isOpen = true →
       d.session = x.stat.sessionId → d.slot = x.stat.keySlot.toNat → d.seq ≤ x.lastSeq →
       exec (.commandDatagram port peer bytes) s = .next (s.onBnch b fun y => { y with seqDrop := y.seqDrop + 1 })))

/-- NOTIFY_REPEAT and SESSION_IDLE_CLOSE (R321, R323); and what the close of any session does: its leases end, its
transaction, queue, replies and indices are gone. A packet whose LENGTH lies outside 2 to 1024 is answered BAD_LENGTH, and one
of an unknown opcode BAD_OPCODE, on the module otherwise unchanged (R313, R335); a command in which the firmware meets a fault
is answered INTERNAL and raises CMD_INTERNAL (R336, Table 15-1). -/
def Obligations.SessionsCloseAndBadPackets : Prop :=
  (∀ (s : State) (port : PortId) (at' : Nat), (s.benchOf (portBench port)).notifyAt = some at' → at' ≤ s.now →
    (s.benchOf (portBench port)).stat.irqStatus &&& (s.benchOf (portBench port)).stat.irqEnable ≠ 0 →
    ∃ t, exec (.notifyRepeat port) s = .next t ∧ (t.benchOf (portBench port)).notifyAt = some (s.now + 1000000000) ∧
      (t.benchOf (portBench port)).stat.notifySent =
        (s.benchOf (portBench port)).stat.notifySent + (if (s.benchOf (portBench port)).peer.isSome then 1 else 0) ∧
      t = { s with bench := t.bench, out := t.out } ∧ s.sameMemory t) ∧
  (∀ (s : State) (port : PortId), (s.benchOf (portBench port)).stat.isOpen = true → s.holdsAny (portBench port) = false →
    (s.benchOf (portBench port)).lastDgram + 10000000000 ≤ s.now →
    exec (.sessionIdleClose port) s = .next (s.closeSession (portBench port))) ∧
  (∀ (s : State) (b : BenchId),
    let t := s.closeSession b
    (t.benchOf b).stat.isOpen = false ∧ (t.benchOf b).stat.sessionId = 0 ∧ (t.benchOf b).post = [] ∧ (t.benchOf b).replies = [] ∧
    (t.benchOf b).held = [] ∧ (t.benchOf b).txn = none ∧ (t.benchOf b).executing = none ∧ (t.benchOf b).stat.postTail = 0 ∧
    (t.benchOf b).stat.replyTail = 0 ∧ t.holdsAny b = false) ∧
  (∀ (s : State) (b : BenchId) (p : Packet) (acted : Bool), s.ready b → p.len ≤ 1024 → p.meets = .firmware acted →
    exec (.getStatus b p) s =
      .next (State.replied b 0x13 p ((s.handed b).raise srcCmdInternal 0, Reply.plain stInternal)) ∧
    exec (.storeQuery b p) s =
      .next (State.replied b 0xA2 p ((s.handed b).raise srcCmdInternal 0, Reply.plain stInternal))) ∧
  (∀ (s : State) (b : BenchId) (ws : List Word), s.ready b →
    let w0 := ws.getD 0 0
    let op : BitVec 8 := (w0 >>> 24).setWidth 8
    (fieldOf w0 0 16 < 2 ∨ 1024 < fieldOf w0 0 16 →
      exec (.badOpcode b ws) s =
        .next ((State.answered b op (ws.getD 1 0) false (s.handed b, some (Reply.plain stBadLength))).serve)) ∧
    (2 ≤ fieldOf w0 0 16 → fieldOf w0 0 16 ≤ 1024 → fieldOf w0 0 16 = ws.length → knownOp op.toNat = false →
      exec (.badOpcode b ws) s =
        .next ((State.answered b op (ws.getD 1 0) true (s.handed b, some (Reply.plain stBadOpcode))).serve)))

/-! ### Records and tables (chapter 13) -/

/-- IDENTIFY, GET_STATUS and GET_RECORD (R328, R340): the words of the record from an offset on, a COUNT of 0 giving all that
fit; a record that any bench may read needs no lease. SET_RECORD (R341): a range of words inside the record, under its lease,
whose fields lie in range is applied whole; and what some records' fields become: BELL_CFG, GRAN_CFG and LEDG_CFG take the
written words. Access types in a write (R8): a RW field takes the written bits, a W1C bit is cleared by a one and kept by a
zero, and a field of a word that is not written stays; a counter stops at its greatest value. -/
def Obligations.RecordsAreReadAndWritten : Prop :=
  (∀ (s : State) (b : BenchId) (p : Packet), s.ready b →
     let u := s.handed b
     (p.sized 2 → exec (.identify b p) s = .next (State.replied b 0x10 p (u, Reply.ok u.idWords))) ∧
     (p.sized 2 →
       exec (.getStatus b p) s =
         .next (State.replied b 0x13 p (u, Reply.ok (u.bench.health.words.take 12 ++ (u.benchOf b).stat.words.take 7)))) ∧
     (∀ ws got : List Word, p.sized 4 → u.recordWords (p.bits 2 0 16) (p.bits 2 16 16) = some ws → p.bits 3 16 16 ≤ 1021 →
       p.bits 3 0 16 < ws.length →
       u.holdsAny b = true ∨ p.bits 2 0 16 = 0x0C01 ∨ p.bits 2 0 16 = 0x0B02 ∨ (p.bits 2 0 16 = 0x0B01 ∧ p.bits 2 16 16 = b.val) →
       got = (ws.drop (p.bits 3 0 16)).take (if p.bits 3 16 16 = 0 then 1021 else p.bits 3 16 16) →
       exec (.getRecord b p) s =
         .next (State.replied b 0x11 p
           (u.clearOnRead (p.bits 2 0 16) (p.bits 2 16 16) (p.bits 3 0 16) got.length,
             { status := stOk, detail := BitVec.ofNat 32 ws.length, results := got })))) ∧
  (∀ (s : State) (b : BenchId) (p : Packet) (ws : List Word), s.ready b →
    let u := s.handed b
    let code := p.bits 2 0 16
    let k := p.bits 2 16 16
    let off := p.bits 3 0 16
    let n := p.bits 3 16 16
    let put : Writes := fun j => if off ≤ j ∧ j < off + n then some (p.w (4 + (j - off))) else none
    p.sized (n + 4) → u.recordWords code k = some ws → 1 ≤ n → n ≤ 1021 → off + n ≤ ws.length → u.recordLease b code k put = true →
    (u.writeRecord code k ws.length put).2 = stOk →
    exec (.setRecord b p) s = .next (State.replied b 0x12 p ((u.writeRecord code k ws.length put).1, Reply.ok))) ∧
  (∀ (s : State) (w : Word), let put : Writes := fun j => if j = 0 then some w else none
    (10 ≤ (s.bell.cfg.written put).recoverMs.toNat → (s.bell.cfg.written put).recoverMs.toNat ≤ 10000 →
      s.writeRecord 0x1101 0 1 put = ({ s with bell := { s.bell with cfg := s.bell.cfg.written put } }, stOk)) ∧
    ((s.gran.cfg.written put).srIdleUs ≠ 0 →
      s.writeRecord 0x0801 0 1 put = ({ s with gran := { s.gran with cfg := s.gran.cfg.written put } }, stOk)) ∧
    (∀ i : SubId, (s.ledger[i].cfg.written put).wrecGroupLog2.toNat ≤ 6 → (s.ledger[i].cfg.written put).shift.toNat ≤ 32 →
      s.writeRecord 0x0701 i.val 1 put = (s.onLedger i fun x => { x with cfg := x.cfg.written put }, stOk))) ∧
  (∀ (ws : Nat → Option Word) (k lo n : Nat) (old : BitVec n) (w : Word), ws k = some w → lo + n ≤ 32 →
    ∀ i, i < n → (rwBits ws k lo old).getLsbD i = w.getLsbD (lo + i) ∧
      (w1cBits ws k lo old).getLsbD i = (old.getLsbD i && !w.getLsbD (lo + i))) ∧
  (∀ (ws : Nat → Option Word) (k lo n : Nat) (old : BitVec n), ws k = none → rwBits ws k lo old = old ∧ w1cBits ws k lo old = old) ∧
  (∀ (n k : Nat) (c : BitVec n), (satInc c k).toNat = min (2 ^ n - 1) (c.toNat + k))

/-- TABLE_BEGIN, TABLE_ABORT and TABLE_QUERY (R343 to R345): under the class's lease, with no transaction open, TABLE_BEGIN reserves
the least free range of the table store, cleared, and gives its address, or answers NOSPACE where no range fits and BUSY for WEIGHT
while a switch is due; TABLE_ABORT frees the range, which reads zero again; TABLE_QUERY lists. -/
def Obligations.TableStagingCompletes : Prop :=
  ∀ (s : State) (b : BenchId) (p : Packet), s.ready b →
    let u := s.handed b
    let v := u.settleTables
    let cls := p.bits 2 0 8
    let i := p.sub 2 8
    let n := (p.w 3).toNat
    let room := up4K (if cls = 8 then min n 36 else n)
    (p.sized 4 → 1 ≤ cls → cls ≤ 10 → u.mayTable b cls i = true → (u.benchOf b).txn = none → p.stray 2 0xFFFFFC00 = false →
      (namesSub cls = true ∨ i = 0) → (cls = 8 ∨ (16 ≤ n ∧ n ≤ 16777216)) →
      (cls = 8 → (u.beam[i].stat.weightReady = true ∨ u.beam[i].stat.switchPending = true) →
        exec (.tableBegin b p) s = .next (State.replied b 0x20 p (u, Reply.plain stBusy))) ∧
      ((cls = 8 → u.beam[i].stat.weightReady = false ∧ u.beam[i].stat.switchPending = false) →
        (∀ a, fitIn v.storeTaken room storeBytes = some a →
          exec (.tableBegin b p) s =
            .next (State.replied b 0x20 p
              (({ v with mem := v.mem.zero (storeBase + a) room } : State).onBench b fun y =>
                { y with txn := some ⟨cls, some i, n, storeBase + a, room, 0⟩ }, Reply.ok (words64 (storeBase + a)))) ∧
          (∀ k, storeBase + a ≤ k → k < storeBase + a + room → (v.mem.zero (storeBase + a) room).byte k = 0) ∧
          (∀ k, k < storeBase + a ∨ storeBase + a + room ≤ k → (v.mem.zero (storeBase + a) room).byte k = v.mem.byte k)) ∧
        (fitIn v.storeTaken room storeBytes = none →
          exec (.tableBegin b p) s = .next (State.replied b 0x20 p (u, Reply.plain stNospace))))) ∧
    (∀ x : Txn, p.sized 2 → (u.benchOf b).txn = some x → u.mayTable b x.cls (x.sub.getD 0) = true →
      exec (.tableAbort b p) s =
        .next (State.replied b 0x22 p
          (({ u with mem := u.mem.zero x.addr x.room } : State).onBench b fun y => { y with txn := none }, Reply.ok)) ∧
      (∀ k, x.addr ≤ k → k < x.addr + x.room → (u.mem.zero x.addr x.room).byte k = 0) ∧
      (∀ k, k < x.addr ∨ x.addr + x.room ≤ k → (u.mem.zero x.addr x.room).byte k = u.mem.byte k)) ∧
    (p.sized 2 → (u.benchOf b).txn = none →
      exec (.tableAbort b p) s = .next (State.replied b 0x22 p (u, Reply.plain stWrongMode)) ∧
      exec (.tableCommit b p) s = .next (State.replied b 0x21 p (u, Reply.plain stWrongMode))) ∧
    (p.sized 3 → u.holdsAny b = true → p.stray 2 0xFF000000 = false → 1 ≤ cls → cls ≤ 10 →
      exec (.tableQuery b p) s =
        .next (State.replied b 0x23 p
          (u, { status := stOk, detail := BitVec.ofNat 32 (v.tableList cls).length
                results := BitVec.ofNat 32 v.tableRoom :: (((v.tableList cls).drop (p.bits 2 8 16)).take 255).flatten })))

/-- TABLE_COMMIT (R342 to R344): a table whose header is wrong is TABLE_INVALID with DETAIL 0xFFFFFFFF; one whose header holds is
judged by its class's rules: it ends the transaction and is listed, or is refused with the transaction left open. A TALLY table
inside R401's ranges waits for the beat; a HASH table inside R243's takes effect at once and zero-fills the Granary. -/
def Obligations.TableCommitCompletes : Prop :=
  ∀ (s : State) (b : BenchId) (p : Packet) (x : Txn), s.ready b →
    let u := s.handed b
    let v := u.settleTables
    let bs := v.stagedBytes x
    let ws := bytesWords bs
    let body := ws.drop 4
    let header := bw ws 0 = 0x5054424C ∧ fieldOf (bw ws 1) 0 8 = x.cls ∧ fieldOf (bw ws 1) 8 8 = 1 ∧ (bw ws 2).toNat = x.length ∧
      x.length % 4 = 0 ∧ bw ws 3 = crc32 (bs.drop 16)
    let ends (t : State) (pending : Bool) : State :=
      let e := x.entry v (bw ws 3) body pending
      let w := (t.onBench b fun y => { y with txn := none }).listTable e
      { w with mem := if e.room = 0 then w.mem.zero x.addr x.room else w.mem }
    p.sized 2 → (u.benchOf b).txn = some x → u.mayTable b x.cls (x.sub.getD 0) = true →
    (¬ header →
      exec (.tableCommit b p) s =
        .next (State.replied b 0x21 p (v, { status := stTableInvalid, detail := 0xFFFFFFFF }))) ∧
    (header → (x.cls = 2 → (if fieldOf (bw body 0) 0 8 = 2 then v.holdsWork b else v.holdsAnyObs b) = true) →
      exec (.tableCommit b p) s =
        .next (State.replied b 0x21 p
          (match v.commitBody x body with
          | .done t pending => (ends t pending, Reply.ok)
          | .busy => (v, Reply.plain stBusy)
          | .wrongMode => (v, Reply.plain stWrongMode)
          | .invalid off => (v, { status := stTableInvalid, detail := BitVec.ofNat 32 off })))) ∧
    (header → x.cls = 5 →
      let n := fieldOf (bw body 0) 0 9
      let es := (List.range n).map fun k => talyEntry fun j => bw body (1 + 4 * k + j)
      1 ≤ n → n ≤ 256 → body.length = 1 + 4 * n → (∀ c ∈ es, c.bad = false) → (es.map fun c => c.source).Nodup →
      exec (.tableCommit b p) s =
        .next (State.replied b 0x21 p
          (ends { v with tally := { v.tally with queued := v.tally.queued ++ es } } true, Reply.ok))) ∧
    (header → x.cls = 10 → body.length = 12 → (∀ k, k < 11 → badMask k (fieldOf (bw body (k + 1)) 0 30) = false) →
      (∀ r ∈ v.gran.regions, r.kind = 6) → (v.mode = modeProvision ∨ v.mode = modeWorkshop) →
      exec (.tableCommit b p) s =
        .next (State.replied b 0x21 p (ends ((v.useMasks (hashMasks body)).zeroGranary) false, Reply.ok)))

/-- Table transactions (R342 to R345): TABLE_BEGIN reserves cleared staging space, TABLE_COMMIT of a table whose header and class
rules hold ends the transaction and lists the table, TABLE_ABORT frees the space, TABLE_QUERY lists. -/
def Obligations.TableTransactions : Prop :=
  ∀ (s : State) (b : BenchId) (p : Packet), s.ready b →
    let u := s.handed b
    (∀ t a, p.sized 4 → 1 ≤ p.bits 2 0 8 → p.bits 2 0 8 ≤ 10 → u.mayTable b (p.bits 2 0 8) (p.sub 2 8) = true →
      (u.benchOf b).txn = none → p.stray 2 0xFFFFFC00 = false → (namesSub (p.bits 2 0 8) = true ∨ p.sub 2 8 = 0) →
      (p.bits 2 0 8 = 8 ∨ (16 ≤ (p.w 3).toNat ∧ (p.w 3).toNat ≤ 16777216)) →
      (p.bits 2 0 8 = 8 → u.beam[p.sub 2 8].stat.weightReady = false ∧ u.beam[p.sub 2 8].stat.switchPending = false) →
      u.settleTables.openTxn b (p.bits 2 0 8) (p.sub 2 8) (p.w 3).toNat = some (t, a) →
      exec (.tableBegin b p) s = .next (State.replied b 0x20 p (t, Reply.ok (words64 a))) ∧
        (∃ x, (t.benchOf b).txn = some x ∧ x.addr = a ∧ x.cls = p.bits 2 0 8 ∧ x.length = (p.w 3).toNat ∧
          (∀ k, a ≤ k → k < a + x.room → t.mem.byte k = 0) ∧
          (∀ k, k < a ∨ a + x.room ≤ k → t.mem.byte k = u.settleTables.mem.byte k))) ∧
    (∀ (x : Txn) (t : State) (pending : Bool), p.sized 2 → (u.benchOf b).txn = some x → u.mayTable b x.cls (x.sub.getD 0) = true →
      let v := u.settleTables
      let bs := v.stagedBytes x
      let ws := bytesWords bs
      bw ws 0 = 0x5054424C → fieldOf (bw ws 1) 0 8 = x.cls → fieldOf (bw ws 1) 8 8 = 1 → (bw ws 2).toNat = x.length →
      x.length % 4 = 0 → bw ws 3 = crc32 (bs.drop 16) → 
      (x.cls = 2 → (if fieldOf (bw (ws.drop 4) 0) 0 8 = 2 then v.holdsWork b else v.holdsAnyObs b) = true) →
      v.commitBody x (ws.drop 4) = .done t pending →
      ∃ m, exec (.tableCommit b p) s =
        .next (State.replied b 0x21 p
          (({ ((t.onBench b fun y => { y with txn := none }).listTable (x.entry v (bw ws 3) (ws.drop 4) pending)) with
            mem := m }), Reply.ok))) ∧
    (∀ x : Txn, p.sized 2 → (u.benchOf b).txn = some x → u.mayTable b x.cls (x.sub.getD 0) = true →
      exec (.tableAbort b p) s = .next (State.replied b 0x22 p (u.dropTxn b, Reply.ok)) ∧
      ((u.dropTxn b).benchOf b).txn = none ∧ (∀ k, x.addr ≤ k → k < x.addr + x.room → (u.dropTxn b).mem.byte k = 0) ∧
      (∀ k, k < x.addr ∨ x.addr + x.room ≤ k → (u.dropTxn b).mem.byte k = u.mem.byte k)) ∧
    (p.sized 3 → u.holdsAny b = true → p.stray 2 0xFF000000 = false → 1 ≤ p.bits 2 0 8 → p.bits 2 0 8 ≤ 10 →
      exec (.tableQuery b p) s = .next (State.replied b 0x23 p (u, u.tableQuery (p.bits 2 0 8) (p.bits 2 8 16))))

/-! ### Observations and steering (chapters 04, 06, 08, 09 and 13) -/

/-- OBS_DEFINE, with RELEASE and without (R347): a released sub-array is FREE with its records at reset; a definition inside
the limits, with room for its regions and no channel in FAULT, makes it DEFINED with the EPOCH and PERIOD given. OBS_CHECK,
OBS_ARM, OBS_START_AT and OBS_STOP_AT (R348 to R351): the budgets as words; a DEFINED sub-array with its tables, inside its
budgets, in ALIGN; its start index from the time; its stop at once in ALIGN and at a boundary in OBSERVE. -/
def Obligations.ObservationCommandsComplete : Prop :=
  (∀ (s : State) (b : BenchId) (p : Packet), s.ready b →
     let u := s.handed b
     let i := p.sub
     let d := defineOf p
     u.holdsObs b i = true → u.obsMode = true → (u.saState i = saFree ∨ u.saState i = saDefined) →
     (p.sized 3 0x08 → p.flag 3 = true →
       exec (.obsDefine b p) s = .next (State.replied b 0x30 p (u.obsRelease i, Reply.ok)) ∧
       (u.obsRelease i).saState i = saFree ∧ (∀ r ∈ (u.obsRelease i).gran.regions, r.sub = i.val → r.kind = 0 ∨ 5 ≤ r.kind) ∧
       (∀ j, j ≠ i → (u.obsRelease i).saState j = u.saState j)) ∧
     (p.sized 12 0x08 → p.flag 3 = false → p.stray 4 0xFFFF0000 = false → p.stray 5 0xFF800000 = false → p.stray 6 0x0000F800 = false →
       p.stray 11 0xFFFF0000 = false → p.badTime 7 = false → u.badDefine d = false → u.tooManyStreams d = false →
       u.tooManyBeams d = false → (u.placeCoefs d).isSome → (u.gainGroup d).isSome → (u.placeRegions d).isSome →
       (∀ k : ChanId, (u.chan k).stat.state ≠ gsFault) →
       ∃ v, u.obsDefine d = (v, stOk) ∧ exec (.obsDefine b p) s = .next (State.replied b 0x30 p (v, Reply.plain stOk)) ∧
         v.saState i = saDefined ∧ v.obs[i].epoch.period32 = (p.w 10).toNat + p.bits 11 0 16 * 2 ^ 32 ∧
         v.cellar[i].cfg.blockMask = p.w 3 ∧ (∀ j, j ≠ i → v.saState j = u.saState j))) ∧
  (∀ (s : State) (b : BenchId) (p : Packet), s.ready b →
     let u := s.handed b
     let i := p.sub
     (p.sized 3 0x10 → u.holdsAny b = true → u.saState i ≠ saFree → p.stray 2 0xFFFFFFFC = false → p.flag 4 = false →
       exec (.obsCheck b p) s =
         .next (State.replied b 0x31 p
           (u, { status := if (u.budgets none).fails then stOverBudget else stOk, detail := BitVec.ofNat 32 (u.budgets none).detail
                 results := (u.budgets none).words }))) ∧
     (∀ q : Plan, p.sized 3 0x10 → u.holdsAny b = true → u.saState i ≠ saFree → p.stray 2 0xFFFFFFFC = false → p.flag 4 = true →
       u.stagedPlan b i = some q →
       exec (.obsCheck b p) s =
         .next (State.replied b 0x31 p
           (u, { status := if (u.budgets (some (i, q))).fails then stOverBudget else stOk
                 detail := BitVec.ofNat 32 (u.budgets (some (i, q))).detail, results := (u.budgets (some (i, q))).words }))) ∧
     (p.sized 3 → u.holdsObs b i = true → u.obsMode = true → u.saState i = saDefined → u.time.stat.state ≠ 0 →
       p.stray 2 0xFFFFFFFC = false → u.armMissing i = 0 → (u.budgets none).fails = false →
       (∀ k : ChanId, (u.chan k).stat.state ≠ gsFrozen ∧ (u.chan k).stat.state ≠ gsFault) →
       exec (.obsArm b p) s =
         .next (State.replied b 0x32 p
           (u.arm i, { status := stOk, detail := BitVec.ofNat 32 (u.budgets none).detail, results := (u.budgets none).words })) ∧
       (u.arm i).saState i = saAlign) ∧
     (p.sized 6 → u.holdsObs b i = true → u.saState i = saAlign → p.stray 2 0xFFFFFFFC = false → p.badTime 3 = false →
       u.time16 ≤ p.time 3 → u.parser[i].start = none →
       exec (.obsStartAt b p) s =
         .next (State.replied b 0x33 p
           (u.setStart i (u.startIndex i (p.time 3)), { status := stAccepted, results := words64 (u.startIndex i (p.time 3)) })) ∧
       (u.setStart i (u.startIndex i (p.time 3))).parser[i].start = some (u.startIndex i (p.time 3)) ∧
       (u.setStart i (u.startIndex i (p.time 3))).parser[i].front = u.startIndex i (p.time 3)) ∧
     (p.sized 6 0x02 → u.holdsObs b i = true → p.stray 2 0xFFFFFFFC = false → u.saState i = saAlign →
       exec (.obsStopAt b p) s = .next (State.replied b 0x34 p (u.leaveObs i, Reply.ok))) ∧
     (p.sized 6 0x02 → u.holdsObs b i = true → p.stray 2 0xFFFFFFFC = false → u.saState i = saObserve → p.badPoint 3 = false →
       u.obs[i].stopping = false →
       let e := u.boundaryOf i (u.pointSpan i (p.flag 1) (p.point 3))
       e.2 = false →
       exec (.obsStopAt b p) s =
         .next (State.replied b 0x34 p
           (u.onObs i fun x => { x with stopAt := some e.1 }, { status := stAccepted, detail := BitVec.ofNat 32 e.1 }))))

/-- T(k) and the index of a time (R284, R285): T never falls as k rises, and for any nonzero PERIOD the index of a time is the
smallest k of which T(k) lies at or after it. The start index (R285): the smallest multiple of S_q at or after the index of
the time. -/
def Obligations.IndexOfTimeIsLeast : Prop :=
  (∀ (e : TimeEpoch), 0 < e.period32 →
     (∀ k m : Nat, k ≤ m → e.timeOf k ≤ e.timeOf m) ∧
     (∀ t : Nat, t ≤ e.timeOf (e.indexAt t) ∧ ∀ k, k < e.indexAt t → e.timeOf k < t)) ∧
  (∀ (s : State) (i : SubId) (t : Nat), 0 < s.slotLen i → 0 < s.obs[i].epoch.period32 →
     let k := s.startIndex i t
     s.slotLen i ∣ k ∧ t ≤ s.obs[i].epoch.timeOf k ∧ ∀ m, s.slotLen i ∣ m → m < k → s.obs[i].epoch.timeOf m < t)

/-- DRAIN_AT, RESYNC_AT, DELAY_LOAD, WEIGHT_LOAD, COEF_SWAP and DCB_FREEZE (R89, R103, R107, R200, R227, R353). CELLAR_TRIGGER
and CELLAR_RELEASE (R143, R145): with no capture held, a bay ring deep enough and the window's first span still there or to
come, the capture starts; a release returns every bay to the ring. -/
def Obligations.SteeringCommandsComplete : Prop :=
  (∀ (s : State) (b : BenchId) (p : Packet), s.ready b →
     let u := s.handed b
     let i := p.sub
     u.holdsObs b i = true →
     (p.sized 6 0x02 → u.active i = true → p.stray 2 0xFFFFFFFC = false → p.badPoint 3 = false → u.obs[i].stopping = false →
       let e := u.boundaryOf i (u.pointSpan i (p.flag 1) (p.point 3))
       e.2 = false → e.1 ∉ u.ledger[i].drains → u.ledger[i].drains.length < 4 →
       exec (.drainAt b p) s =
         .next (State.replied b 0x35 p
           ((u.onLedger i fun x => { x with drains := insertUp x.drains e.1 }).showLedger i,
             { status := stAccepted, detail := BitVec.ofNat 32 e.1 }))) ∧
     (p.sized 6 → u.saState i = saObserve → p.stray 2 0xFFFFFFFC = false → p.badTime 3 = false → u.time16 ≤ p.time 3 →
       let kr := u.obs[i].epoch.indexAt (p.time 3)
       exec (.resyncAt b p) s =
         .next (State.replied b 0x36 p
           (u.onSieve i fun x => { x with wanted := x.wanted.filter (fun e => !e.2) ++ [(kr, true)] },
             { status := stAccepted, results := words64 (kr - u.ks i) }))) ∧
     (∀ (o : Nat) (ins : List (Nat × List Nat)), u.loadOrder i p = some o → ins = loadEntries p o → p.badFlags = false →
       p.stray 2 0xF00000FC = false → p.badTime 3 = false → (u.delaySet i (p.bits 2 8 8)).isSome → u.active i = true →
       (∀ k, k < p.bits 2 16 12 → p.stray (6 + k * loadWords o) 0xFFFFF000 = false) →
       (∀ e ∈ ins, e.1 ∈ u.inputs i) → (ins.map fun e => e.1).eraseDups.length = ins.length → u.time16 ≤ p.time 3 →
       u.sieve[i].loads.length < 16 → p.len ≤ 1024 →
       exec (.delayLoad b p) s =
         .next (State.replied b 0x40 p
           (u.onSieve i fun x => { x with loads := x.loads ++ [⟨p.time 3, p.bits 2 8 8, ins⟩] }, Reply.plain stAccepted))) ∧
     (p.sized 3 0x04 → p.flag 2 = false → p.stray 2 0xFFFFFFFC = false → u.saState i = saDefined →
       exec (.weightLoad b p) s = .next (State.replied b 0x41 p (u.flipWeights i, Reply.ok))) ∧
     (p.sized 6 0x04 → p.flag 2 = true → p.stray 2 0xFFFFFFFC = false → p.badTime 3 = false → u.active i = true →
       u.beam[i].stat.weightReady = true → u.beam[i].stat.switchPending = false → u.time16 ≤ p.time 3 →
       exec (.weightLoad b p) s =
         .next (State.replied b 0x41 p
           (u.onBeam i fun y =>
             { y with loadAt := some (p.time 3)
                      stat := { y.stat with
                        switchPending := true
                        switchFs := BitVec.ofNat 64 (u.fineFrom i (u.obs[i].epoch.indexAt (gridAt (p.time 3)))) } },
             Reply.plain stAccepted))) ∧
     (p.sized 3 0x04 → p.flag 2 = false → p.stray 2 0xFFFFFFFC = false → u.saState i = saDefined →
       u.sieve[i].stat.standbyValid = true →
       exec (.coefSwap b p) s =
         .next (State.replied b 0x42 p
           (u.onSieve i fun y => { y with stat := { y.stat with
             activeBank := !y.stat.activeBank
             standbyValid := if u.sieve[i].stat.activeBank then u.sieve[i].bankFull[1] else u.sieve[i].bankFull[0] } }, Reply.ok))) ∧
     (p.sized 3 0x04 → p.flag 2 = false → p.stray 2 0xFFFFFFFC = false → u.active i = true → u.sieve[i].stat.standbyValid = true →
       u.sieve[i].swapWaits (u.unformed i) = false →
       exec (.coefSwap b p) s =
         .next (State.replied b 0x42 p
           (if u.sieve[i].fades = [] then (u.onSieve i fun y => { y with swapAsk := true }).showSieve i else u.addFade i 0,
             Reply.plain stAccepted))) ∧
     (p.sized 6 0x04 → p.flag 2 = true → p.stray 2 0xFFFFFFFC = false → p.badTime 3 = false → u.active i = true →
       u.sieve[i].stat.standbyValid = true → u.sieve[i].swapWaits (u.unformed i) = false →
       exec (.coefSwap b p) s =
         .next (State.replied b 0x42 p
           (if u.parser[i].start.isSome then u.addFade i (u.fineAt i (p.time 3))
            else (u.onSieve i fun y => { y with swapAt := some (p.time 3) }).showSieve i, Reply.plain stAccepted))) ∧
     (p.sized 6 → u.active i = true → p.stray 2 0xFFFFFEFC = false →
       (p.w 3).toNat &&& u.cellar[i].cfg.blockMask.toNat = (p.w 3).toNat → u.beatIndex i ≤ p.long 4 →
       exec (.dcbFreeze b p) s =
         .next (State.replied b 0x43 p
           (u.onSieve i fun x => { x with freezeAsk := some (p.long 4, (p.w 3).toNat, p.bit 2 8) }, Reply.plain stAccepted)))) ∧
  (∀ (s : State) (b : BenchId) (p : Packet), s.ready b →
     let u := s.handed b
     let i := p.sub
     let pre := p.bits 2 8 4
     let n := p.bits 2 8 4 + p.bits 2 12 4 + 1
     (∀ sp, p.sized 6 → u.holdsObs b i = true → u.saState i = saObserve → p.stray 2 0xFFFF00FC = false → p.badTime 3 = false →
       n ≤ 6 → u.obs[i].stopping = false → u.front.capture.state = 0 → n + 2 ≤ u.cellar[i].cfg.depth.toNat → u.spanAt i (p.time 3) = some sp → pre ≤ sp →
       (u.cellar[i].next ≤ sp - pre ∨ (u.cellar[i].bayOf (sp - pre)).isSome) →
       exec (.cellarTrigger b p) s =
         .next (State.replied b 0x48 p
           (u.startCapture i (p.time 3) (sp - pre) n, { status := stOk, detail := BitVec.ofNat 32 n, results := words64 (sp - pre) }))) ∧
     (p.sized 2 → u.holdsWork b = true ∨ u.holdsObs b u.front.capture.subarray.toFin = true → u.start.recovery = false →
       exec (.cellarRelease b p) s = .next (State.replied b 0x49 p (u.releaseCapture, Reply.ok)) ∧
       u.releaseCapture.front.capture = {} ∧ (∀ r ∈ u.releaseCapture.gran.regions, r.kind ≠ 5)))

/-! ### The store, bulk moves, the Baler and tests (chapters 13, 14 and 17) -/

/-- STORE_WRITE, STORE_ACTIVATE and STORE_QUERY (R356, R437): words of the Bulk window programmed into the copy that did not boot,
whose header a write with FIRST invalidates; an image that checks is given its header; the query reports both copies. -/
def Obligations.StoreCommandsComplete : Prop :=
  ∀ (s : State) (b : BenchId) (p : Packet), s.ready b →
    let u := s.handed b
    let off := p.bits 2 0 18
    let n := p.bits 3 0 19
    (p.sized 5 → u.storeLease b = true → p.stray 2 0x7FFC0000 = false → p.stray 3 0xFFF80000 = false → (p.w 4).toNat % 4 = 0 →
      1 ≤ n → off + n ≤ 262144 → (p.w 4).toNat + 4 * n ≤ copyBytes → p.bit 2 31 = true →
      ∃ t, exec (.storeWrite b p) s = .next (State.replied b 0xA0 p (t, Reply.ok)) ∧
        (t.copyOf u.targetCopy).header = none ∧ (t.copyOf u.targetCopy).writing = true ∧ t.copyValid u.targetCopy = false ∧
        t.copyOf (!u.targetCopy) = u.copyOf (!u.targetCopy) ∧ u.sameMemory t ∧
        (t.copyOf u.targetCopy).bytes (p.w 4).toNat (4 * n) = wordsBytes (SMap.getRange 0 (u.benchOf b).bulk off n)) ∧
    (∀ t, p.sized 3 → u.storeLease b = true → (u.copyOf u.targetCopy).writing = true → p.stray 2 0xFFFFFFFC = false →
      p.bits 2 0 2 = 0 → (u.copyOf u.targetCopy).imageOk = true → u.signerOk (u.copyOf u.targetCopy) = true →
      (u.copyOf u.targetCopy).signatureOk = true → u.badSection (u.copyOf u.targetCopy) = none →
      u.provision (u.copyOf u.targetCopy) = some t →
      ∃ v, exec (.storeActivate b p) s = .next (State.replied b 0xA1 p (v, Reply.ok [u.nextSeq])) ∧
        (v.copyOf u.targetCopy).header = some ⟨u.nextSeq, (u.copyOf u.targetCopy).imageBytes⟩ ∧
        (v.copyOf u.targetCopy).writing = false ∧ v.start.restart = none ∧
        v.copyOf (!u.targetCopy) = u.copyOf (!u.targetCopy) ∧ u.sameMemory v) ∧
    (p.sized 2 → u.holdsAny b = true →
      exec (.storeQuery b p) s =
        .next (State.replied b 0xA2 p
          (u, Reply.ok ([bitAt u.start.storeCopy 0 ||| bitAt u.start.recovery 1, BitVec.ofNat 32 copyBytes] ++
            u.copyWords false ++ u.copyWords true))))

/-- BULK_WRITE and BULK_READ (R315, R354, Table 13-13): words of the Bulk window copied out to SCRATCH, and words of a region
copied into it, through the bench mover's port in rising order; a failing piece ends the copy with FAULTED. PEEK and POKE
(R357): one access a word through the Foreman's port, in rising order; words that all answer COMPLETE are the answer, or are
written one after another. While another master's lock holds an access of such a command (R367), the command waits at its
bench. A command that waits changes no memory. -/
def Obligations.BulkPeekAndPokeComplete : Prop :=
  (∀ (s : State) (b : BenchId) (p : Packet), s.ready b →
     let u := s.handed b
     let off := p.bits 2 0 18
     let n := p.bits 3 0 19
     let a := p.addr 4
     p.sized 6 → bulkParams p = true → s.busLocked 0x70 p = false →
     (u.areaOf b a (4 * n) = .scratch → u.holdsObsWork b = true → u.dataPath = true →
       let c := u.copyOut moverPort a (wordsBytes (SMap.getRange 0 (u.benchOf b).bulk off n))
       (c.2 = none → exec (.bulkWrite b p) s = .next (State.replied b 0x70 p
         (c.1, { status := stOk, detail := BitVec.ofNat 32 n }))) ∧
       (∀ k, c.2 = some k → exec (.bulkWrite b p) s = .next (State.replied b 0x70 p
         (c.1.undefine moverPort (a + k) (4 * n - k), { status := stFaulted, detail := BitVec.ofNat 32 (k / 4) })))) ∧
     ((u.areaOf b a (4 * n) = .scratch ∨ u.areaOf b a (4 * n) = .region) → u.holdsAny b = true → u.dataPath = true →
       let c := u.copyIn moverPort a (4 * n)
       c.2.2 = none → c.2.1.length = 4 * n →
       ∃ t, exec (.bulkRead b p) s = .next (State.replied b 0x71 p (t, { status := stOk, detail := BitVec.ofNat 32 n })) ∧
         (t.benchOf b).bulk = SMap.setRange 0 (u.benchOf b).bulk off (bytesWords c.2.1) ∧ u.sameMemory t)) ∧
  (∀ (s : State) (b : BenchId) (p : Packet), s.ready b →
     let u := s.handed b
     u.holdsWork b = true → u.mode = modeWorkshop → p.badFlags = false → p.meets = .nothing → p.badAddr 2 = false →
     p.addr 2 % 4 = 0 →
     (p.len = 5 → s.busLocked 0xF1 p = false → p.stray 4 0xFFFFFC00 = false → 1 ≤ p.bits 4 0 10 → p.bits 4 0 10 ≤ 1021 →
       let r := u.peekWords (p.addr 2) (p.bits 4 0 10)
       exec (.peek b p) s = .next (State.replied b 0xF1 p
         (r.1, if r.2.2 then Reply.ok r.2.1 else { status := stFaulted, detail := BitVec.ofNat 32 r.2.1.length })) ∧
       (r.2.2 = true → r.2.1.length = p.bits 4 0 10) ∧ u.sameMemory r.1) ∧
     (4 ≤ p.len → p.len ≤ 1024 → s.busLocked 0xF2 p = false →
       let r := u.pokeWords (p.addr 2) (p.params.drop 2)
       exec (.poke b p) s = .next (State.replied b 0xF2 p
         (r.1, if r.2.2 then Reply.ok else { status := stFaulted, detail := BitVec.ofNat 32 r.2.1 })) ∧
       (r.2.2 = true → r.2.1 = (p.params.drop 2).length))) ∧
  (∀ (s : State) (b : BenchId) (p : Packet), s.ready b →
     (s.busLocked 0x70 p = true → exec (.bulkWrite b p) s = .next (s.wait b (packetWords 0x70 p)) ∧
       exec (.bulkRead b p) s = .next (s.wait b (packetWords 0x71 p))) ∧
     (s.busLocked 0xF1 p = true → exec (.peek b p) s = .next (s.wait b (packetWords 0xF1 p))) ∧
     (s.busLocked 0xF2 p = true → exec (.poke b p) s = .next (s.wait b (packetWords 0xF2 p))) ∧
     ∀ ws, s.sameMemory (s.wait b ws))

/-- A copy out to addresses that answer COMPLETE is a store: after a write burst of a port into an internal memory its bytes read
back, every other byte is as it was, and the port's bursts and bytes have counted (R362, R363). -/
def Obligations.BusWritesAreVisible : Prop :=
  ∀ (s : State) (m : MasterId) (t a : Nat) (bs : List Byte), Memory.wf s.mem = true → s.targetOf m a = some (t, a) → 1 ≤ t → t ≤ 4 →
    let r := s.busWrite m a (bs.map some)
    r.2 = respComplete ∧ r.1.mem.load a bs.length = bs ∧
      (∀ k, k < a ∨ a + bs.length ≤ k → r.1.mem.byte k = s.mem.byte k) ∧
      r.1.busRead m a bs.length = ((r.1.took t m).countBurst m a bs.length true respComplete, respComplete, bs) ∧
      ((∀ (b : Fin 2), ∀ v ∈ s.move.exch.down[b], v.master = m → v.write = false) →
        r.1.move.exch.ports[m].bursts = s.move.exch.ports[m].bursts + 1 ∧
        r.1.move.exch.ports[m].bytes = s.move.exch.ports[m].bytes + BitVec.ofNat 64 bs.length)

/-- BALE and UNBALE (R354, R377, R383, R384): with the Baler's island on and no job of another bench running, a job with bytes
to code begins: its command waits, BALE_STAT says what runs and for whom, and the TICK that reaches its end counts it and
answers the bytes of its output; one that fails is answered at once: NOSPACE, or FAULTED with an offset; a job of another
bench answers BUSY. A Baler job that has begun, and its end (R354, Table 14-12; the time it takes: log entry 24). -/
def Obligations.BalerJobsComplete : Prop :=
  (∀ (s : State) (b : BenchId) (p : Packet), s.ready b →
     let u := s.handed b
     let src := u.areaOf b (p.addr 2) (p.long 4)
     p.sized 11 → u.areaOf b (p.addr 6) (p.long 8) = .scratch → u.holdsObsWork b = true → u.dataPath = true →
     (src = .scratch ∨ src = .region) → p.badAddr 2 = false → p.badAddr 6 = false → p.stray 5 0xFFFF0000 = false →
     p.stray 9 0xFFFF0000 = false → u.islandOn balerIsland = true → s.busLocked 0xB0 p = false →
     (∀ x o, u.move.baleRun = some x → x.bench ≠ b → baleOptions (p.w 10) = some o →
       exec (.bale b p) s = .next (State.replied b 0xB0 p (u, Reply.plain stBusy))) ∧
     (∀ x, u.move.baleRun = some x → x.bench ≠ b → p.w 10 = 0 →
       exec (.unbale b p) s = .next (State.replied b 0xB1 p (u, Reply.plain stBusy))) ∧
     (u.balerBusy b = false →
       (∀ o, baleOptions (p.w 10) = some o →
         let r := u.baleJob o (p.addr 2) (p.long 4) (p.addr 6) (p.long 8)
         (∀ raw stream, r.2 = .ok raw stream → 0 < raw →
           exec (.bale b p) s = .next (State.begun b 0xB0 p (r.1.endBale b 1 r.2 stream).1)) ∧
         (∀ stream, r.2 = .ok 0 stream →
           exec (.bale b p) s =
             .next (State.replied b 0xB0 p ((r.1.endBale b 1 r.2 stream).1, Reply.ok (words64 stream)))) ∧
         (r.2 = .nospace →
           let t := r.1.undefine balePort (p.addr 6 + min 32 (p.long 8)) (p.long 8 - min 32 (p.long 8))
           exec (.bale b p) s =
             .next (State.replied b 0xB0 p ((t.endBale b 1 .nospace 0).1, Reply.plain stNospace)) ∧
           (t.endBale b 1 .nospace 0).1.move.bale.failedNospace = t.move.bale.failedNospace + 1) ∧
         (∀ k, r.2 = .other k →
           exec (.bale b p) s =
             .next (State.replied b 0xB0 p ((r.1.endBale b 1 r.2 0).1, { status := stFaulted, detail := BitVec.ofNat 32 k })))) ∧
       (p.w 10 = 0 →
         let r := u.unbaleJob (p.addr 2) (p.long 4) (p.addr 6) (p.long 8)
         (∀ raw stream, r.2 = .ok raw stream → 0 < raw →
           exec (.unbale b p) s = .next (State.begun b 0xB1 p (r.1.endBale b 2 r.2 raw).1)) ∧
         (r.2 = .nospace →
           exec (.unbale b p) s =
             .next (State.replied b 0xB1 p ((r.1.endBale b 2 r.2 0).1, Reply.plain stNospace)) ∧
           (r.1.endBale b 2 r.2 0).1.move.bale.failedNospace = r.1.move.bale.failedNospace + 1) ∧
         (∀ k, r.2 = .other k →
           exec (.unbale b p) s =
             .next (State.replied b 0xB1 p ((r.1.endBale b 2 r.2 0).1, { status := stFaulted, detail := BitVec.ofNat 32 k })) ∧
           (r.1.endBale b 2 r.2 0).1.move.bale.failedOther = r.1.move.bale.failedOther + 1)))) ∧
  (∀ (s : State) (b : BenchId) (code : BitVec 2) (raw stream outBytes : Nat), 0 < raw → s.move.baleRun = none →
    let t := (s.endBale b code (.ok raw stream) outBytes).1
    t.move.baleRun = some ⟨b, s.now + (raw + 1) / 2, raw, stream, words64 outBytes, false⟩ ∧ t.move.bale.state = code ∧
    t.move.bale.bench = BitVec.ofNat 2 b.val ∧ t.move.bale.jobs = s.move.bale.jobs ∧ s.sameMemory t) ∧
  (∀ (s : State) (b : BenchId) (code : BitVec 2) (d outBytes : Nat),
    let t := (s.endBale b code (.check d) outBytes).1
    (s.endBale b code (.check d) outBytes).2 = some { status := stFaulted, detail := BitVec.ofNat 32 d } ∧
    t.move.bale.failedCheck = s.move.bale.failedCheck + 1 ∧ t.move.bale.checkSeen = true ∧
    t.move.bale.lastDetail = BitVec.ofNat 32 d ∧ t.move.baleRun = s.move.baleRun ∧
    (s.inReset = false →
      (t.source srcBaleCheck).reg.events = (s.source srcBaleCheck).reg.events + 1 ∧
      (t.source srcBaleCheck).reg.lastDetail = BitVec.ofNat 32 d)) ∧
  (∀ (s : State) (x : BaleRun), s.move.baleRun = some x → x.endsAt ≤ s.now →
    s.balerDue = true ∧ s.endBaler.move.baleRun = none ∧ s.endBaler.move.bale.state = 0 ∧
    s.endBaler.move.bale.jobs = s.move.bale.jobs + 1 ∧
    s.endBaler.move.bale.rawBytes = s.move.bale.rawBytes + BitVec.ofNat 64 x.raw ∧
    s.endBaler.move.bale.streamBytes = s.move.bale.streamBytes + BitVec.ofNat 64 x.stream)

/-- What is baled is what is unbaled (R379 to R381): the decoder reads the encoder's block content back to the block's bytes,
whatever the code width, and the planes of a block put back are the block. -/
def Obligations.BalerRoundTrip : Prop :=
  (∀ (maxBits : Nat) (raw : List Byte), 9 ≤ maxBits → maxBits ≤ 16 → raw ≠ [] → raw.length ≤ 2 ^ 24 →
    baleDecode maxBits raw.length (baleEncode maxBits raw) = some raw) ∧
  (∀ (w : Nat) (raw : List Byte), 1 ≤ w → unplanes w (planes w raw) = raw ∧ (planes w raw).length = raw.length)

/-- SELFTEST (R357, Table 13-14): the answer counts what passed and what failed, OK where nothing failed; which tiles and engines
fail is open (log entry 3). -/
def Obligations.SelftestsComplete : Prop :=
  ∀ (s : State) (b : BenchId) (p : Packet), s.ready b →
    let u := s.handed b
    let mask := p.long 3
    p.sized 5 → u.holdsWork b = true → u.mode = modeWorkshop → p.stray 2 0xFFFFFF00 = false →
    (p.bits 2 0 8 = 1 → p.stray 4 0xFFFFFC00 = false →
      exec (.selftest b p) s = .next (State.replied b 0xF0 p (u.testTiles mask)) ∧
      u.sameMemory (u.testTiles mask).1 ∧
      (∃ passed failed bad, (u.testTiles mask).2 = testReply passed failed [BitVec.ofNat 32 bad, BitVec.ofNat 32 (bad / 2 ^ 32)] ∧
        passed + failed = popCount 42 mask)) ∧
    (p.bits 2 0 8 = 2 → mask = 0 → exec (.selftest b p) s = .next (State.replied b 0xF0 p u.testRepair)) ∧
    (p.bits 2 0 8 = 3 → p.w 4 = 0 →
      exec (.selftest b p) s = .next (State.replied b 0xF0 p (u.testEngines mask)) ∧ u.sameMemory (u.testEngines mask).1) ∧
    (p.bits 2 0 8 = 4 → mask = 0 →
      exec (.selftest b p) s = .next (State.replied b 0xF0 p u.testSram) ∧ (u.testSram).1.freeCount = u.freeCount + 2) ∧
    (p.bits 2 0 8 = 5 → mask = 0 → u.noneActive = false →
      exec (.selftest b p) s = .next (State.replied b 0xF0 p (u, Reply.plain stBusy))) ∧
    (p.bits 2 0 8 = 5 → mask = 0 → u.noneActive = true → exec (.selftest b p) s = .next (State.replied b 0xF0 p u.testSram))

/-! ### Serial lanes (chapter 02) -/

/-- FRAME_END (R40, R51, Table 02-4): a good frame with the expected SEQ, or the first one after SYNC, is delivered and
acknowledged; one already delivered is discarded and acknowledged again; one ahead of a gap is discarded while a NAK is
pending; a bad one is counted and not delivered. ACK and NAK on a receiving PLF lane (R42, R43): the held frames up to the
number named are released; a NAK has the rest sent again in order while the lane is UP, counted in TX_REPLAY, below
REPLAY_LIMIT; a number that no held frame has releases nothing. LINK on a receiving PLF lane (R51, Table 02-8): in SYNC with
the right tag READY or UP brings the lane UP and it answers UP; a wrong tag keeps it in SYNC and raises LANE_TAG once;
RETRAIN_REQ sends a lane that is UP into RETRAIN. -/
def Obligations.FramesAcksAndLinks : Prop :=
  (∀ (s : State) (l : LaneId) (f : EndedFrame), (s.laneOf l).ended = some f →
     let x := s.laneOf l
     (f.how = .good → x.fresh = true ∨ f.seq = x.expect →
       ∃ t, exec (.frameEnd l) s = .next t ∧ (t.laneOf l).expect = f.seq + 1 ∧ (t.laneOf l).fresh = false ∧
         (t.laneOf l).lastSeq = some f.seq ∧ (t.laneOf l).nakPending = false ∧ (t.laneOf l).requests = 0 ∧
         (t.laneOf l).ended = none ∧ (t.laneOf l).cnt.rxFrames = x.cnt.rxFrames + 1 ∧
         (x.fresh = false → (t.laneOf l).cnt.lostFrames = x.cnt.lostFrames) ∧
         t.out = s.out ++ [.laneBlock l (ackBlock f.seq)] ∧
         t.lane.arrivals = (if s.isEgress l then s.lane.arrivals else s.lane.arrivals ++ [⟨l, f.packet, false⟩]) ∧
         (∀ k, k ≠ l → t.laneOf k = s.laneOf k) ∧ t.lane.octets = s.lane.octets ∧ s.onlyLanes t ∧ s.sameMemory t) ∧
     (f.how = .good → x.fresh = false → f.seq ≠ x.expect → (x.expect - 1 - f.seq).toNat < 2048 →
       ∃ t, exec (.frameEnd l) s = .next t ∧ (t.laneOf l).expect = x.expect ∧
         (t.laneOf l).cnt.dupFrames = x.cnt.dupFrames + 1 ∧ t.out = s.out ++ [.laneBlock l (ackBlock (x.expect - 1))] ∧
         t.lane.arrivals = s.lane.arrivals ∧ (∀ k, k ≠ l → t.laneOf k = s.laneOf k) ∧ s.onlyLanes t ∧ s.sameMemory t) ∧
     (f.how = .good → x.fresh = false → f.seq ≠ x.expect → 2048 ≤ (x.expect - 1 - f.seq).toNat → x.nakPending = true →
       exec (.frameEnd l) s = .next (s.onLane l fun y => { y with ended := none })) ∧
     (f.how ≠ .good →
       ∃ t, exec (.frameEnd l) s = .next t ∧ t.lane.arrivals = s.lane.arrivals ∧ (t.laneOf l).expect = x.expect ∧
         (f.how = .crcWrong → (t.laneOf l).cnt.crcErr = x.cnt.crcErr + 1) ∧
         (f.how = .malformed → (t.laneOf l).cnt.formErr = x.cnt.formErr + 1) ∧ s.onlyLanesTally t ∧ s.sameMemory t)) ∧
  (∀ (s : State) (l : LaneId) (p : BitVec 64) (a rest : List TxFrame) (f : TxFrame), s.receiving l = true →
     ((s.laneOf l).held = a ++ f :: rest → f.seq = blkSeq p → (∀ g ∈ a, g.seq ≠ f.seq) →
       (∃ t, exec (.ack l p) s = .next t ∧ (t.laneOf l).held = rest ∧ (t.laneOf l).requests = 0 ∧
         (t.laneOf l).releaseAt = s.now ∧ t.out = s.out ∧ s.onlyLanes t ∧ (∀ k, k ≠ l → t.laneOf k = s.laneOf k) ∧ s.sameMemory t) ∧
       ((s.laneOf l).isUp = false → exec (.nak l p) s = exec (.ack l p) s) ∧
       ((s.laneOf l).isUp = true → 1 < (s.cfgOf l).replayLimit.toNat →
         ∃ t, exec (.nak l p) s = .next t ∧ (t.laneOf l).held = rest ∧ (t.laneOf l).requests = 1 ∧
           (t.laneOf l).cnt.txReplay = (s.laneOf l).cnt.txReplay + BitVec.ofNat 32 rest.length ∧
           t.out = s.out ++ rest.map (fun g => Output.laneFrame l g.seq g.packet (frameCrc g.seq g.packet)) ∧
           s.onlyLanes t ∧ (∀ k, k ≠ l → t.laneOf k = s.laneOf k) ∧ s.sameMemory t)) ∧
     ((∀ g ∈ (s.laneOf l).held, g.seq ≠ blkSeq p) → exec (.ack l p) s = .next s)) ∧
  (∀ (s : State) (l : LaneId) (p : BitVec 64), s.receiving l = true →
     let x := s.laneOf l
     let right := s.expectTag l = 0xFF ∨ s.expectTag l = blkField p 8 8
     (x.st = lsSync → right → blkField p 28 2 = 1 ∨ blkField p 28 2 = 2 → x.held = [] →
       ∃ t, exec (.link l p) s = .next t ∧ (t.laneOf l).st = lsUp ∧ (t.laneOf l).stat.tagOk = true ∧
         (t.laneOf l).stat.peerTag.toNat = blkField p 8 8 ∧ (t.laneOf l).nextSeq.toNat = blkField p 16 12 ∧
         t.out = s.out ++ [.laneBlock l (linkBlock l.val x.expect 2)] ∧ s.onlyLanes t ∧
         (∀ k, k ≠ l → t.laneOf k = s.laneOf k) ∧ s.sameMemory t) ∧
     (x.st = lsSync → ¬ right → x.tagRaised = false → s.inReset = false →
       ∃ t, exec (.link l p) s = .next t ∧ (t.laneOf l).st = lsSync ∧ (t.laneOf l).stat.tagOk = false ∧
         (t.laneOf l).stat.tagBad = true ∧ (t.laneOf l).tagRaised = true ∧
         (t.source srcLaneTag).reg.events = (s.source srcLaneTag).reg.events + 1 ∧ s.onlyLanesTally t ∧ s.sameMemory t) ∧
     (x.st = lsUp → blkField p 28 2 = 3 → s.inReset = false →
       ∃ t, exec (.link l p) s = .next t ∧ (t.laneOf l).st = lsRetrain ∧ (t.laneOf l).stat.retrained = true ∧
         (t.source srcLaneRetrain).reg.events = (s.source srcLaneRetrain).reg.events + 1 ∧ s.onlyLanesTally t ∧ s.sameMemory t))

/-- Tap training (R47 to R49): a new TRAIN_REQ for a preset sets the module's own taps and is answered with its status, one
already applied is answered as before; the TRAIN_STS of the preset opens the search with a step of c(-1); a request unanswered
for 10 µs is sent again; 450 ms in TRAIN end the search with DONE. The states of a lane in time (R36, R50, R53, Table 02-7):
signal leads to HUNT, 1 ms of hunting from UP to RETRAIN, a bring-up step past its limit to FAULT, 200 ms of RETRAIN and 10 s
of FAULT to full training. EYE_SCAN_POINT (R55, R63): the point is stored as its offsets and the count of errors, which stops
at 65535; after the last point the scan is DONE. -/
def Obligations.TrainingTimeoutsAndEyeScan : Prop :=
  (∀ (s : State) (l : LaneId) (p : BitVec 64) (metric : BitVec 16), s.receiving l = true → (s.laneOf l).st = lsTrain →
     let x := s.laneOf l
     (∀ num : BitVec 8, num.toNat = blkField p 24 8 → p.getLsbD 20 = false → x.peerDone = false →
       (x.applied ≠ some num → 1 ≤ blkField p 16 3 → blkField p 16 3 ≤ 5 →
         ∃ t, exec (.trainReq l p) s = .next t ∧ (t.laneOf l).stat.ownTaps = presetTaps (blkField p 16 3) ∧
           (t.laneOf l).applied = some num ∧ t.out = s.out ++ [.laneBlock l (stsBlock 1 1 1 (blkField p 16 3) num)] ∧
           s.onlyLanes t ∧ (∀ k, k ≠ l → t.laneOf k = s.laneOf k) ∧ s.sameMemory t) ∧
       (x.applied = some num → exec (.trainReq l p) s = .next (s.sendBlock l x.sts))) ∧
     (x.waiting = true → blkField p 24 8 = x.reqNum.toNat → x.search = .presets [] → 1 ≤ blkField p 16 3 → blkField p 16 3 ≤ 5 →
       s.skipSearch l metric = false →
       ∃ t, exec (.trainSts l p metric) s = .next t ∧ (t.laneOf l).stat.peerTaps = presetTaps (blkField p 16 3) ∧
         (t.laneOf l).search = .trying 0 true metric.toNat 0 false ∧ (t.laneOf l).waiting = true ∧
         (t.laneOf l).reqNum = x.reqNum + 1 ∧ t.out = s.out ++ [.laneBlock l (reqBlock 0 1 0 0 false (x.reqNum + 1))] ∧
         s.onlyLanes t ∧ (∀ k, k ≠ l → t.laneOf k = s.laneOf k) ∧ s.sameMemory t) ∧
     (x.waiting = true → x.reqAt + 10000 ≤ s.now →
       exec (.trainReqResend l) s = .next ((s.onLane l fun y => { y with reqAt := s.now }).sendBlock l x.req)) ∧
     (x.search ≠ .done → x.stepAt + 450000000 < s.now → x.peerDone = false →
       ∃ t, exec (.trainTimeout l) s = .next t ∧ (t.laneOf l).search = .done ∧ (t.laneOf l).st = lsTrain ∧
         t.out = s.out ++ [.laneBlock l (reqBlock 0 0 0 0 true x.reqNum)] ∧
         t = { s with lane := t.lane, out := t.out, freeCount := s.freeCount + 1 } ∧
         (∀ k, k ≠ l → t.laneOf k = s.laneOf k) ∧ s.sameMemory t)) ∧
  (∀ (s : State) (l : LaneId),
     let x := s.laneOf l
     (x.st = lsWait →
       ∃ t, exec (.signalDetected l) s = .next t ∧ (t.laneOf l).st = lsHunt ∧ (t.laneOf l).stat.signal = true ∧
         (t.laneOf l).stepAt = s.now ∧ s.onlyLanes t ∧ t.out = s.out ∧ (∀ k, k ≠ l → t.laneOf k = s.laneOf k) ∧ s.sameMemory t) ∧
     (∀ h, x.huntAt = some h → s.isEth l = false → h + 1000000 < s.now → s.inReset = false →
       ∃ t, exec (.huntTimeout l) s = .next t ∧ (t.laneOf l).st = lsRetrain ∧ (t.laneOf l).retrainAt = some s.now ∧
         (t.source srcLaneRetrain).reg.events = (s.source srcLaneRetrain).reg.events + 1 ∧ s.onlyLanesTally t ∧ s.sameMemory t) ∧
     (∀ d, s.stepLimit l = some d → x.stepAt + d < s.now → s.inReset = false →
       ∃ t, exec (.laneBringupTimeout l) s = .next t ∧ (t.laneOf l).st = lsFault ∧ (t.laneOf l).faultAt = s.now ∧
         (t.source srcLaneFault).reg.events = (s.source srcLaneFault).reg.events + 1 ∧ s.onlyLanesTally t ∧ s.sameMemory t) ∧
     (s.laneCanRun l = true →
       (∀ r, x.retrainAt = some r → r + 200000000 < s.now →
         ∃ t, exec (.retrainTimeout l) s = .next t ∧ (t.laneOf l).st = lsWait ∧ (t.laneOf l).stat.blockLock = false ∧
           s.onlyLanes t ∧ t.out = s.out ∧ (∀ k, k ≠ l → t.laneOf k = s.laneOf k) ∧ s.sameMemory t) ∧
       (x.st = lsFault → x.faultAt + 10000000000 ≤ s.now →
         ∃ t, exec (.laneFaultRetry l) s = .next t ∧ (t.laneOf l).st = lsWait ∧ s.onlyLanes t ∧ t.out = s.out ∧
           (∀ k, k ≠ l → t.laneOf k = s.laneOf k) ∧ s.sameMemory t))) ∧
  (∀ (s : State) (l : LaneId) (errors : Nat) (h v : Int) (rest : List (Int × Int)),
     (s.laneOf l).eye.status = 1 → (s.laneOf l).eyeLeft = (h, v) :: rest →
     ∃ t, exec (.eyeScanPoint l errors) s = .next t ∧ (t.laneOf l).eyeLeft = rest ∧
       (t.laneOf l).eyePts = (s.laneOf l).eyePts ++
         [BitVec.ofNat 32 (codeOf 8 h + codeOf 8 v <<< 8 + (min errors 65535) <<< 16)] ∧
       (t.laneOf l).eye.pointsDone = (s.laneOf l).eye.pointsDone + 1 ∧
       (t.laneOf l).eye.status = (if rest = [] then 2 else 1) ∧ s.onlyLanes t ∧ t.out = s.out ∧
       (∀ k, k ≠ l → t.laneOf k = s.laneOf k) ∧ s.sameMemory t)

/-- Block lock (R35): out of lock the 64th valid header in a row gives lock and an invalid one starts the count again; in lock
the 16th invalid header of a window of 64 loses it. The repeated and timed blocks of a PLF lane (R37, R39, R41, R43):
ACK_REPEAT, REPLAY_TIMEOUT, FILLER and FILL_GAP. -/
def Obligations.BlockLockAndTimedBlocks : Prop :=
  (∀ (s : State) (l : LaneId) (hdr : BitVec 2) (payload : BitVec 64) (reads : Nat), s.receiving l = true →
     (s.laneOf l).rxSinceFill < 2048 →
     let x := s.laneOf l
     let good := hdr = 1 ∨ hdr = 2
     ∃ t, exec (.blockReceived l hdr payload reads) s = .next t ∧ s.sameMemory t ∧
       (x.stat.blockLock = false → good → x.valid + 1 < 64 → (t.laneOf l).valid = x.valid + 1 ∧ (t.laneOf l).stat.blockLock = false ∧
         (t.laneOf l).cnt.rxBlocks = x.cnt.rxBlocks + 1) ∧
       (x.stat.blockLock = false → good → x.valid + 1 = 64 → (t.laneOf l).stat.blockLock = true) ∧
       (x.stat.blockLock = false → ¬ good → (t.laneOf l).valid = 0 ∧ (t.laneOf l).stat.blockLock = false) ∧
       (x.stat.blockLock = true → ¬ good → x.winBad + 1 = 16 →
         (t.laneOf l).stat.blockLock = false ∧ (t.laneOf l).stat.lockLost = true ∧
         (t.laneOf l).cnt.lockLoss = x.cnt.lockLoss + 1 ∧ (t.laneOf l).cnt.badHdr = x.cnt.badHdr + 1 ∧
         (x.st = lsUp → x.retrainAt = none → (t.laneOf l).st = lsHunt ∧ (t.laneOf l).huntAt = some s.now) ∧
         (x.retrainAt ≠ none → (t.laneOf l).st = lsRetrain))) ∧
  (∀ (s : State) (l : LaneId), s.isEth l = false →
     let x := s.laneOf l
     (∀ p, x.st = lsUp → x.ackAt + 1000 ≤ s.now → x.lastAck = some p → x.nakPending = false →
       exec (.ackRepeat l) s = .next ((s.onLane l fun y => { y with ackAt := s.now }).emit (.laneBlock l p))) ∧
     (x.st = lsUp → x.held ≠ [] → x.releaseAt + 2000 ≤ s.now → x.requests + 1 < (s.cfgOf l).replayLimit.toNat →
       ∃ t, exec (.replayTimeout l) s = .next t ∧ (t.laneOf l).held = x.held ∧ (t.laneOf l).requests = x.requests + 1 ∧
         (t.laneOf l).cnt.replayTmo = x.cnt.replayTmo + 1 ∧
         (t.laneOf l).cnt.txReplay = x.cnt.txReplay + BitVec.ofNat 32 x.held.length ∧
         t.out = s.out ++ x.held.map (fun g => Output.laneFrame l g.seq g.packet (frameCrc g.seq g.packet)) ∧ s.onlyLanes t ∧
         (∀ k, k ≠ l → t.laneOf k = s.laneOf k) ∧ s.sameMemory t) ∧
     (x.st ≠ lsOff → 1024 * 66 * 100 ≤ (s.now - x.fillAt) * 10625 →
       exec (.filler l) s = .next ((s.onLane l fun y => { y with fillAt := s.now }).emit (.laneBlock l 0x99))) ∧
     (2 ≤ x.st.toNat → x.st.toNat ≤ 6 → 2048 ≤ x.rxSinceFill → s.inReset = false →
       ∃ t, exec (.fillGap l) s = .next t ∧ (t.laneOf l).cnt.fillGap = x.cnt.fillGap + 1 ∧ (t.laneOf l).rxSinceFill = 0 ∧
         (t.laneOf l).stat.fillBad = true ∧ (t.source srcLaneFill).reg.events = (s.source srcLaneFill).reg.events + 1 ∧
         s.onlyLanesTally t ∧ s.sameMemory t))

/-- The Ethernet personality (R58, R59): alignment, training, its loss, remote fault, and what becomes of a received frame: a bad one is
counted, a good one goes to the parser, and on an egress port every one but PAUSE and PFC counts in RX_DISCARD; a looped port takes
its own frames (Table 02-9). -/
def Obligations.EthernetLaneEvents : Prop :=
  ∀ (s : State) (l : LaneId), s.isEth l = true →
    let x := s.laneOf l
    (x.st = lsHunt →
      ∃ t, exec (.ethPcsAligned l) s = .next t ∧ (t.laneOf l).stat.blockLock = true ∧
        (t.laneOf l).st = (if (s.cfgOf l).ethTrain then lsTrain else lsUp) ∧ s.onlyLanes t ∧ s.sameMemory t) ∧
    (x.st = lsTrain → ∃ t, exec (.ethTrainDone l true) s = .next t ∧ (t.laneOf l).st = lsUp ∧ s.onlyLanes t ∧ s.sameMemory t) ∧
    (x.st = lsTrain →
      ∃ t, exec (.ethTrainDone l false) s = .next t ∧ (t.laneOf l).st = lsFault ∧ s.onlyLanesTally t ∧ s.sameMemory t) ∧
    (x.st = lsUp → s.laneCanRun l = true →
      ∃ t, exec (.ethAlignLoss l) s = .next t ∧ (t.laneOf l).st = lsWait ∧ (t.laneOf l).stat.lockLost = true ∧
        (t.laneOf l).cnt.lockLoss = x.cnt.lockLoss + 1 ∧ s.onlyLanes t ∧ s.sameMemory t) ∧
    (∀ on, s.isEgress l = true → s.looped l = false →
      exec (.remoteFault l on) s = .next (s.onLane (s.portOf l) fun y => { y with remoteFault := on })) ∧
    (∀ frame fec, s.ethPortRuns (s.portOf l) = false → exec (.ethFrameReceived l frame fec) s = .next s) ∧
    (∀ frame fec, s.ethPortRuns (s.portOf l) = true → s.looped l = true →
      (s.loopRest (s.portOf l) (framesOn (s.portOf l)) = [] → exec (.ethFrameReceived l frame fec) s = .next s) ∧
      (∀ own rest, s.loopRest (s.portOf l) (framesOn (s.portOf l)) = own :: rest →
        exec (.ethFrameReceived l frame fec) s = .next ((s.loopTook (s.portOf l)).ethFrame l own))) ∧
    (∀ frame fec, s.ethPortRuns (s.portOf l) = true → s.looped l = false →
      let q := s.portOf l
      let u := s.fecSeen l fec
      let discard (v : State) : State := if s.isEgress l then v.onLaneCnt q fun c => { c with dupFrames := c.dupFrames + 1 } else v
      ((u.laneOf l).cnt.badHdr = x.cnt.badHdr + BitVec.ofNat 32 fec.symErrors ∧
        (u.laneOf q).cnt.unkCtrl = (s.laneOf q).cnt.unkCtrl + BitVec.ofNat 32 fec.corrected ∧
        (u.laneOf q).cnt.fillGap = (s.laneOf q).cnt.fillGap + BitVec.ofNat 32 fec.uncorrectable ∧ s.onlyLanes u) ∧
      (fec.uncorrectable ≠ 0 → exec (.ethFrameReceived l frame fec) s = .next (discard u)) ∧
      (fec.uncorrectable = 0 → frame.length < 64 ∨ 9216 < frame.length →
        exec (.ethFrameReceived l frame fec) s = .next (discard (u.onLaneCnt q fun c => { c with formErr := c.formErr + 1 }))) ∧
      (fec.uncorrectable = 0 → 64 ≤ frame.length → frame.length ≤ 9216 → fcsOk frame = false →
        exec (.ethFrameReceived l frame fec) s = .next (discard (u.onLaneCnt q fun c => { c with crcErr := c.crcErr + 1 }))) ∧
      (fec.uncorrectable = 0 → 64 ≤ frame.length → frame.length ≤ 9216 → fcsOk frame = true →
        ∃ t, exec (.ethFrameReceived l frame fec) s = .next t ∧
          (t.laneOf q).cnt.rxFrames = (s.laneOf q).cnt.rxFrames + 1 ∧ t.out = s.out ∧ s.onlyLanes t ∧ s.sameMemory t ∧
          (isPause frame = true → (t.laneOf q).cnt.nakSent = (s.laneOf q).cnt.nakSent + 1 ∧ t.lane.arrivals = s.lane.arrivals) ∧
          (isPause frame = false → s.isEgress l = true →
            (t.laneOf q).cnt.dupFrames = (s.laneOf q).cnt.dupFrames + 1 ∧ t.lane.arrivals = s.lane.arrivals) ∧
          (isPause frame = false → s.isEgress l = false → t.lane.arrivals = s.lane.arrivals ++ [⟨q, frame, true⟩])))

/-! ### Packets in and out, and the front end (chapters 03 to 06) -/

/-- Ingress and egress packets (R66 to R74, R84, R410): a packet that fails a test is counted by its cause and nothing else; a sample
packet that passes counts in PKTS_OK and moves the front index; a status packet is relayed; the first packet of a port goes
out within its pace or window; a producer that has waited more than 100 ms raises EGRESS_STALL, once for a wait. -/
def Obligations.PacketsInAndOut : Prop :=
  (∀ (s : State) (l : LaneId) (bytes : List Byte), s.isEgress l = false →
    let u := s.takeArrival l bytes
    let o := octetOf l
    (s.riding = true → exec (.ingressSamplePacket l bytes) s =
      .next (u.onBellStat fun x => { x with rideDiscard := x.rideDiscard + 1 })) ∧
    (∀ d, s.riding = false → u.parsePacket l bytes 1 = .error d →
      exec (.ingressSamplePacket l bytes) s = .next (u.discard o d) ∧ u.discard o d = { s with lane := (u.discard o d).lane } ∧
      s.sameMemory (u.discard o d)) ∧
    (∀ p ks, s.riding = false → u.parsePacket l bytes 1 = .ok p → p.fmt.chanBase ≤ p.chan → p.chan - p.fmt.chanBase < s.coarse p.sub →
      p.count % p.fmt.samples = 0 → s.parser[p.sub].start = some ks → s.active p.sub = true → ks ≤ p.count →
      s.parser[p.sub].next ≤ p.count / s.slotLen p.sub → p.count < s.parser[p.sub].front + 2 ^ 24 →
      (∀ e ∈ packetCells p (s.coarse p.sub) (s.slotLen p.sub),
        SMap.get none (s.parser[p.sub].slot (p.count / s.slotLen p.sub)).cells e.1 = none) →
      ∃ t, exec (.ingressSamplePacket l bytes) s = .next t ∧ t.parser[p.sub].front = max s.parser[p.sub].front (p.count + p.fmt.samples) ∧
        t.parser[p.sub].lastOk = s.now ∧ t.parser[p.sub].future = none ∧
        (t.octet o).ingr.pktsOk = (s.octet o).ingr.pktsOk + 1 ∧ (∀ i, i ≠ p.sub → t.parser[i] = s.parser[i]) ∧
        t = { s with lane := t.lane, parser := t.parser } ∧ s.sameMemory t) ∧
    (∀ d, u.parsePacket l bytes 2 = .error d → exec (.ingressStatusPacket l bytes) s = .next (u.discard o d)) ∧
    (∀ p, u.parsePacket l bytes 2 = .ok p → p.fmt.statusEvery ≤ SMap.get 0 s.parser[p.sub].since (p.block * 128 + p.group) →
      ∃ t, exec (.ingressStatusPacket l bytes) s = .next t ∧ (t.octet o).ingr.statusOk = (s.octet o).ingr.statusOk + 1 ∧
        t.parser[p.sub].since = SMap.set 0 s.parser[p.sub].since (p.block * 128 + p.group) 0 ∧
        t = { s with lane := t.lane, parser := t.parser, fmt := t.fmt } ∧ s.sameMemory t) ∧
    (∀ (i : SubId) (at' : Nat), s.parser[i].future = some at' → s.parser[i].jumped = false → at' + 1000000000 ≤ s.now → s.inReset = false →
      ∃ t, exec (.ingressJump i) s = .next t ∧ t.parser[i].jumped = true ∧
        (t.source srcIngressJump).reg.events = (s.source srcIngressJump).reg.events + 1 ∧
        t = { s with parser := t.parser, tally := t.tally, bench := t.bench, out := t.out } ∧ s.sameMemory t)) ∧
  (∀ (s : State) (m : LaneId) (q : Staged) (rest : List Staged), s.fmt.ports[m].queue = q :: rest → s.portOpen m = true →
    s.fmt.blocked = [] →
    let rate := fieldOf (s.portWord m.val 7) 0 16
    let burst := fieldOf (s.portWord m.val 7) 16 16
    let x := s.laneOf m
    let packet := pad8 q.bytes
    (s.isEth m = true → rate = 0 ∨ (s.frameOf m q).length * 80 ≤ s.fmt.ports[m].tokensAt rate burst s.now →
      ∃ t, exec (.egressFrameSend m) s = .next t ∧ t.fmt.ports[m].queue = rest ∧ t.out = s.out ++ [.ethFrame m (s.frameOf m q)] ∧
        (∀ k, k ≠ m → t.fmt.ports[k] = s.fmt.ports[k]) ∧ t = { s with fmt := t.fmt, lane := t.lane, out := t.out } ∧
        s.sameMemory t) ∧
    (s.isEth m = true → rate ≠ 0 → s.fmt.ports[m].tokensAt rate burst s.now < (s.frameOf m q).length * 80 →
      exec (.egressFrameSend m) s = .next s) ∧
    (s.isEth m = false → packet.length ≤ 1024 → x.isUp = true → heldBlocks x.held + packet.length / 8 + 2 ≤ 512 →
      ∃ t, exec (.egressFrameSend m) s = .next t ∧ t.fmt.ports[m].queue = rest ∧
        t.out = s.out ++ [.laneFrame m x.nextSeq packet (frameCrc x.nextSeq packet)] ∧
        (t.laneOf m).held = x.held ++ [⟨x.nextSeq, packet⟩] ∧ (t.laneOf m).nextSeq = x.nextSeq + 1 ∧
        (∀ k, k ≠ m → t.laneOf k = s.laneOf k) ∧ t = { s with fmt := t.fmt, lane := t.lane, out := t.out } ∧ s.sameMemory t)) ∧
  (∀ (s : State) (n : Fin 64) (ms : Nat),
    ((∃ w ∈ s.fmt.stalls, w.fmt = n ∧ w.told = false ∧ w.since + ms * 1000000 ≤ s.now) → 100 < ms → s.inReset = false →
      ∃ t, exec (.egressStall n ms) s = .next t ∧
        t.fmt.stalls = s.fmt.stalls.map (fun w => if w.fmt = n then { w with told := true } else w) ∧
        t.fmt.egr = s.fmt.egr ∧ t.fmt.blocked = s.fmt.blocked ∧
        (t.source srcEgressStall).reg.events = (s.source srcEgressStall).reg.events + 1 ∧
        (t.source srcEgressStall).reg.lastDetail = BitVec.ofNat 32 n.val ∧
        t = { s with fmt := t.fmt, tally := t.tally, bench := t.bench, out := t.out } ∧ s.sameMemory t) ∧
    ((∀ w ∈ s.fmt.stalls, w.fmt = n → w.told = true ∨ s.now < w.since + ms * 1000000) ∨ ms ≤ 100 →
      exec (.egressStall n ms) s = .next s))

/-- The front end (R98, R103, R104, R126 to R132): a slice takes its oldest passed slot; a cross-fade that is over swaps the banks;
a frame of the Assay goes into the Cellar; GAIN_COMMIT takes the shadow gains at once or from the next boundary, and the copies are alike
again after it; a boundary completes the levels of its span. -/
def Obligations.FrontEndSteps : Prop :=
  (∀ (s : State) (i : SubId) (sl : SliceId) (slot : Slot) (who : List SliceId),
    s.parser[i].passed.find? (fun e => e.2.contains sl) = some (slot, who) → s.active i = true → s.islandOn (sliceIsland sl) = true →
    s.sieve[i].returned.contains sl = false →
    ∃ t, exec (.sieveSlot i sl) s = .next t ∧ (∀ e ∈ t.parser[i].passed, e.1.q = slot.q → e.2.contains sl = false) ∧
      (∀ j, j ≠ i → t.parser[j] = s.parser[j]) ∧ s.sameMemory t) ∧
  (∀ (s : State) (i : SubId) (f : Fade) (rest : List Fade), s.sieve[i].fades = f :: rest → s.active i = true →
    s.allFormed i (f.n0 + f.len) = true →
    ∃ t, exec (.xfadeEnd i) s = .next t ∧ t.sieve[i].stat.activeBank = !f.leaves ∧ t.sieve[i].fades = rest ∧
      t.sieve[i].stat.swaps = s.sieve[i].stat.swaps + 1 ∧ t.sieve[i].stat.standbyValid = true ∧
      (∀ j, j ≠ i → t.sieve[j] = s.sieve[j]) ∧ t = { s with sieve := t.sieve } ∧ s.sameMemory t) ∧
  (∀ (s : State) (sl : SliceId) (a : AssayIn) (rest : List AssayIn), s.front.assayIn[sl] = a :: rest →
    ∃ t, exec (.assayFrame sl) s = .next t ∧ t.front.assayIn[sl] = rest ∧ (∀ k, k ≠ sl → t.front.assayIn[k] = s.front.assayIn[k])) ∧
  (∀ (s : State) (i : SubId),
    (s.front.assay[i].stat.gainPending = true → exec (.gainCommit i) s = .next s) ∧
    (s.front.assay[i].stat.gainPending = false → s.active i = true →
      ∃ t, exec (.gainCommit i) s = .next t ∧ t.front.assay[i].gainAt = some (s.frontSpan i * 32768) ∧
        t.front.assay[i].stat.gainPending = true ∧ t.front.assay[i].active = s.front.assay[i].active ∧
        (∀ j, j ≠ i → t.front.assay[j] = s.front.assay[j]) ∧ t = { s with front := t.front } ∧ s.sameMemory t) ∧
    (s.front.assay[i].stat.gainPending = false → s.active i = false →
      ∃ t, exec (.gainCommit i) s = .next t ∧ t.front.assay[i].active = s.front.assay[i].shadow ∧
        t.front.assay[i].shadow = s.front.assay[i].active ∧ t.front.assay[i].stat.gainPending = false ∧
        (∀ j, j ≠ i → t.front.assay[j] = s.front.assay[j]) ∧ t = { s with front := t.front } ∧ s.sameMemory t) ∧
    (∀ n0, s.front.assay[i].gainAt = some n0 → n0 = 0 ∨ s.assayPast i n0 = true →
      ∃ t, exec (.gainCopyback i) s = .next t ∧ t.front.assay[i].active = s.front.assay[i].shadow ∧
        t.front.assay[i].shadow = s.front.assay[i].shadow ∧ t.front.assay[i].gainAt = none ∧
        t.front.assay[i].stat.gainPending = false ∧ t = { s with front := t.front } ∧ s.sameMemory t) ∧
    (s.active i = true → s.assayPast i (s.front.assay[i].span * 32768) = true →
      ∃ t, exec (.frontEndSpanBoundary i) s = .next t ∧ t.front.assay[i].span = s.front.assay[i].span + 1 ∧
        t.front.assay[i].levels = (s.inputs i).foldl (fun (m : SMap AssyLevels) k =>
          SMap.set {} m k (s.front.assay[i].levelOf (s.front.assay[i].span - 1) k)) s.front.assay[i].levels ∧
        t.front.assay[i].stat.lastSpan = BitVec.ofNat 64 (s.front.assay[i].span - 1) ∧ s.sameMemory t))

/-- The marker code (R12): it is 0x88, or 0x80 twice; an invalid fine sample is written as it in place; the input stage reads it as
invalid; and no value that the Assay requantises is it, for a curve of the levels its format has. -/
def Obligations.MarkerCodeStandsForInvalid : Prop :=
  (∀ (s : State) (i : SubId), s.marker i = (if s.cellar[i].cfg.format then [0x80, 0x80] else [0x88]) ∧
    (decodeSample s.cellar[i].cfg.format (s.marker i)).1 = false ∧
    s.filled i (List.replicate (s.sampleBytes i) none) = s.marker i) ∧
  (∀ (s : State) (a : AssayIn) (b : Nat), a.valid = false →
    s.assayBin a b = s.cellarWrite a.sub a.input (a.chan * s.fineLen a.sub + (b + s.fineLen a.sub / 2) % s.fineLen a.sub) a.n
      (s.marker a.sub)) ∧
  (∀ (c : Curve) (qr qi : Int), c.ts.length ≤ (if c.wide then 127 else 7) →
    decodeSample c.wide (packSample c.wide (c.part qr) (c.part qi)) = (true, (c.part qr, c.part qi), false) ∧
    packSample c.wide (c.part qr) (c.part qi) ≠ (if c.wide then [0x80, 0x80] else [0x88]))

/-- Rounding half to even (R86): the result is within half a unit, a tie goes to an even number, and a shift of zero changes
nothing. The butterflies are Fourier transforms (R120): BF4 gives sum over l of a_l times (-i)^(l q), BF2 the sum and the
difference. -/
def Obligations.MillArithmetic : Prop :=
  (∀ (v : Int) (n : Nat),
     (2 * (shrEven v n * 2 ^ n - v)).natAbs ≤ 2 ^ n ∧
     ((2 * (shrEven v n * 2 ^ n - v)).natAbs = 2 ^ n → shrEven v n % 2 = 0) ∧ shrEven v 0 = v) ∧
  (∀ (a : Nat → Cplx) (q : Fin 4),
    let turn (n : Nat) (v : Cplx) : Cplx :=
      if n % 4 = 0 then v else if n % 4 = 1 then (v.2, -v.1) else if n % 4 = 2 then (-v.1, -v.2) else (-v.2, v.1)
    (bf4Of (a 0) (a 1) (a 2) (a 3)).getD q.val (0, 0) = cSum ((List.range 4).map fun l => turn (l * q.val) (a l))) ∧
  (∀ a b c d : Cplx, bf2Of a b c d = [(a.1 + b.1, a.2 + b.2), (a.1 - b.1, a.2 - b.2), (c.1 + d.1, c.2 + d.2), (c.1 - d.1, c.2 - d.2)])

/-- One instruction of a Mill engine (R114 to R123): the engine that runs a legal instruction goes on to the next address, or to its
jump, with the effect of the opcode; a LOAD with no frame waits; a reserved word faults; other engines are not touched. -/
def Obligations.MillInstructions : Prop :=
  ∀ (s : State) (e : EngineId) (k : Kernel), (s.engine e).kernel = some k → (s.engine e).stat.state = 1 →
    (s.engine e).pc < k.count → (k.instr (s.engine e).pc).legal = true →
    let w := k.instr (s.engine e).pc
    let x := (s.engine e).waited s.now
    (w.op = opNop → ∃ t, exec (.nop e) s = .next t ∧ t.engine e = x.proceed none ∧ s.onlyEngine e t) ∧
    (w.op = opJump → ∃ t, exec (.jump e) s = .next t ∧ t.engine e = x.proceed (some w.target) ∧
      (t.engine e).pc = w.target ∧ s.onlyEngine e t) ∧
    (w.op = opSetreg → ∃ t, exec (.setreg e) s = .next t ∧ t.engine e = (x.setReg w.reg w.w3.toNat).proceed none ∧
      (t.engine e).regs = SMap.set 0 (s.engine e).regs w.reg (w.w3.toNat % 2 ^ regWidth (w.reg % 16)) ∧ s.onlyEngine e t) ∧
    (w.op = opLoop → x.loops.length < 4 → ∃ t, exec (.loop e) s = .next t ∧ (t.engine e).pc = x.pc + 1 ∧
      (t.engine e).loops = ⟨x.pc + 1, w.target, w.countM1⟩ :: x.loops ∧ s.onlyEngine e t) ∧
    (w.op = opLoop → 4 ≤ x.loops.length → ∃ t, exec (.loop e) s = .next t ∧ (t.engine e).stat.state = 2 ∧
      (t.engine e).stat.faultCode = 2 ∧ (t.engine e).queue = []) ∧
    (∀ y j, w.op = opMove → x.arith w s.freeNat (fun vs => vs) = .done y none j →
      ∃ t, exec (.move e) s = .next t ∧ t.engine e = (y.postAll w).proceed j ∧ s.onlyEngine e t) ∧
    (∀ y j, w.op = opBf4 → x.butterfly k w s.freeNat bf4Of (fun lane => lane % 4) = .done y none j →
      ∃ t, exec (.bf4 e) s = .next t ∧ t.engine e = (y.postAll w).proceed j ∧ s.onlyEngine e t) ∧
    (∀ y j, w.op = opBf2 → x.butterfly k w s.freeNat bf2Of (fun lane => lane % 2) = .done y none j →
      ∃ t, exec (.bf2 e) s = .next t ∧ t.engine e = (y.postAll w).proceed j ∧ s.onlyEngine e t) ∧
    (∀ y j, w.op = opCmul →
      x.arith w s.freeNat (fun vs => twVec vs (x.coefs k w.twAg (fun lane => s.freeNat (128 + lane)) s.freeNat)) = .done y none j →
      ∃ t, exec (.cmul e) s = .next t ∧ t.engine e = (y.postAll w).proceed j ∧ s.onlyEngine e t) ∧
    (∀ y j, w.op = opLoad → x.loadVec w (x.vecAddrs w.wrAg fun n => s.freeNat (64 + n)) none = .done y none j →
      ∃ t, exec (.load e) s = .next t ∧ t.engine e = (y.postAll w).proceed j ∧ s.onlyEngine e t) ∧
    (w.op = opLoad → x.loading = none → x.queue = [] →
      ∃ t, exec (.load e) s = .next t ∧ (t.engine e).waitAt = some ((s.engine e).waitAt.getD s.now) ∧
        (t.engine e).pc = (s.engine e).pc ∧ s.onlyEngine e t) ∧
    (∀ y z j, w.op = opUnload → x.unloadVec k w (x.vecAddrs w.rdAg s.freeNat) = (y, none) →
      y.passOver w (x.outSlotOf w) (y.slots[x.outSlotOf w]) none = .done z none j →
      ∃ t, exec (.unload e) s = .next t ∧ t.engine e = (z.postAll w).proceed j ∧ s.onlyEngine e t) ∧
    (∀ y z m p f j, w.op = opUnload → x.unloadVec k w (x.vecAddrs w.rdAg s.freeNat) = (y, some (m, p)) → m.frame = some f → f.null = false →
      y.passOver w (x.outSlotOf w) (y.slots[x.outSlotOf w]) (some (m, p)) = .done z (some (m, p)) j →
      ∃ t, exec (.unload e) s = .next t ∧
        t.front.assayIn[sliceOf e] = s.front.assayIn[sliceOf e] ++
          [⟨f.sub, f.input, f.chan, f.n, true, m.e, (List.range p).map fun b => SMap.get (0, 0) m.bins b⟩] ∧
        (t.engine e).stat.frames = y.stat.frames + 1) ∧
    (∀ y z j, w.op = opXfer → ¬(x.loading = none ∧ x.queue = []) → w.rdAg ≠ w.wrAg →
      x.unloadVec k w (x.vecAddrs w.rdAg s.freeNat) = (y, none) →
      y.loadVec w (x.vecAddrs w.wrAg fun n => s.freeNat (64 + n)) none = .done z none j →
      ∃ t, exec (.xfer e) s = .next t ∧ t.engine e = (z.postAll w).proceed j ∧ s.onlyEngine e t) ∧
    (∀ at', (s.engine e).waitAt = some at' → (s.engine e).queue = [] → 4096 ≤ millCycles (s.now - at') →
      ∃ t f, exec (.nullFrame e) s = .next t ∧ (t.engine e).queue = [f] ∧ f.null = true ∧ f.data.length = 2 ^ k.pLog2 ∧
        s.onlyEngine e t)

/-- The Cellar and the Shelf (R138, R141, R149): a span is available 100 µs after it is filled; a unit copied into the Shelf is the
bytes of its bay, and its jobs join the queue; an uncorrectable word stages its unit again while its bay holds its span. -/
def Obligations.CellarAndShelfSteps : Prop :=
  (∀ (s : State) (i : SubId) (since : Nat), let k := s.cellar[i].avail
    (k, since) ∈ s.cellar[i].ready → since + 100000 ≤ s.now →
    ∃ t, exec (.spanAvailable i) s = .next t ∧ t.cellar[i].avail = k + 1 ∧ t.cellar[i].openOf k = none ∧
      (∀ e ∈ t.cellar[i].ready, e.1 ≠ k) ∧
      (∀ o, s.cellar[i].openOf k = some o → ∀ sl : SliceId, ∀ g ∈ t.combine sl, ¬(g.sub = i ∧ g.span = k))) ∧
  (∀ (s : State) (i : SubId), (∀ e ∈ s.cellar[i].ready, e.1 = s.cellar[i].avail → s.now < e.2 + 100000) →
    exec (.spanAvailable i) s = .next s) ∧
  (∀ (s : State) (i : SubId) (v : Overrun), s.cellar[i].overrun = some v →
    (s.cellar[i].copying v.old = true → exec (.condemn i) s = .next s) ∧
    (s.cellar[i].copying v.old = false →
      let t := (s.condemn i v.old).openAt i v.new v.bay
      exec (.condemn i) s = .next (((t.flushFull i).noteFilled i).settled i) ∧
      t.cellar[i].next = v.new + 1 ∧ t.cellar[i].overrun = none ∧ (t.cellar[i].openOf v.old = none ∨ v.old = v.new) ∧
      t.cellar[i].stat.overrunSpans = s.cellar[i].stat.overrunSpans + 1)) ∧
  (∀ (s u : State) (i : SubId) (g : Staging) (bay : Nat) (data : List Byte), Memory.wf s.mem = true → s.cellar[i].buffers[(0 : Fin 2)] = some g →
    g.staged = false → g.again = false → s.cellar[i].buffers[(1 : Fin 2)] = none → s.cellar[i].sourceBay g.span = some bay →
    s.granRead (s.bayAddr i bay + ((s.unitParts i g.unit).1 * 512 + 64 * (s.unitParts i g.unit).2.1) * s.nb i * s.brick i +
      (s.unitParts i g.unit).2.2 * s.cellar[i].cfg.shelfUnit.toNat) s.cellar[i].cfg.shelfUnit.toNat = (u, some data) →
    ∃ t, exec (.unitStaged i) s = .next t ∧ t.mem.load (s.shelfAddr i 0) data.length = data ∧
      (∀ a, a < s.shelfAddr i 0 ∨ s.shelfAddr i 0 + data.length ≤ a → t.mem.byte a = s.mem.byte a) ∧
      t.loom[i].queue = s.loom[i].queue ++ s.jobsOf i g.span g.unit ∧
      t.loom[i].beamQueue = s.loom[i].beamQueue ++ s.beamJobsOf i g.span g.unit) ∧
  (∀ (s : State) (i : SubId),
    (∃ t, exec (.shelfEcc i .corrected) s = .next t ∧ t.cellar[i].stat.shelfCorr = s.cellar[i].stat.shelfCorr + 1 ∧
      (∀ j, j ≠ i → t.cellar[j] = s.cellar[j]) ∧ t = { s with cellar := t.cellar } ∧ s.sameMemory t) ∧
    (∀ (n : Fin 2) (g : Staging), s.cellar[i].buffers[n] = some g → g.staged = true → (s.cellar[i].bayOf g.span).isSome = true →
      ∃ t, exec (.shelfEcc i (.buffer n)) s = .next t ∧
        t.cellar[i].buffers[n] = some { g with staged := false, again := true } ∧ t.cellar[i].stat.shelfErrSeen = true ∧
        t.cellar[i].stat.shelfRestage = s.cellar[i].stat.shelfRestage + 1 ∧ s.sameMemory t) ∧
    (∀ (n : Fin 2) (g : Staging), s.cellar[i].buffers[n] = some g → g.staged = true → s.cellar[i].bayOf g.span = none →
      let u := (s.onCellStat i fun x => { x with shelfErrSeen := true }).raise srcShelfEcc (BitVec.ofNat 32 i.val) (some i)
      exec (.shelfEcc i (.buffer n)) s = .next ((u.loseUnit i g).settled i) ∧
      (u.loseUnit i g).cellar[i].isCondemned g.span g.unit = true ∧ s.sameMemory (u.loseUnit i g)) ∧
    (∀ n : Fin 2, (∀ g, s.cellar[i].buffers[n] = some g → g.staged = false) → exec (.shelfEcc i (.buffer n)) s = .next s))

/-! ### The Loom, the Ledger and the beams (chapters 07 to 09) -/

/-- Jobs and tiles (R160 to R162, R169, R171, R180, R220): an idle tile takes the first job whose unit is staged once its set is
free, or its wait begins; after its cycles the job's cells are dumped; a dump that passes is added to its set, one that fails adds
nothing; a job that takes too long, and a lost clock, take the tile out of service; self-tests end, and count for nothing while the
tile's island is gated. -/
def Obligations.LoomJobs : Prop :=
  (∀ (s : State) (t : TileId) (i : SubId) (j : Job), s.corrSub t = some i → s.loomHeld = false → s.loom[i].running.isSome = true →
    (s.tile t).job = none →
    (s.nextJob i t = some j → s.setFree i j.span j.f = true →
      (s.stagedAt i j.span j.unit).isSome = true ∧ ∃ u, exec (.jobStart t) s = .next u ∧ (u.tile t).job = some ({ j with avoid := none, again := false, rode := false }, s.now) ∧
        u.ledger[i].sets[setOf j.f] = some (j.span, j.f) ∧ u.loom[i].queue = s.loom[i].queue.erase j ∧
        u.loom[i].shelfIdle = none ∧ u.loom[i].ledgerIdle = none ∧
        (∀ k, k ≠ t → u.tile k = s.tile k) ∧ u = { s with tiles := u.tiles, loom := u.loom, ledger := u.ledger } ∧ s.sameMemory u) ∧
    (s.nextJob i t = some j → s.setFree i j.span j.f = false →
      ∃ u, exec (.jobStart t) s = .next u ∧ u.loom[i].ledgerIdle = some (s.loom[i].ledgerIdle.getD s.now) ∧
        u.loom[i].shelfIdle = s.loom[i].shelfIdle ∧ u = { s with loom := u.loom }) ∧
    (s.nextJob i t = none → s.shelfShort i = true →
      ∃ u, exec (.jobStart t) s = .next u ∧ u.loom[i].shelfIdle = some (s.loom[i].shelfIdle.getD s.now) ∧
        u.loom[i].ledgerIdle = s.loom[i].ledgerIdle ∧ u = { s with loom := u.loom })) ∧
  (∀ (s : State) (t : TileId) (j : Job) (t0 : Nat) (n : Fin 2) (upsets : List (Nat × Cplx)), (s.tile t).job = some (j, t0) →
    (s.tile t).dump = none → s.stagedAt j.sub j.span j.unit = some n →
    (if s.cellar[j.sub].cfg.format then 4 else 1) * s.sliceLen j.sub * 20 ≤ (s.now - t0) * 33 →
    ∃ u d, exec (.jobComputeDone t upsets) s = .next u ∧ (u.tile t).job = none ∧ (u.tile t).dump = some d ∧ d.job = j ∧
      d.entries = s.jobEntries j.sub n j upsets ∧ d.row = s.checkRow j.sub n j ∧ d.col = s.checkCol j.sub n j ∧
      (∀ k, k ≠ t → u.tile k = s.tile k) ∧ u = { s with tiles := u.tiles } ∧ s.sameMemory u) ∧
  (∀ (s : State) (t : TileId) (d : Dump), (s.tile t).dump = some d → 2048 * 20 ≤ (s.now - d.since) * 33 →
    (d.passes = true →
      ∃ u, exec (.jobCheck t) s = .next u ∧ (u.tile t).dump = none ∧ (u.tile t).reg.jobs = (s.tile t).reg.jobs + 1 ∧
        (s.commitDump d.job.sub d.job.f (posIndex (s.nb d.job.sub) d.job.i d.job.j) d.entries).sameMemory u) ∧
    (d.passes = false →
      ∃ u, exec (.jobCheck t) s = .next u ∧ (u.tile t).dump = none ∧
        (u.tile t).reg.checkFail = satInc (s.tile t).reg.checkFail ∧ s.sameMemory u)) ∧
  (∀ (s : State) (t : TileId) (j : Job) (at' : Nat), (s.tile t).job = some (j, at') → at' + 50000 ≤ s.now →
    ∃ u, exec (.jobTimeout t) s = .next u ∧ (u.tile t).job = none ∧ (u.tile t).dump = none ∧ (u.tile t).reg.lastCause = 3 ∧
      ((u.tile t).reg.state = tsFailed ∨ (u.tile t).reg.state = tsRetired) ∧ s.sameMemory u) ∧
  (∀ (s : State) (t : TileId) (r : BeamRun), (s.tile t).beam = some r → r.start + 50000 ≤ s.now →
    ∃ u, exec (.jobTimeout t) s = .next u ∧ (u.tile t).beam = none ∧ (u.tile t).reg.lastCause = 3 ∧
      ((u.tile t).reg.state = tsFailed ∨ (u.tile t).reg.state = tsRetired) ∧ s.sameMemory u) ∧
  (∀ (s : State) (t : TileId), s.mode ≠ modeRide → (s.tile t).reg.state ≠ tsFailed → (s.tile t).reg.state ≠ tsRetired →
    s.islandOn (tileIsland t) = true → (s.tile t).test ≠ .restore →
    ∃ u, exec (.tileClockLoss t) s = .next u ∧ (u.tile t).job = none ∧ (u.tile t).dump = none ∧ (u.tile t).beam = none ∧ (u.tile t).reg.lastCause = 4 ∧
      ((u.tile t).reg.state = tsFailed ∨ (u.tile t).reg.state = tsRetired) ∧ s.sameMemory u) ∧
  (∀ (s : State) (t : TileId), s.mode = modeObserve → (s.tile t).reg.state = tsSpare →
    (s.tile t).testedAt + 60000000000 ≤ s.now →
    ∃ u, exec (.spareSelftest t) s = .next u ∧ (u.tile t).reg.state = tsTesting ∧ (u.tile t).test = .spare ∧
      (∀ k, k ≠ t → u.tile k = s.tile k) ∧ u = { s with tiles := u.tiles } ∧ s.sameMemory u) ∧
  (∀ (s : State) (t : TileId) (pass : Bool), s.islandOn (tileIsland t) = false → exec (.tileSelftestDone t pass) s = .next s) ∧
  (∀ (s : State) (t : TileId), (s.tile t).test = .spare → (s.tile t).asked = none → s.islandOn (tileIsland t) = true →
    ∃ u, exec (.tileSelftestDone t true) s = .next u ∧ (u.tile t).reg.state = tsSpare ∧ (u.tile t).test = .none ∧
      (u.tile t).reg.selftests = satInc (s.tile t).reg.selftests ∧ (∀ k, k ≠ t → u.tile k = s.tile k) ∧
      u = { s with tiles := u.tiles } ∧ s.sameMemory u) ∧
  (∀ (s : State) (t : TileId), (s.tile t).test = .spare → (s.tile t).asked = none → s.islandOn (tileIsland t) = true →
    ∃ u, exec (.tileSelftestDone t false) s = .next u ∧ (u.tile t).reg.state = tsRetired ∧ (u.tile t).reg.lastCause = 5 ∧
      (u.tile t).reg.selftestFail = satInc (s.tile t).reg.selftestFail ∧ s.sameMemory u)

/-- The check of a correlation job (R160): without an upset a dump passes, and one whose error is confined to three cells or fewer
fails. -/
def Obligations.SmallErrorsFailTheCheck : Prop :=
  ∀ (s : State) (i : SubId) (n : Fin 2) (j : Job) (at' since : Nat),
    let clean : Dump :=
      { job := j, start := at', since := since, entries := s.jobEntries i n j [], row := s.checkRow i n j, col := s.checkCol i n j }
    clean.passes = true ∧
    (∀ (es : List Cplx) (cells : List Nat), es.length = 16384 → cells.length ≤ 3 → es ≠ clean.entries →
      (∀ k, k ∉ cells → es.getD k (0, 0) = clean.entries.getD k (0, 0)) → ({ clean with entries := es } : Dump).passes = false)

/-- Folds (Table 08-2, R191, R194, R196): a stored or swapped entry is the SRAM's, an added one is the exact sum within ±(2^63 - 1) and a
pinned part stays; what an entry's 16 bytes hold is the entry; a dump is added entry by entry into its 48-bit set. -/
def Obligations.LedgerAccumulates : Prop :=
  (∀ a b : Int, (a = pin64 ∨ a = -pin64 → addPinned a b = a) ∧
    (a ≠ pin64 → a ≠ -pin64 → -pin64 ≤ a + b → a + b ≤ pin64 → addPinned a b = a + b) ∧
    (-pin64 ≤ a → a ≤ pin64 → -pin64 ≤ addPinned a b ∧ addPinned a b ≤ pin64)) ∧
  (∀ old v : Cplx, foldResult .store old v = some v ∧ foldResult .swap old v = some v ∧
    foldResult .add old v = some (addPinned old.1 v.1, addPinned old.2 v.2) ∧ foldResult .direct old v = none ∧
    foldResult .take old v = none ∧ foldResult .flush old v = none) ∧
  (∀ v : Cplx, -pin64 ≤ v.1 → v.1 ≤ pin64 → -pin64 ≤ v.2 → v.2 ≤ pin64 → entryOf (entryBytes v) = v) ∧
  (∀ (s : State) (i : SubId) (f p : Nat) (es : List Cplx) (k : Nat), Memory.wf s.mem = true → k < es.length →
    (s.commitDump i f p es).mem.load (s.setAddr i f p k) 12 =
      setBytesOf ((setEntryOf (s.mem.load (s.setAddr i f p k) 12)).1 + (es.getD k (0, 0)).1,
        (setEntryOf (s.mem.load (s.setAddr i f p k) 12)).2 + (es.getD k (0, 0)).2)) ∧
  (∀ (s : State) (i : SubId) (f p : Nat) (es : List Cplx) (a : Nat),
    (a < s.setAddr i f p 0 ∨ s.setAddr i f p es.length ≤ a) → (s.commitDump i f p es).mem.byte a = s.mem.byte a)

/-- Spans, folds and beams (R168, R193, R209, R221, R229, R233): the next available span starts, a boundary ends a settled one, a
settled channel is folded and its set freed; no fold starts in HOLD, nor while output waits for egress staging; a beam job begins
where its unit is staged and its store set free, and ends when its cycles have passed or a row sum is wrong;
a unit whose jobs are settled goes into the turn; a cursor builds its next packet, and none in HOLD. -/
def Obligations.SpansFoldsAndBeams : Prop :=
  (∀ (s : State) (i : SubId), s.saState i = saObserve → s.loom[i].plan.isSome = true → s.loomHeld = false →
    s.loom[i].running = none → s.loom[i].next < s.cellar[i].avail → s.obs[i].stopping = false →
    ∃ t, exec (.spanStart i) s = .next t ∧ t.loom[i].running = some s.loom[i].next ∧ t.loom[i].next = s.loom[i].next + 1 ∧
      t.loom[i].stat.span = BitVec.ofNat 64 s.loom[i].next ∧ s.sameMemory t) ∧
  (∀ (s : State) (i : SubId) (span : Nat), s.loom[i].running = some span →
    (s.loom[i].finishAt = none ∨ s.loomHeld = true → exec (.loomSpanBoundary i) s = .next s) ∧
    (s.loom[i].finishAt.isSome = true → s.loomHeld = false →
      ∃ t, exec (.loomSpanBoundary i) s = .next t ∧ t.loom[i].running = none)) ∧
  (∀ (s : State) (i : SubId), (s.mode = modeHold ∨ s.stalled i = true ∨ (s.loom[i].folds = [] ∧ s.obs[i].stopping = false)) → exec (.ledgerSetComplete i) s = .next s) ∧
  (∀ (s : State) (i : SubId) (w : SpanFold) (rest : List SpanFold), s.mode ≠ modeHold → s.stalled i = false → s.loom[i].folds = w :: rest →
    w.next + 1 < w.hi → s.chanSettled i w.span w.next = true →
    ∃ t, exec (.ledgerSetComplete i) s = .next t ∧ t.loom[i].folds = { w with next := w.next + 1 } :: rest ∧
      t.ledger[i].sets[setOf w.next] ≠ some (w.span, w.next)) ∧
  (∀ (s : State) (i : SubId),
    (∃ t, exec (.ledgerEcc i .corrected) s = .next t ∧ t.ledger[i].stat.eccCorr = s.ledger[i].stat.eccCorr + 1 ∧
      (∀ j, j ≠ i → t.ledger[j] = s.ledger[j]) ∧ t = { s with ledger := t.ledger } ∧ s.sameMemory t) ∧
    (∀ (k : TileId) (d : Dump), (s.tile k).dump = some d → d.job.sub = i →
      ∃ t, exec (.ledgerEcc i (.pending k)) s = .next t ∧ (t.tile k).dump = none ∧ s.sameMemory t) ∧
    (∀ (n : Fin 2) (e : Nat),
      ∃ t, exec (.ledgerEcc i (.setEntry n e)) s = .next t ∧ t.ledger[i].stat.eccSeen = true ∧
        t.ledger[i].sets = s.ledger[i].sets ∧ s.sameMemory t)) ∧
  (∀ (s u : State) (k : TileId) (i : SubId) (j : BeamJob) (n : Fin 2) (failAt : Option Nat), (s.tile k).beam = none → s.beamSub k = some i → s.loomHeld = false →
    s.loom[i].running.isSome = true → s.nextBeam i k = some j →
    s.fetchWeights i j.span (j.f / 2 ^ s.beam[i].cfg.wgroupLog2.toNat) = (u, true) → u.stagedAt i j.span j.unit = some n →
    ∃ t, exec (.beamJobStart k failAt) s = .next t ∧
      (t.tile k).beam = some ⟨{ j with avoid := none, again := false }, n, u.now, u.beamStop i n j failAt⟩ ∧
      t.loom[i].beamQueue = u.loom[i].beamQueue.erase j ∧
      t.beam[i].owner[(⟨j.unit % 2, Nat.mod_lt _ (by decide)⟩ : Fin 2)] = some (j.span, j.unit) ∧ s.sameMemory t) ∧
  (∀ (s : State) (k : TileId) (r : BeamRun), (s.tile k).beam = some r →
    (r.upTo s.now < r.stop → s.endBeam k = s) ∧
    (r.stop = 4096 → r.upTo s.now = 4096 → ((s.endBeam k).tile k).beam = none ∧
      ((s.endBeam k).tile k).reg.jobs = (s.tile k).reg.jobs + 1 ∧
      (s.endBeam k).beam[r.job.sub].stat.jobs = s.beam[r.job.sub].stat.jobs + 1 ∧ s.sameMemory (s.endBeam k)) ∧
    (r.stop < 4096 → r.upTo s.now = r.stop → ((s.endBeam k).tile k).beam = none ∧
      ((s.endBeam k).tile k).reg.checkFail = satInc (s.tile k).reg.checkFail)) ∧
  (∀ (s : State) (i : SubId) (k : Fin 2) (span u : Nat), s.unitReady i = some (k, span, u) →
    ∃ t, exec (.beamUnitComplete i) s = .next t ∧ t.beam[i].owner[k] = none ∧ t.beam[i].store[k] = []) ∧
  (∀ (s : State) (i : SubId) (fmt : Fin 64), s.cursorSub fmt = some i → s.obs[i].stopping = false →
    exec (.beamCursorPacket fmt) s = .next (s.cursorStep i fmt) ∧ s.sameMemory (s.cursorStep i fmt) ∧
    (s.mode = modeHold → s.cursorStep i fmt = s))

/-! ### The Granary (chapter 10) -/

/-- A request to the Granary (R245, R246): an address outside it is no address; a request to a frozen channel only counts, and gets
an error response; a read that matched changes no byte; a whole write stores its granule; three mismatches of what the request
fetches freeze the channel and give the request an error response. -/
def Obligations.GranaryServesRequests : Prop :=
  ∀ (s : State) (src : GranSource) (a : BitVec 44) (rd : ReadOutcome),
    let g := (a.toNat - granBase) / 64
    let c := s.chanOf (pageOf g)
    ((a.toNat < granBase ∨ granEnd ≤ a.toNat) → ∀ op, exec (.granaryAccess src op a rd) s = .fault .noAddress) ∧
    (Memory.wf s.mem = true → granBase ≤ a.toNat → a.toNat < granEnd → s.granServes = true →
      (∀ op, (s.chan c).stat.state = gsFrozen →
        exec (.granaryAccess src op a rd) s = .next ((s.reject c).emit (.granError src)) ∧
        ((s.reject c).chan c).stat.frozenReject = (s.chan c).stat.frozenReject + 1 ∧
        (∀ d, d ≠ c → (s.reject c).chan d = s.chan d) ∧ s.sameMemory (s.reject c)) ∧
      ((s.chan c).stat.state ≠ gsFrozen →
        (∀ data, (s.fetched g false rd).mismatches.val ≠ 3 → ∃ t, exec (.granaryAccess src (.write data) a rd) s = .next t ∧
          t.mem.load (granAddr g) 64 = bytesAt data 0 64 ∧
          (∀ k, k < granAddr g ∨ granAddr g + 64 ≤ k → t.mem.byte k = s.mem.byte k) ∧
          (t.chan c).stat.writes = (s.chan c).stat.writes + 1 ∧ t = { s with mem := t.mem, gran := t.gran }) ∧
        ((s.fetched g true rd).mismatches.val ≠ 3 → ∃ t, exec (.granaryAccess src .read a rd) s = .next t ∧ s.sameMemory t ∧
          (t.chan c).stat.reads = (s.chan c).stat.reads + 1 + BitVec.ofNat 64 (s.fetched g true rd).mismatches.val ∧
          (t.chan c).stat.retryOk = (s.chan c).stat.retryOk + (if (s.fetched g true rd).mismatches.val = 1 then 1 else 0) ∧
          (t.chan c).stat.retry2Ok = (s.chan c).stat.retry2Ok + (if (s.fetched g true rd).mismatches.val = 2 then 1 else 0) ∧
          t = { s with gran := t.gran }) ∧
        (∀ off data, (s.fetched g true rd).mismatches.val ≠ 3 → off + data.length ≤ 64 →
          ∃ t, exec (.granaryAccess src (.partialWrite off data) a rd) s = .next t ∧
            t.mem.load (granAddr g + off) data.length = data ∧
            (∀ k, k < granAddr g + off ∨ granAddr g + off + data.length ≤ k → t.mem.byte k = s.mem.byte k)) ∧
        (∀ kind (e : Fin 4) v, kind ≠ .direct → (s.fetched g (!(s.foldGroup g).read) rd).mismatches.val ≠ 3 →
          ∃ t, exec (.granaryAccess src (.fold kind e v) a rd) s = .next t ∧
            (∀ x, foldResult kind (entryOf (s.mem.load (granAddr g + 16 * e.val) 16)) v = some x →
              t.mem.load (granAddr g + 16 * e.val) 16 = entryBytes x) ∧
            (foldResult kind (entryOf (s.mem.load (granAddr g + 16 * e.val) 16)) v = none → s.sameMemory t) ∧
            (∀ k, k < granAddr g + 16 * e.val ∨ granAddr g + 16 * e.val + 16 ≤ k → t.mem.byte k = s.mem.byte k)) ∧
        ((s.fetched g true rd).mismatches.val = 3 → ∃ t, exec (.granaryAccess src .read a rd) s = .next t ∧ s.sameMemory t ∧
          t.out = s.out ++ [.granError src] ∧
          (t.chan c).stat.state = gsFrozen ∧ t.gran.freeze.frozenMask.getLsbD c.val = true ∧
          t.gran.freeze.freezes = satInc s.gran.freeze.freezes ∧
          (s.mode ≠ modeDormant → t.mode = modeHold))))

/-- The mapping is one-to-one (R242): under masks that keep the rule, the channel, subchannel, bank and row of a page tell it from
every other page. -/
def Obligations.GranaryMappingIsOneToOne : Prop :=
  ∀ (s : State) (p q : Nat), (∀ k, k < 11 → badMask k (s.gran.masks.getD k 0) = false) → p < 2 ^ 30 → q < 2 ^ 30 →
    s.hashOf p = s.hashOf q → p / 2048 = q / 2048 → p = q

/-- Refresh rate, calibration, training and zero-fill (R251, R254 to R257): a reading is kept, one above twice the nominal
rate is seen and told; training that passed goes on to the fill in a cold start, training that failed is a fault; the fill
leaves the quadrant's pages zero. Self-refresh (R252, R253): an idle channel writes its dirty check granules back and enters;
a request ends it, and the longest wait is kept; a frozen channel never enters. -/
def Obligations.GranaryBringUpAndSelfRefresh : Prop :=
  (∀ (s : State) (c : ChanId) (rate : BitVec 4) (temp : BitVec 16), (s.chan c).stat.state ≠ gsOff →
    ∃ t, exec (.refreshRateRead c rate temp) s = .next t ∧ (t.chan c).stat.refreshRate = rate ∧ (t.chan c).stat.temp = temp ∧
      (t.chan c).stat.hotSeen = ((s.chan c).stat.hotSeen || decide (12 ≤ rate.toNat)) ∧ s.sameMemory t ∧
      (rate.toNat < 12 → t = { s with gran := t.gran })) ∧
  (∀ s : State, exec .zqCalibration s = .next s) ∧
  (∀ (s : State) (q : Fin 4) (failed : BitVec 8),
    ∃ t, exec (.granaryTrainingDone q failed) s = .next t ∧ s.sameMemory t ∧
      (∀ c : ChanId, c.val / 8 = q.val → (s.chan c).stat.state = gsTraining →
        (t.chan c).stat.state = (if failed.getLsbD (c.val % 8) then gsFault else if s.coldStart then gsFilling else gsActive)) ∧
      (∀ c : ChanId, (c.val / 8 ≠ q.val ∨ (s.chan c).stat.state ≠ gsTraining) → t.chan c = s.chan c)) ∧
  (∀ (s : State) (q : Fin 4) (c : ChanId), c.val / 8 = q.val → (s.chan c).stat.state = gsFilling →
    ∃ t, exec (.zeroFillDone q) s = .next t ∧ (t.chan c).stat.state = gsActive ∧
      (∀ a, granBase ≤ a → a < granEnd → (s.chanOf (pageOf ((a - granBase) / 64))).val / 8 = q.val → t.mem.byte a = 0) ∧
      (∀ a, (a < granBase ∨ granEnd ≤ a ∨ (s.chanOf (pageOf ((a - granBase) / 64))).val / 8 ≠ q.val) →
        t.mem.byte a = s.mem.byte a) ∧
      t = { s with mem := t.mem, gran := t.gran }) ∧
  (∀ (s : State) (c : ChanId),
     (∀ t, s.srIdleNs = some t → (s.chan c).stat.state = gsActive → (s.chan c).lastReq + t ≤ s.now →
       ∃ u, exec (.srIdle c) s = .next u ∧ (u.chan c).stat.state = gsSelf ∧ (∀ e ∈ (u.chan c).cache, e.2 = false) ∧
         (u.chan c).stat.srEntries = (s.chan c).stat.srEntries + 1 ∧ (∀ d, d ≠ c → u.chan d = s.chan d) ∧
         u = { s with gran := u.gran } ∧ s.sameMemory u) ∧
     ((s.chan c).stat.state = gsFrozen → exec (.srIdle c) s = .next s) ∧
     (∀ ns, (s.chan c).stat.state = gsSelf →
       ∃ u, exec (.srExit c ns) s = .next u ∧ (u.chan c).stat.state = gsActive ∧ (u.chan c).lastReq = s.now ∧
         (u.chan c).stat.srWaitMax = BitVec.ofNat 16 (max (s.chan c).stat.srWaitMax.toNat ((15 - ns) + 460)) ∧
         u = { s with gran := u.gran } ∧ s.sameMemory u) ∧
     (∀ ns, (s.chan c).stat.state ≠ gsSelf → exec (.srExit c ns) s = .next s))

/-! ### The Exchange and the Drayman (chapter 14) -/

/-- Bursts and resets (R362, R364, R365, R367, R369): a burst that nothing holds is served with its response, and one to a bridge
enters its queue of eight; one that must wait is held in order; a fifth request of the host link waits for the upstream queue; a
LOCK access takes its target and an UNLOCK access gives it up; a lock access of a port that may not lock is refused; a timed-out
request leaves its queue with TARGET_FAULT; a reset master loses its lock and its held bursts. Where a lock has ended, the commands
that it held are taken. -/
def Obligations.ExchangeServesBursts : Prop :=
  (∀ (s : State) (u : Burst), u.lock = .none → (u.master.val = 7 → s.upFull = false) →
    (s.mustWait u = false → exec (.exchangeBurst u) s = .next (s.serveBurst u)) ∧
    (∀ b : Fin 2, s.mustWait u = false → s.burstBridge u = some b →
      (s.serveBurst u).move.exch.down[b] = s.move.exch.down[b] ++ burstPieces u ∧ (s.serveBurst u).out = s.out ∧
      s.sameMemory (s.serveBurst u) ∧
      (s.move.exch.down[b] = [] ∨ s.move.exch.down[b].length + (burstPieces u).length ≤ 8)) ∧
    (s.mustWait u = true →
      ∃ t, exec (.exchangeBurst u) s = .next t ∧
        t.move.exch.held = s.move.exch.held ++ [⟨u, s.now, s.holdCause s.move.exch.held u⟩] ∧
        t = { s with move := t.move } ∧ s.sameMemory t)) ∧
  (∀ (s : State) (u : Burst), u.lock = .none → u.master.val = 7 → s.upFull = true →
    ∃ t, exec (.exchangeBurst u) s = .next t ∧ t.move.exch.upWait = s.move.exch.upWait ++ [u] ∧
      t.move.exch.held = s.move.exch.held ∧ t = { s with move := t.move } ∧ s.sameMemory t) ∧
  (∀ (s : State) (u : Burst) (t a : Nat), u.lock = .lock → s.move.exch.broken.contains u.master = false → u.master.val < 4 →
    s.targetOf u.master u.addr.toNat = some (t, a) → lockable t = true → s.lockOf u.master = none → s.mustWait u = false →
    u.write = false → t ≤ 4 → 1 ≤ u.len → u.addr.toNat % 1024 + u.len ≤ 1024 →
    ∃ v bs, exec (.exchangeBurst u) s = .next v ∧ v.move.exch.locks = s.move.exch.locks ++ [⟨u.master, t, s.now⟩] ∧
      v.out = s.out ++ [.response u.master respComplete bs] ∧ s.sameMemory v) ∧
  (∀ (s : State) (u : Burst) (t : Nat) (l : ExchLock), u.lock = .unlock → s.move.exch.broken.contains u.master = false →
    (s.targetOf u.master u.addr.toNat).map (fun e => e.1) = some t → s.lockOf u.master = some l → l.target = t → s.mustWait u = false →
    s.move.exch.held = [] → s.move.exch.upWait = [] →
    ∃ v : State, exec (.exchangeBurst u) s = .next v.serve ∧ v.lockOf u.master = none ∧
      v.move.exch.locks = s.move.exch.locks.filter fun k => k.owner != u.master) ∧
  (∀ (s : State) (u : Burst) (t : Nat), u.lock = .lock → s.move.exch.broken.contains u.master = false →
    (s.targetOf u.master u.addr.toNat).map (fun e => e.1) = some t → (4 ≤ u.master.val ∨ lockable t = false) →
    s.lockOf u.master = none →
    ∃ v, exec (.exchangeBurst u) s = .next v ∧ v = s.refuseLock u ∧ v.out = s.out ++ [.response u.master respLock []] ∧
      v.move.exch.stat.lockRefused = s.move.exch.stat.lockRefused + 1 ∧ s.sameMemory v) ∧
  (∀ (s : State) (u : Burst) (b : Fin 2), s.burstBridge u = some b → s.move.exch.held = [] → s.move.exch.upWait = [] →
    ∃ v, exec (.bridgeTimeout u) s = .next v ∧ v.out = s.out ++ [.response u.master respFault []] ∧
      v.move.exch.down[b] = s.move.exch.down[b].erase { u with lock := .none } ∧
      v.move.exch.stat.targetFault = s.move.exch.stat.targetFault + 1 ∧ s.sameMemory v) ∧
  (∀ (s : State) (m : MasterId), m.val ≠ 4 → s.move.exch.held = [] → s.move.exch.upWait = [] →
    ∃ v, exec (.masterReset m none) s = .next (s.served v) ∧ v.lockOf m = none ∧ v.move.exch.broken.contains m = false ∧
      v.move.exch.stat.masterResets = s.move.exch.stat.masterResets + 1 ∧ s.sameMemory v)

/-- R368: a lock that has stood 64 us is broken: it is gone, every held request goes on that nothing else holds, LOCK_BREAKS counts,
BREAK_SEEN is set and EXCH_LOCK_BREAK is raised; the owner's next LOCK or UNLOCK access gets LOCK_REFUSED and is not
performed (a LOCK access of the owner that was held may be that access at once). -/
def Obligations.LockBreaks : Prop :=
  (∀ (s : State) (l : ExchLock), s.move.exch.locks.find? (fun k => decide (k.since + 64000 ≤ s.now)) = some l → s.inReset = false →
    ∃ t : State, exec .lockBreak s = .next t.serve ∧ l ∉ t.move.exch.locks ∧
      (∀ k ∈ t.move.exch.locks, (k ∈ s.move.exch.locks ∧ k.owner ≠ l.owner) ∨ k.since = s.now) ∧
      t.nextGrant = none ∧
      (t.move.exch.broken.contains l.owner = true ∨ Output.response l.owner respLock [] ∈ t.out) ∧
      (s.move.exch.held = [] → s.move.exch.upWait = [] → t.move.exch.broken.contains l.owner = true ∧ s.sameMemory t) ∧
      t.move.exch.stat.lockBreaks = s.move.exch.stat.lockBreaks + 1 ∧ t.move.exch.stat.breakSeen = true ∧
      (t.source srcExchLockBreak).reg.events = (s.source srcExchLockBreak).reg.events + 1) ∧
  (∀ s : State, (∀ k ∈ s.move.exch.locks, s.now < k.since + 64000) → exec .lockBreak s = .next s) ∧
  (∀ (s : State) (u : Burst), s.move.exch.broken.contains u.master = true → u.lock = .lock ∨ u.lock = .unlock →
    ∃ t, exec (.exchangeBurst u) s = .next t ∧ t.out = s.out ++ [.response u.master respLock []] ∧
      t.move.exch.broken.contains u.master = false ∧ t.move.exch.locks = s.move.exch.locks ∧ t.mem = s.mem ∧ t = { s with move := t.move, out := t.out })

/-- R358: an address in no region of Table 14-1, or in the address-zero window at or above 256 KiB while REMAP is 0, is UNMAPPED, for
a read and for a write; every other address has a target for a port that may reach it. -/
def Obligations.AddressesOutsideRegionsAreUnmapped : Prop :=
  ∀ (s : State) (m : MasterId) (a : Nat),
    let mapped : Prop :=
      (a < 0x800000 ∧ (s.move.exch.ctrl.remap = true ∨ a < 0x40000)) ∨ (0x10000000 ≤ a ∧ a ≤ 0x1003FFFF) ∨
      (0x20000000 ≤ a ∧ a ≤ 0x207FFFFF) ∨ (0x100000000 ≤ a ∧ a ≤ 0x100FFFFFF) ∨ (0x200000000 ≤ a ∧ a ≤ 0x20DFFFFFF) ∨
      (0x300000000 ≤ a ∧ a ≤ 0x301FFFFFF) ∨ (0x400000000 ≤ a ∧ a ≤ 0x400FFFFFF) ∨ (0xF00000000 ≤ a ∧ a ≤ 0xFFFFFFFFF) ∨
      (0x20000000000 ≤ a ∧ a ≤ 0x3EFFFFFFFFF)
    (¬ mapped →
      (∀ n, ∃ t, s.busRead m a n = (t, respUnmapped, []) ∧ t = { s with move := t.move } ∧
        t.move.exch.stat.unmapped = s.move.exch.stat.unmapped + 1 ∧ t.move.exch.stat.lastErrAddr = BitVec.ofNat 44 a) ∧
      (∀ bs, ∃ t, s.busWrite m a bs = (t, respUnmapped) ∧ t = { s with move := t.move }) ∧
      (∀ u : Burst, u.master = m → u.addr.toNat = a → u.write = false → u.lock = .none → s.mustWait u = false → (m.val = 7 → s.upFull = false) → 1 ≤ u.len →
        a % 1024 + u.len ≤ 1024 →
        ∃ v, exec (.exchangeBurst u) s = .next v ∧ v.out = s.out ++ [.response m respUnmapped []] ∧ v.mem = s.mem)) ∧
    (mapped → m.val ≠ 7 → (s.targetOf m a).isSome = true)

/-- A Drayman channel (R370 to R376): GO begins at DESC_ADDR, STOP ends with no trigger left, triggers count while the channel is not
IDLE, a descriptor that breaks a rule ends in ERROR, one that waits takes a trigger, and a completed one goes on or becomes
IDLE. -/
def Obligations.DraymanChannelSteps : Prop :=
  ∀ (s : State) (c : DrayId),
    let x := s.dray c
    ((x.reg.state = dcIdle ∨ x.reg.state = dcError) →
      ∃ t, exec (.go c) s = .next t ∧ (t.dray c).reg.state = dcMoving ∧ (t.dray c).reg.errCode = 0 ∧
        (t.dray c).reg.curDesc = x.reg.descAddr ∧ (∀ d, d ≠ c → t.dray d = s.dray d) ∧ t = { s with move := t.move } ∧
        s.sameMemory t) ∧
    ((x.reg.state = dcWaiting ∨ x.reg.state = dcMoving) → exec (.go c) s = .next s) ∧
    (∃ t, exec (.stop c) s = .next t ∧ (t.dray c).reg.state = dcIdle ∧ (t.dray c).reg.pending = 0 ∧ (t.dray c).desc = [] ∧
      (∀ d, d ≠ c → t.dray d = s.dray d) ∧ t = { s with move := t.move } ∧ s.sameMemory t) ∧
    (∀ l : Fin 32, l.val < 22 → x.reg.trigSrc = 2 → x.reg.trigLine.toNat = l.val → x.reg.state ≠ dcIdle →
      ∃ t, exec (.drayTrigger c (some l)) s = .next t ∧
        (t.dray c).reg.pending = (if x.reg.pending = 255 then 255 else x.reg.pending + 1) ∧
        (t.dray c).reg.trigLost = (if x.reg.pending = 255 then x.reg.trigLost + 1 else x.reg.trigLost) ∧
        (∀ d, d ≠ c → t.dray d = s.dray d) ∧ t = { s with move := t.move } ∧ s.sameMemory t) ∧
    (x.reg.state = dcIdle → ∀ l, exec (.drayTrigger c l) s = .next s) ∧
    (x.reg.state = dcMoving → x.desc = [] →
      exec (.descriptorStart c) s = .next (if s.lockedOut drayPort (s.startRanges c) then s else s.startDescriptor c)) ∧
    (x.reg.state = dcMoving → x.desc = [] → x.reg.curDesc.toNat % 32 ≠ 0 →
      ∃ t, exec (.descriptorStart c) s = .next t ∧ (t.dray c).reg.state = dcError ∧ (t.dray c).reg.errCode = deInvalid ∧
        (t.dray c).reg.errSeen = true ∧ s.sameMemory t) ∧
    (x.reg.state = dcWaiting → x.reg.pending ≠ 0 → s.lockedOut drayPort (s.moveRanges c (descriptorOf x.desc)) = false →
      exec (.descriptorStart c) s = .next (s.beginMove c (descriptorOf x.desc))) ∧
    (x.reg.state = dcMoving → x.desc ≠ [] → (descriptorOf x.desc).event = false →
      ∃ t, exec (.descriptorComplete c) s = .next t ∧ (t.dray c).desc = [] ∧ (t.dray c).reg.done = x.reg.done + 1 ∧
        (t.dray c).reg.state = (if (descriptorOf x.desc).chain then dcMoving else dcIdle) ∧
        (t.dray c).reg.curDesc = (if (descriptorOf x.desc).chain then BitVec.ofNat 44 (descriptorOf x.desc).next else x.reg.curDesc) ∧
        (∀ d, d ≠ c → t.dray d = s.dray d) ∧ t = { s with move := t.move } ∧ s.sameMemory t)

/-! ### Time and clocks (chapter 11) -/

/-- TICK, SLEW_END and TIME_FREE_RUN (R280 to R282): ticks add the slewed increment while the slew lasts and the base
increment after it; a sub-array in ALIGN whose start instant has come is in OBSERVE; with a Baler job due, a beam job in
flight or a request at a bridge, its end comes with the tick; before the always-on island is powered only real time passes
(real time, and what ends with it, are the model's own, log entries 2, 24 and 78). TIMER_FIRE of a pulse timer (R291): the
pulse leaves at the timer's instant, FIRED counts, the next instant lies one period later, and a one-shot timer or one whose
COUNT runs out is OFF; any firing that is due acts. PPS_OUT and EDGE_CAPTURE (R292, R294): one pulse for each whole second; an
edge is stamped and queued, dropped and counted where its queue is full, and ignored and counted where it follows the last one
too soon. -/
def Obligations.TimekeeperEvents : Prop :=
  (∀ (s : State) (n : Nat),
     (s.bell.alive = false → s.move.baleRun = none → exec (.tick n) s = .next { s with now := s.now + 4 * n }) ∧
     (s.bell.alive = true →
       (s.tick n).now = s.now + 4 * n ∧
       (s.tick n).time = { s.time with
         tk := (s.time.tk + min n s.time.slewLeft * s.time.slewInc + (n - min n s.time.slewLeft) * s.time.incBase) % wrap32tk
         slewLeft := s.time.slewLeft - min n s.time.slewLeft }) ∧
     (s.bell.alive = true → s.move.exch.locks = [] →
       ((s.tick n).balerDue = false → exec (.tick n) s = .next (s.tick n)) ∧
       ((s.tick n).balerDue = true → exec (.tick n) s = .next (s.tick n).endBaler.serve)) ∧
     (s.bell.alive = true → (∀ k, (s.tile k).beam = none) → (∀ b : Fin 2, s.move.exch.down[b] = []) →
       (∀ x, s.move.baleRun = some x → s.now + 4 * n < x.endsAt) →
       ∃ t, exec (.tick n) s = .next t ∧ t = s.tick n ∧
         (∀ i ks, s.parser[i].start = some ks → s.saState i = saAlign → s.obs[i].epoch.timeOf ks ≤ t.time16 → t.saState i = saObserve) ∧
         (∀ i, s.saState i ≠ saAlign → t.saState i = s.saState i) ∧ s.sameMemory t) ∧
     (s.bell.alive = true → ∀ b : Fin 2, s.move.exch.upWait = [] → s.move.exch.held = [] → (s.tick n).move.exch.down[b] = []) ∧
     (s.time.slewLeft = 0 →
       exec .slewEnd s =
         .next { s with time := { s.time with slewInc := 0, stat := { s.time.stat with slewing := false } } }) ∧
     (s.time.stat.state = 1 → s.freshInc = false → s.inReset = false →
       ∃ t, exec .timeFreeRun s = .next t ∧ t.time = { s.time with stat := { s.time.stat with state := 2, freeRunSeen := true } } ∧
         (t.source srcTimeFreeRun).reg.events = (s.source srcTimeFreeRun).reg.events + 1 ∧
         t = { s with time := t.time, tally := t.tally, bench := t.bench, out := t.out } ∧ s.sameMemory t)) ∧
  (∀ (s : State) (t : TimerId), s.running = true → s.time.timers[t].armed t = true → s.time.timers[t].next ≤ s.time16 →
     let x := s.time.timers[t]
     exec (.timerFire t) s = .next (s.fire t 0 x.next) ∧
     (x.reg.action = taPulse →
       ∃ u, exec (.timerFire t) s = .next u ∧
         u.out = s.out ++ [.pulse ⟨x.reg.target.toNat % 4, Nat.mod_lt _ (by decide)⟩ x.next x.reg.width.toNat] ∧
         u.time.timers[t].reg.fired = x.reg.fired + 1 ∧ u.time.timers[t].next = x.next + x.reg.periodNs.toNat * 2 ^ 16 ∧
         (x.reg.periodNs = 0 ∨ x.reg.count = 1 → u.time.timers[t].reg.action = taOff) ∧
         (x.reg.periodNs ≠ 0 → x.reg.count ≠ 1 → u.time.timers[t].reg.action = taPulse) ∧
         (x.reg.count ≠ 0 → u.time.timers[t].reg.count = x.reg.count - 1) ∧
         u = { s with time := u.time, out := u.out } ∧ s.sameMemory u)) ∧
  (∀ (s : State), s.running = true →
     (s.time.lastPps ≠ some (secOf s.time16) →
       ∃ t, exec .ppsOut s = .next t ∧ t.time = { s.time with lastPps := some (secOf s.time16) } ∧
         t.out = (if s.time.cfg.ppsOutEn then s.out ++ [.pps (secOf s.time16) s.time.cfg.ppsOutWidthUs.toNat] else s.out) ∧
         t = { s with time := t.time, out := t.out } ∧ s.sameMemory t) ∧
     (∀ (src : Fin 3) (q : Fin 16),
       let at' := 4 * s.now + q.val
       let k : Fin 4 := ⟨src.val, by omega⟩
       (s.earlyEdge src at' = true →
         exec (.edgeCapture src q) s = .next (s.onTimeStat fun x => { x with edgesIgnored := x.edgesIgnored + 1 })) ∧
       (s.earlyEdge src at' = false → src ≠ 2 →
         ∃ t, exec (.edgeCapture src q) s = .next t ∧ t.time.lastEdge[src] = some at' ∧
           (s.time.captures[k].length < 16 →
             ∃ c, t.time.captures[k] = s.time.captures[k] ++ [c] ∧ c.source = k ∧
               c.at16 = (s.time16 / 2 ^ 14 + q.val + 2 ^ 50 * 1000000000 - s.time.cfg.comp src) % (2 ^ 50 * 1000000000) * 2 ^ 14) ∧
           (16 ≤ s.time.captures[k].length →
             t.time.captures = s.time.captures ∧ t.time.stat.capDrops = s.time.stat.capDrops + 1 ∧ t.time.stat.capOvfSeen = true) ∧
           t = { s with time := t.time } ∧ s.sameMemory t) ∧
       (s.earlyEdge src at' = false → src = 2 →
         ∃ t, exec (.edgeCapture src q) s = .next t ∧ t.time.lastEdge[src] = some at' ∧
           (s.time.captures[k].length < 16 → t.time.captures[k].length = s.time.captures[k].length + 1))))

/-- A source of the Clocksmith at a measurement (R273, R274): a qualified source beyond 4 ppm, or gone, is disqualified; one
that qualifies counts measurements within 2 ppm with no cycle missing and starts again at any other; the 400th qualifies it.
CLK_MEASURE, REF_CYCLES_MISSING and CLK_SWITCH (R273, R274, R277, R279). -/
def Obligations.ClocksmithEvents : Prop :=
  (∀ (s : State) (x : Fin 3) (m : RefMeasure), s.clock.stat.rank x ≠ 0 →
     let r := s.refOf x
     let t := s.measureRef x m
     s.sameMemory t ∧
     (s.measuredPresent x m = true → (t.refOf x).offset = m.offset ∧ (t.refOf x).f100 = (m.f100 && decide (x.val ≠ 2))) ∧
     (s.measuredPresent x m = false → (t.refOf x).offset = r.offset ∧ (t.refOf x).f100 = r.f100) ∧
     (r.qstate = qsQualifying → s.measuredPresent x m = true → -2000 ≤ m.offset → m.offset ≤ 2000 → m.missing = false →
         r.qual + 1 < 400 →
       (t.refOf x).qstate = qsQualifying ∧ (t.refOf x).qual = r.qual + 1) ∧
     (r.qstate = qsQualifying → s.measuredPresent x m = true → (m.offset < -2000 ∨ 2000 < m.offset ∨ m.missing = true) →
       (t.refOf x).qstate = qsQualifying ∧ (t.refOf x).qual = 0) ∧
     (r.qstate = qsQualifying → s.measuredPresent x m = true → -2000 ≤ m.offset → m.offset ≤ 2000 → m.missing = false →
       400 ≤ r.qual + 1 →
       s.betterThanIncoming x = false → (t.refOf x).qstate = qsQualified) ∧
     (r.qstate = qsQualified → s.measuredPresent x m = true → m.offset < -4000 ∨ 4000 < m.offset →
       (t.refOf x).qstate = qsQualifying ∧ (t.refOf x).qual = 0 ∧
       t.clock.stat.disqualifications = s.clock.stat.disqualifications + 1) ∧
     (r.qstate = qsQualified → s.measuredPresent x m = false →
       (t.refOf x).qstate = qsAbsent ∧ (t.refOf x).qual = 0 ∧
       t.clock.stat.disqualifications = s.clock.stat.disqualifications + 1) ∧
     (r.qstate ≠ qsQualified → r.qstate ≠ qsDisputed → s.measuredPresent x m = false →
       (t.refOf x).qstate = qsAbsent ∧ (t.refOf x).qual = 0)) ∧
  (∀ (s : State), s.bell.alive = true →
     (∀ a b c, s.clock.lastMeasure + 10000000 ≤ s.now →
       ∃ t, exec (.clkMeasure a b c) s = .next t ∧ t.clock.lastMeasure = s.now ∧
         t = { s with clock := t.clock, tally := t.tally, bench := t.bench, out := t.out, freeCount := t.freeCount } ∧
         s.sameMemory t) ∧
     (∀ x : Fin 3, (s.refOf x).qstate ≠ qsUnused → (s.refOf x).qstate ≠ qsAbsent →
       ∃ t, exec (.refCyclesMissing x) s = .next t ∧ (t.refOf x).qstate = qsAbsent ∧ (t.refOf x).qual = 0 ∧
         ((s.refOf x).qstate = qsQualified → t.clock.stat.disqualifications = s.clock.stat.disqualifications + 1 ∧
           t.clock.stat.disqSeen = true) ∧
         t = { s with clock := t.clock, tally := t.tally, bench := t.bench, out := t.out } ∧ s.sameMemory t) ∧
     (∀ ps : Int, s.clock.stat.state = csSwitching → s.clock.switchAt + 50000000 ≤ s.now → s.inReset = false →
       ∃ t, exec (.clkSwitch ps) s = .next t ∧ t.clock.stat.state = csLocked ∧ t.clock.incoming = none ∧
         t.clock.stat.switches = s.clock.stat.switches + 1 ∧ t.clock.stat.buildoutPs = s.clock.stat.buildoutPs + BitVec.ofInt 32 ps ∧
         (t.source srcClkSwitch).reg.events = (s.source srcClkSwitch).reg.events + 1 ∧
         t = { s with clock := t.clock, tally := t.tally, bench := t.bench, out := t.out } ∧ s.sameMemory t))

/-- BEAT (R287 to R289): a beat whose instant has come runs; one that would start more than 64 ms late is skipped to the next
grid instant, counted and reported, and what was named for it acts at that instant's beat. What a beat writes into BNCH_HEALTH
(R330): SEQ moves on by 2, and the words show the mode, the sub-arrays, the time, the sensors and the state of the clocks and
the Tally as the beat finds them. -/
def Obligations.BeatsRunOrSlip : Prop :=
  (∀ (s : State) (r : BeatReadings) (j b : Nat), s.time.nextBeat = some (j, b) → s.foremanRuns = true → b ≤ s.time16 →
     (b ≤ j * ms16 + 64 * ms16 → exec (.beat r) s = .next (s.runBeat j b r)) ∧
     (j * ms16 + 64 * ms16 < b → s.time16 < (beatFrom b).2 → s.inReset = false →
       ∃ t, exec (.beat r) s = .next t ∧ t.time.nextBeat = some (beatFrom b) ∧ t.time.stat.slips = s.time.stat.slips + 1 ∧
         t.time.stat.skippedBeats = s.time.stat.skippedBeats + BitVec.ofNat 32 ((beatFrom b).1 - j) ∧
         (t.source srcBeatSlip).reg.events = (s.source srcBeatSlip).reg.events + 1 ∧
         t = { s with time := t.time, sieve := t.sieve, tally := t.tally, bench := t.bench, out := t.out } ∧ s.sameMemory t) ∧
     (j * ms16 + 64 * ms16 < b → (beatFrom b).2 ≤ s.time16 →
       exec (.beat r) s = .next ((s.slipBeat j b).runBeat (beatFrom b).1 (beatFrom b).2 r))) ∧
  (∀ (s : State) (r : BeatReadings),
     let h := (s.refreshHealth r).bench.health
     h.seq = s.bench.health.seq + 2 ∧ h.mode = s.mode ∧ h.faultNLow = s.faultLow ∧ h.powerDw = r.powerDw ∧ h.tjMax = r.tjMax ∧
     h.dramMax = r.dramMax ∧ h.supply10mv = s.bell.stat.supply10mv ∧ h.clksState = s.clock.stat.state ∧
     h.timeState = s.time.stat.state ∧ h.secLo.toNat = secOf s.time16 % 2 ^ 32 ∧ h.ns.toNat = nsOf s.time16 ∧
     (∀ i : SubId, (h.saState.toNat / 16 ^ i.val) % 16 = (s.saState i).toNat) ∧
     s.refreshHealth r = { s with bench := { s.bench with health := h } } ∧ s.sameMemory (s.refreshHealth r))

/-! ### Tally (chapter 15) -/

/-- An event on an assigned source (R388 to R390): EVENTS counts, the last event is stamped, the source is ACTIVE, or SEVERE
with its grace timer started once THRESHOLD events lie within WINDOW_MS; a source already SEVERE or ESCALATED keeps its state
and timer. Nothing but the Tally and the interrupts it raises changes. QUIET_PERIOD, AUTO_CLEAR and FOREMAN_WDOG (R386, R391):
a source SEVERE or ESCALATED clears after QUIET_MS without an event, or when AUTO_CLEAR is set and the block reports the
newest event's instance recovered; a core that misses its watchdog is an event with the core as DETAIL. -/
def Obligations.TallyEventsCountAndClear : Prop :=
  (∀ (s : State) (i : SourceId) (d : Word) (sub : Option SubId),
     s.running = true → assignedSource i.val = true → s.inReset = false →
     let x := s.source i
     let stamps := (s.monoMs :: x.stamps).take 255
     ∃ t, exec (.tallyEvent i d sub) s = .next t ∧ (t.source i).reg.events = x.reg.events + 1 ∧ (t.source i).reg.lastDetail = d ∧
       (t.source i).reg.lastSecLo = BitVec.ofNat 32 (secOf s.time16) ∧ (t.source i).stamps = stamps ∧ (t.source i).cfg = x.cfg ∧
       (2 ≤ x.reg.state.toNat → (t.source i).reg.state = x.reg.state ∧ (t.source i).grace = x.grace) ∧
       (x.reg.state.toNat < 2 → x.cfg.enable = true → severeNow x.cfg stamps s.monoMs = true →
         (t.source i).reg.state = 2 ∧ (t.source i).grace = some (s.monoMs + x.cfg.graceMs.toNat)) ∧
       (x.reg.state.toNat < 2 → x.cfg.enable = false ∨ severeNow x.cfg stamps s.monoMs = false →
         (t.source i).reg.state = 1 ∧ t.bench = s.bench ∧ t.out = s.out) ∧
       (∀ j, j ≠ i → t.source j = s.source j) ∧ s.onlyTally t ∧ s.sameMemory t) ∧
  (∀ (s : State) (i : SourceId),
     let x := s.source i
     (2 ≤ x.reg.state.toNat → x.stamps.headD 0 + x.cfg.quietMs.toNat ≤ s.monoMs →
       ∃ t, exec (.quietPeriod i) s = .next t ∧ t.source i = x.quieted true ∧ (t.source i).reg.state = 0 ∧
         (∀ j, j ≠ i → t.source j = s.source j) ∧ t = { s with tally := t.tally } ∧ s.sameMemory t) ∧
     (∀ d, 2 ≤ x.reg.state.toNat → x.cfg.autoClear = true → d = x.reg.lastDetail → (∀ k ∈ x.stamps, k ≠ s.monoMs) →
       ∃ t, exec (.autoClear i d) s = .next t ∧ t.source i = x.quieted true ∧
         (∀ j, j ≠ i → t.source j = s.source j) ∧ t = { s with tally := t.tally } ∧ s.sameMemory t) ∧
     (∀ core : Fin 4, s.running = true → s.inReset = false →
       ∃ t, exec (.foremanWdog core) s = .next t ∧ (t.source srcForemanWdog).reg.events = (s.source srcForemanWdog).reg.events + 1 ∧
         (t.source srcForemanWdog).reg.lastDetail = BitVec.ofNat 32 core.val ∧ s.onlyTally t ∧ s.sameMemory t))

/-- GRACE_EXPIRY (R394, R396): with FALLBACK WAIT the timer only stops; otherwise the first expiry makes the source ESCALATED
and, where TRAP is its next step, enters the Foreman fault handler; in HOLD a block or chip reset waits. -/
def Obligations.GraceExpiryEscalates : Prop :=
  ∀ (s : State) (i : SourceId) (g : Nat),
    let x := s.source i
    x.grace = some g → g ≤ s.monoMs → s.running = true → 2 ≤ x.reg.state.toNat →
    (x.cfg.fallback = 0 → exec (.graceExpiry i) s = .next (s.onSource i fun y => { y with grace := none })) ∧
    (2 ≤ x.cfg.fallback.toNat → x.cfg.fallback.toNat ≤ 4 → x.reg.state = 2 → x.reg.step = 0 →
      ∃ t, exec (.graceExpiry i) s = .next t ∧ (t.source i).reg.state = 3 ∧ (t.source i).reg.escalatedSeen = true ∧
        (t.source i).reg.step = 1 ∧ t.out = s.out ++ [.trap i x.reg.lastDetail] ∧
        (∀ j, j ≠ i → t.source j = s.source j) ∧ t = { s with tally := t.tally, out := t.out } ∧ s.sameMemory t) ∧
    (x.cfg.fallback = 4 → x.reg.state = 3 → x.reg.step = 1 → s.mode = modeHold →
      ∃ t, exec (.graceExpiry i) s = .next t ∧ (t.source i).reg.state = 3 ∧ (t.source i).reg.held = true ∧
        (t.source i).grace = none ∧ t.mode = modeHold ∧ t = { s with tally := t.tally } ∧ s.sameMemory t)

/-! ### The Bellows (chapter 16) -/

/-- Supply events (R404, R405, R407, R410, R412, R413): the beginning of an event, its class, its end, its LOSS, and the end
of the ride. BANK_TEST (R408, R409): the capacitance and the time the bank holds up are recorded; below 1,350 uF BANK_LOW is
raised. RAIL_FAULT and THERMAL_CRIT bring the orderly shutdown (R414, R417, R424): the benches stop serving, the cause is
recorded and the rails start to fall. -/
def Obligations.SupplyEventsRide : Prop :=
  (∀ (s : State),
     (∀ v bank : BitVec 16, s.running = true → s.start.reg.step ≠ 1 → classOf v.toNat ≠ 0 → s.bell.event = none →
       s.move.baleRun = none →
       ∃ t, exec (.supplyEventBegin v bank) s = .next t ∧ t.bell.events[0].inProgress = true ∧ t.bell.events[0].cls = classOf v.toNat ∧
         t.bell.events[0].min10mv = v ∧ t.bell.events[0].max10mv = v ∧ t.bell.events[0].bankMin10mv = bank ∧ t.bell.events[0].bankMj = 0 ∧ t.bell.events[1] = s.bell.events[0] ∧
         t.bell.stat.rides = s.bell.stat.rides + 1 ∧ t.bell.stat.supply10mv = v ∧
         (s.mode = modeProvision ∨ s.mode = modeAlign ∨ s.mode = modeObserve ∨ s.mode = modeWorkshop →
           t.mode = modeRide ∧ ∃ e, t.bell.event = some e ∧ e.start = s.now ∧ e.past = false ∧ e.rodeFrom = some s.mode ∧
             e.offBefore = s.islandsOff ∧ e.lastAt = s.now) ∧
         (s.mode = modeHold → t.mode = modeHold ∧ t.bell.stat.rideInHold = true) ∧ s.sameMemory t) ∧
     (∀ v : BitVec 16, s.running = true → classOf v.toNat ≠ 0 → s.inReset = false →
       ∃ t, exec (.supplyTransient v) s = .next t ∧ t.bell = { s.bell with stat := { s.bell.stat with transients := s.bell.stat.transients + 1 } } ∧
         (t.source srcSupplyTransient).reg.events = (s.source srcSupplyTransient).reg.events + 1 ∧
         t = { s with bell := t.bell, tally := t.tally, bench := t.bench, out := t.out } ∧ s.sameMemory t) ∧
     (∀ v : BitVec 16, s.bell.alive = true →
       (6000 < v.toNat → ∃ t, exec (.swellIsolate v) s = .next t ∧ t.bell.stat.isolated = true ∧ t = { s with bell := t.bell } ∧ s.sameMemory t) ∧
       (v.toNat < 5900 → s.bell.highAt + 1000000 ≤ s.now →
         ∃ t, exec (.swellIsolate v) s = .next t ∧ t.bell.stat.isolated = false ∧ t = { s with bell := t.bell } ∧ s.sameMemory t) ∧
       (v.toNat ≤ 6000 → (5900 ≤ v.toNat ∨ s.now < s.bell.highAt + 1000000) →
         ∃ t, exec (.swellIsolate v) s = .next t ∧ t.bell.stat.isolated = s.bell.stat.isolated ∧
           (5900 ≤ v.toNat → t.bell.highAt = s.now) ∧ t = { s with bell := t.bell } ∧ s.sameMemory t)) ∧
     (∀ (v bank : BitVec 16) (e : SupplyEvent), v.toNat < 3300 → s.bell.alive = true → s.bell.event = some e → e.past = false →
       ∃ t, exec (.dropout v bank) s = .next t ∧ t.bell.stat.bank10mv = bank ∧
         t.bell.stat.holdupUs = satNat 32 (holdup s.bankCap bank.toNat) ∧
         t.bell.events[0].bankMj = satNat 16 ((e.drawn + s.bankCap *
           (s.bell.stat.bank10mv.toNat * s.bell.stat.bank10mv.toNat - bank.toNat * bank.toNat)) / 20000000) ∧
         (s.bell.events[0].cls < 3 → t.bell.events[0].cls = 3) ∧ (s.bell.stat.classNow < 3 → t.bell.stat.classNow = 3) ∧
         t.bell.stat.supply10mv = v ∧ t = { s with bell := t.bell } ∧ s.sameMemory t) ∧
     (∀ (v bank : BitVec 16) (e : SupplyEvent), s.bell.event = some e → e.past = false → goodInput v = true →
       s.bell.goodSince + 1000000 * s.bell.cfg.recoverMs.toNat ≤ s.now → s.inReset = false → s.bell.events[0].cls = 1 →
       ∃ t, exec (.supplyEventEnd v bank) s = .next t ∧ (∃ x, t.bell.event = some x ∧ x.past = true ∧ x.start = e.start ∧
         x.rodeFrom = e.rodeFrom) ∧ t.bell.events[0].bankMj = satNat 16 ((e.drawn + s.bankCap *
           (s.bell.stat.bank10mv.toNat * s.bell.stat.bank10mv.toNat - bank.toNat * bank.toNat)) / 20000000) ∧
         t.bell.events[0].inProgress = false ∧ t.bell.events[0].durationUs = satNat 32 ((s.now - e.start) / 1000) ∧
         t.bell.stat.classNow = 0 ∧ (t.source srcSupplySag).reg.events = (s.source srcSupplySag).reg.events + 1 ∧
         t = { s with bell := t.bell, tally := t.tally, bench := t.bench, out := t.out } ∧ s.sameMemory t) ∧
     (∀ (v bank : BitVec 16) (e : SupplyEvent), s.bell.event = some e → e.past = false → s.lossDue e v.toNat bank.toNat = true →
       s.bell.falling = false →
       ∃ t, exec (.supplyLoss v bank) s = .next t ∧ t.bell.falling = true ∧ t.bell.event = none ∧ t.bell.stat.lastShutdown = 1 ∧
         t.bell.events[0].cls = 4 ∧ t.bench.serving = false ∧ (s.noneActive = true → s.sameMemory t)) ∧
     (∀ (bank : BitVec 16) (e : SupplyEvent), s.bell.event = some e → e.past = true → 9000 ≤ bank.toNat →
       ∃ t, exec (.rideEnd bank) s = .next t ∧ t.bell.event = none ∧ t.bell.stat.bank10mv = bank ∧
         (e.rodeFrom = some modeProvision → s.mode = modeRide → s.bell.stat.rideInHold = false → (∀ i, s.active i = false) →
           t.mode = modeProvision) ∧
         (s.bell.stat.rideInHold = true → t.mode = modeHold ∧ t.bell.stat.rideInHold = false) ∧ s.sameMemory t)) ∧
  (∀ (s : State) (uF bank : BitVec 16), s.bell.alive = true → s.bell.event = none → 0 < s.bell.cfg.bankTestH.toNat →
     s.bell.lastTest + 3600000000000 * s.bell.cfg.bankTestH.toNat ≤ s.now → s.inReset = false →
     ∃ t, exec (.bankTest uF bank) s = .next t ∧ t.bell.lastTest = s.now ∧ t.bell.stat.bankUf = uF ∧ t.bell.stat.bank10mv = bank ∧
       t.bell.stat.holdupUs = satNat 32 (holdup uF.toNat bank.toNat) ∧
       (uF.toNat < 1350 → t.bell.stat.bankLowSeen = true ∧
         (t.source srcBankLow).reg.events = (s.source srcBankLow).reg.events + 1) ∧
       (1350 ≤ uF.toNat → t.tally = s.tally ∧ t.bench = s.bench ∧ t.out = s.out) ∧
       t = { s with bell := t.bell, tally := t.tally, bench := t.bench, out := t.out } ∧ s.sameMemory t) ∧
  (∀ (s : State), s.running = true →
     (∀ rail : Fin 12, s.bell.running = none → s.bell.rails.getLsbD rail.val = true →
       ∃ t, exec (.railFault rail) s = .next t ∧ t.bell.falling = true ∧ t.bell.stat.lastShutdown = 3 ∧
         t.bell.stat.pwrGood = false ∧ t.bench.serving = false ∧ (∃ q, t.bell.running = some q ∧ q.id = 1) ∧ (s.noneActive = true → s.sameMemory t)) ∧
     (∀ (i : IslandId) (tj dram : BitVec 16) (ms : Nat), 10 ≤ ms → 920 < tj.toInt ∨ 720 < dram.toInt →
       ∃ t, exec (.thermalCrit i tj dram ms) s = .next t ∧ t.bell.falling = true ∧ t.bell.stat.lastShutdown = 2 ∧
         t.bell.stat.pwrGood = false ∧ t.bench.serving = false ∧ (∃ q, t.bell.running = some q ∧ q.id = 1) ∧ (s.noneActive = true → s.sameMemory t)))

/-- Sequences (R416, R417): a step whose condition is met ends and the next is performed; RAILS_UP that times out ends the
roll call with RAIL_SEQ raised; RAILS_DOWN goes on without waiting. Commands that wait are then taken. Power islands and
cables (R419, R423, R443): an island reaches the state it was on its way to, or turns round where the latest request wants it;
ISLAND_GATE is raised once; cable power follows the contact and drops on overcurrent. -/
def Obligations.SequencesIslandsAndCables : Prop :=
  (∀ (s : State) (q : SeqRun) (x y : SeqStep) (rest : List SeqStep), s.bell.running = some q → q.left = x :: y :: rest →
     s.seqMay q = true →
     (∀ met, q.stepMet x met s.now = true →
       exec (.seqStep met) s =
         .next ((({ s with bell := { s.bell with
           running := some { q with left := y :: rest, index := q.index + 1, since := s.now } } } : State).performStep y).serve)) ∧
     (q.since + 1000 * x.timeout < s.now → q.forced = false → s.inReset = false → q.id = 0 →
       ∃ t : State, exec .railSeq s = .next t.serve ∧ t.bell.running = none ∧ t.start.reg.step = 0 ∧
         (t.source srcRailSeq).reg.events = (s.source srcRailSeq).reg.events + 1 ∧
         t = { s with bell := t.bell, start := t.start, tally := t.tally, bench := t.bench, out := t.out } ∧ s.sameMemory t)) ∧
  (∀ (s : State),
     (∀ i : IslandId, (s.island i).state = 1 →
       ∃ t, exec (.islandPowerDone i) s = .next t ∧ (t.island i).state = (if (s.island i).target then 2 else 3) ∧
         (i.val < 46 ∨ 50 < i.val → s.sameMemory t)) ∧
     (∀ i : IslandId, (s.island i).state = 3 →
       ∃ t, exec (.islandPowerDone i) s = .next t ∧ (t.island i).state = (if (s.island i).target then 1 else 0) ∧ s.sameMemory t) ∧
     (∀ i : IslandId, (s.island i).state = 1 → (s.island i).gated = false → (s.island i).since + gateLimit i.val < s.now → s.inReset = false →
       ∃ t, exec (.islandGate i) s = .next t ∧ (t.island i).gated = true ∧ (t.island i).state = 1 ∧
         (t.source srcIslandGate).reg.events = (s.source srcIslandGate).reg.events + 1 ∧
         t = { s with bell := t.bell, tally := t.tally, bench := t.bench, out := t.out } ∧ s.sameMemory t) ∧
     (∀ o : OctetId, s.side.cable3v3.getLsbD o.val = true → s.inReset = false →
       ∃ t, exec (.cableOvercurrent o) s = .next t ∧ t.side.cable3v3.getLsbD o.val = false ∧
         (t.source srcIslandGate).reg.events = (s.source srcIslandGate).reg.events + 1 ∧
         t = { s with side := t.side, tally := t.tally, bench := t.bench, out := t.out } ∧ s.sameMemory t) ∧
     (∀ (o : OctetId) (high : Bool),
       ∃ t, exec (.cblPresentN o high) s = .next t ∧ t.side.cblHigh.getLsbD o.val = high ∧
         t.side.cable3v3.getLsbD o.val = (s.islandOn (octetIsland o) && !high) ∧ t = { s with side := t.side } ∧ s.sameMemory t))

/-! ### Starts and the roll call (chapter 17) -/

/-- POWER_UP (R272, R426, R427): everything is at its cold-start value but the store, the fuses, the pins, the repair list and
the model's own queue, output and free values; the straps are sampled and step 1 of the roll call begins. RESET_N (R426, R432,
Table 17-1): low for less than 10 us does nothing; from 10 us it is a warm start where PWR_GOOD is high and the last roll call
reached step 4, and otherwise, or from 1 s, a cold start. AUTO_RESTART (R415): after an orderly shutdown the module starts
again, cold, once the input has stayed good for 1 s. -/
def Obligations.StartsAreColdOrWarm : Prop :=
  (∀ (s : State) (straps : Straps) (v : BitVec 16),
     ∃ t, exec (.powerUp straps v) s = .next t ∧ t.mode = modeDormant ∧ t.bell.alive = true ∧ t.bell.straps = straps ∧
       t.start.reg.step = 1 ∧ t.start.reg.kind = false ∧ t.start.reg.cause = 0 ∧ t.bench.serving = false ∧
       t.clock.stat.rankA = straps.rankA ∧ t.clock.stat.rankB = straps.rankB ∧ t.clock.stat.rankC = straps.rankC ∧
       (∀ i : IslandId, t.islandOn i = decide (i.val = 75)) ∧ (∃ q, t.bell.running = some q ∧ q.id = 0 ∧ q.after = .rollCall) ∧
       t.start.copyA = s.start.copyA ∧ t.start.copyB = s.start.copyB ∧ t.start.owners = s.start.owners ∧
       t.start.minSecurity = s.start.minSecurity ∧ t.gran.repair = s.gran.repair ∧ t.pending = s.pending ∧
       (∀ i : SubId, t.saState i = saFree) ∧ (∀ b : BenchId, t.holdsAny b = false) ∧ (∀ a, t.mem.byte a = 0)) ∧
  (∀ (s : State) (us : Nat), s.bell.alive = true → s.bell.falling = false →
     (us < 10 → exec (.resetN us) s = .next s) ∧
     (10 ≤ us → us < 1000000 → s.bell.stat.pwrGood = true → s.reachedFour = true →
       ∃ t, exec (.resetN us) s = .next t ∧ t = s.warmStartOf 2 ∧ t.start.reg.kind = true ∧ t.start.reg.cause = 2 ∧
         t.start.reg.step = 1 ∧ t.start.reg.warmStarts = s.start.reg.warmStarts + 1) ∧
     (1000000 ≤ us ∨ (10 ≤ us ∧ (s.bell.stat.pwrGood = false ∨ s.reachedFour = false)) →
       ∃ t, exec (.resetN us) s = .next t ∧ t.start.reg.kind = false ∧ t.start.reg.step = 1 ∧
         t.start.reg.cause = (if 1000000 ≤ us then 1 else 2) ∧ t.start.reg.starts = s.start.reg.starts + 1)) ∧
  (∀ (s : State) (v : BitVec 16), s.bell.alive = true → s.bell.down = true → s.bell.falling = false → s.mode = modeDormant →
     s.rolling = false → s.bell.cfg.autoRestart = true → goodInput v = true →
     s.bell.goodSince + 1000000000 ≤ s.now →
     ∃ t, exec (.autoRestart v) s = .next t ∧ t.start.reg.kind = false ∧ t.start.reg.cause = 6 ∧ t.start.reg.step = 1 ∧
       t.bell.stat.supply10mv = v ∧ t.bell.down = false)

/-- What a warm start keeps (R432, Table 17-3): the bytes of the Granary, every Tally source's counts and its state, the bench
keys, the store, the retired tiles and the references; every sub-array is FREE, every lease has ended and the table store
is empty but for the classes the always-on island holds. -/
def Obligations.WarmStartKeeps : Prop :=
  ∀ (s : State) (cause : BitVec 4),
    let t := s.warmStartOf cause
    (∀ a, granBase ≤ a → a < granEnd → t.mem.byte a = s.mem.byte a) ∧ (∀ a, a < granBase ∨ granEnd ≤ a → t.mem.byte a = 0) ∧
    (∀ i : SourceId, (t.source i).reg.events = (s.source i).reg.events ∧ (t.source i).reg.state = (s.source i).reg.state ∧
      (t.source i).cfg = (s.source i).cfg ∧ (t.source i).grace = none) ∧
    t.bench.keys = s.bench.keys ∧ t.bench.usedIds = s.bench.usedIds ∧ t.clock = s.clock ∧ t.time.tk = s.time.tk ∧
    (∀ k : TileId, (s.tile k).reg.state = tsRetired → (t.tile k).reg.state = tsRetired) ∧
    (∀ i : SubId, t.saState i = saFree) ∧ (∀ b : BenchId, t.holdsAny b = false ∧ (t.benchOf b).stat.isOpen = false) ∧
    (∀ e ∈ t.tables, e.cls = 2 ∨ e.cls = 4 ∨ e.cls = 5 ∨ e.cls = 10) ∧ t.pending = s.pending ∧ t.now = s.now ∧
    t.mode = modeDormant

/-- ROLL_CALL_STEP (R427 to R432): the step in progress ends and the next begins; step 9 ends the roll call with the benches
serving in STANDBY. Commands posted before are then taken. -/
def Obligations.RollCallSteps : Prop :=
  ∀ (s : State) (r : StepReport), s.bell.alive = true → s.bell.falling = false → s.rolling = true →
    exec (.rollCallStep r) s = .next ((s.rollStep r).serve) ∧
    (s.start.reg.step = 5 → (s.rollStep r).start.reg.step = 6 ∧
      (∀ a, ledgerBase ≤ a → a < ledgerBase + 0xE000000 → (s.rollStep r).mem.byte a = 0) ∧
      (∀ a, shelfBase ≤ a → a < shelfBase + 0x2000000 → (s.rollStep r).mem.byte a = 0) ∧
      (∀ a, (a < ledgerBase ∨ ledgerBase + 0xE000000 ≤ a) → (a < shelfBase ∨ shelfBase + 0x2000000 ≤ a) →
        (s.rollStep r).mem.byte a = s.mem.byte a)) ∧
    (s.start.reg.step = 6 → (s.rollStep r).start.reg.step = 7) ∧
    (s.start.reg.step = 7 → (s.rollStep r).start.reg.step = 8) ∧
    (s.start.reg.step = 8 → s.lanesReady = true → (s.rollStep r).start.reg.step = 9) ∧
    (s.start.reg.step = 9 → s.bell.running = none →
      (s.rollStep r).start.reg.step = 10 ∧ (s.rollStep r).bench.serving = true ∧ (s.rollStep r).mode = modeStandby)

/-- The I2C sideband (R449): one byte sets the pointer, a longer write or page 3 is not acknowledged, and a read gives bytes from
the pointer's word on, zero past the end of the page. -/
def Obligations.SidebandReadsAndWrites : Prop :=
  ∀ (s : State), s.bell.alive = true →
    (∀ x : Byte, x >>> 6 ≠ 3 →
      ∃ t, exec (.i2cWrite [x]) s = .next t ∧ t.side.page.toNat = x.toNat / 64 ∧ t.side.word = x.toNat % 64 ∧
        t.out = s.out ++ [.i2cAck true] ∧ t = { s with side := t.side, out := t.out } ∧ s.sameMemory t) ∧
    (∀ x : Byte, x >>> 6 = 3 → exec (.i2cWrite [x]) s = .next (s.emit (.i2cAck false))) ∧
    (∀ bs : List Byte, bs.length ≠ 1 → exec (.i2cWrite bs) s = .next (s.emit (.i2cAck false))) ∧
    (∀ n : Nat,
      ∃ t, exec (.i2cRead n) s = .next t ∧ t.side.word = s.side.word + n / 4 ∧
        t.out = s.out ++ [.i2cBytes (bytesAt (wordsBytes (s.pageWords.drop s.side.word)) 0 n)] ∧
        t = { s with side := t.side, out := t.out } ∧ s.sameMemory t)

/-! ### Invariants of every step -/

/-- Every step keeps the memory in its one canonical form (the model's own form of memory, log entry 4): keys strictly rising, no
byte listed as the zero an unlisted byte reads as. -/
def Obligations.MemoryStaysCanonical : Prop :=
  ∀ s t : State, Memory.wf s.mem = true → step s = .next t → Memory.wf t.mem = true

/-- Every step only adds to what the model itself counts (log entries 2 and 3): one command leaves the queue, what left the module
stays left, and free values are not drawn twice. -/
def Obligations.StepsOnlyAdd : Prop :=
  ∀ s t : State, step s = .next t → t.pending = s.pending.tail ∧ s.out <+: t.out ∧ s.freeCount ≤ t.freeCount

/-- The module right after reset, before 48 V is applied (R420, R426, Table 13-9 and the reset columns of the record tables): DORMANT,
nothing powered, nothing waiting, memory with nothing listed, every sub-array FREE, no session and no lease, every lane OFF. -/
def Obligations.ResetState : Prop :=
  let s := State.reset
  s.pending = [] ∧ s.mem = [] ∧ Memory.wf s.mem = true ∧ s.mode = modeDormant ∧ s.bell.alive = false ∧ s.bench.serving = false ∧
  (∀ i : SubId, s.saState i = saFree) ∧ (∀ b : BenchId, (s.benchOf b).stat.isOpen = false ∧ s.holdsAny b = false) ∧
  (∀ l : LaneId, (s.laneOf l).st = lsOff) ∧ (∀ i : IslandId, s.islandOn i = false) ∧ s.move.exch.stat.lockOwner = 15 ∧
  (∀ i : SourceId, (s.source i).reg.state = 0) ∧ s.out = []
end

