-- ==== Sys2Proof/Laws/Commands.lean ====
section
/-! SUPPORT. How a command packet that is taken at once is answered, and when a command's tests let it act. -/

namespace Sys2Proof.Machine

variable {s : State} {b : BenchId} {op : BitVec 8} {p : Packet}

/-- A packet that can be taken at once is carried out on the module as handed over, and answered. -/
theorem State.hand_ready {run : State → Ran} (h : s.ready b) (hl : p.len ≤ 1024) (hm : p.meets = .nothing) :
    s.hand b op p run = (State.answered b op p.tag true (run (s.handed b))).serve := by
  have h1 : ¬ 1024 < p.len := by omega
  simp [State.hand, h.1, h.2, State.carry, h1, State.handed, State.carriedOut, hm]

/-- As `hand_ready`, for a command that is answered at once. -/
theorem State.hand_replied {run : State → State × Reply} {r : State × Reply} (h : s.ready b) (hl : p.len ≤ 1024)
    (hm : p.meets = .nothing) (hr : run (s.handed b) = r) :
    s.hand b op p (fun t => atOnce (run t)) = State.replied b op p r := by
  rw [State.hand_ready h hl hm, hr, State.replied]

/-- A command in which the firmware meets a fault is answered INTERNAL, with its effect or with none (R336; log entry 79). -/
theorem State.hand_internal {run : State → Ran} {acted : Bool} (h : s.ready b) (hl : p.len ≤ 1024) (hm : p.meets = .firmware acted) :
    s.hand b op p run = State.replied b op p
      ((if acted then (run (s.handed b)).1 else s.handed b).raise srcCmdInternal 0, Reply.plain stInternal) := by
  have h1 : ¬ 1024 < p.len := by omega
  simp [State.hand, h.1, h.2, State.carry, h1, State.handed, State.carriedOut, hm, State.replied, atOnce]

/-- A packet that reaches its bench and cannot be taken waits. -/
theorem State.hand_waits {run : State → Ran} (h : s.reaches b = true) (hf : s.free b = false) :
    s.hand b op p run = s.wait b (packetWords op p) := by simp [State.hand, h, hf]

/-- A packet that cannot reach its bench changes at most SEQ_DROP. -/
theorem State.hand_missed {run : State → Ran} (h : s.reaches b = false) : s.hand b op p run = s.missed b := by
  simp [State.hand, h]

/-- A command none of whose tests applies acts. -/
theorem State.answer_acts {ts : List (Bool × BitVec 8)} {r : State × Reply} (h : ∀ e ∈ ts, e.1 = false) : s.answer ts r = r := by
  have : ts.find? (fun e => e.1) = none := by
    rw [List.find?_eq_none]; intro e he; simp [h e he]
  simp [State.answer, this]

/-- A command one of whose tests applies answers with that test's code and changes nothing. -/
theorem State.answer_refused {ts : List (Bool × BitVec 8)} {r : State × Reply} {e : Bool × BitVec 8}
    (h : ts.find? (fun e => e.1) = some e) : s.answer ts r = (s, Reply.plain e.2) := by simp [State.answer, h]

/-- The four tests of R335 pass. -/
theorem tests_pass {l q c a : Bool} (hl : l = true) (hq : q = true) (hc : c = true) (ha : a = true) :
    ∀ e ∈ tests l q c a, e.1 = false := by simp [tests, hl, hq, hc, ha]

/-- A command whose four tests pass acts. -/
theorem State.answer_tests {l q c a : Bool} {r : State × Reply} (hl : l = true) (hq : q = true) (hc : c = true) (ha : a = true) :
    s.answer (tests l q c a) r = r := State.answer_acts (tests_pass hl hq hc ha)

end Sys2Proof.Machine
end

