-- ==== Sys2Proof/Laws/State.lean ====
section
/-! SUPPORT. What each update of the state leaves as it was, field by field, and what it does to the part it changes. -/

namespace Sys2Proof.Machine

/-! ### One part of a vector -/

/-- An entry after one has been set. -/
@[simp] theorem vset_getElem {α : Type} {n : Nat} (v : Vector α n) (i : Fin n) (x : α) (k : Nat) (h : k < n) :
    (vset v i x)[k] = if i.val = k then x else v[k] := by simp [vset, Vector.getElem_set]

/-- An entry after one has been changed. -/
@[simp] theorem vmod_getElem {α : Type} {n : Nat} (v : Vector α n) (i : Fin n) (f : α → α) (k : Nat) (h : k < n) :
    (vmod v i f)[k] = if i.val = k then f v[k] else v[k] := by
  unfold vmod; rw [vset_getElem]; split
  · next e => subst e; rfl
  · rfl

/-- The entries beside the one that was changed. -/
theorem vmod_ne {α : Type} {n : Nat} (v : Vector α n) {i j : Fin n} (f : α → α) (h : j ≠ i) : (vmod v i f)[j] = v[j] := by
  have : i.val ≠ j.val := fun e => h (Fin.ext e.symm)
  simp [this]

/-! ### What an update reads back as -/

@[simp] theorem State.onBench_benchOf (s : State) (b : BenchId) (f : Bench → Bench) : (s.onBench b f).benchOf b = f (s.benchOf b) := by
  simp [State.onBench, State.benchOf]
theorem State.onBench_benchOf_ne (s : State) (b k : BenchId) (f : Bench → Bench) (h : k ≠ b) : (s.onBench b f).benchOf k = s.benchOf k := by
  simp only [State.onBench, State.benchOf]; exact vmod_ne _ _ h
@[simp] theorem State.onLane_laneOf (s : State) (l : LaneId) (f : Lane → Lane) : (s.onLane l f).laneOf l = f (s.laneOf l) := by
  simp [State.onLane, State.laneOf]
theorem State.onLane_laneOf_ne (s : State) (l k : LaneId) (f : Lane → Lane) (h : k ≠ l) : (s.onLane l f).laneOf k = s.laneOf k := by
  simp only [State.onLane, State.laneOf]; exact vmod_ne _ _ h
@[simp] theorem State.onOctet_octet (s : State) (o : OctetId) (f : Octet → Octet) : (s.onOctet o f).octet o = f (s.octet o) := by
  simp [State.onOctet, State.octet]
theorem State.onOctet_octet_ne (s : State) (o k : OctetId) (f : Octet → Octet) (h : k ≠ o) : (s.onOctet o f).octet k = s.octet k := by
  simp only [State.onOctet, State.octet]; exact vmod_ne _ _ h
@[simp] theorem State.onSource_source (s : State) (i : SourceId) (f : TallySource → TallySource) : (s.onSource i f).source i = f (s.source i) := by
  simp [State.onSource, State.source]
theorem State.onSource_source_ne (s : State) (i k : SourceId) (f : TallySource → TallySource) (h : k ≠ i) : (s.onSource i f).source k = s.source k := by
  simp only [State.onSource, State.source]; exact vmod_ne _ _ h
@[simp] theorem State.onIsland_island (s : State) (i : IslandId) (f : Island → Island) : (s.onIsland i f).island i = f (s.island i) := by
  simp [State.onIsland, State.island]
theorem State.onIsland_island_ne (s : State) (i k : IslandId) (f : Island → Island) (h : k ≠ i) : (s.onIsland i f).island k = s.island k := by
  simp only [State.onIsland, State.island]; exact vmod_ne _ _ h
@[simp] theorem State.onTile_tile (s : State) (t : TileId) (f : Tile → Tile) : (s.onTile t f).tile t = f (s.tile t) := by
  simp [State.onTile, State.tile]
theorem State.onTile_tile_ne (s : State) (t k : TileId) (f : Tile → Tile) (h : k ≠ t) : (s.onTile t f).tile k = s.tile k := by
  simp only [State.onTile, State.tile]; exact vmod_ne _ _ h
@[simp] theorem State.onEngine_engine (s : State) (e : EngineId) (f : Engine → Engine) : (s.onEngine e f).engine e = f (s.engine e) := by
  simp [State.onEngine, State.engine]
theorem State.onEngine_engine_ne (s : State) (e k : EngineId) (f : Engine → Engine) (h : k ≠ e) : (s.onEngine e f).engine k = s.engine k := by
  simp only [State.onEngine, State.engine]; exact vmod_ne _ _ h
@[simp] theorem State.onParser_parser (s : State) (i : SubId) (f : Parser → Parser) : (s.onParser i f).parser[i] = f s.parser[i] := by simp [State.onParser]
theorem State.onParser_parser_ne (s : State) (i j : SubId) (f : Parser → Parser) (h : j ≠ i) : (s.onParser i f).parser[j] = s.parser[j] := vmod_ne _ _ h
@[simp] theorem State.onObs_obs (s : State) (i : SubId) (f : ObsSub → ObsSub) : (s.onObs i f).obs[i] = f s.obs[i] := by simp [State.onObs]
theorem State.onObs_obs_ne (s : State) (i j : SubId) (f : ObsSub → ObsSub) (h : j ≠ i) : (s.onObs i f).obs[j] = s.obs[j] := vmod_ne _ _ h
@[simp] theorem State.onSieve_sieve (s : State) (i : SubId) (f : SieveSub → SieveSub) : (s.onSieve i f).sieve[i] = f s.sieve[i] := by simp [State.onSieve]
theorem State.onSieve_sieve_ne (s : State) (i j : SubId) (f : SieveSub → SieveSub) (h : j ≠ i) : (s.onSieve i f).sieve[j] = s.sieve[j] := vmod_ne _ _ h
@[simp] theorem State.onCellar_cellar (s : State) (i : SubId) (f : CellarSub → CellarSub) : (s.onCellar i f).cellar[i] = f s.cellar[i] := by simp [State.onCellar]
theorem State.onCellar_cellar_ne (s : State) (i j : SubId) (f : CellarSub → CellarSub) (h : j ≠ i) : (s.onCellar i f).cellar[j] = s.cellar[j] := vmod_ne _ _ h
@[simp] theorem State.onLoom_loom (s : State) (i : SubId) (f : LoomSub → LoomSub) : (s.onLoom i f).loom[i] = f s.loom[i] := by simp [State.onLoom]
theorem State.onLoom_loom_ne (s : State) (i j : SubId) (f : LoomSub → LoomSub) (h : j ≠ i) : (s.onLoom i f).loom[j] = s.loom[j] := vmod_ne _ _ h
@[simp] theorem State.onLedger_ledger (s : State) (i : SubId) (f : LedgerSub → LedgerSub) : (s.onLedger i f).ledger[i] = f s.ledger[i] := by simp [State.onLedger]
theorem State.onLedger_ledger_ne (s : State) (i j : SubId) (f : LedgerSub → LedgerSub) (h : j ≠ i) : (s.onLedger i f).ledger[j] = s.ledger[j] := vmod_ne _ _ h
@[simp] theorem State.onBeam_beam (s : State) (i : SubId) (f : BeamSub → BeamSub) : (s.onBeam i f).beam[i] = f s.beam[i] := by simp [State.onBeam]
theorem State.onBeam_beam_ne (s : State) (i j : SubId) (f : BeamSub → BeamSub) (h : j ≠ i) : (s.onBeam i f).beam[j] = s.beam[j] := vmod_ne _ _ h

/-! ### What an update leaves as it was -/

section
variable (s : State) (o : Output)
@[simp] theorem State.emit_out : (s.emit o).out = s.out ++ [o] := rfl
@[simp] theorem State.emit_pending : (s.emit o).pending = s.pending := rfl
@[simp] theorem State.emit_now : (s.emit o).now = s.now := rfl
@[simp] theorem State.emit_freeCount : (s.emit o).freeCount = s.freeCount := rfl
@[simp] theorem State.emit_mem : (s.emit o).mem = s.mem := rfl
@[simp] theorem State.emit_bench : (s.emit o).bench = s.bench := rfl
@[simp] theorem State.emit_tables : (s.emit o).tables = s.tables := rfl
@[simp] theorem State.emit_time : (s.emit o).time = s.time := rfl
@[simp] theorem State.emit_clock : (s.emit o).clock = s.clock := rfl
@[simp] theorem State.emit_tally : (s.emit o).tally = s.tally := rfl
@[simp] theorem State.emit_bell : (s.emit o).bell = s.bell := rfl
@[simp] theorem State.emit_start : (s.emit o).start = s.start := rfl
@[simp] theorem State.emit_side : (s.emit o).side = s.side := rfl
@[simp] theorem State.emit_lane : (s.emit o).lane = s.lane := rfl
@[simp] theorem State.emit_fmt : (s.emit o).fmt = s.fmt := rfl
@[simp] theorem State.emit_parser : (s.emit o).parser = s.parser := rfl
@[simp] theorem State.emit_obs : (s.emit o).obs = s.obs := rfl
@[simp] theorem State.emit_sieve : (s.emit o).sieve = s.sieve := rfl
@[simp] theorem State.emit_cellar : (s.emit o).cellar = s.cellar := rfl
@[simp] theorem State.emit_front : (s.emit o).front = s.front := rfl
@[simp] theorem State.emit_loom : (s.emit o).loom = s.loom := rfl
@[simp] theorem State.emit_ledger : (s.emit o).ledger = s.ledger := rfl
@[simp] theorem State.emit_beam : (s.emit o).beam = s.beam := rfl
@[simp] theorem State.emit_tiles : (s.emit o).tiles = s.tiles := rfl
@[simp] theorem State.emit_gran : (s.emit o).gran = s.gran := rfl
@[simp] theorem State.emit_move : (s.emit o).move = s.move := rfl
@[simp] theorem State.emit_snap : (s.emit o).snap = s.snap := rfl
end

section
variable (s : State) (os : List Output)
@[simp] theorem State.emits_out : (s.emits os).out = s.out ++ os := rfl
@[simp] theorem State.emits_pending : (s.emits os).pending = s.pending := rfl
@[simp] theorem State.emits_now : (s.emits os).now = s.now := rfl
@[simp] theorem State.emits_freeCount : (s.emits os).freeCount = s.freeCount := rfl
@[simp] theorem State.emits_mem : (s.emits os).mem = s.mem := rfl
@[simp] theorem State.emits_bench : (s.emits os).bench = s.bench := rfl
@[simp] theorem State.emits_tables : (s.emits os).tables = s.tables := rfl
@[simp] theorem State.emits_time : (s.emits os).time = s.time := rfl
@[simp] theorem State.emits_clock : (s.emits os).clock = s.clock := rfl
@[simp] theorem State.emits_tally : (s.emits os).tally = s.tally := rfl
@[simp] theorem State.emits_bell : (s.emits os).bell = s.bell := rfl
@[simp] theorem State.emits_start : (s.emits os).start = s.start := rfl
@[simp] theorem State.emits_side : (s.emits os).side = s.side := rfl
@[simp] theorem State.emits_lane : (s.emits os).lane = s.lane := rfl
@[simp] theorem State.emits_fmt : (s.emits os).fmt = s.fmt := rfl
@[simp] theorem State.emits_parser : (s.emits os).parser = s.parser := rfl
@[simp] theorem State.emits_obs : (s.emits os).obs = s.obs := rfl
@[simp] theorem State.emits_sieve : (s.emits os).sieve = s.sieve := rfl
@[simp] theorem State.emits_cellar : (s.emits os).cellar = s.cellar := rfl
@[simp] theorem State.emits_front : (s.emits os).front = s.front := rfl
@[simp] theorem State.emits_loom : (s.emits os).loom = s.loom := rfl
@[simp] theorem State.emits_ledger : (s.emits os).ledger = s.ledger := rfl
@[simp] theorem State.emits_beam : (s.emits os).beam = s.beam := rfl
@[simp] theorem State.emits_tiles : (s.emits os).tiles = s.tiles := rfl
@[simp] theorem State.emits_gran : (s.emits os).gran = s.gran := rfl
@[simp] theorem State.emits_move : (s.emits os).move = s.move := rfl
@[simp] theorem State.emits_snap : (s.emits os).snap = s.snap := rfl
end

section
variable (s : State) (n : Nat)
@[simp] theorem State.drawn_freeCount : (s.drawn n).freeCount = s.freeCount + n := rfl
@[simp] theorem State.drawn_pending : (s.drawn n).pending = s.pending := rfl
@[simp] theorem State.drawn_now : (s.drawn n).now = s.now := rfl
@[simp] theorem State.drawn_out : (s.drawn n).out = s.out := rfl
@[simp] theorem State.drawn_mem : (s.drawn n).mem = s.mem := rfl
@[simp] theorem State.drawn_bench : (s.drawn n).bench = s.bench := rfl
@[simp] theorem State.drawn_tables : (s.drawn n).tables = s.tables := rfl
@[simp] theorem State.drawn_time : (s.drawn n).time = s.time := rfl
@[simp] theorem State.drawn_clock : (s.drawn n).clock = s.clock := rfl
@[simp] theorem State.drawn_tally : (s.drawn n).tally = s.tally := rfl
@[simp] theorem State.drawn_bell : (s.drawn n).bell = s.bell := rfl
@[simp] theorem State.drawn_start : (s.drawn n).start = s.start := rfl
@[simp] theorem State.drawn_side : (s.drawn n).side = s.side := rfl
@[simp] theorem State.drawn_lane : (s.drawn n).lane = s.lane := rfl
@[simp] theorem State.drawn_fmt : (s.drawn n).fmt = s.fmt := rfl
@[simp] theorem State.drawn_parser : (s.drawn n).parser = s.parser := rfl
@[simp] theorem State.drawn_obs : (s.drawn n).obs = s.obs := rfl
@[simp] theorem State.drawn_sieve : (s.drawn n).sieve = s.sieve := rfl
@[simp] theorem State.drawn_cellar : (s.drawn n).cellar = s.cellar := rfl
@[simp] theorem State.drawn_front : (s.drawn n).front = s.front := rfl
@[simp] theorem State.drawn_loom : (s.drawn n).loom = s.loom := rfl
@[simp] theorem State.drawn_ledger : (s.drawn n).ledger = s.ledger := rfl
@[simp] theorem State.drawn_beam : (s.drawn n).beam = s.beam := rfl
@[simp] theorem State.drawn_tiles : (s.drawn n).tiles = s.tiles := rfl
@[simp] theorem State.drawn_gran : (s.drawn n).gran = s.gran := rfl
@[simp] theorem State.drawn_move : (s.drawn n).move = s.move := rfl
@[simp] theorem State.drawn_snap : (s.drawn n).snap = s.snap := rfl
end

section
variable (s : State) (b : BenchId) (f : Bench → Bench)
@[simp] theorem State.onBench_pending : (s.onBench b f).pending = s.pending := rfl
@[simp] theorem State.onBench_now : (s.onBench b f).now = s.now := rfl
@[simp] theorem State.onBench_freeCount : (s.onBench b f).freeCount = s.freeCount := rfl
@[simp] theorem State.onBench_out : (s.onBench b f).out = s.out := rfl
@[simp] theorem State.onBench_mem : (s.onBench b f).mem = s.mem := rfl
@[simp] theorem State.onBench_tables : (s.onBench b f).tables = s.tables := rfl
@[simp] theorem State.onBench_time : (s.onBench b f).time = s.time := rfl
@[simp] theorem State.onBench_clock : (s.onBench b f).clock = s.clock := rfl
@[simp] theorem State.onBench_tally : (s.onBench b f).tally = s.tally := rfl
@[simp] theorem State.onBench_bell : (s.onBench b f).bell = s.bell := rfl
@[simp] theorem State.onBench_start : (s.onBench b f).start = s.start := rfl
@[simp] theorem State.onBench_side : (s.onBench b f).side = s.side := rfl
@[simp] theorem State.onBench_lane : (s.onBench b f).lane = s.lane := rfl
@[simp] theorem State.onBench_fmt : (s.onBench b f).fmt = s.fmt := rfl
@[simp] theorem State.onBench_parser : (s.onBench b f).parser = s.parser := rfl
@[simp] theorem State.onBench_obs : (s.onBench b f).obs = s.obs := rfl
@[simp] theorem State.onBench_sieve : (s.onBench b f).sieve = s.sieve := rfl
@[simp] theorem State.onBench_cellar : (s.onBench b f).cellar = s.cellar := rfl
@[simp] theorem State.onBench_front : (s.onBench b f).front = s.front := rfl
@[simp] theorem State.onBench_loom : (s.onBench b f).loom = s.loom := rfl
@[simp] theorem State.onBench_ledger : (s.onBench b f).ledger = s.ledger := rfl
@[simp] theorem State.onBench_beam : (s.onBench b f).beam = s.beam := rfl
@[simp] theorem State.onBench_tiles : (s.onBench b f).tiles = s.tiles := rfl
@[simp] theorem State.onBench_gran : (s.onBench b f).gran = s.gran := rfl
@[simp] theorem State.onBench_move : (s.onBench b f).move = s.move := rfl
@[simp] theorem State.onBench_snap : (s.onBench b f).snap = s.snap := rfl
end

section
variable (s : State) (b : BenchId) (f : BnchStat → BnchStat)
@[simp] theorem State.onBnch_pending : (s.onBnch b f).pending = s.pending := rfl
@[simp] theorem State.onBnch_now : (s.onBnch b f).now = s.now := rfl
@[simp] theorem State.onBnch_freeCount : (s.onBnch b f).freeCount = s.freeCount := rfl
@[simp] theorem State.onBnch_out : (s.onBnch b f).out = s.out := rfl
@[simp] theorem State.onBnch_mem : (s.onBnch b f).mem = s.mem := rfl
@[simp] theorem State.onBnch_tables : (s.onBnch b f).tables = s.tables := rfl
@[simp] theorem State.onBnch_time : (s.onBnch b f).time = s.time := rfl
@[simp] theorem State.onBnch_clock : (s.onBnch b f).clock = s.clock := rfl
@[simp] theorem State.onBnch_tally : (s.onBnch b f).tally = s.tally := rfl
@[simp] theorem State.onBnch_bell : (s.onBnch b f).bell = s.bell := rfl
@[simp] theorem State.onBnch_start : (s.onBnch b f).start = s.start := rfl
@[simp] theorem State.onBnch_side : (s.onBnch b f).side = s.side := rfl
@[simp] theorem State.onBnch_lane : (s.onBnch b f).lane = s.lane := rfl
@[simp] theorem State.onBnch_fmt : (s.onBnch b f).fmt = s.fmt := rfl
@[simp] theorem State.onBnch_parser : (s.onBnch b f).parser = s.parser := rfl
@[simp] theorem State.onBnch_obs : (s.onBnch b f).obs = s.obs := rfl
@[simp] theorem State.onBnch_sieve : (s.onBnch b f).sieve = s.sieve := rfl
@[simp] theorem State.onBnch_cellar : (s.onBnch b f).cellar = s.cellar := rfl
@[simp] theorem State.onBnch_front : (s.onBnch b f).front = s.front := rfl
@[simp] theorem State.onBnch_loom : (s.onBnch b f).loom = s.loom := rfl
@[simp] theorem State.onBnch_ledger : (s.onBnch b f).ledger = s.ledger := rfl
@[simp] theorem State.onBnch_beam : (s.onBnch b f).beam = s.beam := rfl
@[simp] theorem State.onBnch_tiles : (s.onBnch b f).tiles = s.tiles := rfl
@[simp] theorem State.onBnch_gran : (s.onBnch b f).gran = s.gran := rfl
@[simp] theorem State.onBnch_move : (s.onBnch b f).move = s.move := rfl
@[simp] theorem State.onBnch_snap : (s.onBnch b f).snap = s.snap := rfl
end

section
variable (s : State) (l : LaneId) (f : Lane → Lane)
@[simp] theorem State.onLane_pending : (s.onLane l f).pending = s.pending := rfl
@[simp] theorem State.onLane_now : (s.onLane l f).now = s.now := rfl
@[simp] theorem State.onLane_freeCount : (s.onLane l f).freeCount = s.freeCount := rfl
@[simp] theorem State.onLane_out : (s.onLane l f).out = s.out := rfl
@[simp] theorem State.onLane_mem : (s.onLane l f).mem = s.mem := rfl
@[simp] theorem State.onLane_bench : (s.onLane l f).bench = s.bench := rfl
@[simp] theorem State.onLane_tables : (s.onLane l f).tables = s.tables := rfl
@[simp] theorem State.onLane_time : (s.onLane l f).time = s.time := rfl
@[simp] theorem State.onLane_clock : (s.onLane l f).clock = s.clock := rfl
@[simp] theorem State.onLane_tally : (s.onLane l f).tally = s.tally := rfl
@[simp] theorem State.onLane_bell : (s.onLane l f).bell = s.bell := rfl
@[simp] theorem State.onLane_start : (s.onLane l f).start = s.start := rfl
@[simp] theorem State.onLane_side : (s.onLane l f).side = s.side := rfl
@[simp] theorem State.onLane_fmt : (s.onLane l f).fmt = s.fmt := rfl
@[simp] theorem State.onLane_parser : (s.onLane l f).parser = s.parser := rfl
@[simp] theorem State.onLane_obs : (s.onLane l f).obs = s.obs := rfl
@[simp] theorem State.onLane_sieve : (s.onLane l f).sieve = s.sieve := rfl
@[simp] theorem State.onLane_cellar : (s.onLane l f).cellar = s.cellar := rfl
@[simp] theorem State.onLane_front : (s.onLane l f).front = s.front := rfl
@[simp] theorem State.onLane_loom : (s.onLane l f).loom = s.loom := rfl
@[simp] theorem State.onLane_ledger : (s.onLane l f).ledger = s.ledger := rfl
@[simp] theorem State.onLane_beam : (s.onLane l f).beam = s.beam := rfl
@[simp] theorem State.onLane_tiles : (s.onLane l f).tiles = s.tiles := rfl
@[simp] theorem State.onLane_gran : (s.onLane l f).gran = s.gran := rfl
@[simp] theorem State.onLane_move : (s.onLane l f).move = s.move := rfl
@[simp] theorem State.onLane_snap : (s.onLane l f).snap = s.snap := rfl
end

section
variable (s : State) (l : LaneId) (f : LaneStat → LaneStat)
@[simp] theorem State.onLaneStat_pending : (s.onLaneStat l f).pending = s.pending := rfl
@[simp] theorem State.onLaneStat_now : (s.onLaneStat l f).now = s.now := rfl
@[simp] theorem State.onLaneStat_freeCount : (s.onLaneStat l f).freeCount = s.freeCount := rfl
@[simp] theorem State.onLaneStat_out : (s.onLaneStat l f).out = s.out := rfl
@[simp] theorem State.onLaneStat_mem : (s.onLaneStat l f).mem = s.mem := rfl
@[simp] theorem State.onLaneStat_bench : (s.onLaneStat l f).bench = s.bench := rfl
@[simp] theorem State.onLaneStat_tables : (s.onLaneStat l f).tables = s.tables := rfl
@[simp] theorem State.onLaneStat_time : (s.onLaneStat l f).time = s.time := rfl
@[simp] theorem State.onLaneStat_clock : (s.onLaneStat l f).clock = s.clock := rfl
@[simp] theorem State.onLaneStat_tally : (s.onLaneStat l f).tally = s.tally := rfl
@[simp] theorem State.onLaneStat_bell : (s.onLaneStat l f).bell = s.bell := rfl
@[simp] theorem State.onLaneStat_start : (s.onLaneStat l f).start = s.start := rfl
@[simp] theorem State.onLaneStat_side : (s.onLaneStat l f).side = s.side := rfl
@[simp] theorem State.onLaneStat_fmt : (s.onLaneStat l f).fmt = s.fmt := rfl
@[simp] theorem State.onLaneStat_parser : (s.onLaneStat l f).parser = s.parser := rfl
@[simp] theorem State.onLaneStat_obs : (s.onLaneStat l f).obs = s.obs := rfl
@[simp] theorem State.onLaneStat_sieve : (s.onLaneStat l f).sieve = s.sieve := rfl
@[simp] theorem State.onLaneStat_cellar : (s.onLaneStat l f).cellar = s.cellar := rfl
@[simp] theorem State.onLaneStat_front : (s.onLaneStat l f).front = s.front := rfl
@[simp] theorem State.onLaneStat_loom : (s.onLaneStat l f).loom = s.loom := rfl
@[simp] theorem State.onLaneStat_ledger : (s.onLaneStat l f).ledger = s.ledger := rfl
@[simp] theorem State.onLaneStat_beam : (s.onLaneStat l f).beam = s.beam := rfl
@[simp] theorem State.onLaneStat_tiles : (s.onLaneStat l f).tiles = s.tiles := rfl
@[simp] theorem State.onLaneStat_gran : (s.onLaneStat l f).gran = s.gran := rfl
@[simp] theorem State.onLaneStat_move : (s.onLaneStat l f).move = s.move := rfl
@[simp] theorem State.onLaneStat_snap : (s.onLaneStat l f).snap = s.snap := rfl
end

section
variable (s : State) (l : LaneId) (f : LaneCnt → LaneCnt)
@[simp] theorem State.onLaneCnt_pending : (s.onLaneCnt l f).pending = s.pending := rfl
@[simp] theorem State.onLaneCnt_now : (s.onLaneCnt l f).now = s.now := rfl
@[simp] theorem State.onLaneCnt_freeCount : (s.onLaneCnt l f).freeCount = s.freeCount := rfl
@[simp] theorem State.onLaneCnt_out : (s.onLaneCnt l f).out = s.out := rfl
@[simp] theorem State.onLaneCnt_mem : (s.onLaneCnt l f).mem = s.mem := rfl
@[simp] theorem State.onLaneCnt_bench : (s.onLaneCnt l f).bench = s.bench := rfl
@[simp] theorem State.onLaneCnt_tables : (s.onLaneCnt l f).tables = s.tables := rfl
@[simp] theorem State.onLaneCnt_time : (s.onLaneCnt l f).time = s.time := rfl
@[simp] theorem State.onLaneCnt_clock : (s.onLaneCnt l f).clock = s.clock := rfl
@[simp] theorem State.onLaneCnt_tally : (s.onLaneCnt l f).tally = s.tally := rfl
@[simp] theorem State.onLaneCnt_bell : (s.onLaneCnt l f).bell = s.bell := rfl
@[simp] theorem State.onLaneCnt_start : (s.onLaneCnt l f).start = s.start := rfl
@[simp] theorem State.onLaneCnt_side : (s.onLaneCnt l f).side = s.side := rfl
@[simp] theorem State.onLaneCnt_fmt : (s.onLaneCnt l f).fmt = s.fmt := rfl
@[simp] theorem State.onLaneCnt_parser : (s.onLaneCnt l f).parser = s.parser := rfl
@[simp] theorem State.onLaneCnt_obs : (s.onLaneCnt l f).obs = s.obs := rfl
@[simp] theorem State.onLaneCnt_sieve : (s.onLaneCnt l f).sieve = s.sieve := rfl
@[simp] theorem State.onLaneCnt_cellar : (s.onLaneCnt l f).cellar = s.cellar := rfl
@[simp] theorem State.onLaneCnt_front : (s.onLaneCnt l f).front = s.front := rfl
@[simp] theorem State.onLaneCnt_loom : (s.onLaneCnt l f).loom = s.loom := rfl
@[simp] theorem State.onLaneCnt_ledger : (s.onLaneCnt l f).ledger = s.ledger := rfl
@[simp] theorem State.onLaneCnt_beam : (s.onLaneCnt l f).beam = s.beam := rfl
@[simp] theorem State.onLaneCnt_tiles : (s.onLaneCnt l f).tiles = s.tiles := rfl
@[simp] theorem State.onLaneCnt_gran : (s.onLaneCnt l f).gran = s.gran := rfl
@[simp] theorem State.onLaneCnt_move : (s.onLaneCnt l f).move = s.move := rfl
@[simp] theorem State.onLaneCnt_snap : (s.onLaneCnt l f).snap = s.snap := rfl
end

section
variable (s : State) (o : OctetId) (f : Octet → Octet)
@[simp] theorem State.onOctet_pending : (s.onOctet o f).pending = s.pending := rfl
@[simp] theorem State.onOctet_now : (s.onOctet o f).now = s.now := rfl
@[simp] theorem State.onOctet_freeCount : (s.onOctet o f).freeCount = s.freeCount := rfl
@[simp] theorem State.onOctet_out : (s.onOctet o f).out = s.out := rfl
@[simp] theorem State.onOctet_mem : (s.onOctet o f).mem = s.mem := rfl
@[simp] theorem State.onOctet_bench : (s.onOctet o f).bench = s.bench := rfl
@[simp] theorem State.onOctet_tables : (s.onOctet o f).tables = s.tables := rfl
@[simp] theorem State.onOctet_time : (s.onOctet o f).time = s.time := rfl
@[simp] theorem State.onOctet_clock : (s.onOctet o f).clock = s.clock := rfl
@[simp] theorem State.onOctet_tally : (s.onOctet o f).tally = s.tally := rfl
@[simp] theorem State.onOctet_bell : (s.onOctet o f).bell = s.bell := rfl
@[simp] theorem State.onOctet_start : (s.onOctet o f).start = s.start := rfl
@[simp] theorem State.onOctet_side : (s.onOctet o f).side = s.side := rfl
@[simp] theorem State.onOctet_fmt : (s.onOctet o f).fmt = s.fmt := rfl
@[simp] theorem State.onOctet_parser : (s.onOctet o f).parser = s.parser := rfl
@[simp] theorem State.onOctet_obs : (s.onOctet o f).obs = s.obs := rfl
@[simp] theorem State.onOctet_sieve : (s.onOctet o f).sieve = s.sieve := rfl
@[simp] theorem State.onOctet_cellar : (s.onOctet o f).cellar = s.cellar := rfl
@[simp] theorem State.onOctet_front : (s.onOctet o f).front = s.front := rfl
@[simp] theorem State.onOctet_loom : (s.onOctet o f).loom = s.loom := rfl
@[simp] theorem State.onOctet_ledger : (s.onOctet o f).ledger = s.ledger := rfl
@[simp] theorem State.onOctet_beam : (s.onOctet o f).beam = s.beam := rfl
@[simp] theorem State.onOctet_tiles : (s.onOctet o f).tiles = s.tiles := rfl
@[simp] theorem State.onOctet_gran : (s.onOctet o f).gran = s.gran := rfl
@[simp] theorem State.onOctet_move : (s.onOctet o f).move = s.move := rfl
@[simp] theorem State.onOctet_snap : (s.onOctet o f).snap = s.snap := rfl
end

section
variable (s : State) (i : SourceId) (f : TallySource → TallySource)
@[simp] theorem State.onSource_pending : (s.onSource i f).pending = s.pending := rfl
@[simp] theorem State.onSource_now : (s.onSource i f).now = s.now := rfl
@[simp] theorem State.onSource_freeCount : (s.onSource i f).freeCount = s.freeCount := rfl
@[simp] theorem State.onSource_out : (s.onSource i f).out = s.out := rfl
@[simp] theorem State.onSource_mem : (s.onSource i f).mem = s.mem := rfl
@[simp] theorem State.onSource_bench : (s.onSource i f).bench = s.bench := rfl
@[simp] theorem State.onSource_tables : (s.onSource i f).tables = s.tables := rfl
@[simp] theorem State.onSource_time : (s.onSource i f).time = s.time := rfl
@[simp] theorem State.onSource_clock : (s.onSource i f).clock = s.clock := rfl
@[simp] theorem State.onSource_bell : (s.onSource i f).bell = s.bell := rfl
@[simp] theorem State.onSource_start : (s.onSource i f).start = s.start := rfl
@[simp] theorem State.onSource_side : (s.onSource i f).side = s.side := rfl
@[simp] theorem State.onSource_lane : (s.onSource i f).lane = s.lane := rfl
@[simp] theorem State.onSource_fmt : (s.onSource i f).fmt = s.fmt := rfl
@[simp] theorem State.onSource_parser : (s.onSource i f).parser = s.parser := rfl
@[simp] theorem State.onSource_obs : (s.onSource i f).obs = s.obs := rfl
@[simp] theorem State.onSource_sieve : (s.onSource i f).sieve = s.sieve := rfl
@[simp] theorem State.onSource_cellar : (s.onSource i f).cellar = s.cellar := rfl
@[simp] theorem State.onSource_front : (s.onSource i f).front = s.front := rfl
@[simp] theorem State.onSource_loom : (s.onSource i f).loom = s.loom := rfl
@[simp] theorem State.onSource_ledger : (s.onSource i f).ledger = s.ledger := rfl
@[simp] theorem State.onSource_beam : (s.onSource i f).beam = s.beam := rfl
@[simp] theorem State.onSource_tiles : (s.onSource i f).tiles = s.tiles := rfl
@[simp] theorem State.onSource_gran : (s.onSource i f).gran = s.gran := rfl
@[simp] theorem State.onSource_move : (s.onSource i f).move = s.move := rfl
@[simp] theorem State.onSource_snap : (s.onSource i f).snap = s.snap := rfl
end

section
variable (s : State) (t : TimerId) (f : Timer → Timer)
@[simp] theorem State.onTimer_pending : (s.onTimer t f).pending = s.pending := rfl
@[simp] theorem State.onTimer_now : (s.onTimer t f).now = s.now := rfl
@[simp] theorem State.onTimer_freeCount : (s.onTimer t f).freeCount = s.freeCount := rfl
@[simp] theorem State.onTimer_out : (s.onTimer t f).out = s.out := rfl
@[simp] theorem State.onTimer_mem : (s.onTimer t f).mem = s.mem := rfl
@[simp] theorem State.onTimer_bench : (s.onTimer t f).bench = s.bench := rfl
@[simp] theorem State.onTimer_tables : (s.onTimer t f).tables = s.tables := rfl
@[simp] theorem State.onTimer_clock : (s.onTimer t f).clock = s.clock := rfl
@[simp] theorem State.onTimer_tally : (s.onTimer t f).tally = s.tally := rfl
@[simp] theorem State.onTimer_bell : (s.onTimer t f).bell = s.bell := rfl
@[simp] theorem State.onTimer_start : (s.onTimer t f).start = s.start := rfl
@[simp] theorem State.onTimer_side : (s.onTimer t f).side = s.side := rfl
@[simp] theorem State.onTimer_lane : (s.onTimer t f).lane = s.lane := rfl
@[simp] theorem State.onTimer_fmt : (s.onTimer t f).fmt = s.fmt := rfl
@[simp] theorem State.onTimer_parser : (s.onTimer t f).parser = s.parser := rfl
@[simp] theorem State.onTimer_obs : (s.onTimer t f).obs = s.obs := rfl
@[simp] theorem State.onTimer_sieve : (s.onTimer t f).sieve = s.sieve := rfl
@[simp] theorem State.onTimer_cellar : (s.onTimer t f).cellar = s.cellar := rfl
@[simp] theorem State.onTimer_front : (s.onTimer t f).front = s.front := rfl
@[simp] theorem State.onTimer_loom : (s.onTimer t f).loom = s.loom := rfl
@[simp] theorem State.onTimer_ledger : (s.onTimer t f).ledger = s.ledger := rfl
@[simp] theorem State.onTimer_beam : (s.onTimer t f).beam = s.beam := rfl
@[simp] theorem State.onTimer_tiles : (s.onTimer t f).tiles = s.tiles := rfl
@[simp] theorem State.onTimer_gran : (s.onTimer t f).gran = s.gran := rfl
@[simp] theorem State.onTimer_move : (s.onTimer t f).move = s.move := rfl
@[simp] theorem State.onTimer_snap : (s.onTimer t f).snap = s.snap := rfl
end

section
variable (s : State) (f : TimeStat → TimeStat)
@[simp] theorem State.onTimeStat_pending : (s.onTimeStat f).pending = s.pending := rfl
@[simp] theorem State.onTimeStat_now : (s.onTimeStat f).now = s.now := rfl
@[simp] theorem State.onTimeStat_freeCount : (s.onTimeStat f).freeCount = s.freeCount := rfl
@[simp] theorem State.onTimeStat_out : (s.onTimeStat f).out = s.out := rfl
@[simp] theorem State.onTimeStat_mem : (s.onTimeStat f).mem = s.mem := rfl
@[simp] theorem State.onTimeStat_bench : (s.onTimeStat f).bench = s.bench := rfl
@[simp] theorem State.onTimeStat_tables : (s.onTimeStat f).tables = s.tables := rfl
@[simp] theorem State.onTimeStat_clock : (s.onTimeStat f).clock = s.clock := rfl
@[simp] theorem State.onTimeStat_tally : (s.onTimeStat f).tally = s.tally := rfl
@[simp] theorem State.onTimeStat_bell : (s.onTimeStat f).bell = s.bell := rfl
@[simp] theorem State.onTimeStat_start : (s.onTimeStat f).start = s.start := rfl
@[simp] theorem State.onTimeStat_side : (s.onTimeStat f).side = s.side := rfl
@[simp] theorem State.onTimeStat_lane : (s.onTimeStat f).lane = s.lane := rfl
@[simp] theorem State.onTimeStat_fmt : (s.onTimeStat f).fmt = s.fmt := rfl
@[simp] theorem State.onTimeStat_parser : (s.onTimeStat f).parser = s.parser := rfl
@[simp] theorem State.onTimeStat_obs : (s.onTimeStat f).obs = s.obs := rfl
@[simp] theorem State.onTimeStat_sieve : (s.onTimeStat f).sieve = s.sieve := rfl
@[simp] theorem State.onTimeStat_cellar : (s.onTimeStat f).cellar = s.cellar := rfl
@[simp] theorem State.onTimeStat_front : (s.onTimeStat f).front = s.front := rfl
@[simp] theorem State.onTimeStat_loom : (s.onTimeStat f).loom = s.loom := rfl
@[simp] theorem State.onTimeStat_ledger : (s.onTimeStat f).ledger = s.ledger := rfl
@[simp] theorem State.onTimeStat_beam : (s.onTimeStat f).beam = s.beam := rfl
@[simp] theorem State.onTimeStat_tiles : (s.onTimeStat f).tiles = s.tiles := rfl
@[simp] theorem State.onTimeStat_gran : (s.onTimeStat f).gran = s.gran := rfl
@[simp] theorem State.onTimeStat_move : (s.onTimeStat f).move = s.move := rfl
@[simp] theorem State.onTimeStat_snap : (s.onTimeStat f).snap = s.snap := rfl
end

section
variable (s : State) (f : ClksStat → ClksStat)
@[simp] theorem State.onClks_pending : (s.onClks f).pending = s.pending := rfl
@[simp] theorem State.onClks_now : (s.onClks f).now = s.now := rfl
@[simp] theorem State.onClks_freeCount : (s.onClks f).freeCount = s.freeCount := rfl
@[simp] theorem State.onClks_out : (s.onClks f).out = s.out := rfl
@[simp] theorem State.onClks_mem : (s.onClks f).mem = s.mem := rfl
@[simp] theorem State.onClks_bench : (s.onClks f).bench = s.bench := rfl
@[simp] theorem State.onClks_tables : (s.onClks f).tables = s.tables := rfl
@[simp] theorem State.onClks_time : (s.onClks f).time = s.time := rfl
@[simp] theorem State.onClks_tally : (s.onClks f).tally = s.tally := rfl
@[simp] theorem State.onClks_bell : (s.onClks f).bell = s.bell := rfl
@[simp] theorem State.onClks_start : (s.onClks f).start = s.start := rfl
@[simp] theorem State.onClks_side : (s.onClks f).side = s.side := rfl
@[simp] theorem State.onClks_lane : (s.onClks f).lane = s.lane := rfl
@[simp] theorem State.onClks_fmt : (s.onClks f).fmt = s.fmt := rfl
@[simp] theorem State.onClks_parser : (s.onClks f).parser = s.parser := rfl
@[simp] theorem State.onClks_obs : (s.onClks f).obs = s.obs := rfl
@[simp] theorem State.onClks_sieve : (s.onClks f).sieve = s.sieve := rfl
@[simp] theorem State.onClks_cellar : (s.onClks f).cellar = s.cellar := rfl
@[simp] theorem State.onClks_front : (s.onClks f).front = s.front := rfl
@[simp] theorem State.onClks_loom : (s.onClks f).loom = s.loom := rfl
@[simp] theorem State.onClks_ledger : (s.onClks f).ledger = s.ledger := rfl
@[simp] theorem State.onClks_beam : (s.onClks f).beam = s.beam := rfl
@[simp] theorem State.onClks_tiles : (s.onClks f).tiles = s.tiles := rfl
@[simp] theorem State.onClks_gran : (s.onClks f).gran = s.gran := rfl
@[simp] theorem State.onClks_move : (s.onClks f).move = s.move := rfl
@[simp] theorem State.onClks_snap : (s.onClks f).snap = s.snap := rfl
end

section
variable (s : State) (f : BellStat → BellStat)
@[simp] theorem State.onBellStat_pending : (s.onBellStat f).pending = s.pending := rfl
@[simp] theorem State.onBellStat_now : (s.onBellStat f).now = s.now := rfl
@[simp] theorem State.onBellStat_freeCount : (s.onBellStat f).freeCount = s.freeCount := rfl
@[simp] theorem State.onBellStat_out : (s.onBellStat f).out = s.out := rfl
@[simp] theorem State.onBellStat_mem : (s.onBellStat f).mem = s.mem := rfl
@[simp] theorem State.onBellStat_bench : (s.onBellStat f).bench = s.bench := rfl
@[simp] theorem State.onBellStat_tables : (s.onBellStat f).tables = s.tables := rfl
@[simp] theorem State.onBellStat_time : (s.onBellStat f).time = s.time := rfl
@[simp] theorem State.onBellStat_clock : (s.onBellStat f).clock = s.clock := rfl
@[simp] theorem State.onBellStat_tally : (s.onBellStat f).tally = s.tally := rfl
@[simp] theorem State.onBellStat_start : (s.onBellStat f).start = s.start := rfl
@[simp] theorem State.onBellStat_side : (s.onBellStat f).side = s.side := rfl
@[simp] theorem State.onBellStat_lane : (s.onBellStat f).lane = s.lane := rfl
@[simp] theorem State.onBellStat_fmt : (s.onBellStat f).fmt = s.fmt := rfl
@[simp] theorem State.onBellStat_parser : (s.onBellStat f).parser = s.parser := rfl
@[simp] theorem State.onBellStat_obs : (s.onBellStat f).obs = s.obs := rfl
@[simp] theorem State.onBellStat_sieve : (s.onBellStat f).sieve = s.sieve := rfl
@[simp] theorem State.onBellStat_cellar : (s.onBellStat f).cellar = s.cellar := rfl
@[simp] theorem State.onBellStat_front : (s.onBellStat f).front = s.front := rfl
@[simp] theorem State.onBellStat_loom : (s.onBellStat f).loom = s.loom := rfl
@[simp] theorem State.onBellStat_ledger : (s.onBellStat f).ledger = s.ledger := rfl
@[simp] theorem State.onBellStat_beam : (s.onBellStat f).beam = s.beam := rfl
@[simp] theorem State.onBellStat_tiles : (s.onBellStat f).tiles = s.tiles := rfl
@[simp] theorem State.onBellStat_gran : (s.onBellStat f).gran = s.gran := rfl
@[simp] theorem State.onBellStat_move : (s.onBellStat f).move = s.move := rfl
@[simp] theorem State.onBellStat_snap : (s.onBellStat f).snap = s.snap := rfl
end

section
variable (s : State) (i : IslandId) (f : Island → Island)
@[simp] theorem State.onIsland_pending : (s.onIsland i f).pending = s.pending := rfl
@[simp] theorem State.onIsland_now : (s.onIsland i f).now = s.now := rfl
@[simp] theorem State.onIsland_freeCount : (s.onIsland i f).freeCount = s.freeCount := rfl
@[simp] theorem State.onIsland_out : (s.onIsland i f).out = s.out := rfl
@[simp] theorem State.onIsland_mem : (s.onIsland i f).mem = s.mem := rfl
@[simp] theorem State.onIsland_bench : (s.onIsland i f).bench = s.bench := rfl
@[simp] theorem State.onIsland_tables : (s.onIsland i f).tables = s.tables := rfl
@[simp] theorem State.onIsland_time : (s.onIsland i f).time = s.time := rfl
@[simp] theorem State.onIsland_clock : (s.onIsland i f).clock = s.clock := rfl
@[simp] theorem State.onIsland_tally : (s.onIsland i f).tally = s.tally := rfl
@[simp] theorem State.onIsland_start : (s.onIsland i f).start = s.start := rfl
@[simp] theorem State.onIsland_side : (s.onIsland i f).side = s.side := rfl
@[simp] theorem State.onIsland_lane : (s.onIsland i f).lane = s.lane := rfl
@[simp] theorem State.onIsland_fmt : (s.onIsland i f).fmt = s.fmt := rfl
@[simp] theorem State.onIsland_parser : (s.onIsland i f).parser = s.parser := rfl
@[simp] theorem State.onIsland_obs : (s.onIsland i f).obs = s.obs := rfl
@[simp] theorem State.onIsland_sieve : (s.onIsland i f).sieve = s.sieve := rfl
@[simp] theorem State.onIsland_cellar : (s.onIsland i f).cellar = s.cellar := rfl
@[simp] theorem State.onIsland_front : (s.onIsland i f).front = s.front := rfl
@[simp] theorem State.onIsland_loom : (s.onIsland i f).loom = s.loom := rfl
@[simp] theorem State.onIsland_ledger : (s.onIsland i f).ledger = s.ledger := rfl
@[simp] theorem State.onIsland_beam : (s.onIsland i f).beam = s.beam := rfl
@[simp] theorem State.onIsland_tiles : (s.onIsland i f).tiles = s.tiles := rfl
@[simp] theorem State.onIsland_gran : (s.onIsland i f).gran = s.gran := rfl
@[simp] theorem State.onIsland_move : (s.onIsland i f).move = s.move := rfl
@[simp] theorem State.onIsland_snap : (s.onIsland i f).snap = s.snap := rfl
end

section
variable (s : State) (i : SubId) (f : Parser → Parser)
@[simp] theorem State.onParser_pending : (s.onParser i f).pending = s.pending := rfl
@[simp] theorem State.onParser_now : (s.onParser i f).now = s.now := rfl
@[simp] theorem State.onParser_freeCount : (s.onParser i f).freeCount = s.freeCount := rfl
@[simp] theorem State.onParser_out : (s.onParser i f).out = s.out := rfl
@[simp] theorem State.onParser_mem : (s.onParser i f).mem = s.mem := rfl
@[simp] theorem State.onParser_bench : (s.onParser i f).bench = s.bench := rfl
@[simp] theorem State.onParser_tables : (s.onParser i f).tables = s.tables := rfl
@[simp] theorem State.onParser_time : (s.onParser i f).time = s.time := rfl
@[simp] theorem State.onParser_clock : (s.onParser i f).clock = s.clock := rfl
@[simp] theorem State.onParser_tally : (s.onParser i f).tally = s.tally := rfl
@[simp] theorem State.onParser_bell : (s.onParser i f).bell = s.bell := rfl
@[simp] theorem State.onParser_start : (s.onParser i f).start = s.start := rfl
@[simp] theorem State.onParser_side : (s.onParser i f).side = s.side := rfl
@[simp] theorem State.onParser_lane : (s.onParser i f).lane = s.lane := rfl
@[simp] theorem State.onParser_fmt : (s.onParser i f).fmt = s.fmt := rfl
@[simp] theorem State.onParser_obs : (s.onParser i f).obs = s.obs := rfl
@[simp] theorem State.onParser_sieve : (s.onParser i f).sieve = s.sieve := rfl
@[simp] theorem State.onParser_cellar : (s.onParser i f).cellar = s.cellar := rfl
@[simp] theorem State.onParser_front : (s.onParser i f).front = s.front := rfl
@[simp] theorem State.onParser_loom : (s.onParser i f).loom = s.loom := rfl
@[simp] theorem State.onParser_ledger : (s.onParser i f).ledger = s.ledger := rfl
@[simp] theorem State.onParser_beam : (s.onParser i f).beam = s.beam := rfl
@[simp] theorem State.onParser_tiles : (s.onParser i f).tiles = s.tiles := rfl
@[simp] theorem State.onParser_gran : (s.onParser i f).gran = s.gran := rfl
@[simp] theorem State.onParser_move : (s.onParser i f).move = s.move := rfl
@[simp] theorem State.onParser_snap : (s.onParser i f).snap = s.snap := rfl
end

section
variable (s : State) (i : SubId) (f : ObsSub → ObsSub)
@[simp] theorem State.onObs_pending : (s.onObs i f).pending = s.pending := rfl
@[simp] theorem State.onObs_now : (s.onObs i f).now = s.now := rfl
@[simp] theorem State.onObs_freeCount : (s.onObs i f).freeCount = s.freeCount := rfl
@[simp] theorem State.onObs_out : (s.onObs i f).out = s.out := rfl
@[simp] theorem State.onObs_mem : (s.onObs i f).mem = s.mem := rfl
@[simp] theorem State.onObs_bench : (s.onObs i f).bench = s.bench := rfl
@[simp] theorem State.onObs_tables : (s.onObs i f).tables = s.tables := rfl
@[simp] theorem State.onObs_time : (s.onObs i f).time = s.time := rfl
@[simp] theorem State.onObs_clock : (s.onObs i f).clock = s.clock := rfl
@[simp] theorem State.onObs_tally : (s.onObs i f).tally = s.tally := rfl
@[simp] theorem State.onObs_bell : (s.onObs i f).bell = s.bell := rfl
@[simp] theorem State.onObs_start : (s.onObs i f).start = s.start := rfl
@[simp] theorem State.onObs_side : (s.onObs i f).side = s.side := rfl
@[simp] theorem State.onObs_lane : (s.onObs i f).lane = s.lane := rfl
@[simp] theorem State.onObs_fmt : (s.onObs i f).fmt = s.fmt := rfl
@[simp] theorem State.onObs_parser : (s.onObs i f).parser = s.parser := rfl
@[simp] theorem State.onObs_sieve : (s.onObs i f).sieve = s.sieve := rfl
@[simp] theorem State.onObs_cellar : (s.onObs i f).cellar = s.cellar := rfl
@[simp] theorem State.onObs_front : (s.onObs i f).front = s.front := rfl
@[simp] theorem State.onObs_loom : (s.onObs i f).loom = s.loom := rfl
@[simp] theorem State.onObs_ledger : (s.onObs i f).ledger = s.ledger := rfl
@[simp] theorem State.onObs_beam : (s.onObs i f).beam = s.beam := rfl
@[simp] theorem State.onObs_tiles : (s.onObs i f).tiles = s.tiles := rfl
@[simp] theorem State.onObs_gran : (s.onObs i f).gran = s.gran := rfl
@[simp] theorem State.onObs_move : (s.onObs i f).move = s.move := rfl
@[simp] theorem State.onObs_snap : (s.onObs i f).snap = s.snap := rfl
end

section
variable (s : State) (i : SubId) (f : SieveSub → SieveSub)
@[simp] theorem State.onSieve_pending : (s.onSieve i f).pending = s.pending := rfl
@[simp] theorem State.onSieve_now : (s.onSieve i f).now = s.now := rfl
@[simp] theorem State.onSieve_freeCount : (s.onSieve i f).freeCount = s.freeCount := rfl
@[simp] theorem State.onSieve_out : (s.onSieve i f).out = s.out := rfl
@[simp] theorem State.onSieve_mem : (s.onSieve i f).mem = s.mem := rfl
@[simp] theorem State.onSieve_bench : (s.onSieve i f).bench = s.bench := rfl
@[simp] theorem State.onSieve_tables : (s.onSieve i f).tables = s.tables := rfl
@[simp] theorem State.onSieve_time : (s.onSieve i f).time = s.time := rfl
@[simp] theorem State.onSieve_clock : (s.onSieve i f).clock = s.clock := rfl
@[simp] theorem State.onSieve_tally : (s.onSieve i f).tally = s.tally := rfl
@[simp] theorem State.onSieve_bell : (s.onSieve i f).bell = s.bell := rfl
@[simp] theorem State.onSieve_start : (s.onSieve i f).start = s.start := rfl
@[simp] theorem State.onSieve_side : (s.onSieve i f).side = s.side := rfl
@[simp] theorem State.onSieve_lane : (s.onSieve i f).lane = s.lane := rfl
@[simp] theorem State.onSieve_fmt : (s.onSieve i f).fmt = s.fmt := rfl
@[simp] theorem State.onSieve_parser : (s.onSieve i f).parser = s.parser := rfl
@[simp] theorem State.onSieve_obs : (s.onSieve i f).obs = s.obs := rfl
@[simp] theorem State.onSieve_cellar : (s.onSieve i f).cellar = s.cellar := rfl
@[simp] theorem State.onSieve_front : (s.onSieve i f).front = s.front := rfl
@[simp] theorem State.onSieve_loom : (s.onSieve i f).loom = s.loom := rfl
@[simp] theorem State.onSieve_ledger : (s.onSieve i f).ledger = s.ledger := rfl
@[simp] theorem State.onSieve_beam : (s.onSieve i f).beam = s.beam := rfl
@[simp] theorem State.onSieve_tiles : (s.onSieve i f).tiles = s.tiles := rfl
@[simp] theorem State.onSieve_gran : (s.onSieve i f).gran = s.gran := rfl
@[simp] theorem State.onSieve_move : (s.onSieve i f).move = s.move := rfl
@[simp] theorem State.onSieve_snap : (s.onSieve i f).snap = s.snap := rfl
end

section
variable (s : State) (i : SubId) (f : CellarSub → CellarSub)
@[simp] theorem State.onCellar_pending : (s.onCellar i f).pending = s.pending := rfl
@[simp] theorem State.onCellar_now : (s.onCellar i f).now = s.now := rfl
@[simp] theorem State.onCellar_freeCount : (s.onCellar i f).freeCount = s.freeCount := rfl
@[simp] theorem State.onCellar_out : (s.onCellar i f).out = s.out := rfl
@[simp] theorem State.onCellar_mem : (s.onCellar i f).mem = s.mem := rfl
@[simp] theorem State.onCellar_bench : (s.onCellar i f).bench = s.bench := rfl
@[simp] theorem State.onCellar_tables : (s.onCellar i f).tables = s.tables := rfl
@[simp] theorem State.onCellar_time : (s.onCellar i f).time = s.time := rfl
@[simp] theorem State.onCellar_clock : (s.onCellar i f).clock = s.clock := rfl
@[simp] theorem State.onCellar_tally : (s.onCellar i f).tally = s.tally := rfl
@[simp] theorem State.onCellar_bell : (s.onCellar i f).bell = s.bell := rfl
@[simp] theorem State.onCellar_start : (s.onCellar i f).start = s.start := rfl
@[simp] theorem State.onCellar_side : (s.onCellar i f).side = s.side := rfl
@[simp] theorem State.onCellar_lane : (s.onCellar i f).lane = s.lane := rfl
@[simp] theorem State.onCellar_fmt : (s.onCellar i f).fmt = s.fmt := rfl
@[simp] theorem State.onCellar_parser : (s.onCellar i f).parser = s.parser := rfl
@[simp] theorem State.onCellar_obs : (s.onCellar i f).obs = s.obs := rfl
@[simp] theorem State.onCellar_sieve : (s.onCellar i f).sieve = s.sieve := rfl
@[simp] theorem State.onCellar_front : (s.onCellar i f).front = s.front := rfl
@[simp] theorem State.onCellar_loom : (s.onCellar i f).loom = s.loom := rfl
@[simp] theorem State.onCellar_ledger : (s.onCellar i f).ledger = s.ledger := rfl
@[simp] theorem State.onCellar_beam : (s.onCellar i f).beam = s.beam := rfl
@[simp] theorem State.onCellar_tiles : (s.onCellar i f).tiles = s.tiles := rfl
@[simp] theorem State.onCellar_gran : (s.onCellar i f).gran = s.gran := rfl
@[simp] theorem State.onCellar_move : (s.onCellar i f).move = s.move := rfl
@[simp] theorem State.onCellar_snap : (s.onCellar i f).snap = s.snap := rfl
end

section
variable (s : State) (i : SubId) (f : LoomSub → LoomSub)
@[simp] theorem State.onLoom_pending : (s.onLoom i f).pending = s.pending := rfl
@[simp] theorem State.onLoom_now : (s.onLoom i f).now = s.now := rfl
@[simp] theorem State.onLoom_freeCount : (s.onLoom i f).freeCount = s.freeCount := rfl
@[simp] theorem State.onLoom_out : (s.onLoom i f).out = s.out := rfl
@[simp] theorem State.onLoom_mem : (s.onLoom i f).mem = s.mem := rfl
@[simp] theorem State.onLoom_bench : (s.onLoom i f).bench = s.bench := rfl
@[simp] theorem State.onLoom_tables : (s.onLoom i f).tables = s.tables := rfl
@[simp] theorem State.onLoom_time : (s.onLoom i f).time = s.time := rfl
@[simp] theorem State.onLoom_clock : (s.onLoom i f).clock = s.clock := rfl
@[simp] theorem State.onLoom_tally : (s.onLoom i f).tally = s.tally := rfl
@[simp] theorem State.onLoom_bell : (s.onLoom i f).bell = s.bell := rfl
@[simp] theorem State.onLoom_start : (s.onLoom i f).start = s.start := rfl
@[simp] theorem State.onLoom_side : (s.onLoom i f).side = s.side := rfl
@[simp] theorem State.onLoom_lane : (s.onLoom i f).lane = s.lane := rfl
@[simp] theorem State.onLoom_fmt : (s.onLoom i f).fmt = s.fmt := rfl
@[simp] theorem State.onLoom_parser : (s.onLoom i f).parser = s.parser := rfl
@[simp] theorem State.onLoom_obs : (s.onLoom i f).obs = s.obs := rfl
@[simp] theorem State.onLoom_sieve : (s.onLoom i f).sieve = s.sieve := rfl
@[simp] theorem State.onLoom_cellar : (s.onLoom i f).cellar = s.cellar := rfl
@[simp] theorem State.onLoom_front : (s.onLoom i f).front = s.front := rfl
@[simp] theorem State.onLoom_ledger : (s.onLoom i f).ledger = s.ledger := rfl
@[simp] theorem State.onLoom_beam : (s.onLoom i f).beam = s.beam := rfl
@[simp] theorem State.onLoom_tiles : (s.onLoom i f).tiles = s.tiles := rfl
@[simp] theorem State.onLoom_gran : (s.onLoom i f).gran = s.gran := rfl
@[simp] theorem State.onLoom_move : (s.onLoom i f).move = s.move := rfl
@[simp] theorem State.onLoom_snap : (s.onLoom i f).snap = s.snap := rfl
end

section
variable (s : State) (i : SubId) (f : LoomStat → LoomStat)
@[simp] theorem State.onLoomStat_pending : (s.onLoomStat i f).pending = s.pending := rfl
@[simp] theorem State.onLoomStat_now : (s.onLoomStat i f).now = s.now := rfl
@[simp] theorem State.onLoomStat_freeCount : (s.onLoomStat i f).freeCount = s.freeCount := rfl
@[simp] theorem State.onLoomStat_out : (s.onLoomStat i f).out = s.out := rfl
@[simp] theorem State.onLoomStat_mem : (s.onLoomStat i f).mem = s.mem := rfl
@[simp] theorem State.onLoomStat_bench : (s.onLoomStat i f).bench = s.bench := rfl
@[simp] theorem State.onLoomStat_tables : (s.onLoomStat i f).tables = s.tables := rfl
@[simp] theorem State.onLoomStat_time : (s.onLoomStat i f).time = s.time := rfl
@[simp] theorem State.onLoomStat_clock : (s.onLoomStat i f).clock = s.clock := rfl
@[simp] theorem State.onLoomStat_tally : (s.onLoomStat i f).tally = s.tally := rfl
@[simp] theorem State.onLoomStat_bell : (s.onLoomStat i f).bell = s.bell := rfl
@[simp] theorem State.onLoomStat_start : (s.onLoomStat i f).start = s.start := rfl
@[simp] theorem State.onLoomStat_side : (s.onLoomStat i f).side = s.side := rfl
@[simp] theorem State.onLoomStat_lane : (s.onLoomStat i f).lane = s.lane := rfl
@[simp] theorem State.onLoomStat_fmt : (s.onLoomStat i f).fmt = s.fmt := rfl
@[simp] theorem State.onLoomStat_parser : (s.onLoomStat i f).parser = s.parser := rfl
@[simp] theorem State.onLoomStat_obs : (s.onLoomStat i f).obs = s.obs := rfl
@[simp] theorem State.onLoomStat_sieve : (s.onLoomStat i f).sieve = s.sieve := rfl
@[simp] theorem State.onLoomStat_cellar : (s.onLoomStat i f).cellar = s.cellar := rfl
@[simp] theorem State.onLoomStat_front : (s.onLoomStat i f).front = s.front := rfl
@[simp] theorem State.onLoomStat_ledger : (s.onLoomStat i f).ledger = s.ledger := rfl
@[simp] theorem State.onLoomStat_beam : (s.onLoomStat i f).beam = s.beam := rfl
@[simp] theorem State.onLoomStat_tiles : (s.onLoomStat i f).tiles = s.tiles := rfl
@[simp] theorem State.onLoomStat_gran : (s.onLoomStat i f).gran = s.gran := rfl
@[simp] theorem State.onLoomStat_move : (s.onLoomStat i f).move = s.move := rfl
@[simp] theorem State.onLoomStat_snap : (s.onLoomStat i f).snap = s.snap := rfl
end

section
variable (s : State) (i : SubId) (f : LedgerSub → LedgerSub)
@[simp] theorem State.onLedger_pending : (s.onLedger i f).pending = s.pending := rfl
@[simp] theorem State.onLedger_now : (s.onLedger i f).now = s.now := rfl
@[simp] theorem State.onLedger_freeCount : (s.onLedger i f).freeCount = s.freeCount := rfl
@[simp] theorem State.onLedger_out : (s.onLedger i f).out = s.out := rfl
@[simp] theorem State.onLedger_mem : (s.onLedger i f).mem = s.mem := rfl
@[simp] theorem State.onLedger_bench : (s.onLedger i f).bench = s.bench := rfl
@[simp] theorem State.onLedger_tables : (s.onLedger i f).tables = s.tables := rfl
@[simp] theorem State.onLedger_time : (s.onLedger i f).time = s.time := rfl
@[simp] theorem State.onLedger_clock : (s.onLedger i f).clock = s.clock := rfl
@[simp] theorem State.onLedger_tally : (s.onLedger i f).tally = s.tally := rfl
@[simp] theorem State.onLedger_bell : (s.onLedger i f).bell = s.bell := rfl
@[simp] theorem State.onLedger_start : (s.onLedger i f).start = s.start := rfl
@[simp] theorem State.onLedger_side : (s.onLedger i f).side = s.side := rfl
@[simp] theorem State.onLedger_lane : (s.onLedger i f).lane = s.lane := rfl
@[simp] theorem State.onLedger_fmt : (s.onLedger i f).fmt = s.fmt := rfl
@[simp] theorem State.onLedger_parser : (s.onLedger i f).parser = s.parser := rfl
@[simp] theorem State.onLedger_obs : (s.onLedger i f).obs = s.obs := rfl
@[simp] theorem State.onLedger_sieve : (s.onLedger i f).sieve = s.sieve := rfl
@[simp] theorem State.onLedger_cellar : (s.onLedger i f).cellar = s.cellar := rfl
@[simp] theorem State.onLedger_front : (s.onLedger i f).front = s.front := rfl
@[simp] theorem State.onLedger_loom : (s.onLedger i f).loom = s.loom := rfl
@[simp] theorem State.onLedger_beam : (s.onLedger i f).beam = s.beam := rfl
@[simp] theorem State.onLedger_tiles : (s.onLedger i f).tiles = s.tiles := rfl
@[simp] theorem State.onLedger_gran : (s.onLedger i f).gran = s.gran := rfl
@[simp] theorem State.onLedger_move : (s.onLedger i f).move = s.move := rfl
@[simp] theorem State.onLedger_snap : (s.onLedger i f).snap = s.snap := rfl
end

section
variable (s : State) (i : SubId) (f : LedgStat → LedgStat)
@[simp] theorem State.onLedgStat_pending : (s.onLedgStat i f).pending = s.pending := rfl
@[simp] theorem State.onLedgStat_now : (s.onLedgStat i f).now = s.now := rfl
@[simp] theorem State.onLedgStat_freeCount : (s.onLedgStat i f).freeCount = s.freeCount := rfl
@[simp] theorem State.onLedgStat_out : (s.onLedgStat i f).out = s.out := rfl
@[simp] theorem State.onLedgStat_mem : (s.onLedgStat i f).mem = s.mem := rfl
@[simp] theorem State.onLedgStat_bench : (s.onLedgStat i f).bench = s.bench := rfl
@[simp] theorem State.onLedgStat_tables : (s.onLedgStat i f).tables = s.tables := rfl
@[simp] theorem State.onLedgStat_time : (s.onLedgStat i f).time = s.time := rfl
@[simp] theorem State.onLedgStat_clock : (s.onLedgStat i f).clock = s.clock := rfl
@[simp] theorem State.onLedgStat_tally : (s.onLedgStat i f).tally = s.tally := rfl
@[simp] theorem State.onLedgStat_bell : (s.onLedgStat i f).bell = s.bell := rfl
@[simp] theorem State.onLedgStat_start : (s.onLedgStat i f).start = s.start := rfl
@[simp] theorem State.onLedgStat_side : (s.onLedgStat i f).side = s.side := rfl
@[simp] theorem State.onLedgStat_lane : (s.onLedgStat i f).lane = s.lane := rfl
@[simp] theorem State.onLedgStat_fmt : (s.onLedgStat i f).fmt = s.fmt := rfl
@[simp] theorem State.onLedgStat_parser : (s.onLedgStat i f).parser = s.parser := rfl
@[simp] theorem State.onLedgStat_obs : (s.onLedgStat i f).obs = s.obs := rfl
@[simp] theorem State.onLedgStat_sieve : (s.onLedgStat i f).sieve = s.sieve := rfl
@[simp] theorem State.onLedgStat_cellar : (s.onLedgStat i f).cellar = s.cellar := rfl
@[simp] theorem State.onLedgStat_front : (s.onLedgStat i f).front = s.front := rfl
@[simp] theorem State.onLedgStat_loom : (s.onLedgStat i f).loom = s.loom := rfl
@[simp] theorem State.onLedgStat_beam : (s.onLedgStat i f).beam = s.beam := rfl
@[simp] theorem State.onLedgStat_tiles : (s.onLedgStat i f).tiles = s.tiles := rfl
@[simp] theorem State.onLedgStat_gran : (s.onLedgStat i f).gran = s.gran := rfl
@[simp] theorem State.onLedgStat_move : (s.onLedgStat i f).move = s.move := rfl
@[simp] theorem State.onLedgStat_snap : (s.onLedgStat i f).snap = s.snap := rfl
end

section
variable (s : State) (i : SubId) (f : BeamSub → BeamSub)
@[simp] theorem State.onBeam_pending : (s.onBeam i f).pending = s.pending := rfl
@[simp] theorem State.onBeam_now : (s.onBeam i f).now = s.now := rfl
@[simp] theorem State.onBeam_freeCount : (s.onBeam i f).freeCount = s.freeCount := rfl
@[simp] theorem State.onBeam_out : (s.onBeam i f).out = s.out := rfl
@[simp] theorem State.onBeam_mem : (s.onBeam i f).mem = s.mem := rfl
@[simp] theorem State.onBeam_bench : (s.onBeam i f).bench = s.bench := rfl
@[simp] theorem State.onBeam_tables : (s.onBeam i f).tables = s.tables := rfl
@[simp] theorem State.onBeam_time : (s.onBeam i f).time = s.time := rfl
@[simp] theorem State.onBeam_clock : (s.onBeam i f).clock = s.clock := rfl
@[simp] theorem State.onBeam_tally : (s.onBeam i f).tally = s.tally := rfl
@[simp] theorem State.onBeam_bell : (s.onBeam i f).bell = s.bell := rfl
@[simp] theorem State.onBeam_start : (s.onBeam i f).start = s.start := rfl
@[simp] theorem State.onBeam_side : (s.onBeam i f).side = s.side := rfl
@[simp] theorem State.onBeam_lane : (s.onBeam i f).lane = s.lane := rfl
@[simp] theorem State.onBeam_fmt : (s.onBeam i f).fmt = s.fmt := rfl
@[simp] theorem State.onBeam_parser : (s.onBeam i f).parser = s.parser := rfl
@[simp] theorem State.onBeam_obs : (s.onBeam i f).obs = s.obs := rfl
@[simp] theorem State.onBeam_sieve : (s.onBeam i f).sieve = s.sieve := rfl
@[simp] theorem State.onBeam_cellar : (s.onBeam i f).cellar = s.cellar := rfl
@[simp] theorem State.onBeam_front : (s.onBeam i f).front = s.front := rfl
@[simp] theorem State.onBeam_loom : (s.onBeam i f).loom = s.loom := rfl
@[simp] theorem State.onBeam_ledger : (s.onBeam i f).ledger = s.ledger := rfl
@[simp] theorem State.onBeam_tiles : (s.onBeam i f).tiles = s.tiles := rfl
@[simp] theorem State.onBeam_gran : (s.onBeam i f).gran = s.gran := rfl
@[simp] theorem State.onBeam_move : (s.onBeam i f).move = s.move := rfl
@[simp] theorem State.onBeam_snap : (s.onBeam i f).snap = s.snap := rfl
end

section
variable (s : State) (i : SubId) (f : LoomBeamStat → LoomBeamStat)
@[simp] theorem State.onBeamStat_pending : (s.onBeamStat i f).pending = s.pending := rfl
@[simp] theorem State.onBeamStat_now : (s.onBeamStat i f).now = s.now := rfl
@[simp] theorem State.onBeamStat_freeCount : (s.onBeamStat i f).freeCount = s.freeCount := rfl
@[simp] theorem State.onBeamStat_out : (s.onBeamStat i f).out = s.out := rfl
@[simp] theorem State.onBeamStat_mem : (s.onBeamStat i f).mem = s.mem := rfl
@[simp] theorem State.onBeamStat_bench : (s.onBeamStat i f).bench = s.bench := rfl
@[simp] theorem State.onBeamStat_tables : (s.onBeamStat i f).tables = s.tables := rfl
@[simp] theorem State.onBeamStat_time : (s.onBeamStat i f).time = s.time := rfl
@[simp] theorem State.onBeamStat_clock : (s.onBeamStat i f).clock = s.clock := rfl
@[simp] theorem State.onBeamStat_tally : (s.onBeamStat i f).tally = s.tally := rfl
@[simp] theorem State.onBeamStat_bell : (s.onBeamStat i f).bell = s.bell := rfl
@[simp] theorem State.onBeamStat_start : (s.onBeamStat i f).start = s.start := rfl
@[simp] theorem State.onBeamStat_side : (s.onBeamStat i f).side = s.side := rfl
@[simp] theorem State.onBeamStat_lane : (s.onBeamStat i f).lane = s.lane := rfl
@[simp] theorem State.onBeamStat_fmt : (s.onBeamStat i f).fmt = s.fmt := rfl
@[simp] theorem State.onBeamStat_parser : (s.onBeamStat i f).parser = s.parser := rfl
@[simp] theorem State.onBeamStat_obs : (s.onBeamStat i f).obs = s.obs := rfl
@[simp] theorem State.onBeamStat_sieve : (s.onBeamStat i f).sieve = s.sieve := rfl
@[simp] theorem State.onBeamStat_cellar : (s.onBeamStat i f).cellar = s.cellar := rfl
@[simp] theorem State.onBeamStat_front : (s.onBeamStat i f).front = s.front := rfl
@[simp] theorem State.onBeamStat_loom : (s.onBeamStat i f).loom = s.loom := rfl
@[simp] theorem State.onBeamStat_ledger : (s.onBeamStat i f).ledger = s.ledger := rfl
@[simp] theorem State.onBeamStat_tiles : (s.onBeamStat i f).tiles = s.tiles := rfl
@[simp] theorem State.onBeamStat_gran : (s.onBeamStat i f).gran = s.gran := rfl
@[simp] theorem State.onBeamStat_move : (s.onBeamStat i f).move = s.move := rfl
@[simp] theorem State.onBeamStat_snap : (s.onBeamStat i f).snap = s.snap := rfl
end

section
variable (s : State) (t : TileId) (f : Tile → Tile)
@[simp] theorem State.onTile_pending : (s.onTile t f).pending = s.pending := rfl
@[simp] theorem State.onTile_now : (s.onTile t f).now = s.now := rfl
@[simp] theorem State.onTile_freeCount : (s.onTile t f).freeCount = s.freeCount := rfl
@[simp] theorem State.onTile_out : (s.onTile t f).out = s.out := rfl
@[simp] theorem State.onTile_mem : (s.onTile t f).mem = s.mem := rfl
@[simp] theorem State.onTile_bench : (s.onTile t f).bench = s.bench := rfl
@[simp] theorem State.onTile_tables : (s.onTile t f).tables = s.tables := rfl
@[simp] theorem State.onTile_time : (s.onTile t f).time = s.time := rfl
@[simp] theorem State.onTile_clock : (s.onTile t f).clock = s.clock := rfl
@[simp] theorem State.onTile_tally : (s.onTile t f).tally = s.tally := rfl
@[simp] theorem State.onTile_bell : (s.onTile t f).bell = s.bell := rfl
@[simp] theorem State.onTile_start : (s.onTile t f).start = s.start := rfl
@[simp] theorem State.onTile_side : (s.onTile t f).side = s.side := rfl
@[simp] theorem State.onTile_lane : (s.onTile t f).lane = s.lane := rfl
@[simp] theorem State.onTile_fmt : (s.onTile t f).fmt = s.fmt := rfl
@[simp] theorem State.onTile_parser : (s.onTile t f).parser = s.parser := rfl
@[simp] theorem State.onTile_obs : (s.onTile t f).obs = s.obs := rfl
@[simp] theorem State.onTile_sieve : (s.onTile t f).sieve = s.sieve := rfl
@[simp] theorem State.onTile_cellar : (s.onTile t f).cellar = s.cellar := rfl
@[simp] theorem State.onTile_front : (s.onTile t f).front = s.front := rfl
@[simp] theorem State.onTile_loom : (s.onTile t f).loom = s.loom := rfl
@[simp] theorem State.onTile_ledger : (s.onTile t f).ledger = s.ledger := rfl
@[simp] theorem State.onTile_beam : (s.onTile t f).beam = s.beam := rfl
@[simp] theorem State.onTile_gran : (s.onTile t f).gran = s.gran := rfl
@[simp] theorem State.onTile_move : (s.onTile t f).move = s.move := rfl
@[simp] theorem State.onTile_snap : (s.onTile t f).snap = s.snap := rfl
end

section
variable (s : State) (t : TileId) (f : LoomTile → LoomTile)
@[simp] theorem State.onTileReg_pending : (s.onTileReg t f).pending = s.pending := rfl
@[simp] theorem State.onTileReg_now : (s.onTileReg t f).now = s.now := rfl
@[simp] theorem State.onTileReg_freeCount : (s.onTileReg t f).freeCount = s.freeCount := rfl
@[simp] theorem State.onTileReg_out : (s.onTileReg t f).out = s.out := rfl
@[simp] theorem State.onTileReg_mem : (s.onTileReg t f).mem = s.mem := rfl
@[simp] theorem State.onTileReg_bench : (s.onTileReg t f).bench = s.bench := rfl
@[simp] theorem State.onTileReg_tables : (s.onTileReg t f).tables = s.tables := rfl
@[simp] theorem State.onTileReg_time : (s.onTileReg t f).time = s.time := rfl
@[simp] theorem State.onTileReg_clock : (s.onTileReg t f).clock = s.clock := rfl
@[simp] theorem State.onTileReg_tally : (s.onTileReg t f).tally = s.tally := rfl
@[simp] theorem State.onTileReg_bell : (s.onTileReg t f).bell = s.bell := rfl
@[simp] theorem State.onTileReg_start : (s.onTileReg t f).start = s.start := rfl
@[simp] theorem State.onTileReg_side : (s.onTileReg t f).side = s.side := rfl
@[simp] theorem State.onTileReg_lane : (s.onTileReg t f).lane = s.lane := rfl
@[simp] theorem State.onTileReg_fmt : (s.onTileReg t f).fmt = s.fmt := rfl
@[simp] theorem State.onTileReg_parser : (s.onTileReg t f).parser = s.parser := rfl
@[simp] theorem State.onTileReg_obs : (s.onTileReg t f).obs = s.obs := rfl
@[simp] theorem State.onTileReg_sieve : (s.onTileReg t f).sieve = s.sieve := rfl
@[simp] theorem State.onTileReg_cellar : (s.onTileReg t f).cellar = s.cellar := rfl
@[simp] theorem State.onTileReg_front : (s.onTileReg t f).front = s.front := rfl
@[simp] theorem State.onTileReg_loom : (s.onTileReg t f).loom = s.loom := rfl
@[simp] theorem State.onTileReg_ledger : (s.onTileReg t f).ledger = s.ledger := rfl
@[simp] theorem State.onTileReg_beam : (s.onTileReg t f).beam = s.beam := rfl
@[simp] theorem State.onTileReg_gran : (s.onTileReg t f).gran = s.gran := rfl
@[simp] theorem State.onTileReg_move : (s.onTileReg t f).move = s.move := rfl
@[simp] theorem State.onTileReg_snap : (s.onTileReg t f).snap = s.snap := rfl
end

section
variable (s : State) (e : EngineId) (f : Engine → Engine)
@[simp] theorem State.onEngine_pending : (s.onEngine e f).pending = s.pending := rfl
@[simp] theorem State.onEngine_now : (s.onEngine e f).now = s.now := rfl
@[simp] theorem State.onEngine_freeCount : (s.onEngine e f).freeCount = s.freeCount := rfl
@[simp] theorem State.onEngine_out : (s.onEngine e f).out = s.out := rfl
@[simp] theorem State.onEngine_mem : (s.onEngine e f).mem = s.mem := rfl
@[simp] theorem State.onEngine_bench : (s.onEngine e f).bench = s.bench := rfl
@[simp] theorem State.onEngine_tables : (s.onEngine e f).tables = s.tables := rfl
@[simp] theorem State.onEngine_time : (s.onEngine e f).time = s.time := rfl
@[simp] theorem State.onEngine_clock : (s.onEngine e f).clock = s.clock := rfl
@[simp] theorem State.onEngine_tally : (s.onEngine e f).tally = s.tally := rfl
@[simp] theorem State.onEngine_bell : (s.onEngine e f).bell = s.bell := rfl
@[simp] theorem State.onEngine_start : (s.onEngine e f).start = s.start := rfl
@[simp] theorem State.onEngine_side : (s.onEngine e f).side = s.side := rfl
@[simp] theorem State.onEngine_lane : (s.onEngine e f).lane = s.lane := rfl
@[simp] theorem State.onEngine_fmt : (s.onEngine e f).fmt = s.fmt := rfl
@[simp] theorem State.onEngine_parser : (s.onEngine e f).parser = s.parser := rfl
@[simp] theorem State.onEngine_obs : (s.onEngine e f).obs = s.obs := rfl
@[simp] theorem State.onEngine_sieve : (s.onEngine e f).sieve = s.sieve := rfl
@[simp] theorem State.onEngine_cellar : (s.onEngine e f).cellar = s.cellar := rfl
@[simp] theorem State.onEngine_loom : (s.onEngine e f).loom = s.loom := rfl
@[simp] theorem State.onEngine_ledger : (s.onEngine e f).ledger = s.ledger := rfl
@[simp] theorem State.onEngine_beam : (s.onEngine e f).beam = s.beam := rfl
@[simp] theorem State.onEngine_tiles : (s.onEngine e f).tiles = s.tiles := rfl
@[simp] theorem State.onEngine_gran : (s.onEngine e f).gran = s.gran := rfl
@[simp] theorem State.onEngine_move : (s.onEngine e f).move = s.move := rfl
@[simp] theorem State.onEngine_snap : (s.onEngine e f).snap = s.snap := rfl
end

section
variable (s : State) (i : SubId) (f : AssaySub → AssaySub)
@[simp] theorem State.onAssay_pending : (s.onAssay i f).pending = s.pending := rfl
@[simp] theorem State.onAssay_now : (s.onAssay i f).now = s.now := rfl
@[simp] theorem State.onAssay_freeCount : (s.onAssay i f).freeCount = s.freeCount := rfl
@[simp] theorem State.onAssay_out : (s.onAssay i f).out = s.out := rfl
@[simp] theorem State.onAssay_mem : (s.onAssay i f).mem = s.mem := rfl
@[simp] theorem State.onAssay_bench : (s.onAssay i f).bench = s.bench := rfl
@[simp] theorem State.onAssay_tables : (s.onAssay i f).tables = s.tables := rfl
@[simp] theorem State.onAssay_time : (s.onAssay i f).time = s.time := rfl
@[simp] theorem State.onAssay_clock : (s.onAssay i f).clock = s.clock := rfl
@[simp] theorem State.onAssay_tally : (s.onAssay i f).tally = s.tally := rfl
@[simp] theorem State.onAssay_bell : (s.onAssay i f).bell = s.bell := rfl
@[simp] theorem State.onAssay_start : (s.onAssay i f).start = s.start := rfl
@[simp] theorem State.onAssay_side : (s.onAssay i f).side = s.side := rfl
@[simp] theorem State.onAssay_lane : (s.onAssay i f).lane = s.lane := rfl
@[simp] theorem State.onAssay_fmt : (s.onAssay i f).fmt = s.fmt := rfl
@[simp] theorem State.onAssay_parser : (s.onAssay i f).parser = s.parser := rfl
@[simp] theorem State.onAssay_obs : (s.onAssay i f).obs = s.obs := rfl
@[simp] theorem State.onAssay_sieve : (s.onAssay i f).sieve = s.sieve := rfl
@[simp] theorem State.onAssay_cellar : (s.onAssay i f).cellar = s.cellar := rfl
@[simp] theorem State.onAssay_loom : (s.onAssay i f).loom = s.loom := rfl
@[simp] theorem State.onAssay_ledger : (s.onAssay i f).ledger = s.ledger := rfl
@[simp] theorem State.onAssay_beam : (s.onAssay i f).beam = s.beam := rfl
@[simp] theorem State.onAssay_tiles : (s.onAssay i f).tiles = s.tiles := rfl
@[simp] theorem State.onAssay_gran : (s.onAssay i f).gran = s.gran := rfl
@[simp] theorem State.onAssay_move : (s.onAssay i f).move = s.move := rfl
@[simp] theorem State.onAssay_snap : (s.onAssay i f).snap = s.snap := rfl
end

section
variable (s : State) (i : SubId) (f : AssyStat → AssyStat)
@[simp] theorem State.onAssyStat_pending : (s.onAssyStat i f).pending = s.pending := rfl
@[simp] theorem State.onAssyStat_now : (s.onAssyStat i f).now = s.now := rfl
@[simp] theorem State.onAssyStat_freeCount : (s.onAssyStat i f).freeCount = s.freeCount := rfl
@[simp] theorem State.onAssyStat_out : (s.onAssyStat i f).out = s.out := rfl
@[simp] theorem State.onAssyStat_mem : (s.onAssyStat i f).mem = s.mem := rfl
@[simp] theorem State.onAssyStat_bench : (s.onAssyStat i f).bench = s.bench := rfl
@[simp] theorem State.onAssyStat_tables : (s.onAssyStat i f).tables = s.tables := rfl
@[simp] theorem State.onAssyStat_time : (s.onAssyStat i f).time = s.time := rfl
@[simp] theorem State.onAssyStat_clock : (s.onAssyStat i f).clock = s.clock := rfl
@[simp] theorem State.onAssyStat_tally : (s.onAssyStat i f).tally = s.tally := rfl
@[simp] theorem State.onAssyStat_bell : (s.onAssyStat i f).bell = s.bell := rfl
@[simp] theorem State.onAssyStat_start : (s.onAssyStat i f).start = s.start := rfl
@[simp] theorem State.onAssyStat_side : (s.onAssyStat i f).side = s.side := rfl
@[simp] theorem State.onAssyStat_lane : (s.onAssyStat i f).lane = s.lane := rfl
@[simp] theorem State.onAssyStat_fmt : (s.onAssyStat i f).fmt = s.fmt := rfl
@[simp] theorem State.onAssyStat_parser : (s.onAssyStat i f).parser = s.parser := rfl
@[simp] theorem State.onAssyStat_obs : (s.onAssyStat i f).obs = s.obs := rfl
@[simp] theorem State.onAssyStat_sieve : (s.onAssyStat i f).sieve = s.sieve := rfl
@[simp] theorem State.onAssyStat_cellar : (s.onAssyStat i f).cellar = s.cellar := rfl
@[simp] theorem State.onAssyStat_loom : (s.onAssyStat i f).loom = s.loom := rfl
@[simp] theorem State.onAssyStat_ledger : (s.onAssyStat i f).ledger = s.ledger := rfl
@[simp] theorem State.onAssyStat_beam : (s.onAssyStat i f).beam = s.beam := rfl
@[simp] theorem State.onAssyStat_tiles : (s.onAssyStat i f).tiles = s.tiles := rfl
@[simp] theorem State.onAssyStat_gran : (s.onAssyStat i f).gran = s.gran := rfl
@[simp] theorem State.onAssyStat_move : (s.onAssyStat i f).move = s.move := rfl
@[simp] theorem State.onAssyStat_snap : (s.onAssyStat i f).snap = s.snap := rfl
end

section
variable (s : State) (i : SubId) (f : SievStat → SievStat)
@[simp] theorem State.onSievStat_pending : (s.onSievStat i f).pending = s.pending := rfl
@[simp] theorem State.onSievStat_now : (s.onSievStat i f).now = s.now := rfl
@[simp] theorem State.onSievStat_freeCount : (s.onSievStat i f).freeCount = s.freeCount := rfl
@[simp] theorem State.onSievStat_out : (s.onSievStat i f).out = s.out := rfl
@[simp] theorem State.onSievStat_mem : (s.onSievStat i f).mem = s.mem := rfl
@[simp] theorem State.onSievStat_bench : (s.onSievStat i f).bench = s.bench := rfl
@[simp] theorem State.onSievStat_tables : (s.onSievStat i f).tables = s.tables := rfl
@[simp] theorem State.onSievStat_time : (s.onSievStat i f).time = s.time := rfl
@[simp] theorem State.onSievStat_clock : (s.onSievStat i f).clock = s.clock := rfl
@[simp] theorem State.onSievStat_tally : (s.onSievStat i f).tally = s.tally := rfl
@[simp] theorem State.onSievStat_bell : (s.onSievStat i f).bell = s.bell := rfl
@[simp] theorem State.onSievStat_start : (s.onSievStat i f).start = s.start := rfl
@[simp] theorem State.onSievStat_side : (s.onSievStat i f).side = s.side := rfl
@[simp] theorem State.onSievStat_lane : (s.onSievStat i f).lane = s.lane := rfl
@[simp] theorem State.onSievStat_fmt : (s.onSievStat i f).fmt = s.fmt := rfl
@[simp] theorem State.onSievStat_parser : (s.onSievStat i f).parser = s.parser := rfl
@[simp] theorem State.onSievStat_obs : (s.onSievStat i f).obs = s.obs := rfl
@[simp] theorem State.onSievStat_cellar : (s.onSievStat i f).cellar = s.cellar := rfl
@[simp] theorem State.onSievStat_front : (s.onSievStat i f).front = s.front := rfl
@[simp] theorem State.onSievStat_loom : (s.onSievStat i f).loom = s.loom := rfl
@[simp] theorem State.onSievStat_ledger : (s.onSievStat i f).ledger = s.ledger := rfl
@[simp] theorem State.onSievStat_beam : (s.onSievStat i f).beam = s.beam := rfl
@[simp] theorem State.onSievStat_tiles : (s.onSievStat i f).tiles = s.tiles := rfl
@[simp] theorem State.onSievStat_gran : (s.onSievStat i f).gran = s.gran := rfl
@[simp] theorem State.onSievStat_move : (s.onSievStat i f).move = s.move := rfl
@[simp] theorem State.onSievStat_snap : (s.onSievStat i f).snap = s.snap := rfl
end

section
variable (s : State) (i : SubId) (f : CellStat → CellStat)
@[simp] theorem State.onCellStat_pending : (s.onCellStat i f).pending = s.pending := rfl
@[simp] theorem State.onCellStat_now : (s.onCellStat i f).now = s.now := rfl
@[simp] theorem State.onCellStat_freeCount : (s.onCellStat i f).freeCount = s.freeCount := rfl
@[simp] theorem State.onCellStat_out : (s.onCellStat i f).out = s.out := rfl
@[simp] theorem State.onCellStat_mem : (s.onCellStat i f).mem = s.mem := rfl
@[simp] theorem State.onCellStat_bench : (s.onCellStat i f).bench = s.bench := rfl
@[simp] theorem State.onCellStat_tables : (s.onCellStat i f).tables = s.tables := rfl
@[simp] theorem State.onCellStat_time : (s.onCellStat i f).time = s.time := rfl
@[simp] theorem State.onCellStat_clock : (s.onCellStat i f).clock = s.clock := rfl
@[simp] theorem State.onCellStat_tally : (s.onCellStat i f).tally = s.tally := rfl
@[simp] theorem State.onCellStat_bell : (s.onCellStat i f).bell = s.bell := rfl
@[simp] theorem State.onCellStat_start : (s.onCellStat i f).start = s.start := rfl
@[simp] theorem State.onCellStat_side : (s.onCellStat i f).side = s.side := rfl
@[simp] theorem State.onCellStat_lane : (s.onCellStat i f).lane = s.lane := rfl
@[simp] theorem State.onCellStat_fmt : (s.onCellStat i f).fmt = s.fmt := rfl
@[simp] theorem State.onCellStat_parser : (s.onCellStat i f).parser = s.parser := rfl
@[simp] theorem State.onCellStat_obs : (s.onCellStat i f).obs = s.obs := rfl
@[simp] theorem State.onCellStat_sieve : (s.onCellStat i f).sieve = s.sieve := rfl
@[simp] theorem State.onCellStat_front : (s.onCellStat i f).front = s.front := rfl
@[simp] theorem State.onCellStat_loom : (s.onCellStat i f).loom = s.loom := rfl
@[simp] theorem State.onCellStat_ledger : (s.onCellStat i f).ledger = s.ledger := rfl
@[simp] theorem State.onCellStat_beam : (s.onCellStat i f).beam = s.beam := rfl
@[simp] theorem State.onCellStat_tiles : (s.onCellStat i f).tiles = s.tiles := rfl
@[simp] theorem State.onCellStat_gran : (s.onCellStat i f).gran = s.gran := rfl
@[simp] theorem State.onCellStat_move : (s.onCellStat i f).move = s.move := rfl
@[simp] theorem State.onCellStat_snap : (s.onCellStat i f).snap = s.snap := rfl
end

section
variable (s : State) (c : ChanId) (f : GranChan → GranChan)
@[simp] theorem State.onChan_pending : (s.onChan c f).pending = s.pending := rfl
@[simp] theorem State.onChan_now : (s.onChan c f).now = s.now := rfl
@[simp] theorem State.onChan_freeCount : (s.onChan c f).freeCount = s.freeCount := rfl
@[simp] theorem State.onChan_out : (s.onChan c f).out = s.out := rfl
@[simp] theorem State.onChan_mem : (s.onChan c f).mem = s.mem := rfl
@[simp] theorem State.onChan_bench : (s.onChan c f).bench = s.bench := rfl
@[simp] theorem State.onChan_tables : (s.onChan c f).tables = s.tables := rfl
@[simp] theorem State.onChan_time : (s.onChan c f).time = s.time := rfl
@[simp] theorem State.onChan_clock : (s.onChan c f).clock = s.clock := rfl
@[simp] theorem State.onChan_tally : (s.onChan c f).tally = s.tally := rfl
@[simp] theorem State.onChan_bell : (s.onChan c f).bell = s.bell := rfl
@[simp] theorem State.onChan_start : (s.onChan c f).start = s.start := rfl
@[simp] theorem State.onChan_side : (s.onChan c f).side = s.side := rfl
@[simp] theorem State.onChan_lane : (s.onChan c f).lane = s.lane := rfl
@[simp] theorem State.onChan_fmt : (s.onChan c f).fmt = s.fmt := rfl
@[simp] theorem State.onChan_parser : (s.onChan c f).parser = s.parser := rfl
@[simp] theorem State.onChan_obs : (s.onChan c f).obs = s.obs := rfl
@[simp] theorem State.onChan_sieve : (s.onChan c f).sieve = s.sieve := rfl
@[simp] theorem State.onChan_cellar : (s.onChan c f).cellar = s.cellar := rfl
@[simp] theorem State.onChan_front : (s.onChan c f).front = s.front := rfl
@[simp] theorem State.onChan_loom : (s.onChan c f).loom = s.loom := rfl
@[simp] theorem State.onChan_ledger : (s.onChan c f).ledger = s.ledger := rfl
@[simp] theorem State.onChan_beam : (s.onChan c f).beam = s.beam := rfl
@[simp] theorem State.onChan_tiles : (s.onChan c f).tiles = s.tiles := rfl
@[simp] theorem State.onChan_move : (s.onChan c f).move = s.move := rfl
@[simp] theorem State.onChan_snap : (s.onChan c f).snap = s.snap := rfl
end

section
variable (s : State) (c : ChanId) (f : GranStat → GranStat)
@[simp] theorem State.onGranStat_pending : (s.onGranStat c f).pending = s.pending := rfl
@[simp] theorem State.onGranStat_now : (s.onGranStat c f).now = s.now := rfl
@[simp] theorem State.onGranStat_freeCount : (s.onGranStat c f).freeCount = s.freeCount := rfl
@[simp] theorem State.onGranStat_out : (s.onGranStat c f).out = s.out := rfl
@[simp] theorem State.onGranStat_mem : (s.onGranStat c f).mem = s.mem := rfl
@[simp] theorem State.onGranStat_bench : (s.onGranStat c f).bench = s.bench := rfl
@[simp] theorem State.onGranStat_tables : (s.onGranStat c f).tables = s.tables := rfl
@[simp] theorem State.onGranStat_time : (s.onGranStat c f).time = s.time := rfl
@[simp] theorem State.onGranStat_clock : (s.onGranStat c f).clock = s.clock := rfl
@[simp] theorem State.onGranStat_tally : (s.onGranStat c f).tally = s.tally := rfl
@[simp] theorem State.onGranStat_bell : (s.onGranStat c f).bell = s.bell := rfl
@[simp] theorem State.onGranStat_start : (s.onGranStat c f).start = s.start := rfl
@[simp] theorem State.onGranStat_side : (s.onGranStat c f).side = s.side := rfl
@[simp] theorem State.onGranStat_lane : (s.onGranStat c f).lane = s.lane := rfl
@[simp] theorem State.onGranStat_fmt : (s.onGranStat c f).fmt = s.fmt := rfl
@[simp] theorem State.onGranStat_parser : (s.onGranStat c f).parser = s.parser := rfl
@[simp] theorem State.onGranStat_obs : (s.onGranStat c f).obs = s.obs := rfl
@[simp] theorem State.onGranStat_sieve : (s.onGranStat c f).sieve = s.sieve := rfl
@[simp] theorem State.onGranStat_cellar : (s.onGranStat c f).cellar = s.cellar := rfl
@[simp] theorem State.onGranStat_front : (s.onGranStat c f).front = s.front := rfl
@[simp] theorem State.onGranStat_loom : (s.onGranStat c f).loom = s.loom := rfl
@[simp] theorem State.onGranStat_ledger : (s.onGranStat c f).ledger = s.ledger := rfl
@[simp] theorem State.onGranStat_beam : (s.onGranStat c f).beam = s.beam := rfl
@[simp] theorem State.onGranStat_tiles : (s.onGranStat c f).tiles = s.tiles := rfl
@[simp] theorem State.onGranStat_move : (s.onGranStat c f).move = s.move := rfl
@[simp] theorem State.onGranStat_snap : (s.onGranStat c f).snap = s.snap := rfl
end

section
variable (s : State) (f : Exchange → Exchange)
@[simp] theorem State.onExch_pending : (s.onExch f).pending = s.pending := rfl
@[simp] theorem State.onExch_now : (s.onExch f).now = s.now := rfl
@[simp] theorem State.onExch_freeCount : (s.onExch f).freeCount = s.freeCount := rfl
@[simp] theorem State.onExch_out : (s.onExch f).out = s.out := rfl
@[simp] theorem State.onExch_mem : (s.onExch f).mem = s.mem := rfl
@[simp] theorem State.onExch_bench : (s.onExch f).bench = s.bench := rfl
@[simp] theorem State.onExch_tables : (s.onExch f).tables = s.tables := rfl
@[simp] theorem State.onExch_time : (s.onExch f).time = s.time := rfl
@[simp] theorem State.onExch_clock : (s.onExch f).clock = s.clock := rfl
@[simp] theorem State.onExch_tally : (s.onExch f).tally = s.tally := rfl
@[simp] theorem State.onExch_bell : (s.onExch f).bell = s.bell := rfl
@[simp] theorem State.onExch_start : (s.onExch f).start = s.start := rfl
@[simp] theorem State.onExch_side : (s.onExch f).side = s.side := rfl
@[simp] theorem State.onExch_lane : (s.onExch f).lane = s.lane := rfl
@[simp] theorem State.onExch_fmt : (s.onExch f).fmt = s.fmt := rfl
@[simp] theorem State.onExch_parser : (s.onExch f).parser = s.parser := rfl
@[simp] theorem State.onExch_obs : (s.onExch f).obs = s.obs := rfl
@[simp] theorem State.onExch_sieve : (s.onExch f).sieve = s.sieve := rfl
@[simp] theorem State.onExch_cellar : (s.onExch f).cellar = s.cellar := rfl
@[simp] theorem State.onExch_front : (s.onExch f).front = s.front := rfl
@[simp] theorem State.onExch_loom : (s.onExch f).loom = s.loom := rfl
@[simp] theorem State.onExch_ledger : (s.onExch f).ledger = s.ledger := rfl
@[simp] theorem State.onExch_beam : (s.onExch f).beam = s.beam := rfl
@[simp] theorem State.onExch_tiles : (s.onExch f).tiles = s.tiles := rfl
@[simp] theorem State.onExch_gran : (s.onExch f).gran = s.gran := rfl
@[simp] theorem State.onExch_snap : (s.onExch f).snap = s.snap := rfl
end

section
variable (s : State) (f : ExchStat → ExchStat)
@[simp] theorem State.onExchStat_pending : (s.onExchStat f).pending = s.pending := rfl
@[simp] theorem State.onExchStat_now : (s.onExchStat f).now = s.now := rfl
@[simp] theorem State.onExchStat_freeCount : (s.onExchStat f).freeCount = s.freeCount := rfl
@[simp] theorem State.onExchStat_out : (s.onExchStat f).out = s.out := rfl
@[simp] theorem State.onExchStat_mem : (s.onExchStat f).mem = s.mem := rfl
@[simp] theorem State.onExchStat_bench : (s.onExchStat f).bench = s.bench := rfl
@[simp] theorem State.onExchStat_tables : (s.onExchStat f).tables = s.tables := rfl
@[simp] theorem State.onExchStat_time : (s.onExchStat f).time = s.time := rfl
@[simp] theorem State.onExchStat_clock : (s.onExchStat f).clock = s.clock := rfl
@[simp] theorem State.onExchStat_tally : (s.onExchStat f).tally = s.tally := rfl
@[simp] theorem State.onExchStat_bell : (s.onExchStat f).bell = s.bell := rfl
@[simp] theorem State.onExchStat_start : (s.onExchStat f).start = s.start := rfl
@[simp] theorem State.onExchStat_side : (s.onExchStat f).side = s.side := rfl
@[simp] theorem State.onExchStat_lane : (s.onExchStat f).lane = s.lane := rfl
@[simp] theorem State.onExchStat_fmt : (s.onExchStat f).fmt = s.fmt := rfl
@[simp] theorem State.onExchStat_parser : (s.onExchStat f).parser = s.parser := rfl
@[simp] theorem State.onExchStat_obs : (s.onExchStat f).obs = s.obs := rfl
@[simp] theorem State.onExchStat_sieve : (s.onExchStat f).sieve = s.sieve := rfl
@[simp] theorem State.onExchStat_cellar : (s.onExchStat f).cellar = s.cellar := rfl
@[simp] theorem State.onExchStat_front : (s.onExchStat f).front = s.front := rfl
@[simp] theorem State.onExchStat_loom : (s.onExchStat f).loom = s.loom := rfl
@[simp] theorem State.onExchStat_ledger : (s.onExchStat f).ledger = s.ledger := rfl
@[simp] theorem State.onExchStat_beam : (s.onExchStat f).beam = s.beam := rfl
@[simp] theorem State.onExchStat_tiles : (s.onExchStat f).tiles = s.tiles := rfl
@[simp] theorem State.onExchStat_gran : (s.onExchStat f).gran = s.gran := rfl
@[simp] theorem State.onExchStat_snap : (s.onExchStat f).snap = s.snap := rfl
end

section
variable (s : State) (c : DrayId) (f : Dray → Dray)
@[simp] theorem State.onDray_pending : (s.onDray c f).pending = s.pending := rfl
@[simp] theorem State.onDray_now : (s.onDray c f).now = s.now := rfl
@[simp] theorem State.onDray_freeCount : (s.onDray c f).freeCount = s.freeCount := rfl
@[simp] theorem State.onDray_out : (s.onDray c f).out = s.out := rfl
@[simp] theorem State.onDray_mem : (s.onDray c f).mem = s.mem := rfl
@[simp] theorem State.onDray_bench : (s.onDray c f).bench = s.bench := rfl
@[simp] theorem State.onDray_tables : (s.onDray c f).tables = s.tables := rfl
@[simp] theorem State.onDray_time : (s.onDray c f).time = s.time := rfl
@[simp] theorem State.onDray_clock : (s.onDray c f).clock = s.clock := rfl
@[simp] theorem State.onDray_tally : (s.onDray c f).tally = s.tally := rfl
@[simp] theorem State.onDray_bell : (s.onDray c f).bell = s.bell := rfl
@[simp] theorem State.onDray_start : (s.onDray c f).start = s.start := rfl
@[simp] theorem State.onDray_side : (s.onDray c f).side = s.side := rfl
@[simp] theorem State.onDray_lane : (s.onDray c f).lane = s.lane := rfl
@[simp] theorem State.onDray_fmt : (s.onDray c f).fmt = s.fmt := rfl
@[simp] theorem State.onDray_parser : (s.onDray c f).parser = s.parser := rfl
@[simp] theorem State.onDray_obs : (s.onDray c f).obs = s.obs := rfl
@[simp] theorem State.onDray_sieve : (s.onDray c f).sieve = s.sieve := rfl
@[simp] theorem State.onDray_cellar : (s.onDray c f).cellar = s.cellar := rfl
@[simp] theorem State.onDray_front : (s.onDray c f).front = s.front := rfl
@[simp] theorem State.onDray_loom : (s.onDray c f).loom = s.loom := rfl
@[simp] theorem State.onDray_ledger : (s.onDray c f).ledger = s.ledger := rfl
@[simp] theorem State.onDray_beam : (s.onDray c f).beam = s.beam := rfl
@[simp] theorem State.onDray_tiles : (s.onDray c f).tiles = s.tiles := rfl
@[simp] theorem State.onDray_gran : (s.onDray c f).gran = s.gran := rfl
@[simp] theorem State.onDray_snap : (s.onDray c f).snap = s.snap := rfl
end

section
variable (s : State) (c : DrayId) (f : DrayChan → DrayChan)
@[simp] theorem State.onDrayReg_pending : (s.onDrayReg c f).pending = s.pending := rfl
@[simp] theorem State.onDrayReg_now : (s.onDrayReg c f).now = s.now := rfl
@[simp] theorem State.onDrayReg_freeCount : (s.onDrayReg c f).freeCount = s.freeCount := rfl
@[simp] theorem State.onDrayReg_out : (s.onDrayReg c f).out = s.out := rfl
@[simp] theorem State.onDrayReg_mem : (s.onDrayReg c f).mem = s.mem := rfl
@[simp] theorem State.onDrayReg_bench : (s.onDrayReg c f).bench = s.bench := rfl
@[simp] theorem State.onDrayReg_tables : (s.onDrayReg c f).tables = s.tables := rfl
@[simp] theorem State.onDrayReg_time : (s.onDrayReg c f).time = s.time := rfl
@[simp] theorem State.onDrayReg_clock : (s.onDrayReg c f).clock = s.clock := rfl
@[simp] theorem State.onDrayReg_tally : (s.onDrayReg c f).tally = s.tally := rfl
@[simp] theorem State.onDrayReg_bell : (s.onDrayReg c f).bell = s.bell := rfl
@[simp] theorem State.onDrayReg_start : (s.onDrayReg c f).start = s.start := rfl
@[simp] theorem State.onDrayReg_side : (s.onDrayReg c f).side = s.side := rfl
@[simp] theorem State.onDrayReg_lane : (s.onDrayReg c f).lane = s.lane := rfl
@[simp] theorem State.onDrayReg_fmt : (s.onDrayReg c f).fmt = s.fmt := rfl
@[simp] theorem State.onDrayReg_parser : (s.onDrayReg c f).parser = s.parser := rfl
@[simp] theorem State.onDrayReg_obs : (s.onDrayReg c f).obs = s.obs := rfl
@[simp] theorem State.onDrayReg_sieve : (s.onDrayReg c f).sieve = s.sieve := rfl
@[simp] theorem State.onDrayReg_cellar : (s.onDrayReg c f).cellar = s.cellar := rfl
@[simp] theorem State.onDrayReg_front : (s.onDrayReg c f).front = s.front := rfl
@[simp] theorem State.onDrayReg_loom : (s.onDrayReg c f).loom = s.loom := rfl
@[simp] theorem State.onDrayReg_ledger : (s.onDrayReg c f).ledger = s.ledger := rfl
@[simp] theorem State.onDrayReg_beam : (s.onDrayReg c f).beam = s.beam := rfl
@[simp] theorem State.onDrayReg_tiles : (s.onDrayReg c f).tiles = s.tiles := rfl
@[simp] theorem State.onDrayReg_gran : (s.onDrayReg c f).gran = s.gran := rfl
@[simp] theorem State.onDrayReg_snap : (s.onDrayReg c f).snap = s.snap := rfl
end

end Sys2Proof.Machine
end

