-- ==== Sys2Proof/Laws/Flags.lean ====
section
/-! SUPPORT. What the shared flag operations can do: interrupts and bench datagrams touch the benches and what leaves the
module, Tally events also the Tally; what left the module before stays; nothing else changes. -/

namespace Sys2Proof.Machine

variable {s t u : State}

/-- Only the benches changed, and more may have left the module. -/
def State.SaysOnly (s t : State) : Prop := t = { s with bench := t.bench, out := t.out } ∧ s.out <+: t.out

/-- Only the benches and the Tally changed, and more may have left the module. -/
def State.TallyOnly (s t : State) : Prop := t = { s with bench := t.bench, tally := t.tally, out := t.out } ∧ s.out <+: t.out

theorem State.SaysOnly.refl (s : State) : s.SaysOnly s := ⟨rfl, List.prefix_rfl⟩
theorem State.TallyOnly.refl (s : State) : s.TallyOnly s := ⟨rfl, List.prefix_rfl⟩

theorem State.SaysOnly.trans (h : s.SaysOnly t) (k : t.SaysOnly u) : s.SaysOnly u := by
  refine ⟨?_, h.2.trans k.2⟩
  rw [k.1, h.1]

theorem State.TallyOnly.trans (h : s.TallyOnly t) (k : t.TallyOnly u) : s.TallyOnly u := by
  refine ⟨?_, h.2.trans k.2⟩
  rw [k.1, h.1]

theorem State.SaysOnly.tally (h : s.SaysOnly t) : s.TallyOnly t := ⟨by rw [h.1], h.2⟩

/-- A fold of operations that say only says only. -/
theorem State.SaysOnly.foldl {β : Type} (f : State → β → State) (hf : ∀ s b, State.SaysOnly s (f s b)) (l : List β) (s : State) :
    s.SaysOnly (l.foldl f s) := by
  induction l generalizing s with
  | nil => exact .refl s
  | cons b l ih => exact (hf s b).trans (ih _)

theorem State.TallyOnly.foldl {β : Type} (f : State → β → State) (hf : ∀ s b, State.TallyOnly s (f s b)) (l : List β) (s : State) :
    s.TallyOnly (l.foldl f s) := by
  induction l generalizing s with
  | nil => exact .refl s
  | cons b l ih => exact (hf s b).trans (ih _)

/-! ### Small updates -/

theorem State.SaysOnly.onBench (s : State) (b : BenchId) (f : Bench → Bench) : s.SaysOnly (s.onBench b f) := ⟨rfl, List.prefix_rfl⟩
theorem State.SaysOnly.onBnch (s : State) (b : BenchId) (f : BnchStat → BnchStat) : s.SaysOnly (s.onBnch b f) := ⟨rfl, List.prefix_rfl⟩
theorem State.SaysOnly.emit (s : State) (o : Output) : s.SaysOnly (s.emit o) := ⟨rfl, List.prefix_append _ _⟩
theorem State.TallyOnly.onSource (s : State) (i : SourceId) (f : TallySource → TallySource) : s.TallyOnly (s.onSource i f) :=
  ⟨rfl, List.prefix_rfl⟩

/-! ### Interrupts and bench datagrams -/

theorem State.sendDatagram_says (s : State) (b : BenchId) (type cmd : Nat) (offset aux : Word) (payload : List Word) :
    s.SaysOnly (s.sendDatagram b type cmd offset aux payload) := by
  unfold State.sendDatagram
  dsimp only
  split
  · exact (State.SaysOnly.onBench s b _).trans (.emit _ _)
  · exact .refl s

theorem State.sendMsix_says (s : State) (f : FuncId) (vec : Fin 16) : s.SaysOnly (s.sendMsix f vec) := by
  unfold State.sendMsix
  dsimp only
  split
  · exact .emit s _
  · exact ⟨rfl, List.prefix_rfl⟩

theorem State.notify_says (s : State) (b : BenchId) : s.SaysOnly (s.notify b) :=
  (State.sendDatagram_says s b _ _ _ _ _).trans (.onBench _ b _)

theorem State.announce_says (s : State) (b : BenchId) (n : Fin 6) : s.SaysOnly (s.announce b n) := by
  unfold State.announce
  split
  · exact State.sendMsix_says s _ _
  · exact State.notify_says s b

theorem State.setIrq_says (s : State) (b : BenchId) (n : Fin 6) : s.SaysOnly (s.setIrq b n) := by
  unfold State.setIrq
  split
  · exact .refl s
  · dsimp only
    split
    · exact (State.SaysOnly.onBnch s b _).trans (State.announce_says _ b n)
    · exact .onBnch s b _

theorem State.clearIrq_says (s : State) (b : BenchId) (ones : BitVec 6) : s.SaysOnly (s.clearIrq b ones) := by
  unfold State.clearIrq
  dsimp only
  split
  · exact (State.SaysOnly.onBench s b _).trans ⟨rfl, List.prefix_rfl⟩
  · exact .onBench s b _

theorem State.writeIrqEnable_says (s : State) (b : BenchId) (v : BitVec 6) : s.SaysOnly (s.writeIrqEnable b v) := by
  unfold State.writeIrqEnable
  dsimp only
  refine (State.SaysOnly.onBench s b _).trans (State.SaysOnly.foldl _ ?_ _ _)
  intro t n
  split
  · exact State.announce_says t b n
  · exact .refl t

theorem State.protoError_says (s : State) (b : BenchId) (code : BitVec 8) : s.SaysOnly (s.protoError b code) :=
  (State.SaysOnly.onBench s b _).trans (State.setIrq_says _ b _)

/-! ### Tally events -/

theorem State.tallyIrqs_says (s : State) (leases : BitVec 5) (sub : Option SubId) : s.SaysOnly (s.tallyIrqs leases sub) := by
  refine State.SaysOnly.foldl _ ?_ _ _
  intro t b
  split
  · exact State.setIrq_says t b _
  · exact .refl t

/-- Judging a source touches the Tally, the benches it tells and what leaves the module. -/
theorem State.judge_only (s : State) (i : SourceId) (y : TallySource) : s.TallyOnly (s.judge i y) := by
  unfold State.judge
  split
  · exact (State.TallyOnly.onSource s i _).trans (State.tallyIrqs_says _ _ _).tally
  · exact .onSource s i _

/-- An event touches the Tally, the benches it tells and what leaves the module. -/
theorem State.raise_only (s : State) (i : SourceId) (detail : Word) (sub : Option SubId) : s.TallyOnly (s.raise i detail sub) := by
  unfold State.raise
  split
  · exact .refl s
  · dsimp only
    split
    · exact .onSource s i _
    · exact s.judge_only i _

/-- So does a clear, whatever was stamped in its millisecond (R391). -/
theorem State.clearTo_only (s : State) (i : SourceId) (recovered : Bool) : s.TallyOnly (s.clearTo i recovered) := by
  unfold State.clearTo
  dsimp only
  split
  · exact .onSource s i _
  · exact s.judge_only i _

/-- An event leaves memory alone. -/
@[simp] theorem State.raise_mem (s : State) (i : SourceId) (detail : Word) (sub : Option SubId) : (s.raise i detail sub).mem = s.mem := by
  rw [(State.raise_only s i detail sub).1]

/-- Setting an interrupt bit leaves memory alone. -/
@[simp] theorem State.setIrq_mem (s : State) (b : BenchId) (n : Fin 6) : (s.setIrq b n).mem = s.mem := by
  rw [(State.setIrq_says s b n).1]

/-! ### The mode -/

/-- A change of mode leaves memory, the queue and the free values alone; what left the module stays. -/
theorem State.setMode_frame (s : State) (m : BitVec 4) :
    (s.setMode m).mem = s.mem ∧ (s.setMode m).pending = s.pending ∧ (s.setMode m).freeCount = s.freeCount ∧
      (s.setMode m).now = s.now ∧ s.out <+: (s.setMode m).out := by
  unfold State.setMode
  split
  · exact ⟨rfl, rfl, rfl, rfl, List.prefix_rfl⟩
  · dsimp only
    generalize hx : (s.onBellStat fun x => { x with mode := m, prevMode := s.mode }) = x
    have h1 : x.mem = s.mem ∧ x.pending = s.pending ∧ x.freeCount = s.freeCount ∧ x.now = s.now ∧ x.out = s.out := by
      rw [← hx]; exact ⟨rfl, rfl, rfl, rfl, rfl⟩
    generalize hy : (if s.mode = modeHold then x.releaseHeld else x) = y
    have h2 : y.mem = x.mem ∧ y.pending = x.pending ∧ y.freeCount = x.freeCount ∧ y.now = x.now ∧ y.out = x.out := by
      rw [← hy]; split <;> exact ⟨rfl, rfl, rfl, rfl, rfl⟩
    generalize hz : (if s.mode = modeWorkshop then y.clearLoopback else y) = z
    have h3 : z.mem = y.mem ∧ z.pending = y.pending ∧ z.freeCount = y.freeCount ∧ z.now = y.now ∧ z.out = y.out := by
      rw [← hz]; split <;> exact ⟨rfl, rfl, rfl, rfl, rfl⟩
    have h4 := State.SaysOnly.foldl (fun u b => if (s.benchOf b).stat.isOpen then u.setIrq b irqMode else u)
      (fun t b => by split <;> first | exact State.setIrq_says t b _ | exact .refl t) (allFin 4) z
    refine ⟨?_, ?_, ?_, ?_, ?_⟩
    · rw [h4.1]; simp [h3, h2, h1]
    · rw [h4.1]; simp [h3, h2, h1]
    · rw [h4.1]; simp [h3, h2, h1]
    · rw [h4.1]; simp [h3, h2, h1]
    · have h5 := h4.2
      rw [h3.2.2.2.2, h2.2.2.2.2, h1.2.2.2.2] at h5
      exact h5

end Sys2Proof.Machine
end

