-- ==== Sys2Proof/Laws/Memory.lean ====
section
/-! SUPPORT. The laws of sparse memories: every operation keeps the canonical form, what is written reads back, and every other
key reads as before. -/

namespace Sys2Proof.Machine

variable {α : Type} [DecidableEq α] {d : α} {m : SMap α}

/-! ### The canonical form -/

/-- A memory whose keys start later has keys that start earlier. -/
theorem SMap.wfFrom_mono {b c : Nat} (h : SMap.wfFrom d c m = true) (hb : b ≤ c) : SMap.wfFrom d b m = true := by
  cases m with
  | nil => rfl
  | cons e m =>
    simp only [SMap.wfFrom, Bool.and_eq_true, decide_eq_true_eq] at h ⊢
    exact ⟨⟨by omega, h.1.2⟩, h.2⟩

/-- A key below every listed one reads as unlisted. -/
theorem SMap.get_below {b a : Nat} (h : SMap.wfFrom d b m = true) (ha : a < b) : SMap.get d m a = d := by
  induction m generalizing b with
  | nil => rfl
  | cons e m ih =>
    simp only [SMap.wfFrom, Bool.and_eq_true, decide_eq_true_eq] at h
    have : a ≠ e.1 := by omega
    simp [SMap.get, this, ih h.2 (by omega)]

/-- A write keeps the form. -/
theorem SMap.wfFrom_set {b a : Nat} {v : α} (h : SMap.wfFrom d b m = true) (hb : b ≤ a) :
    SMap.wfFrom d b (SMap.set d m a v) = true := by
  induction m generalizing b with
  | nil => by_cases hv : v = d <;> simp [SMap.set, SMap.wfFrom, hv, hb]
  | cons e m ih =>
    have h0 := h
    simp only [SMap.wfFrom, Bool.and_eq_true, decide_eq_true_eq] at h
    unfold SMap.set
    split
    · split
      · exact h0
      · next hv => simp only [SMap.wfFrom, Bool.and_eq_true, decide_eq_true_eq]; exact ⟨⟨hb, hv⟩, ⟨by omega, h.1.2⟩, h.2⟩
    · split
      · split
        · exact SMap.wfFrom_mono h.2 (by omega)
        · next e1 hv => simp only [SMap.wfFrom, Bool.and_eq_true, decide_eq_true_eq]; exact ⟨⟨hb, hv⟩, e1 ▸ h.2⟩
      · simp only [SMap.wfFrom, Bool.and_eq_true, decide_eq_true_eq]
        exact ⟨h.1, ih h.2 (by omega)⟩

/-- Dropping entries keeps the form. -/
theorem SMap.wfFrom_filter {b : Nat} (p : Nat × α → Bool) (h : SMap.wfFrom d b m = true) :
    SMap.wfFrom d b (m.filter p) = true := by
  induction m generalizing b with
  | nil => rfl
  | cons e m ih =>
    simp only [SMap.wfFrom, Bool.and_eq_true, decide_eq_true_eq] at h
    rw [List.filter_cons]
    split
    · simp only [SMap.wfFrom, Bool.and_eq_true, decide_eq_true_eq]; exact ⟨h.1, ih h.2⟩
    · exact SMap.wfFrom_mono (ih h.2) (by omega)

/-- The empty memory has the form. -/
@[simp] theorem SMap.wf_nil : SMap.wf d [] = true := rfl

/-- A write keeps the canonical form. -/
theorem SMap.wf_set {a : Nat} {v : α} (h : SMap.wf d m = true) : SMap.wf d (SMap.set d m a v) = true :=
  SMap.wfFrom_set h (Nat.zero_le a)

/-- Writes one after another keep the canonical form. -/
theorem SMap.wf_setRange {a : Nat} {vs : List α} (h : SMap.wf d m = true) : SMap.wf d (SMap.setRange d m a vs) = true := by
  induction vs generalizing m a with
  | nil => exact h
  | cons v vs ih => exact ih (SMap.wf_set h)

/-- Clearing a span keeps the canonical form. -/
theorem SMap.wf_clear {lo hi : Nat} (h : SMap.wf d m = true) : SMap.wf d (SMap.clear m lo hi) = true := SMap.wfFrom_filter _ h

/-- Keeping one span only keeps the canonical form. -/
theorem SMap.wf_keep {lo hi : Nat} (h : SMap.wf d m = true) : SMap.wf d (SMap.keep m lo hi) = true := SMap.wfFrom_filter _ h

/-! ### Reading back -/

/-- A key that was not written reads as before. -/
theorem SMap.get_set_ne {a k : Nat} {v : α} (h : k ≠ a) : SMap.get d (SMap.set d m a v) k = SMap.get d m k := by
  induction m with
  | nil => by_cases hv : v = d <;> simp [SMap.set, SMap.get, hv, h]
  | cons e m ih =>
    unfold SMap.set
    split
    · split
      · rfl
      · simp [SMap.get, h]
    · split
      · next e1 => split <;> simp [SMap.get, ← e1, h]
      · simp only [SMap.get, ih]

/-- A key that was written reads as the value, in a memory of canonical form. -/
theorem SMap.get_set_self {b a : Nat} {v : α} (h : SMap.wfFrom d b m = true) : SMap.get d (SMap.set d m a v) a = v := by
  induction m generalizing b with
  | nil => by_cases hv : v = d <;> simp [SMap.set, SMap.get, hv]
  | cons e m ih =>
    have h0 := h
    simp only [SMap.wfFrom, Bool.and_eq_true, decide_eq_true_eq] at h
    unfold SMap.set
    split
    · next hlt =>
      split
      · next hv => rw [hv]; exact SMap.get_below (b := e.1) (by simp [SMap.wfFrom, h.1.2, h.2]) hlt
      · simp [SMap.get]
    · split
      · next e1 =>
        split
        · next hv => rw [hv]; exact SMap.get_below h.2 (by omega)
        · simp [SMap.get]
      · next hne => simp [SMap.get, hne, ih h.2]

/-- What reads back after a write. -/
theorem SMap.get_set {a k : Nat} {v : α} (h : SMap.wf d m = true) :
    SMap.get d (SMap.set d m a v) k = if k = a then v else SMap.get d m k := by
  split
  · next e => rw [e]; exact SMap.get_set_self h
  · next e => exact SMap.get_set_ne e

/-- A key outside the written span reads as before. -/
theorem SMap.get_setRange_out {a k : Nat} {vs : List α} (h : k < a ∨ a + vs.length ≤ k) :
    SMap.get d (SMap.setRange d m a vs) k = SMap.get d m k := by
  induction vs generalizing m a with
  | nil => rfl
  | cons v vs ih =>
    simp only [List.length_cons] at h
    rw [SMap.setRange, ih (by omega), SMap.get_set_ne (by omega)]

/-- A key inside the written span reads as its value. -/
theorem SMap.get_setRange_in {a k : Nat} {vs : List α} (hm : SMap.wf d m = true) (h : k < vs.length) :
    SMap.get d (SMap.setRange d m a vs) (a + k) = vs[k] := by
  induction vs generalizing m a k with
  | nil => simp at h
  | cons v vs ih =>
    rw [SMap.setRange]
    cases k with
    | zero => rw [SMap.get_setRange_out (by omega)]; exact SMap.get_set_self hm
    | succ k =>
      have := ih (a := a + 1) (k := k) (SMap.wf_set (a := a) (v := v) hm) (by simpa using h)
      rw [show a + (k + 1) = a + 1 + k by omega, this]; rfl

/-- What was written reads back. -/
theorem SMap.getRange_setRange {a : Nat} {vs : List α} (hm : SMap.wf d m = true) :
    SMap.getRange d (SMap.setRange d m a vs) a vs.length = vs := by
  apply List.ext_getElem (by simp [SMap.getRange])
  intro k h1 h2
  simp only [SMap.getRange, List.getElem_map, List.getElem_range]
  exact SMap.get_setRange_in hm h2

omit [DecidableEq α] in
/-- What a filter by key reads as. -/
theorem SMap.get_filter (p : Nat → Bool) (k : Nat) :
    SMap.get d (m.filter fun e => p e.1) k = if p k then SMap.get d m k else d := by
  induction m with
  | nil => simp [SMap.get]
  | cons e m ih =>
    rw [List.filter_cons]
    by_cases he : k = e.1
    · subst he; by_cases hp : p e.1 = true <;> simp [SMap.get, ih, hp]
    · by_cases hp : p e.1 = true <;> simp [SMap.get, ih, hp, he]

omit [DecidableEq α] in
/-- A cleared span reads as unlisted, every other key as before. -/
theorem SMap.get_clear {lo hi k : Nat} :
    SMap.get d (SMap.clear m lo hi) k = if lo ≤ k ∧ k < hi then d else SMap.get d m k := by
  unfold SMap.clear
  rw [SMap.get_filter (p := fun a => !(decide (lo ≤ a) && decide (a < hi)))]
  by_cases h : lo ≤ k ∧ k < hi
  · simp [h]
  · have : (decide (lo ≤ k) && decide (k < hi)) = false := by simpa using h
    simp [h, this]

omit [DecidableEq α] in
/-- A kept span reads as before, every other key as unlisted. -/
theorem SMap.get_keep {lo hi k : Nat} :
    SMap.get d (SMap.keep m lo hi) k = if lo ≤ k ∧ k < hi then SMap.get d m k else d := by
  unfold SMap.keep
  rw [SMap.get_filter (p := fun a => decide (lo ≤ a) && decide (a < hi))]
  simp

/-- Memories of canonical form that read alike are the same data. -/
theorem SMap.ext {m n : SMap α} {b c : Nat} (hm : SMap.wfFrom d b m = true) (hn : SMap.wfFrom d c n = true)
    (h : ∀ k, SMap.get d m k = SMap.get d n k) : m = n := by
  induction m generalizing n b c with
  | nil =>
    cases n with
    | nil => rfl
    | cons e n =>
      simp only [SMap.wfFrom, Bool.and_eq_true, decide_eq_true_eq] at hn
      have := h e.1
      simp [SMap.get] at this
      exact absurd this.symm hn.1.2
  | cons e m ih =>
    have hm' := hm
    simp only [SMap.wfFrom, Bool.and_eq_true, decide_eq_true_eq] at hm
    cases n with
    | nil =>
      have := h e.1
      simp [SMap.get] at this
      exact absurd this hm.1.2
    | cons f n =>
      have hn' := hn
      simp only [SMap.wfFrom, Bool.and_eq_true, decide_eq_true_eq] at hn
      have hk : e.1 = f.1 := by
        rcases Nat.lt_trichotomy e.1 f.1 with hl | hl | hl
        · have := h e.1
          rw [SMap.get_below (m := f :: n) (b := f.1) (by simp [SMap.wfFrom, hn.1.2, hn.2]) hl] at this
          simp [SMap.get] at this
          exact absurd this hm.1.2
        · exact hl
        · have := h f.1
          rw [SMap.get_below (m := e :: m) (b := e.1) (by simp [SMap.wfFrom, hm.1.2, hm.2]) hl] at this
          simp [SMap.get] at this
          exact absurd this.symm hn.1.2
      have hv : e.2 = f.2 := by have := h e.1; simpa [SMap.get, hk] using this
      have ht : m = n := ih hm.2 hn.2 (by
        intro k
        by_cases hke : k = e.1
        · rw [hke, SMap.get_below hm.2 (by omega), SMap.get_below hn.2 (by omega)]
        · have := h k; simpa [SMap.get, hke, hk ▸ hke] using this)
      rw [ht, Prod.ext hk hv]

/-! ### Byte memories -/

/-- A store keeps the canonical form. -/
theorem Memory.wf_store {m : Memory} {a : Nat} {bs : List Byte} (h : Memory.wf m = true) : Memory.wf (m.store a bs) = true :=
  SMap.wf_setRange h

/-- Clearing keeps the canonical form. -/
theorem Memory.wf_zero {m : Memory} {a n : Nat} (h : Memory.wf m = true) : Memory.wf (m.zero a n) = true := SMap.wf_clear h

/-- A store leaves every byte outside it alone. -/
theorem Memory.byte_store_out {m : Memory} {a k : Nat} {bs : List Byte} (h : k < a ∨ a + bs.length ≤ k) :
    (m.store a bs).byte k = m.byte k := SMap.get_setRange_out h

/-- A store reads back. -/
theorem Memory.load_store {m : Memory} {a : Nat} {bs : List Byte} (h : Memory.wf m = true) : (m.store a bs).load a bs.length = bs :=
  SMap.getRange_setRange h

/-- A cleared span reads as zero, every other byte as before. -/
theorem Memory.byte_zero {m : Memory} {a n k : Nat} :
    (m.zero a n).byte k = if a ≤ k ∧ k < a + n then 0 else m.byte k := SMap.get_clear

/-- A load's bytes are the memory's. -/
theorem Memory.load_getElem {m : Memory} {a n k : Nat} (h : k < (m.load a n).length) : (m.load a n)[k] = m.byte (a + k) := by
  simp [Memory.load, SMap.getRange, Memory.byte]

/-- The length of a load. -/
@[simp] theorem Memory.load_length {m : Memory} {a n : Nat} : (m.load a n).length = n := by simp [Memory.load, SMap.getRange]

end Sys2Proof.Machine
end

