-- ==== Sys2Proof/Laws/Granary.lean ====
section
/-! SUPPORT. What the Granary's own operations do to memory: reads and rejected requests change no byte, a write changes the
bytes it names and no other, and every one keeps the canonical form. -/

namespace Sys2Proof.Machine

variable {s : State}

/-- What every step of a fold keeps, the fold keeps. -/
theorem foldl_keeps {β γ : Type} (P : β → Prop) (f : β → γ → β) (hf : ∀ b x, P b → P (f b x)) (l : List γ) (b : β) (hb : P b) :
    P (l.foldl f b) := by
  induction l generalizing b with
  | nil => exact hb
  | cons x l ih => exact ih _ (hf b x hb)

/-- A channel that is reached, or a request that is rejected, touches no memory. -/
@[simp] theorem State.reach_mem (s : State) (c : ChanId) : (s.reach c).mem = s.mem := rfl
@[simp] theorem State.reject_mem (s : State) (c : ChanId) : (s.reject c).mem = s.mem := rfl

/-- A read of a granule changes no byte, and answers the granule's bytes unless its channel is frozen. -/
theorem State.granuleRead_spec (s : State) (g : Nat) :
    (s.granuleRead g).1.mem = s.mem ∧
    ((s.chan (s.chanOf (pageOf g))).stat.state ≠ gsFrozen → (s.granuleRead g).2 = some (s.mem.load (granAddr g) 64)) ∧
    ((s.chan (s.chanOf (pageOf g))).stat.state = gsFrozen → (s.granuleRead g).2 = none) := by
  unfold State.granuleRead
  dsimp only
  split
  · next h => exact ⟨rfl, fun k => absurd h k, fun _ => rfl⟩
  · next h => exact ⟨rfl, fun _ => rfl, fun k => absurd k h⟩

/-- A write inside a granule stores its bytes, unless its channel is frozen, and answers whether it did. -/
theorem State.granuleWrite_spec (s : State) (g off : Nat) (data : List Byte) :
    ((s.chan (s.chanOf (pageOf g))).stat.state ≠ gsFrozen →
      (s.granuleWrite g off data).1.mem = s.mem.store (granAddr g + off) data ∧ (s.granuleWrite g off data).2 = true) ∧
    ((s.chan (s.chanOf (pageOf g))).stat.state = gsFrozen →
      (s.granuleWrite g off data).1.mem = s.mem ∧ (s.granuleWrite g off data).2 = false) := by
  unfold State.granuleWrite
  dsimp only
  split
  · next h => exact ⟨fun k => absurd h k, fun _ => ⟨rfl, rfl⟩⟩
  · next h => exact ⟨fun _ => ⟨rfl, rfl⟩, fun k => absurd k h⟩

/-- A write inside a granule keeps the canonical form. -/
theorem State.granuleWrite_wf (g off : Nat) (data : List Byte) (h : Memory.wf s.mem = true) :
    Memory.wf (s.granuleWrite g off data).1.mem = true := by
  have := s.granuleWrite_spec g off data
  by_cases k : (s.chan (s.chanOf (pageOf g))).stat.state = gsFrozen
  · rw [(this.2 k).1]; exact h
  · rw [(this.1 k).1]; exact Memory.wf_store h

/-- A write of a range keeps the canonical form. -/
theorem State.granWrite_wf (a : Nat) (data : List Byte) (h : Memory.wf s.mem = true) :
    Memory.wf (s.granWrite a data).1.mem = true := by
  unfold State.granWrite
  refine foldl_keeps (fun r : State × Bool => Memory.wf r.1.mem = true) _ ?_ _ (s, true) h
  intro r e hr
  exact State.granuleWrite_wf _ _ _ hr

/-- A strobed write inside a granule keeps the canonical form. -/
theorem State.granuleStrobed_wf (g : Nat) (bs : List (Option Byte)) (h : Memory.wf s.mem = true) :
    Memory.wf (s.granuleStrobed g bs).1.mem = true := by
  unfold State.granuleStrobed
  split
  · exact h
  · split
    · exact State.granuleWrite_wf _ _ _ h
    · dsimp only
      split
      · exact h
      · refine foldl_keeps (fun m : Memory => Memory.wf m = true) _ ?_ _ _ h
        intro m e hm
        split
        · exact Memory.wf_store hm
        · exact hm

/-- A strobed write of a range keeps the canonical form. -/
theorem State.granStrobed_wf (a : Nat) (data : List (Option Byte)) (h : Memory.wf s.mem = true) :
    Memory.wf (s.granStrobed a data).1.mem = true := by
  unfold State.granStrobed
  refine foldl_keeps (fun r : State × Bool => Memory.wf r.1.mem = true) _ ?_ _ (s, true) h
  intro r e hr
  exact State.granuleStrobed_wf _ _ hr

/-- A read of a range changes no byte. -/
@[simp] theorem State.granRead_mem (s : State) (a n : Nat) : (s.granRead a n).1.mem = s.mem := by
  unfold State.granRead
  exact foldl_keeps (fun r : State × Option (List Byte) => r.1.mem = s.mem) _
    (fun r e hr => (r.1.granuleRead_spec e.1).1.trans hr) _ _ rfl

/-- A fold of a granule keeps the canonical form. -/
theorem State.granuleFold_wf (g : Nat) (kind : FoldKind) (vs : List Cplx) (h : Memory.wf s.mem = true) :
    Memory.wf (s.granuleFold g kind vs).1.mem = true := by
  unfold State.granuleFold
  dsimp only
  split
  · exact h
  · split
    · exact Memory.wf_store h
    · exact h

/-- A freeze changes no byte. -/
@[simp] theorem State.freezeChan_mem (s : State) (g : Nat) (src : GranSource) (op : BitVec 2) (rd : ReadOutcome) :
    (s.freezeChan g src op rd).mem = s.mem := by
  have hl : ∀ (t : State) p, (t.listRow p).mem = t.mem := by intro t p; unfold State.listRow; dsimp only; split <;> rfl
  have hh : ∀ t : State, t.requestHold.mem = t.mem := by
    intro t; unfold State.requestHold; split
    · rfl
    · exact (State.setMode_frame _ _).1
  unfold State.freezeChan
  dsimp only
  rw [hh, State.raise_mem, hl]
  rfl

end Sys2Proof.Machine
end

