-- ==== Sys2Proof/Laws/Exchange.lean ====
section
/-! SUPPORT. What serving a burst leaves of the Exchange: its locks, its held bursts and the breaks that wait; and when a row that
may end a lock takes the commands it held. -/

namespace Sys2Proof.Machine

variable {s t : State} {m : MasterId}

/-- What a burst that is served leaves as it was: the locks, the held bursts and the owners of broken locks. -/
def State.sameLocks (s t : State) : Prop :=
  t.move.exch.locks = s.move.exch.locks ∧ t.move.exch.held = s.move.exch.held ∧ t.move.exch.broken = s.move.exch.broken

theorem State.sameLocks_refl (s : State) : s.sameLocks s := ⟨rfl, rfl, rfl⟩

theorem State.sameLocks_trans {u : State} (h : s.sameLocks t) (g : t.sameLocks u) : s.sameLocks u :=
  ⟨g.1.trans h.1, g.2.1.trans h.2.1, g.2.2.trans h.2.2⟩

theorem State.sameLocks_of_move (h : t.move = s.move) : s.sameLocks t := by simp [State.sameLocks, h]

@[simp] theorem State.granuleRead_move (s : State) (g : Nat) : (s.granuleRead g).1.move = s.move := by
  simp only [State.granuleRead]; split <;> rfl

@[simp] theorem State.granuleWrite_move (s : State) (g off : Nat) (data : List Byte) : (s.granuleWrite g off data).1.move = s.move := by
  simp only [State.granuleWrite]; split <;> rfl

@[simp] theorem State.granRead_move (s : State) (a n : Nat) : (s.granRead a n).1.move = s.move :=
  foldl_keeps (fun r : State × Option (List Byte) => r.1.move = s.move) _ (fun b x h => by simpa using h) _ _ rfl

@[simp] theorem State.granWrite_move (s : State) (a : Nat) (data : List Byte) : (s.granWrite a data).1.move = s.move :=
  foldl_keeps (fun r : State × Bool => r.1.move = s.move) _ (fun b x h => by simpa using h) _ _ rfl

theorem State.targetRead_move (s : State) (k a n : Nat) : (s.targetRead k a n).1.move = s.move := by
  have h := s.granRead_move a n
  unfold State.targetRead
  by_cases h0 : k = 0
  · rw [if_pos h0]
  rw [if_neg h0]
  by_cases h1 : k = 5 ∨ k = 6 ∨ k = 7
  · rw [if_pos h1]; simp [State.freeBytes, State.drawn]
  rw [if_neg h1]
  by_cases h2 : 8 ≤ k
  · rw [if_pos h2]
    cases hs : s.granServes
    · simp
    · cases hr : s.granRead a n with
      | mk u o => cases o <;> simp_all
  · rw [if_neg h2]

@[simp] theorem State.granuleStrobed_move (s : State) (g : Nat) (bs : List (Option Byte)) : (s.granuleStrobed g bs).1.move = s.move := by
  unfold State.granuleStrobed
  split
  · rfl
  · split
    · exact s.granuleWrite_move ..
    · dsimp only; split <;> rfl

@[simp] theorem State.granStrobed_move (s : State) (a : Nat) (data : List (Option Byte)) : (s.granStrobed a data).1.move = s.move :=
  foldl_keeps (fun r : State × Bool => r.1.move = s.move) _ (fun b x h => by simpa using h) _ _ rfl

theorem State.targetWrite_move (s : State) (k a : Nat) (data : List (Option Byte)) : (s.targetWrite k a data).1.move = s.move := by
  obtain ⟨F, hF⟩ : ∃ F : State → Nat → List (Option Byte) → State × Bool, F = State.granStrobed := ⟨_, rfl⟩
  have h : (F s a data).1.move = s.move := by rw [hF]; exact s.granStrobed_move a data
  unfold State.targetWrite
  rw [← hF]
  split
  · rfl
  · split
    · split
      · rfl
      · exact h
    · rfl

theorem State.countBurst_sameLocks (s : State) (m : MasterId) (a n : Nat) (g : Bool) (code : BitVec 2) :
    s.sameLocks (s.countBurst m a n g code) := by
  simp only [State.countBurst]; split <;> exact ⟨rfl, rfl, rfl⟩

theorem State.took_sameLocks (s : State) (t : Nat) (m : MasterId) : s.sameLocks (s.took t m) := by
  unfold State.took; split <;> exact ⟨rfl, rfl, rfl⟩

theorem State.freeBytes_sameLocks (s : State) (n : Nat) : s.sameLocks (s.freeBytes n).1 := ⟨rfl, rfl, rfl⟩

/-- A request of a bridge's queue that ends takes and ends no lock. -/
theorem State.endBridged_sameLocks (s : State) (u : Burst) (code : BitVec 2) : s.sameLocks (s.endBridged u code) := by
  unfold State.endBridged
  dsimp only
  split
  · exact s.countBurst_sameLocks ..
  · exact State.sameLocks_trans (s.freeBytes_sameLocks _) (State.countBurst_sameLocks ..)

theorem State.drainBridge_sameLocks (s : State) (b : Fin 2) : s.sameLocks (s.drainBridge b) :=
  foldl_keeps s.sameLocks _ (fun t u h => State.sameLocks_trans h (t.endBridged_sameLocks u _)) _ _ ⟨rfl, rfl, rfl⟩

theorem State.drainFor_sameLocks (s : State) (m : MasterId) (target : Nat) : s.sameLocks (s.drainFor m target) := by
  refine foldl_keeps s.sameLocks _ (fun t b h => ?_) _ _ s.sameLocks_refl
  split
  · exact State.sameLocks_trans h (t.drainBridge_sameLocks b)
  · exact h

theorem State.busRead_sameLocks (s : State) (m : MasterId) (a n : Nat) : s.sameLocks (s.busRead m a n).1 := by
  simp only [State.busRead]
  split
  · exact s.countBurst_sameLocks ..
  · exact State.sameLocks_trans (State.sameLocks_trans (State.sameLocks_trans (s.drainFor_sameLocks ..) (State.took_sameLocks ..))
      (State.sameLocks_of_move (State.targetRead_move ..))) (State.countBurst_sameLocks ..)

theorem State.busWrite_sameLocks (s : State) (m : MasterId) (a : Nat) (data : List (Option Byte)) :
    s.sameLocks (s.busWrite m a data).1 := by
  simp only [State.busWrite]
  split
  · exact s.countBurst_sameLocks ..
  · exact State.sameLocks_trans (State.sameLocks_trans (State.sameLocks_trans (s.drainFor_sameLocks ..) (State.took_sameLocks ..))
      (State.sameLocks_of_move (State.targetWrite_move ..))) (State.countBurst_sameLocks ..)

/-- A burst that is served takes and ends no lock (R367), nor does one that enters a bridge's queue. -/
theorem State.serveBurst_sameLocks (s : State) (u : Burst) : s.sameLocks (s.serveBurst u) := by
  unfold State.serveBurst
  split
  · exact State.sameLocks_trans (s.took_sameLocks _ _) ⟨rfl, rfl, rfl⟩
  · split <;> refine foldl_keeps s.sameLocks _ (fun b x h => State.sameLocks_trans h ?_) _ _ s.sameLocks_refl
    · exact b.busWrite_sameLocks ..
    · exact b.busRead_sameLocks ..

/-- A row after which every lock still stands takes no command. -/
theorem State.served_of_kept (h : ∀ l ∈ s.move.exch.locks, l ∈ t.move.exch.locks) : s.served t = t := by
  simp [State.served, List.all_eq_true]; intro x hx hn; exact absurd (h x hx) hn

/-- A row that ended a lock takes the commands it held. -/
theorem State.served_of_ended {l : ExchLock} (h : l ∈ s.move.exch.locks) (hn : l ∉ t.move.exch.locks) : s.served t = t.serve := by
  simp [State.served, List.all_eq_true]; intro g; exact absurd (g l h) hn

/-- No lock, no wait: the accesses of a port are held by nothing. -/
theorem State.lockedOut_of_none {rs : List (Nat × Nat)} (h : s.move.exch.locks = []) : s.lockedOut m rs = false := by
  simp [State.lockedOut, h]

end Sys2Proof.Machine
end

