-- ==== Sys2Proof/WellFormed.lean ====
section
/-! DEFINITION. When a command is well formed: its lists have the sizes the spec gives them. Numbered
operands are bounded by their types. -/

namespace Sys2Proof

/-- A command packet fits a slot of 1024 words (R310, R333). -/
def Packet.wellFormed (p : Packet) : Bool := decide (p.params.length + 2 ≤ 1024)

/-- A burst of at most 16 beats of 64 bytes (R360). -/
def Burst.wellFormed (u : Burst) : Bool :=
  if u.write then decide (1 ≤ u.data.length ∧ u.data.length ≤ 1024) else decide (1 ≤ u.len ∧ u.len ≤ 1024)

/-- A request to a channel controller stays inside its granule (R245, R248). -/
def GranOp.wellFormed : GranOp → Bool
  | .read => true
  | .write d => decide (d.length = 64)
  | .partialWrite off d => decide (1 ≤ d.length ∧ off + d.length ≤ 64)
  | .fold _ _ _ => true

/-- The packet of a command that a host sends, where the row is such a command. -/
def Instr.packet : Instr → Option Packet
  | .hello _ _ p | .lease _ p | .release _ p | .heartbeat _ p | .identify _ p | .getRecord _ p
  | .setRecord _ p | .getStatus _ p | .tableBegin _ p | .tableCommit _ p | .tableAbort _ p
  | .tableQuery _ p | .obsDefine _ p | .obsCheck _ p | .obsArm _ p | .obsStartAt _ p | .obsStopAt _ p
  | .drainAt _ p | .resyncAt _ p | .delayLoad _ p | .weightLoad _ p | .coefSwap _ p | .dcbFreeze _ p
  | .cellarTrigger _ p | .cellarRelease _ p | .timeGet _ p | .timeIncrement _ p | .timeStep _ p
  | .timerSet _ p | .captureGet _ p | .laneSet _ p | .laneTrain _ p | .eyeScan _ p | .laneStats _ p
  | .bulkWrite _ p | .bulkRead _ p | .tallyGet _ p | .tallyClear _ p | .tallyConfig _ p
  | .modeRequest _ p | .tileRetire _ p | .tileRestore _ p | .octetSet _ p | .storeWrite _ p
  | .storeActivate _ p | .storeQuery _ p | .bale _ p | .unbale _ p | .selftest _ p | .peek _ p
  | .poke _ p => some p
  | _ => none

/-- Well-formedness of a command. A packet with too many words is a command the module answers with
BAD_LENGTH; BAD_OPCODE carries such packets whole. -/
def Instr.wellFormed (i : Instr) : Bool :=
  match i.packet with
  | some p => p.wellFormed
  | none =>
    match i with
    | .exchangeBurst u => u.wellFormed
    | .bridgeTimeout u => u.wellFormed
    | .masterReset _ (some (u, k)) => u.wellFormed && decide (k ≤ 16)
    | .granaryAccess _ op _ _ => op.wellFormed
    | .badOpcode _ ws => decide (ws.length ≤ 1024)
    | .postTailWrite _ _ ps => ps.all fun q => decide (q.length ≤ 1024)
    | .egressStall _ ms => decide (ms ≤ 100000000)
    | _ => true

end Sys2Proof
end

