-- ==== Sys2Proof/Laws/PerInstr.lean ====
section
/-! SUPPORT. Statements about every command as syntax, one lemma per command. -/

namespace Sys2Proof.Laws

/-- A well-formed command packet fits one slot of a Post ring: its length is from 2 to 1024 words (R310, R333). -/
def FitsSlot.Statement (i : Instr) : Prop := i.wellFormed = true → ∀ q, i.packet = some q → 2 ≤ q.len ∧ q.len ≤ 1024

/-- A packet whose own check passes fits a slot. -/
theorem FitsSlot.of_packet {i : Instr} {p : Packet} (h : i.packet = some p) : FitsSlot.Statement i := by
  intro hw q hq
  rw [h] at hq
  cases hq
  simp only [Instr.wellFormed, h, Packet.wellFormed, decide_eq_true_eq] at hw
  simp only [Packet.len]
  omega

/-- A command that is no packet has none to fit. -/
theorem FitsSlot.of_none {i : Instr} (h : i.packet = none) : FitsSlot.Statement i := by
  intro _ q hq
  rw [h] at hq
  cases hq

theorem FitsSlot.hello (b : BenchId) (keySlot : Fin 8) (p : Packet) : FitsSlot.Statement (.hello b keySlot p) := FitsSlot.of_packet rfl
theorem FitsSlot.lease (b : BenchId) (p : Packet) : FitsSlot.Statement (.lease b p) := FitsSlot.of_packet rfl
theorem FitsSlot.release (b : BenchId) (p : Packet) : FitsSlot.Statement (.release b p) := FitsSlot.of_packet rfl
theorem FitsSlot.heartbeat (b : BenchId) (p : Packet) : FitsSlot.Statement (.heartbeat b p) := FitsSlot.of_packet rfl
theorem FitsSlot.identify (b : BenchId) (p : Packet) : FitsSlot.Statement (.identify b p) := FitsSlot.of_packet rfl
theorem FitsSlot.getRecord (b : BenchId) (p : Packet) : FitsSlot.Statement (.getRecord b p) := FitsSlot.of_packet rfl
theorem FitsSlot.setRecord (b : BenchId) (p : Packet) : FitsSlot.Statement (.setRecord b p) := FitsSlot.of_packet rfl
theorem FitsSlot.getStatus (b : BenchId) (p : Packet) : FitsSlot.Statement (.getStatus b p) := FitsSlot.of_packet rfl
theorem FitsSlot.tableBegin (b : BenchId) (p : Packet) : FitsSlot.Statement (.tableBegin b p) := FitsSlot.of_packet rfl
theorem FitsSlot.tableCommit (b : BenchId) (p : Packet) : FitsSlot.Statement (.tableCommit b p) := FitsSlot.of_packet rfl
theorem FitsSlot.tableAbort (b : BenchId) (p : Packet) : FitsSlot.Statement (.tableAbort b p) := FitsSlot.of_packet rfl
theorem FitsSlot.tableQuery (b : BenchId) (p : Packet) : FitsSlot.Statement (.tableQuery b p) := FitsSlot.of_packet rfl
theorem FitsSlot.obsDefine (b : BenchId) (p : Packet) : FitsSlot.Statement (.obsDefine b p) := FitsSlot.of_packet rfl
theorem FitsSlot.obsCheck (b : BenchId) (p : Packet) : FitsSlot.Statement (.obsCheck b p) := FitsSlot.of_packet rfl
theorem FitsSlot.obsArm (b : BenchId) (p : Packet) : FitsSlot.Statement (.obsArm b p) := FitsSlot.of_packet rfl
theorem FitsSlot.obsStartAt (b : BenchId) (p : Packet) : FitsSlot.Statement (.obsStartAt b p) := FitsSlot.of_packet rfl
theorem FitsSlot.obsStopAt (b : BenchId) (p : Packet) : FitsSlot.Statement (.obsStopAt b p) := FitsSlot.of_packet rfl
theorem FitsSlot.drainAt (b : BenchId) (p : Packet) : FitsSlot.Statement (.drainAt b p) := FitsSlot.of_packet rfl
theorem FitsSlot.resyncAt (b : BenchId) (p : Packet) : FitsSlot.Statement (.resyncAt b p) := FitsSlot.of_packet rfl
theorem FitsSlot.delayLoad (b : BenchId) (p : Packet) : FitsSlot.Statement (.delayLoad b p) := FitsSlot.of_packet rfl
theorem FitsSlot.weightLoad (b : BenchId) (p : Packet) : FitsSlot.Statement (.weightLoad b p) := FitsSlot.of_packet rfl
theorem FitsSlot.coefSwap (b : BenchId) (p : Packet) : FitsSlot.Statement (.coefSwap b p) := FitsSlot.of_packet rfl
theorem FitsSlot.dcbFreeze (b : BenchId) (p : Packet) : FitsSlot.Statement (.dcbFreeze b p) := FitsSlot.of_packet rfl
theorem FitsSlot.cellarTrigger (b : BenchId) (p : Packet) : FitsSlot.Statement (.cellarTrigger b p) := FitsSlot.of_packet rfl
theorem FitsSlot.cellarRelease (b : BenchId) (p : Packet) : FitsSlot.Statement (.cellarRelease b p) := FitsSlot.of_packet rfl
theorem FitsSlot.timeGet (b : BenchId) (p : Packet) : FitsSlot.Statement (.timeGet b p) := FitsSlot.of_packet rfl
theorem FitsSlot.timeIncrement (b : BenchId) (p : Packet) : FitsSlot.Statement (.timeIncrement b p) := FitsSlot.of_packet rfl
theorem FitsSlot.timeStep (b : BenchId) (p : Packet) : FitsSlot.Statement (.timeStep b p) := FitsSlot.of_packet rfl
theorem FitsSlot.timerSet (b : BenchId) (p : Packet) : FitsSlot.Statement (.timerSet b p) := FitsSlot.of_packet rfl
theorem FitsSlot.captureGet (b : BenchId) (p : Packet) : FitsSlot.Statement (.captureGet b p) := FitsSlot.of_packet rfl
theorem FitsSlot.laneSet (b : BenchId) (p : Packet) : FitsSlot.Statement (.laneSet b p) := FitsSlot.of_packet rfl
theorem FitsSlot.laneTrain (b : BenchId) (p : Packet) : FitsSlot.Statement (.laneTrain b p) := FitsSlot.of_packet rfl
theorem FitsSlot.eyeScan (b : BenchId) (p : Packet) : FitsSlot.Statement (.eyeScan b p) := FitsSlot.of_packet rfl
theorem FitsSlot.laneStats (b : BenchId) (p : Packet) : FitsSlot.Statement (.laneStats b p) := FitsSlot.of_packet rfl
theorem FitsSlot.bulkWrite (b : BenchId) (p : Packet) : FitsSlot.Statement (.bulkWrite b p) := FitsSlot.of_packet rfl
theorem FitsSlot.bulkRead (b : BenchId) (p : Packet) : FitsSlot.Statement (.bulkRead b p) := FitsSlot.of_packet rfl
theorem FitsSlot.tallyGet (b : BenchId) (p : Packet) : FitsSlot.Statement (.tallyGet b p) := FitsSlot.of_packet rfl
theorem FitsSlot.tallyClear (b : BenchId) (p : Packet) : FitsSlot.Statement (.tallyClear b p) := FitsSlot.of_packet rfl
theorem FitsSlot.tallyConfig (b : BenchId) (p : Packet) : FitsSlot.Statement (.tallyConfig b p) := FitsSlot.of_packet rfl
theorem FitsSlot.modeRequest (b : BenchId) (p : Packet) : FitsSlot.Statement (.modeRequest b p) := FitsSlot.of_packet rfl
theorem FitsSlot.tileRetire (b : BenchId) (p : Packet) : FitsSlot.Statement (.tileRetire b p) := FitsSlot.of_packet rfl
theorem FitsSlot.tileRestore (b : BenchId) (p : Packet) : FitsSlot.Statement (.tileRestore b p) := FitsSlot.of_packet rfl
theorem FitsSlot.octetSet (b : BenchId) (p : Packet) : FitsSlot.Statement (.octetSet b p) := FitsSlot.of_packet rfl
theorem FitsSlot.storeWrite (b : BenchId) (p : Packet) : FitsSlot.Statement (.storeWrite b p) := FitsSlot.of_packet rfl
theorem FitsSlot.storeActivate (b : BenchId) (p : Packet) : FitsSlot.Statement (.storeActivate b p) := FitsSlot.of_packet rfl
theorem FitsSlot.storeQuery (b : BenchId) (p : Packet) : FitsSlot.Statement (.storeQuery b p) := FitsSlot.of_packet rfl
theorem FitsSlot.bale (b : BenchId) (p : Packet) : FitsSlot.Statement (.bale b p) := FitsSlot.of_packet rfl
theorem FitsSlot.unbale (b : BenchId) (p : Packet) : FitsSlot.Statement (.unbale b p) := FitsSlot.of_packet rfl
theorem FitsSlot.selftest (b : BenchId) (p : Packet) : FitsSlot.Statement (.selftest b p) := FitsSlot.of_packet rfl
theorem FitsSlot.peek (b : BenchId) (p : Packet) : FitsSlot.Statement (.peek b p) := FitsSlot.of_packet rfl
theorem FitsSlot.poke (b : BenchId) (p : Packet) : FitsSlot.Statement (.poke b p) := FitsSlot.of_packet rfl
theorem FitsSlot.badOpcode (b : BenchId) (words : List Word) : FitsSlot.Statement (.badOpcode b words) := FitsSlot.of_none rfl
theorem FitsSlot.postTailWrite (f : FuncId) (value : BitVec 16) (packets : List (List Word)) : FitsSlot.Statement (.postTailWrite f value packets) := FitsSlot.of_none rfl
theorem FitsSlot.replyHeadWrite (f : FuncId) (value : BitVec 16) : FitsSlot.Statement (.replyHeadWrite f value) := FitsSlot.of_none rfl
theorem FitsSlot.irqEnableWrite (f : FuncId) (value : BitVec 6) : FitsSlot.Statement (.irqEnableWrite f value) := FitsSlot.of_none rfl
theorem FitsSlot.irqStatusClear (f : FuncId) (value : BitVec 6) : FitsSlot.Statement (.irqStatusClear f value) := FitsSlot.of_none rfl
theorem FitsSlot.gainCommit (s : SubId) : FitsSlot.Statement (.gainCommit s) := FitsSlot.of_none rfl
theorem FitsSlot.go (c : DrayId) : FitsSlot.Statement (.go c) := FitsSlot.of_none rfl
theorem FitsSlot.stop (c : DrayId) : FitsSlot.Statement (.stop c) := FitsSlot.of_none rfl
theorem FitsSlot.commandDatagram (port : PortId) (peer : Peer) (bytes : List Byte) : FitsSlot.Statement (.commandDatagram port peer bytes) := FitsSlot.of_none rfl
theorem FitsSlot.bulkPut (port : PortId) (peer : Peer) (bytes : List Byte) : FitsSlot.Statement (.bulkPut port peer bytes) := FitsSlot.of_none rfl
theorem FitsSlot.bulkGet (port : PortId) (peer : Peer) (bytes : List Byte) : FitsSlot.Statement (.bulkGet port peer bytes) := FitsSlot.of_none rfl
theorem FitsSlot.notifyRepeat (port : PortId) : FitsSlot.Statement (.notifyRepeat port) := FitsSlot.of_none rfl
theorem FitsSlot.sessionIdleClose (port : PortId) : FitsSlot.Statement (.sessionIdleClose port) := FitsSlot.of_none rfl
theorem FitsSlot.functionLevelReset (f : FuncId) : FitsSlot.Statement (.functionLevelReset f) := FitsSlot.of_none rfl
theorem FitsSlot.perstN (high : Bool) : FitsSlot.Statement (.perstN high) := FitsSlot.of_none rfl
theorem FitsSlot.frameEnd (l : LaneId) : FitsSlot.Statement (.frameEnd l) := FitsSlot.of_none rfl
theorem FitsSlot.ack (l : LaneId) (payload : BitVec 64) : FitsSlot.Statement (.ack l payload) := FitsSlot.of_none rfl
theorem FitsSlot.nak (l : LaneId) (payload : BitVec 64) : FitsSlot.Statement (.nak l payload) := FitsSlot.of_none rfl
theorem FitsSlot.link (l : LaneId) (payload : BitVec 64) : FitsSlot.Statement (.link l payload) := FitsSlot.of_none rfl
theorem FitsSlot.trainReq (l : LaneId) (payload : BitVec 64) : FitsSlot.Statement (.trainReq l payload) := FitsSlot.of_none rfl
theorem FitsSlot.trainSts (l : LaneId) (payload : BitVec 64) (metric : BitVec 16) : FitsSlot.Statement (.trainSts l payload metric) := FitsSlot.of_none rfl
theorem FitsSlot.trainReqResend (l : LaneId) : FitsSlot.Statement (.trainReqResend l) := FitsSlot.of_none rfl
theorem FitsSlot.trainTimeout (l : LaneId) : FitsSlot.Statement (.trainTimeout l) := FitsSlot.of_none rfl
theorem FitsSlot.ackRepeat (l : LaneId) : FitsSlot.Statement (.ackRepeat l) := FitsSlot.of_none rfl
theorem FitsSlot.replayTimeout (l : LaneId) : FitsSlot.Statement (.replayTimeout l) := FitsSlot.of_none rfl
theorem FitsSlot.filler (l : LaneId) : FitsSlot.Statement (.filler l) := FitsSlot.of_none rfl
theorem FitsSlot.fillGap (l : LaneId) : FitsSlot.Statement (.fillGap l) := FitsSlot.of_none rfl
theorem FitsSlot.blockReceived (l : LaneId) (hdr : BitVec 2) (payload : BitVec 64) (reads : Nat) : FitsSlot.Statement (.blockReceived l hdr payload reads) := FitsSlot.of_none rfl
theorem FitsSlot.huntTimeout (l : LaneId) : FitsSlot.Statement (.huntTimeout l) := FitsSlot.of_none rfl
theorem FitsSlot.signalDetected (l : LaneId) : FitsSlot.Statement (.signalDetected l) := FitsSlot.of_none rfl
theorem FitsSlot.laneBringupTimeout (l : LaneId) : FitsSlot.Statement (.laneBringupTimeout l) := FitsSlot.of_none rfl
theorem FitsSlot.retrainTimeout (l : LaneId) : FitsSlot.Statement (.retrainTimeout l) := FitsSlot.of_none rfl
theorem FitsSlot.laneFaultRetry (l : LaneId) : FitsSlot.Statement (.laneFaultRetry l) := FitsSlot.of_none rfl
theorem FitsSlot.eyeScanPoint (l : LaneId) (errors : Nat) : FitsSlot.Statement (.eyeScanPoint l errors) := FitsSlot.of_none rfl
theorem FitsSlot.ethAlignLoss (l : LaneId) : FitsSlot.Statement (.ethAlignLoss l) := FitsSlot.of_none rfl
theorem FitsSlot.ethFrameReceived (l : LaneId) (frame : List Byte) (fec : FecReport) : FitsSlot.Statement (.ethFrameReceived l frame fec) := FitsSlot.of_none rfl
theorem FitsSlot.ingressSamplePacket (l : LaneId) (bytes : List Byte) : FitsSlot.Statement (.ingressSamplePacket l bytes) := FitsSlot.of_none rfl
theorem FitsSlot.ingressStatusPacket (l : LaneId) (bytes : List Byte) : FitsSlot.Statement (.ingressStatusPacket l bytes) := FitsSlot.of_none rfl
theorem FitsSlot.ingressJump (s : SubId) : FitsSlot.Statement (.ingressJump s) := FitsSlot.of_none rfl
theorem FitsSlot.egressFrameSend (port : LaneId) : FitsSlot.Statement (.egressFrameSend port) := FitsSlot.of_none rfl
theorem FitsSlot.egressStall (fmt : Fin 64) (waitedMs : Nat) : FitsSlot.Statement (.egressStall fmt waitedMs) := FitsSlot.of_none rfl
theorem FitsSlot.sieveSlot (s : SubId) (sl : SliceId) : FitsSlot.Statement (.sieveSlot s sl) := FitsSlot.of_none rfl
theorem FitsSlot.xfadeEnd (s : SubId) : FitsSlot.Statement (.xfadeEnd s) := FitsSlot.of_none rfl
theorem FitsSlot.frontEndSpanBoundary (s : SubId) : FitsSlot.Statement (.frontEndSpanBoundary s) := FitsSlot.of_none rfl
theorem FitsSlot.nop (e : EngineId) : FitsSlot.Statement (.nop e) := FitsSlot.of_none rfl
theorem FitsSlot.bf4 (e : EngineId) : FitsSlot.Statement (.bf4 e) := FitsSlot.of_none rfl
theorem FitsSlot.bf2 (e : EngineId) : FitsSlot.Statement (.bf2 e) := FitsSlot.of_none rfl
theorem FitsSlot.move (e : EngineId) : FitsSlot.Statement (.move e) := FitsSlot.of_none rfl
theorem FitsSlot.cmul (e : EngineId) : FitsSlot.Statement (.cmul e) := FitsSlot.of_none rfl
theorem FitsSlot.load (e : EngineId) : FitsSlot.Statement (.load e) := FitsSlot.of_none rfl
theorem FitsSlot.unload (e : EngineId) : FitsSlot.Statement (.unload e) := FitsSlot.of_none rfl
theorem FitsSlot.xfer (e : EngineId) : FitsSlot.Statement (.xfer e) := FitsSlot.of_none rfl
theorem FitsSlot.loop (e : EngineId) : FitsSlot.Statement (.loop e) := FitsSlot.of_none rfl
theorem FitsSlot.jump (e : EngineId) : FitsSlot.Statement (.jump e) := FitsSlot.of_none rfl
theorem FitsSlot.setreg (e : EngineId) : FitsSlot.Statement (.setreg e) := FitsSlot.of_none rfl
theorem FitsSlot.nullFrame (e : EngineId) : FitsSlot.Statement (.nullFrame e) := FitsSlot.of_none rfl
theorem FitsSlot.assayFrame (sl : SliceId) : FitsSlot.Statement (.assayFrame sl) := FitsSlot.of_none rfl
theorem FitsSlot.gainCopyback (s : SubId) : FitsSlot.Statement (.gainCopyback s) := FitsSlot.of_none rfl
theorem FitsSlot.condemn (s : SubId) : FitsSlot.Statement (.condemn s) := FitsSlot.of_none rfl
theorem FitsSlot.spanAvailable (s : SubId) : FitsSlot.Statement (.spanAvailable s) := FitsSlot.of_none rfl
theorem FitsSlot.unitStaged (s : SubId) : FitsSlot.Statement (.unitStaged s) := FitsSlot.of_none rfl
theorem FitsSlot.shelfEcc (s : SubId) (site : ShelfSite) : FitsSlot.Statement (.shelfEcc s site) := FitsSlot.of_none rfl
theorem FitsSlot.jobStart (t : TileId) : FitsSlot.Statement (.jobStart t) := FitsSlot.of_none rfl
theorem FitsSlot.jobComputeDone (t : TileId) (upsets : List (Nat × Cplx)) : FitsSlot.Statement (.jobComputeDone t upsets) := FitsSlot.of_none rfl
theorem FitsSlot.jobCheck (t : TileId) : FitsSlot.Statement (.jobCheck t) := FitsSlot.of_none rfl
theorem FitsSlot.jobTimeout (t : TileId) : FitsSlot.Statement (.jobTimeout t) := FitsSlot.of_none rfl
theorem FitsSlot.tileClockLoss (t : TileId) : FitsSlot.Statement (.tileClockLoss t) := FitsSlot.of_none rfl
theorem FitsSlot.tileSelftestDone (t : TileId) (pass : Bool) : FitsSlot.Statement (.tileSelftestDone t pass) := FitsSlot.of_none rfl
theorem FitsSlot.spareSelftest (t : TileId) : FitsSlot.Statement (.spareSelftest t) := FitsSlot.of_none rfl
theorem FitsSlot.loomSpanBoundary (s : SubId) : FitsSlot.Statement (.loomSpanBoundary s) := FitsSlot.of_none rfl
theorem FitsSlot.spanStart (s : SubId) : FitsSlot.Statement (.spanStart s) := FitsSlot.of_none rfl
theorem FitsSlot.ledgerSetComplete (s : SubId) : FitsSlot.Statement (.ledgerSetComplete s) := FitsSlot.of_none rfl
theorem FitsSlot.ledgerEcc (s : SubId) (site : EccSite) : FitsSlot.Statement (.ledgerEcc s site) := FitsSlot.of_none rfl
theorem FitsSlot.beamJobStart (t : TileId) (failAt : Option Nat) : FitsSlot.Statement (.beamJobStart t failAt) := FitsSlot.of_none rfl
theorem FitsSlot.beamUnitComplete (s : SubId) : FitsSlot.Statement (.beamUnitComplete s) := FitsSlot.of_none rfl
theorem FitsSlot.beamCursorPacket (fmt : Fin 64) : FitsSlot.Statement (.beamCursorPacket fmt) := FitsSlot.of_none rfl
theorem FitsSlot.granaryAccess (src : GranSource) (op : GranOp) (addr : BitVec 44) (rd : ReadOutcome) : FitsSlot.Statement (.granaryAccess src op addr rd) := FitsSlot.of_none rfl
theorem FitsSlot.srIdle (c : ChanId) : FitsSlot.Statement (.srIdle c) := FitsSlot.of_none rfl
theorem FitsSlot.srExit (c : ChanId) (sinceSreNs : Nat) : FitsSlot.Statement (.srExit c sinceSreNs) := FitsSlot.of_none rfl
theorem FitsSlot.refreshRateRead (c : ChanId) (rate : BitVec 4) (temp : BitVec 16) : FitsSlot.Statement (.refreshRateRead c rate temp) := FitsSlot.of_none rfl
theorem FitsSlot.zqCalibration : FitsSlot.Statement .zqCalibration := FitsSlot.of_none rfl
theorem FitsSlot.granaryTrainingDone (q : Fin 4) (failed : BitVec 8) : FitsSlot.Statement (.granaryTrainingDone q failed) := FitsSlot.of_none rfl
theorem FitsSlot.zeroFillDone (q : Fin 4) : FitsSlot.Statement (.zeroFillDone q) := FitsSlot.of_none rfl
theorem FitsSlot.clkMeasure (a : RefMeasure) (b : RefMeasure) (c : RefMeasure) : FitsSlot.Statement (.clkMeasure a b c) := FitsSlot.of_none rfl
theorem FitsSlot.refCyclesMissing (src : Fin 3) : FitsSlot.Statement (.refCyclesMissing src) := FitsSlot.of_none rfl
theorem FitsSlot.clkSwitch (phasePs : Int) : FitsSlot.Statement (.clkSwitch phasePs) := FitsSlot.of_none rfl
theorem FitsSlot.tick (n : Nat) : FitsSlot.Statement (.tick n) := FitsSlot.of_none rfl
theorem FitsSlot.slewEnd : FitsSlot.Statement .slewEnd := FitsSlot.of_none rfl
theorem FitsSlot.timeFreeRun : FitsSlot.Statement .timeFreeRun := FitsSlot.of_none rfl
theorem FitsSlot.beat (r : BeatReadings) : FitsSlot.Statement (.beat r) := FitsSlot.of_none rfl
theorem FitsSlot.timerFire (t : TimerId) : FitsSlot.Statement (.timerFire t) := FitsSlot.of_none rfl
theorem FitsSlot.ppsOut : FitsSlot.Statement .ppsOut := FitsSlot.of_none rfl
theorem FitsSlot.edgeCapture (src : Fin 3) (quarterNs : Fin 16) : FitsSlot.Statement (.edgeCapture src quarterNs) := FitsSlot.of_none rfl
theorem FitsSlot.mgmtFrameReceived (port : PortId) (frame : List Byte) (residence : Nat) : FitsSlot.Statement (.mgmtFrameReceived port frame residence) := FitsSlot.of_none rfl
theorem FitsSlot.delayReq : FitsSlot.Statement .delayReq := FitsSlot.of_none rfl
theorem FitsSlot.exchangeBurst (burst : Burst) : FitsSlot.Statement (.exchangeBurst burst) := FitsSlot.of_none rfl
theorem FitsSlot.bridgeTimeout (burst : Burst) : FitsSlot.Statement (.bridgeTimeout burst) := FitsSlot.of_none rfl
theorem FitsSlot.lockBreak : FitsSlot.Statement .lockBreak := FitsSlot.of_none rfl
theorem FitsSlot.masterReset (m : MasterId) (inFlight : Option (Burst × Nat)) : FitsSlot.Statement (.masterReset m inFlight) := FitsSlot.of_none rfl
theorem FitsSlot.drayTrigger (c : DrayId) (line : Option (Fin 32)) : FitsSlot.Statement (.drayTrigger c line) := FitsSlot.of_none rfl
theorem FitsSlot.descriptorStart (c : DrayId) : FitsSlot.Statement (.descriptorStart c) := FitsSlot.of_none rfl
theorem FitsSlot.descriptorComplete (c : DrayId) : FitsSlot.Statement (.descriptorComplete c) := FitsSlot.of_none rfl
theorem FitsSlot.tallyEvent (src : SourceId) (detail : Word) (sub : Option SubId) : FitsSlot.Statement (.tallyEvent src detail sub) := FitsSlot.of_none rfl
theorem FitsSlot.graceExpiry (src : SourceId) : FitsSlot.Statement (.graceExpiry src) := FitsSlot.of_none rfl
theorem FitsSlot.quietPeriod (src : SourceId) : FitsSlot.Statement (.quietPeriod src) := FitsSlot.of_none rfl
theorem FitsSlot.autoClear (src : SourceId) (detail : Word) : FitsSlot.Statement (.autoClear src detail) := FitsSlot.of_none rfl
theorem FitsSlot.foremanWdog (core : Fin 4) : FitsSlot.Statement (.foremanWdog core) := FitsSlot.of_none rfl
theorem FitsSlot.supplyEventBegin (v10mV bank10mV : BitVec 16) : FitsSlot.Statement (.supplyEventBegin v10mV bank10mV) := FitsSlot.of_none rfl
theorem FitsSlot.supplyTransient (extreme10mV : BitVec 16) : FitsSlot.Statement (.supplyTransient extreme10mV) := FitsSlot.of_none rfl
theorem FitsSlot.swellIsolate (v10mV : BitVec 16) : FitsSlot.Statement (.swellIsolate v10mV) := FitsSlot.of_none rfl
theorem FitsSlot.supplyEventEnd (v10mV bank10mV : BitVec 16) : FitsSlot.Statement (.supplyEventEnd v10mV bank10mV) := FitsSlot.of_none rfl
theorem FitsSlot.rideEnd (bank10mV : BitVec 16) : FitsSlot.Statement (.rideEnd bank10mV) := FitsSlot.of_none rfl
theorem FitsSlot.supplyLoss (v10mV : BitVec 16) (bank10mV : BitVec 16) : FitsSlot.Statement (.supplyLoss v10mV bank10mV) := FitsSlot.of_none rfl
theorem FitsSlot.autoRestart (v10mV : BitVec 16) : FitsSlot.Statement (.autoRestart v10mV) := FitsSlot.of_none rfl
theorem FitsSlot.bankTest (uF : BitVec 16) (bank10mV : BitVec 16) : FitsSlot.Statement (.bankTest uF bank10mV) := FitsSlot.of_none rfl
theorem FitsSlot.railFault (rail : Fin 12) : FitsSlot.Statement (.railFault rail) := FitsSlot.of_none rfl
theorem FitsSlot.railSeq : FitsSlot.Statement .railSeq := FitsSlot.of_none rfl
theorem FitsSlot.seqStep (met : Bool) : FitsSlot.Statement (.seqStep met) := FitsSlot.of_none rfl
theorem FitsSlot.islandPowerDone (i : IslandId) : FitsSlot.Statement (.islandPowerDone i) := FitsSlot.of_none rfl
theorem FitsSlot.islandGate (i : IslandId) : FitsSlot.Statement (.islandGate i) := FitsSlot.of_none rfl
theorem FitsSlot.cableOvercurrent (o : OctetId) : FitsSlot.Statement (.cableOvercurrent o) := FitsSlot.of_none rfl
theorem FitsSlot.thermalCrit (i : IslandId) (tj : BitVec 16) (dram : BitVec 16) (forMs : Nat) : FitsSlot.Statement (.thermalCrit i tj dram forMs) := FitsSlot.of_none rfl
theorem FitsSlot.resetN (lowUs : Nat) : FitsSlot.Statement (.resetN lowUs) := FitsSlot.of_none rfl
theorem FitsSlot.powerUp (straps : Straps) (v10mV : BitVec 16) : FitsSlot.Statement (.powerUp straps v10mV) := FitsSlot.of_none rfl
theorem FitsSlot.rollCallStep (r : StepReport) : FitsSlot.Statement (.rollCallStep r) := FitsSlot.of_none rfl
theorem FitsSlot.i2cWrite (bytes : List Byte) : FitsSlot.Statement (.i2cWrite bytes) := FitsSlot.of_none rfl
theorem FitsSlot.i2cRead (count : Nat) : FitsSlot.Statement (.i2cRead count) := FitsSlot.of_none rfl
theorem FitsSlot.dropout (v10mV bank10mV : BitVec 16) : FitsSlot.Statement (.dropout v10mV bank10mV) := FitsSlot.of_none rfl
theorem FitsSlot.pcieLinkDown (f : FuncId) : FitsSlot.Statement (.pcieLinkDown f) := FitsSlot.of_none rfl
theorem FitsSlot.pcieLinkUp (f : FuncId) : FitsSlot.Statement (.pcieLinkUp f) := FitsSlot.of_none rfl
theorem FitsSlot.mgmtBlockLock (port : PortId) : FitsSlot.Statement (.mgmtBlockLock port) := FitsSlot.of_none rfl
theorem FitsSlot.mgmtBlockLockLoss (port : PortId) : FitsSlot.Statement (.mgmtBlockLockLoss port) := FitsSlot.of_none rfl
theorem FitsSlot.remoteFault (l : LaneId) (on : Bool) : FitsSlot.Statement (.remoteFault l on) := FitsSlot.of_none rfl
theorem FitsSlot.ethPcsAligned (l : LaneId) : FitsSlot.Statement (.ethPcsAligned l) := FitsSlot.of_none rfl
theorem FitsSlot.ethTrainDone (l : LaneId) (ok : Bool) : FitsSlot.Statement (.ethTrainDone l ok) := FitsSlot.of_none rfl
theorem FitsSlot.cblPresentN (o : OctetId) (high : Bool) : FitsSlot.Statement (.cblPresentN o high) := FitsSlot.of_none rfl
theorem FitsSlot.busMasterEnable (f : FuncId) : FitsSlot.Statement (.busMasterEnable f) := FitsSlot.of_none rfl
theorem FitsSlot.msixUnmask (f : FuncId) (vec : Fin 16) : FitsSlot.Statement (.msixUnmask f vec) := FitsSlot.of_none rfl

end Sys2Proof.Laws
end

