-- ==== Sys2Proof/Tests/Slice0.lean ====
section
/-! SUPPORT. Small tests: what WellFormed refuses, a few numbers the spec works out, and for every statement with hypotheses
concrete states and operands that meet them. Expected values come from the spec's worked examples or by hand from its tables. -/

open Sys2Proof Sys2Proof.Machine

namespace Sys2Proof.Tests

-- The kernel evaluates these tests one after another, not all at once.
set_option Elab.async false

/-! ### Small states -/

/-- A packet. -/
def pk (ps : List Word) (flags : BitVec 8 := 0) : Packet := ⟨flags, 7, ps, .nothing⟩

/-- The module in a mode, its roll call over, every island ON, the benches serving, and bench 0 the holder of every lease. -/
def inMode (m : BitVec 4) : State :=
  let s := State.reset
  { s with
    now := 1000000000000
    bell := { s.bell with alive := true, stat := { s.bell.stat with mode := m, pwrGood := true }
                          islands := Vector.replicate 79 { state := 2, target := true } }
    start := { s.start with reg := { s.start.reg with step := 10 } }
    bench := { s.bench with serving := true, obsHolder := Vector.replicate 4 (some 0), timeHolder := some 0
                            storeHolder := some 0, workHolder := some 0 } }

/-- The module in PROVISION. -/
def up : State := inMode modeProvision

/-- The module in OBSERVE with sub-array 0 in a state, an epoch of 1 ns a sample, and an observation that began at index 0. -/
def obs (st : BitVec 4) : State :=
  let s := inMode (if st = saObserve then modeObserve else if st = saAlign then modeAlign else modeProvision)
  (((s.onObs 0 fun x => { x with state := st, epoch := { x.epoch with periodNs := 1 } }).onParser 0 fun x =>
    { x with start := some 0 }).onTimeStat fun x => { x with state := 1 })


/-- Each check of WellFormed refuses an ill-formed term and takes its largest or smallest well-formed one. -/
theorem test_WellFormed_refuses :
    [Instr.hello 0 0 (pk (List.replicate 1023 0)), .poke 3 (pk (List.replicate 1023 0)), .exchangeBurst ⟨0, false, 0, 0, [], .none⟩,
       .exchangeBurst ⟨0, false, 0, 1025, [], .none⟩, .exchangeBurst ⟨0, true, 0, 4, [], .none⟩, .exchangeBurst ⟨0, true, 0, 0,
       List.replicate 1025 none, .none⟩, .bridgeTimeout ⟨0, true, 0, 0, [], .none⟩, .masterReset 3 (some (⟨0, true, 0, 0, [none],
       .none⟩, 17)), .masterReset 3 (some (⟨0, false, 0, 0, [], .none⟩, 1)), .granaryAccess .exchange (.write []) 0 ⟨0, false, 0, 0,
       0⟩, .granaryAccess .exchange (.partialWrite 0 []) 0 ⟨0, false, 0, 0, 0⟩, .granaryAccess .exchange (.partialWrite 64 [0]) 0 ⟨0,
       false, 0, 0, 0⟩, .badOpcode 0 (List.replicate 1025 0), .postTailWrite 0 1 [List.replicate 1025 0],
       .egressStall 0 100000001].all (fun i => !i.wellFormed) = true ∧
    [Instr.hello 0 0 (pk (List.replicate 1022 0)), .exchangeBurst ⟨0, false, 0, 1, [], .none⟩, .exchangeBurst ⟨0, true, 0, 0,
       List.replicate 1024 none, .none⟩, .masterReset 3 (some (⟨0, true, 0, 0, [none], .none⟩, 16)), .masterReset 3 none,
       .granaryAccess .exchange (.write (List.replicate 64 0)) 0 ⟨0, false, 0, 0, 0⟩,
       .granaryAccess .exchange (.partialWrite 63 [0]) 0 ⟨0, false, 0, 0, 0⟩, .badOpcode 0 (List.replicate 1024 0),
       .postTailWrite 0 1 [List.replicate 1024 0], .egressStall 0 100000000, .tick 1].all (fun i => i.wellFormed) = true :=
  by decide +kernel

/-- The worked example of R243: granule, page, channel 16 of quadrant 2, subchannel 1, bank 12, row 26,710. -/
theorem test_hash_of_page :
    (108529750021 / 64, 108529750021 % 64) = (1695777344, 5) ∧
    pageOf 1695777344 = 54702494 ∧
    State.reset.chanOf 54702494 = 16 ∧
    State.reset.hashOf 54702494 / 32 % 4 = 1 ∧
    State.reset.hashOf 54702494 / 128 = 12 ∧
    54702494 / 2048 = 26710 :=
  by decide +kernel

/-- The worked example of R136: input 517, fine channel 808, fine sample 20,000 of the Reference Observation. -/
theorem test_cellar_offset :
    ((up.onCellar 0 fun x => { x with cfg := { x.cfg with blockMask := 0xFFFFFFFF } }).cellarOff 0 808 20000 4 5) = 108529750021 :=
  by decide +kernel

/-- The worked example of R129: phase, gain, levels 6 and -3, and the Cellar byte 0x6D. -/
theorem test_requantise :
    theta 64 64 40 429496730 = 4241280205 ∧
    cosSin14 (4241280205 / 2 ^ 18) = (16333, -1287) ∧
    applyPhase (21503, -9218) 4241280205 = (20712, -10878) ∧
    ((applyGain 0x3A00 3 20712).1, (applyGain 0x3A00 3 (-10878)).1) = (12945, -6799) ∧
    (curve0.part 12945, curve0.part (-6799)) = (6, -3) ∧
    packSample false 6 (-3) = [0x6D] :=
  by decide +kernel

/-- Sub-array 0 with a PERIOD of 512 ns and packets of 125 samples. -/
def epoch512 : State :=
  let s := up.onObs 0 fun x => { x with epoch := { x.epoch with periodNs := 512 } }
  { s with fmt := { s.fmt with fmts := vset s.fmt.fmts 63 (some (.ingress ⟨false, 1, 0, 0, 0, 4, 125, 1, 0, false, false, false⟩)) } }

/-- The worked example of R285: PERIOD 512 ns and SAMPLES_PER_PKT 125. -/
theorem test_start_index :
    epoch512.startIndex 0 (100000000000 * 2 ^ 16) = 195312500 ∧
    epoch512.startIndex 0 (100000010000 * 2 ^ 16) = 195312625 :=
  by decide +kernel

/-- Table 14-9: the seven bytes ABABABA, and back. -/
theorem test_bale_block :
    baleEncode 12 [0x41, 0x42, 0x41, 0x42, 0x41, 0x42, 0x41] = [0x00, 0x83, 0x08, 0x11, 0x48, 0x30, 0x20] ∧
    baleDecode 12 7 [0x00, 0x83, 0x08, 0x11, 0x48, 0x30, 0x20] = some [0x41, 0x42, 0x41, 0x42, 0x41, 0x42, 0x41] :=
  by decide +kernel

/-- With a key in slot 3. -/
def keyed : State := { up with bench := { up.bench with keys := vset up.bench.keys 3 [1, 2, 3] } }

/-- Witness: HELLO on bench 0, and on bench 2 under a key. -/
theorem test_HelloOpensASession :
    up.ready 0 ∧
    (0 : BenchId).val < 2 ∧
    (pk []).sized 2 1 ∧
    keyed.bench.serving = true ∧
    2 ≤ (2 : BenchId).val ∧
    keyed.bench.keys[(3 : Fin 8)].isEmpty = false ∧
    (keyed.benchOf 2).stat.isOpen = false :=
  by unfold State.ready Packet.sized; decide +kernel

/-- With two SESSION_IDs used. -/
def usedTwo : State := { up with bench := { up.bench with usedIds := [1, 2] } }

/-- Witness: two words used so far. -/
theorem test_SessionIdIsFresh :
    usedTwo.bench.usedIds.length + 2 < 2 ^ 32 :=
  by decide +kernel

/-- Witness: LEASE of OBSERVATION for 600 s (the most) and 1 s (the least), RELEASE of it and of all, HEARTBEAT. -/
theorem test_LeaseCommandsComplete :
    (up.ready 0 ∧
     (pk [0x02580001]).sized 3 ∧
     (pk [0x02580001]).stray 2 0xFC00FFC8 = false ∧
     classOk (pk [0x02580001]) = true ∧
     (pk [0x02580001]).bits 2 16 10 = 600 ∧
     (pk [0x00010001]).bits 2 16 10 = 1 ∧
     (∀ c, (up.handed 0).leaseHolder 1 0 = some c → c = 0) ∧
     (up.handed 0).keyMay 0 1 = true ∧
     (up.handed 0).start.recovery = false) ∧
    ((pk [1]).sized 3 ∧
     (pk [1]).stray 2 0xFFFFFEC8 = false ∧
     (pk [1]).bit 2 8 = false ∧
     classOk (pk [1]) = true ∧
     (pk [0x100]).sized 3 ∧
     (pk [0x100]).w 2 = 0x100 ∧
     (pk []).sized 2 ∧
     1 ≤ 5 ∧ 5 ≤ 5) :=
  ⟨by unfold State.ready Packet.sized; decide +kernel, by unfold Packet.sized; decide +kernel⟩

/-- Witness: TIME_GET, TIME_INCREMENT at both ends of its range, TIME_STEP to, on and back, TIMER_SET, CAPTURE_GET of 16. -/
theorem test_TimeCommandsComplete :
    (up.ready 0 ∧
     (up.handed 0).holdsAny 0 = true ∧
     (up.handed 0).holdsTime 0 = true ∧
     (pk [0xFF7CED92, 0x03, 0, 0]).sized 6 ∧
     (pk [0xFF7CED92, 0x03, 0, 0]).stray 3 0xFFFFFF00 = false ∧
     (pk [0xFF7CED92, 0x03, 0, 0]).stray 5 0xFFFF0000 = false ∧
     0x03FF7CED92 = ((pk [0xFF7CED92, 0x03, 0, 0]).w 2).toNat + (pk [0xFF7CED92, 0x03, 0, 0]).bits 3 0 8 * 2 ^ 32 ∧
     0x040083126E = ((pk [0x0083126E, 0x04, 0, 0]).w 2).toNat + (pk [0x0083126E, 0x04, 0, 0]).bits 3 0 8 * 2 ^ 32 ∧
     (pk [5, 0, 999999999]).sized 5 0x20) ∧
    ((∀ i, (up.handed 0).active i = false) ∧
     (pk [5, 0, 999999999]).bits 4 0 30 ≤ 999999999 ∧
     (pk [5, 0, 999999999]).stray 4 0x40000000 = false ∧
     (pk [5, 0, 999999999]).stray 4 0x80000000 = false ∧
     (pk [5, 0, 999999999]).flag 5 = false ∧
     (pk [5, 0, 0] 0x20).sized 5 0x20 ∧
     (pk [5, 0, 0] 0x20).flag 5 = true ∧
     (pk [5, 0, 0] 0x20).stray 3 0x8000 = false ∧
     (pk [5, 0, 0] 0x20).bit 4 31 = false) ∧
    ((pk [5, 0, 0x80000000] 0x20).bit 4 31 = true ∧
     (pk [1, 0, 0, 0, 0, 0, 0]).sized 9 ∧
     (1 : TimerId).val = (pk [1, 0, 0, 0, 0, 0, 0]).bits 2 0 3 ∧
     (1 : TimerId) ≠ 0 ∧
     (pk [1, 0, 0, 0, 0, 0, 0]).bits 2 4 3 = 0 ∧
     (pk [0x1003]).sized 3 ∧
     (pk [0x1003]).stray 2 0xFFFFE0FC = false ∧
     (pk [0x1003]).bits 2 8 5 = 16 ∧
     (0 : Nat) ≤ up.time.tk) :=
  ⟨by unfold State.ready Packet.sized; decide +kernel, by unfold Packet.sized; decide +kernel, 
   by unfold Packet.sized; decide +kernel⟩

/-- With lane 0 UP. -/
def laneUp : State := up.onLane 0 fun x => { x with stat := { x.stat with state := lsUp } }

/-- Witness: LANE_SET that keeps the octet, LANE_TRAIN of one lane and of an octet, EYE_SCAN of one point, LANE_STATS, OCTET_SET. -/
theorem test_LaneCommandsComplete :
    (up.ready 0 ∧
     (pk [0, 0x11, 0x00010000, 0, 0]).sized 7 ∧
     (up.handed 0).octetLease 0 0 = true ∧
     (up.handed 0).start.recovery = false ∧
     (pk [0, 0x11, 0x00010000, 0, 0]).octet = 0 ∧
     (pk [0, 0x11, 0x00010000, 0, 0]).bit 4 23 = false ∧
     (pk [0, 0x11, 0x00010000, 0, 0]).bit 3 0 = ((up.handed 0).octet 0).cfg.enable ∧
     (pk [0, 0x11, 0x00010000, 0, 0]).bit 3 1 = ((up.handed 0).octet 0).cfg.dir ∧
     (pk [0, 0x11, 0x00010000, 0, 0]).bit 3 2 = ((up.handed 0).octet 0).cfg.pers ∧
     (pk [0, 0x11, 0x00010000, 0, 0]).bits 3 3 3 = ((up.handed 0).octet 0).cfg.ethLayout.toNat ∧
     (pk [0, 0x11, 0x00010000, 0, 0]).bits 4 16 4 ≠ 0) ∧
    ((pk [0, 0x11, 0x00010000, 0, 0]).bits 4 20 3 ≤ 5 ∧
     ((up.handed 0).octet 0).change = none ∧
     (pk [0x100]).sized 3 ∧
     (laneUp.handed 0).octetLease 0 (octetOf (pk [0x100]).lane) = true ∧
     (pk [0x100]).stray 2 0xFFFFFC80 = false ∧
     ((laneUp.handed 0).laneOf 0).st ≠ lsOff ∧
     (pk [0x100]).bit 2 8 = true ∧
     (pk [0x100]).bit 2 9 = false ∧
     (pk [0x300]).bit 2 9 = true ∧
     laneUp.ready 0 ∧
     (pk [0x00140000, 0x01000000 &&& 0x00FFFFFF ||| 0x00010000, 0x00010000]).sized 5) ∧
    ((eyeAxis (signedOf 8 ((pk [0x00140000, 0x00010000, 0x00010000]).bits 3 0 8)) (signedOf 8 ((pk [0x00140000, 0x00010000,
       0x00010000]).bits 3 8 8)) ((pk [0x00140000, 0x00010000, 0x00010000]).bits 3 16 8)).length = 1 ∧
     (pk [0x00140000, 0x00010000, 0x00010000]).stray 2 0xFFE0FC80 = false ∧
     20 ≤ (pk [0x00140000, 0x00010000, 0x00010000]).bits 2 16 5 ∧
     ((laneUp.handed 0).laneOf 0).st = lsUp ∧
     ((laneUp.handed 0).laneOf 0).eye.status ≠ 1 ∧
     (pk [0]).sized 3 ∧
     (pk [0]).stray 2 0xFFFFFFF0 = false ∧
     (pk [0]).stray 2 0xFFFFFC00 = false ∧
     (pk [0]).bits 2 7 3 ≤ 3) :=
  ⟨by unfold State.ready Packet.sized; decide +kernel, by unfold State.ready Packet.sized; decide +kernel, 
   by unfold Packet.sized; decide +kernel⟩

/-- The TALLY_CONFIG of FOREMAN_WDOG with the longest grace time. -/
def tc : List Word := [0x70, 0x00010170, 0xEA6003E8, 0x03042710, 0]

/-- Witness: TALLY_GET, TALLY_CLEAR of a source and of all, TALLY_CONFIG. -/
theorem test_TallyCommandsComplete :
    (up.ready 0 ∧
     (up.handed 0).holdsAny 0 = true ∧
     (up.handed 0).holdsObsWork 0 = true ∧
     (pk [0x7F00]).sized 3 ∧
     (pk [0x7F00]).stray 2 0xFFFF0000 = false ∧
     8 * (pk [0x7F00]).bits 2 8 8 ≤ 1021 ∧
     (pk [0x70]).stray 2 0xFFFFFE00 = false ∧
     (pk [0x70]).bit 2 8 = false ∧
     assignedSource (pk [0x70]).source.val = true) ∧
    ((pk [0x100]).bit 2 8 = true ∧
     (pk tc).sized 7 ∧
     (pk tc).stray 2 0xFFFFFF00 = false ∧
     (pk tc).stray 3 0xFF00FC00 = false ∧
     (pk tc).stray 5 0xE0F80000 = false ∧
     (pk tc).w 6 = 0 ∧
     (talyEntry fun k => (pk tc).w (3 + k)).source.toNat = (pk tc).source.val ∧
     (talyEntry fun k => (pk tc).w (3 + k)).bad = false) :=
  ⟨by unfold State.ready Packet.sized; decide +kernel, by unfold Packet.sized; decide +kernel⟩

/-- With tile 41 retired. -/
def retired : State := up.onTileReg 41 fun x => { x with state := tsRetired }

/-- Witness: a mode out of STANDBY, back to it, WORKSHOP out of PROVISION, HOLD and out of it; TILE_RETIRE and TILE_RESTORE. -/
theorem test_ModeAndTileCommandsComplete :
    ((inMode modeStandby).ready 0 ∧
     (pk [2]).sized 3 ∧
     (pk [2]).stray 2 0xFFFFFFF0 = false ∧
     ((inMode modeStandby).handed 0).modeLease 0 2 = true ∧
     ((inMode modeStandby).handed 0).modeAllowed 2 = true ∧
     ((inMode modeStandby).handed 0).bell.running = none ∧
     ((inMode modeStandby).handed 0).mode = modeStandby ∧
     up.ready 0 ∧
     (up.handed 0).modeLease 0 1 = true) ∧
    ((up.handed 0).modeAllowed 1 = true ∧
     (up.handed 0).modeLease 0 7 = true ∧
     (up.handed 0).modeAllowed 7 = true ∧
     (up.handed 0).modeLease 0 6 = true ∧
     (up.handed 0).modeAllowed 6 = true ∧
     ((inMode modeHold).handed 0).modeAllowed 2 = true ∧
     ((inMode modeHold).handed 0).modeAllowed 1 = true ∧
     ((inMode modeHold).handed 0).modeAllowed 7 = true ∧
     (pk [41]).tile = some 41) ∧
    ((pk [41]).stray 2 0xFFFFFFC0 = false ∧
     (up.handed 0).tileLease 0 (some 41) = true ∧
     (up.handed 0).start.recovery = false ∧
     ((up.handed 0).tile 41).reg.state ≠ tsRetired ∧
     ((up.handed 0).tile 41).retire = false ∧
     ¬ (((up.handed 0).tile 41).reg.state = tsTesting ∧ ((up.handed 0).tile 41).test = .restore) ∧
     ((retired.handed 0).tile 41).reg.state = tsRetired ∧
     retired.ready 0) :=
  ⟨by unfold State.ready Packet.sized; decide +kernel, by decide +kernel, by unfold State.ready; decide +kernel⟩

/-- Witness: a POST_TAIL write of 16 slots and one of 17; a REPLY_HEAD write of all replies and one past them. -/
theorem test_HostWindowWrites :
    up.mapped = true ∧
    (up.benchOf (funcBench 0)).post.length ≤ ((16 : BitVec 16) - (up.benchOf (funcBench 0)).stat.postHead).toNat ∧
    ((16 : BitVec 16) - (up.benchOf (funcBench 0)).stat.postHead).toNat ≤ 16 ∧
    (List.replicate 16 ([] : List Word)).length = ((16 : BitVec 16) - (up.benchOf (funcBench 0)).stat.postHead).toNat - (up.benchOf
       (funcBench 0)).post.length ∧
    16 < ((17 : BitVec 16) - (up.benchOf (funcBench 0)).stat.postHead).toNat ∧
    ((0 : BitVec 16) - (up.benchOf (funcBench 0)).stat.replyHead).toNat ≤ (up.benchOf (funcBench 0)).replies.length ∧
    (up.benchOf (funcBench 0)).replies.length < ((1 : BitVec 16) - (up.benchOf (funcBench 0)).stat.replyHead).toNat :=
  by decide +kernel

/-- With interrupt bit 5 of bench 0 set, bit 0 enabled, the link up and messages allowed. -/
def irq : State :=
  let s := up.onBnch 0 fun x => { x with irqStatus := 0x20, irqEnable := 0x21, linkUp := true }
  { s with bench := { s.bench with funcs := vmod s.bench.funcs 0 fun x => { x with busMaster := true, masked := 0 } } }

/-- Witness: a bit clear and one set, enabled or not, with a message that may leave and one that may not; links and PERST_N. -/
theorem test_InterruptsFunctionsAndLinks :
    (irq.benchOf (funcBench 0)).stat.irqStatus.getLsbD 5 = true ∧
    (irq.benchOf (funcBench 0)).stat.irqStatus.getLsbD 0 = false ∧
    (irq.benchOf (funcBench 0)).stat.irqEnable.getLsbD 0 = true ∧
    (irq.benchOf (funcBench 0)).stat.irqEnable.getLsbD 1 = false ∧
    irq.bench.funcs[(0 : Fin 2)].busMaster = true ∧
    irq.bench.funcs[(0 : Fin 2)].masked.getLsbD 0 = false ∧
    (irq.benchOf (funcBench 0)).stat.linkUp = true ∧
    ((up.bench.funcs[(0 : Fin 2)].busMaster = false ∨ False)) ∧
    irq.mapped = true ∧
    irq.bench.perstHigh = true ∧
    irq.running = true ∧
    irq.islandOn 71 = true :=
  by decide +kernel

/-- With REC_A ranked and absent. -/
def recA : State := { up with clock := { up.clock with srcs := vmod up.clock.srcs 2 fun r => { r with qstate := qsAbsent } } }

/-- Port A with IPv4 address 10.0.0.1. -/
def port0 : State := { up with bench := { up.bench with mgmt := vmod up.bench.mgmt 0 fun m => { m with ipv4 := 0x0A000001 } } }

/-- An Ethernet frame with its FCS. -/
def fr (head : List Byte) : List Byte := withFcs (head ++ List.replicate (60 - head.length) 0)

/-- A frame's headers. -/
def headOf (f : List Byte) : MgmtFrame := frameHead (f.take (f.length - 4))

/-- A UDP datagram to the bench of port A, a PTP frame of EtherType 0x88F7 to a destination, and a frame that is neither. -/
def benchFr : List Byte :=
  fr (List.replicate 12 0 ++ [8, 0, 0x45, 0, 0, 40, 0, 0, 0, 0, 64, 17, 0, 0, 10, 0, 0, 2, 10, 0, 0, 1, 0x10, 0, 0xB3, 0xC0, 0, 20, 0, 0])
def ptpFr (dst : Byte) : List Byte := fr ([dst, 0, 0, 0, 0, 0] ++ List.replicate 6 0 ++ [0x88, 0xF7, 0, 2, 0, 44])
def otherFr : List Byte := fr (List.replicate 12 0 ++ [0x12, 0x34])

/-- With a Sync seen on port A and Delay_Req enabled. -/
def synced : State :=
  { up with time := { up.time with cfg := { up.time.cfg with dreqEn := true }
                                   lastSync := vset up.time.lastSync 0 (some ⟨0, none, 0x011B19000000, 0⟩) } }

/-- Witness: a powered module; REC_A ABSENT and not UNUSED; frames too short, for the bench, PTP for the port and not,
and others; a Sync seen. -/
theorem test_ManagementPortEvents :
    (up.bell.alive = true ∧
     (recA.refOf 2).qstate = qsAbsent ∧
     (recA.refOf 2).qstate ≠ qsUnused ∧
     recA.bell.alive = true ∧
     mgmtFcsOk [] = false ∧
     up.framesRun = true ∧
     (∀ f ∈ [benchFr, ptpFr 0x0E, ptpFr 0, otherFr], mgmtFcsOk f = true) ∧
     port0.bench.mgmt[(0 : PortId)].benchFrame (headOf benchFr) = true ∧
     port0.bench.mgmt[(0 : PortId)].benchFrame (headOf (ptpFr 0x0E)) = false ∧
     (headOf (ptpFr 0x0E)).isPtp (ptpFr 0x0E) = true) ∧
    (port0.bench.mgmt[(0 : PortId)].addressed (headOf (ptpFr 0x0E)) = false ∧
     (headOf (ptpFr 0)).isPtp (ptpFr 0) = true ∧
     port0.bench.mgmt[(0 : PortId)].addressed (headOf (ptpFr 0)) = true ∧
     (headOf otherFr).isPtp otherFr = false ∧
     synced.time.lastSync[(0 : PortId)] = some ⟨0, none, 0x011B19000000, 0⟩ ∧
     synced.time.cfg.dreqPort = false ∧
     synced.framesRun = true ∧
     synced.time.cfg.dreqEn = true ∧
     synced.time.lastDreq ≠ some synced.dreqInstant ∧
     up.time.cfg.dreqEn = false) :=
  ⟨by decide +kernel, by decide +kernel⟩

/-- A session of bench 2 under the key of slot 3, whose last SEQ is 5. -/
def sess : State :=
  let s := { up with bench := { up.bench with keys := vset up.bench.keys 3 [1, 2, 3] } }
  s.onBench 2 fun x => { x with lastSeq := 5, stat := { x.stat with isOpen := true, sessionId := 77, keySlot := 3, postTail := 1, postHead := 1 } }

/-- A bench datagram of that session for bench 2: TYPE, SEQ, CMD_NUM, payload and tag; a BULK range of one word. -/
def dg (type seq cmd : Nat) (payload : List Word) (tag : Nat) : List Byte :=
  (dgramHeader type 2 3 payload.length 77 seq cmd 0 1 ++ payload.flatMap fun w => beBytes 4 w.toNat) ++ beBytes 16 tag

/-- HEARTBEAT as command 1, a BULK_PUT of the word 5, and a BULK_GET. -/
def dgCmd : List Byte := dg 1 6 1 [0x04000002, 9] 0x86b4069e04ac21b579aab30f5887a8f4
def dgPut : List Byte := dg 3 6 0 [5] 0xcb8faca9fdf1dbbdc9f772b3b6ec2b3e
def dgGet : List Byte := dg 5 6 0 [] 0x8d32ca1b41091cd0883759c61c3054c2

/-- Witness: a COMMAND with the next CMD_NUM, a BULK_PUT and a BULK_GET of an open session,
their tags from an HMAC-SHA-256 of its own; a short one, one with a wrong tag and one with an old SEQ. -/
theorem test_DatagramsAreTakenOrDropped :
    (sess.bench.serving = true ∧
     (∀ bs ∈ [dgCmd, dgPut, dgGet], headerOk 2 bs = true ∧ sess.tagOk (dgramOf bs).slot bs = true ∧ (dgramOf bs).slot =
        (3 : Fin 8).val ∧ (dgramOf bs).opens = false ∧ (dgramOf bs).session = (sess.benchOf 2).stat.sessionId ∧ (sess.benchOf
        2).lastSeq < (dgramOf bs).seq) ∧
     (sess.benchOf 2).stat.isOpen = true ∧
     (sess.benchOf 2).stat.keySlot.toNat = 3 ∧
     (dgramOf dgCmd).type = 1 ∧
     (dgramOf dgCmd).cmd = (sess.benchOf 2).stat.postTail ∧
     (∀ e ∈ (sess.benchOf 2).held, e.1 ≠ (dgramOf dgCmd).cmd)) ∧
    ((dgramOf dgPut).type = 3 ∧
     (dgramOf dgGet).type = 5 ∧
     headerOk 2 [] = false ∧
     headerOk 2 (dg 1 6 1 [9] 0) = true ∧
     sess.tagOk 3 (dg 1 6 1 [9] 0) = false ∧
     (dgramOf dgGet).seq ≤ ((sess.onBench 2 fun x => { x with lastSeq := 6 }).benchOf 2).lastSeq) :=
  ⟨by decide +kernel, by decide +kernel⟩

/-- A session of bench 2 with an interrupt told at instant 5; with a peer. -/
def told : State := sess.onBench 2 fun x => { x with notifyAt := some 5, stat := { x.stat with irqStatus := 1, irqEnable := 1 } }
def toldPeer : State := told.onBench 2 fun x => { x with peer := some { mac := 1, v6 := false, ip := 2, port := 3 } }

/-- A command in which the firmware meets a fault. -/
def met (acted : Bool) : Packet := ⟨0, 7, [], .firmware acted⟩

/-- Witness: a NOTIFY due, with a peer and without, a firmware fault that acted and one that did not, a session idle for 10 s,
and packets of LENGTH 1, LENGTH 1025 and an unknown opcode. -/
theorem test_SessionsCloseAndBadPackets :
    ((told.benchOf (portBench 0)).notifyAt = some 5 ∧
     5 ≤ told.now ∧
     (told.benchOf (portBench 0)).stat.irqStatus &&& (told.benchOf (portBench 0)).stat.irqEnable ≠ 0 ∧
     (told.benchOf (portBench 0)).stat.isOpen = true ∧
     told.holdsAny (portBench 0) = false ∧
     (told.benchOf (portBench 0)).lastDgram + 10000000000 ≤ told.now ∧
     (met true).len ≤ 1024 ∧
     (met false).meets = .firmware false) ∧
    ((told.benchOf (portBench 0)).peer.isSome = false ∧
     (toldPeer.benchOf (portBench 0)).peer.isSome = true ∧
     (toldPeer.benchOf (portBench 0)).notifyAt = some 5 ∧
     up.ready 0 ∧
     fieldOf (([1, 0] : List Word).getD 0 0) 0 16 < 2 ∧
     1024 < fieldOf (([1025, 0] : List Word).getD 0 0) 0 16 ∧
     fieldOf (([0xFF000002, 0] : List Word).getD 0 0) 0 16 = ([0xFF000002, 0] : List Word).length ∧
     knownOp (((0xFF000002 : Word) >>> 24).setWidth 8 : BitVec 8).toNat = false) :=
  ⟨by decide +kernel, by unfold State.ready; decide +kernel⟩

/-- BELL_CFG with the least RECOVER_MS. -/
def bellWord : Word := 0x0018400A

/-- Witness: BNCH_STAT of the own bench and a record that needs a lease; BELL_CFG, GRAN_CFG and LEDG_CFG at the ends of their ranges. -/
theorem test_RecordsAreReadAndWritten :
    (up.ready 0 ∧
     (pk []).sized 2 ∧
     (pk [0x00000B01, 0]).sized 4 ∧
     ((up.handed 0).recordWords ((pk [0x0B01, 0]).bits 2 0 16) ((pk [0x0B01, 0]).bits 2 16 16)).isSome ∧
     (pk [0x0B01, 0]).bits 3 16 16 ≤ 1021 ∧
     (pk [0x0B01, 0]).bits 3 0 16 < (((up.handed 0).recordWords 0x0B01 0).getD []).length ∧
     (up.handed 0).holdsAny 0 = true ∧
     (pk [0x1101, 0x00010000, bellWord]).sized 5) ∧
    (((up.handed 0).recordWords 0x1101 0).map List.length = some 1 ∧
     (up.handed 0).recordLease 0 0x1101 0 (fun j => if 0 ≤ j ∧ j < 0 + 1 then some ((pk [0x1101, 0x00010000,
        bellWord]).w (4 + (j - 0))) else none) = true ∧
     ((up.handed 0).writeRecord 0x1101 0 1 (fun j => if 0 ≤ j ∧ j < 0 + 1 then some ((pk [0x1101, 0x00010000,
        bellWord]).w (4 + (j - 0))) else none)).2 = stOk ∧
     (up.bell.cfg.written fun j => if j = 0 then some bellWord else none).recoverMs.toNat = 10 ∧
     (up.gran.cfg.written fun j => if j = 0 then some (up.gran.cfg.words.getD 0 0) else none).srIdleUs ≠ 0 ∧
     (up.ledger[(0 : SubId)].cfg.written fun j => if j = 0 then some 0x20C00000 else none).wrecGroupLog2.toNat = 6 ∧
     (up.ledger[(0 : SubId)].cfg.written fun j => if j = 0 then some 0x20C00000 else none).shift.toNat = 32) :=
  ⟨by unfold State.ready Packet.sized; decide +kernel, by decide +kernel⟩

/-- Witness: a field that ends at bit 31 of a word. -/
theorem test_FieldAccessTypes :
    (fun k => if k = 0 then some (1 : Word) else none) 0 = some 1 ∧
    16 + 16 ≤ 32 ∧
    3 < 16 ∧
    (fun k => if k = 0 then some (1 : Word) else none) 1 = none :=
  by decide +kernel

/-- A table staged for a bench: its transaction, and the module with it; a TALLY table of one entry; a table store with no room; weights
ready. -/
def stg (cls : Nat) (body : List Word) : Txn := ⟨cls, some 0, 16 + 4 * body.length, storeBase, 4096, 0⟩
def tbl (cls : Nat) (body : List Word) (head : Word := 0x5054424C) : State :=
  let s := up.onBench 0 fun x => { x with txn := some (stg cls body) }
  { s with mem := Memory.store [] storeBase (wordsBytes
    ([head, BitVec.ofNat 32 (0x100 + cls), BitVec.ofNat 32 (16 + 4 * body.length), crc32 (wordsBytes body)] ++ body)) }
def tallyBody : List Word := [1, 0x00010170, 0xEA6003E8, 0x03042710, 0]
def txn5 : Txn := stg 5 tallyBody
def tabled : State := tbl 5 tallyBody
def fullStore : State := { up with tables := [⟨5, 0, storeBytes, 0, [], .inForce, storeBase, storeBytes, false⟩] }
def weighing : State := up.onBeamStat 0 fun x => { x with weightReady := true }

/-- Witness: TABLE_BEGIN of the longest table that fits and of one that does not; of a WEIGHT table with the bank free and in use;
TABLE_ABORT with a transaction and without; TABLE_COMMIT without. -/
theorem test_TableStagingCompletes :
    (up.ready 0 ∧
     (pk [5, 16773120]).sized 4 ∧
     1 ≤ (pk [5, 16773120]).bits 2 0 8 ∧ (pk [5, 16773120]).bits 2 0 8 ≤ 10 ∧
     (up.handed 0).mayTable 0 5 0 = true ∧
     ((up.handed 0).benchOf 0).txn = none ∧
     (pk [5, 16773120]).stray 2 0xFFFFFC00 = false ∧
     namesSub 5 = false ∧
     (pk [5, 16773120]).sub 2 8 = 0 ∧
     16 ≤ ((pk [5, 16773120]).w 3).toNat ∧ ((pk [5, 16773120]).w 3).toNat ≤ 16777216 ∧
     fitIn (up.handed 0).settleTables.storeTaken (up4K 16773120) storeBytes = some 0) ∧
    (fullStore.ready 0 ∧
     (fullStore.handed 0).mayTable 0 5 0 = true ∧
     ((fullStore.handed 0).benchOf 0).txn = none ∧
     fitIn (fullStore.handed 0).settleTables.storeTaken (up4K 16) storeBytes = none ∧
     namesSub 8 = true ∧
     (pk [0x108, 36]).sized 4 ∧
     (pk [0x108, 36]).sub 2 8 = 1 ∧
     (up.handed 0).mayTable 0 8 1 = true ∧
     (up.handed 0).beam[(1 : SubId)].stat.weightReady = false ∧ (up.handed 0).beam[(1 : SubId)].stat.switchPending = false ∧
     weighing.ready 0) ∧
    ((weighing.handed 0).mayTable 0 8 0 = true ∧
     ((weighing.handed 0).benchOf 0).txn = none ∧
     (weighing.handed 0).beam[(0 : SubId)].stat.weightReady = true ∧
     (pk [0x008, 36]).sub 2 8 = 0 ∧
     (pk [0x008, 36]).stray 2 0xFFFFFC00 = false ∧
     ((tabled.handed 0).benchOf 0).txn = some txn5 ∧
     (tabled.handed 0).mayTable 0 txn5.cls (txn5.sub.getD 0) = true ∧
     (pk [5]).sized 3 ∧
     (up.handed 0).holdsAny 0 = true ∧
     (pk [5]).stray 2 0xFF000000 = false) :=
  ⟨by unfold State.ready Packet.sized; decide +kernel, by unfold State.ready Packet.sized; decide +kernel, 
   by unfold Packet.sized; decide +kernel⟩

/-- The HASH table of the masks after reset; and the header test of R342. -/
def hashBody : List Word := 0 :: State.reset.gran.masks.map (BitVec.ofNat 32)
def headed (s : State) (x : Txn) : Bool :=
  let bs := (s.handed 0).settleTables.stagedBytes x
  let ws := bytesWords bs
  bw ws 0 == 0x5054424C && fieldOf (bw ws 1) 0 8 == x.cls && fieldOf (bw ws 1) 8 8 == 1 && (bw ws 2).toNat == x.length &&
    x.length % 4 == 0 && bw ws 3 == crc32 (bs.drop 16)

/-- Witness: a staged table of a wrong magic, one of a right header; a CURVE table of kind 2 and one of another under their leases; a
TALLY table inside its ranges; a HASH table in PROVISION with the Granary in use by kind 6 alone. -/
theorem test_TableCommitCompletes :
    ((tbl 5 tallyBody 0).ready 0 ∧
     (pk []).sized 2 ∧
     (((tbl 5 tallyBody 0).handed 0).benchOf 0).txn = some (stg 5 tallyBody) ∧
     ((tbl 5 tallyBody 0).handed 0).mayTable 0 5 0 = true ∧
     headed (tbl 5 tallyBody 0) (stg 5 tallyBody) = false ∧
     (tbl 5 tallyBody).ready 0 ∧
     (tbl 2 [2, 0]).ready 0 ∧
     (tbl 10 hashBody).ready 0 ∧
     (((tbl 5 tallyBody).handed 0).benchOf 0).txn = some (stg 5 tallyBody) ∧
     (((tbl 2 [2, 0]).handed 0).benchOf 0).txn = some (stg 2 [2, 0])) ∧
    ((((tbl 10 hashBody).handed 0).benchOf 0).txn = some (stg 10 hashBody) ∧
     ((tbl 5 tallyBody).handed 0).mayTable 0 5 0 = true ∧
     ((tbl 2 [2, 0]).handed 0).mayTable 0 2 0 = true ∧
     ((tbl 10 hashBody).handed 0).mayTable 0 10 0 = true ∧
     headed (tbl 5 tallyBody) (stg 5 tallyBody) = true ∧
     headed (tbl 2 [2, 0]) (stg 2 [2, 0]) = true ∧
     headed (tbl 2 [1, 0]) (stg 2 [1, 0]) = true ∧
     headed (tbl 10 hashBody) (stg 10 hashBody) = true ∧
     fieldOf (bw [2, 0] 0) 0 8 = 2 ∧
     ((tbl 2 [2, 0]).handed 0).settleTables.holdsWork 0 = true) ∧
    (fieldOf (bw [1, 0] 0) 0 8 ≠ 2 ∧
     ((tbl 2 [1, 0]).handed 0).settleTables.holdsAnyObs 0 = true ∧
     fieldOf (bw tallyBody 0) 0 9 = 1 ∧
     tallyBody.length = 1 + 4 * 1 ∧
     (talyEntry fun j => bw tallyBody (1 + 4 * 0 + j)).bad = false ∧
     hashBody.length = 12 ∧
     ((List.range 11).all fun k => !badMask k (fieldOf (bw hashBody (k + 1)) 0 30)) = true ∧
     (((tbl 10 hashBody).handed 0).settleTables.gran.regions.all fun r => r.kind == 6) = true ∧
     ((tbl 10 hashBody).handed 0).settleTables.mode = modeProvision ∧
     bytesWords (((tbl 10 hashBody).handed 0).settleTables.stagedBytes (stg 10 hashBody)) = [0x5054424C, 0x10A, 64,
        crc32 (wordsBytes hashBody)] ++ hashBody) :=
  ⟨by unfold State.ready Packet.sized; decide +kernel, by decide +kernel, by decide +kernel⟩

/-- Witness: TABLE_BEGIN of the shortest and the longest table, TABLE_COMMIT of a staged TALLY table, TABLE_ABORT of it, TABLE_QUERY. -/
theorem test_TableTransactions :
    (up.ready 0 ∧
     (pk [5, 16]).sized 4 ∧
     (pk [5, 16]).bits 2 0 8 = 5 ∧
     (up.handed 0).mayTable 0 5 0 = true ∧
     ((up.handed 0).benchOf 0).txn = none ∧
     (pk [5, 16]).stray 2 0xFFFFFC00 = false ∧
     (pk [5, 16]).sub 2 8 = 0 ∧
     ((pk [5, 16]).w 3).toNat = 16 ∧
     ((up.handed 0).settleTables.openTxn 0 5 0 16).isSome ∧
     ((pk [5, 16773120]).w 3).toNat ≤ 16777216 ∧
     ((up.handed 0).settleTables.openTxn 0 5 0 16773120).isSome ∧
     tabled.ready 0) ∧
    ((pk []).sized 2 ∧
     ((tabled.handed 0).benchOf 0).txn = some txn5 ∧
     (tabled.handed 0).mayTable 0 txn5.cls (txn5.sub.getD 0) = true ∧
     bw (bytesWords ((tabled.handed 0).settleTables.stagedBytes txn5)) 0 = 0x5054424C ∧
     fieldOf (bw (bytesWords ((tabled.handed 0).settleTables.stagedBytes txn5)) 1) 0 8 = txn5.cls ∧
     fieldOf (bw (bytesWords ((tabled.handed 0).settleTables.stagedBytes txn5)) 1) 8 8 = 1 ∧
     (bw (bytesWords ((tabled.handed 0).settleTables.stagedBytes txn5)) 2).toNat = txn5.length ∧
     txn5.length % 4 = 0 ∧
     bw (bytesWords ((tabled.handed 0).settleTables.stagedBytes txn5)) 3 = crc32 (((tabled.handed 0).settleTables.stagedBytes
        txn5).drop 16) ∧
     ((tabled.handed 0).settleTables.commitBody txn5 ((bytesWords ((tabled.handed 0).settleTables.stagedBytes txn5)).drop 4)) matches
        .done _ true ∧
     (pk [5]).sized 3 ∧
     (pk [5]).stray 2 0xFF000000 = false) :=
  ⟨by unfold State.ready Packet.sized; decide +kernel, by unfold Packet.sized; decide +kernel⟩

/-- OBS_DEFINE of sub-array 0 with one input block, and the module with it DEFINED, its tables there, and a plan staged. -/
def defWords : List Word := [0x30001060, 0x1, 60, 3, 0, 2000, 0, 0, 0, 512]
def planBody : List Byte := wordsBytes [0, 1, 0, 0, 0, 0]
def planned : State :=
  let s := (up.obsDefine (defineOf (pk defWords))).1.onBench 0 fun x => { x with txn := some ⟨3, some 0, 40, storeBase, 4096, 0⟩ }
  { s with mem := Memory.store [] storeBase (wordsBytes [0x5054424C, 0x0103, 40, crc32 planBody] ++ planBody) }
def armable : State :=
  let s := ((up.obsDefine (defineOf (pk defWords))).1.onTimeStat fun x => { x with state := 1 }).onSieve 0 fun x => { x with bankFull := Vector.replicate 2 true }
  let s := (s.onLoom 0 fun x => { x with plan := some ⟨0, false, 1, 0, [(0, 0)]⟩ }).onTileReg 0 fun x => { x with state := 1, logical := 0 }
  { s with fmt := { s.fmt with fmts := vset s.fmt.fmts 0 (some (.ingress ⟨false, 0xFFF, 0, 0, 0, 4, 125, 16, 0, false, false, false⟩)) } }
def aligned : State := (obs saAlign).onParser 0 fun x => { x with start := none }

/-- Witness: OBS_DEFINE that releases and one that defines, OBS_CHECK with and without a staged plan, OBS_ARM, OBS_START_AT,
OBS_STOP_AT in ALIGN and in OBSERVE. -/
theorem test_ObservationCommandsComplete :
    (up.ready 0 ∧
     (up.handed 0).holdsObs 0 0 = true ∧
     (up.handed 0).obsMode = true ∧
     (up.handed 0).saState 0 = saFree ∧
     (pk [0] 8).sized 3 0x08 ∧
     (pk [0] 8).flag 3 = true ∧
     (pk defWords).sized 12 0x08 ∧
     (pk defWords).flag 3 = false ∧
     (pk defWords).stray 4 0xFFFF0000 = false ∧
     (pk defWords).stray 5 0xFF800000 = false ∧
     (pk defWords).stray 6 0x0000F800 = false) ∧
    ((pk defWords).stray 11 0xFFFF0000 = false ∧
     (pk defWords).badTime 7 = false ∧
     (up.handed 0).badDefine (defineOf (pk defWords)) = false ∧
     (up.handed 0).tooManyStreams (defineOf (pk defWords)) = false ∧
     (up.handed 0).tooManyBeams (defineOf (pk defWords)) = false ∧
     ((up.handed 0).placeCoefs (defineOf (pk defWords))).isSome ∧
     ((up.handed 0).gainGroup (defineOf (pk defWords))).isSome ∧
     ((up.handed 0).placeRegions (defineOf (pk defWords))).isSome ∧
     (∀ k : ChanId, ((up.handed 0).chan k).stat.state ≠ gsFault) ∧
     (obs saDefined).ready 0 ∧
     (pk [0]).sized 3 0x10) ∧
    (((obs saDefined).handed 0).holdsAny 0 = true ∧
     ((obs saDefined).handed 0).saState 0 ≠ saFree ∧
     (pk [0]).stray 2 0xFFFFFFFC = false ∧
     (pk [0]).flag 4 = false ∧
     (pk [0] 0x10).sized 3 0x10 ∧
     (pk [0] 0x10).flag 4 = true ∧
     planned.ready 0 ∧
     ((planned.handed 0).stagedPlan 0 0).isSome ∧
     (planned.handed 0).saState 0 ≠ saFree ∧
     armable.ready 0 ∧
     (pk [0]).sized 3) ∧
    ((armable.handed 0).holdsObs 0 0 = true ∧
     (armable.handed 0).obsMode = true ∧
     (armable.handed 0).saState 0 = saDefined ∧
     (armable.handed 0).time.stat.state ≠ 0 ∧
     (armable.handed 0).armMissing 0 = 0 ∧
     ((armable.handed 0).budgets none).fails = false ∧
     (∀ k : ChanId, ((armable.handed 0).chan k).stat.state ≠ gsFrozen ∧ ((armable.handed 0).chan k).stat.state ≠ gsFault) ∧
     aligned.ready 0 ∧
     (pk [0, 5, 0, 0]).sized 6 ∧
     (aligned.handed 0).holdsObs 0 0 = true ∧
     (aligned.handed 0).saState 0 = saAlign) ∧
    ((pk [0, 5, 0, 0]).badTime 3 = false ∧
     (aligned.handed 0).time16 ≤ (pk [0, 5, 0, 0]).time 3 ∧
     (aligned.handed 0).parser[(0 : SubId)].start = none ∧
     (pk [0, 5, 0, 0] 2).sized 6 0x02 ∧
     (obs saObserve).ready 0 ∧
     ((obs saObserve).handed 0).saState 0 = saObserve ∧
     (pk [0, 5, 0, 0] 2).badPoint 3 = false ∧
     ((obs saObserve).handed 0).obs[(0 : SubId)].stopping = false ∧
     (((obs saObserve).handed 0).boundaryOf 0 (((obs saObserve).handed 0).pointSpan 0 ((pk [0, 5, 0, 0] 2).flag 1) ((pk [0, 5, 0,
        0] 2).point 3))).2 = false) :=
  ⟨by unfold State.ready Packet.sized; decide +kernel, by unfold State.ready Packet.sized; decide +kernel, 
   by unfold State.ready Packet.sized; decide +kernel, by unfold State.ready Packet.sized; decide +kernel, 
   by unfold State.ready Packet.sized; decide +kernel⟩

/-- With an ingress format of sub-array 0. -/
def sampled : State :=
  let s := obs saAlign
  { s with fmt := { s.fmt with fmts := vset s.fmt.fmts 0 (some (.ingress ⟨false, 0xFFF, 0, 0, 0, 4, 125, 16, 0, false, false, false⟩)) } }

/-- Witness: an epoch of 1 ns a sample, and a slot of one sample. -/
theorem test_IndexOfTimeIsLeast :
    0 < (obs saObserve).obs[(0 : SubId)].epoch.period32 ∧
    0 ≤ 1 ∧
    0 < sampled.slotLen 0 ∧
    0 < sampled.obs[(0 : SubId)].epoch.period32 :=
  by decide +kernel

/-- With input block 0 and a DELAY set of order 0; a DELAY_LOAD of input 0. -/
def delays : State :=
  let s := (obs saObserve).onCellar 0 fun x => { x with cfg := { x.cfg with blockMask := 1 } }
  { s with tables := [⟨9, 0, 28, 0, [0, 0, 0], .inForce, 0, 0, false⟩] }
def ldWords : List Word := [0x00010000, 5, 0, 0, 0, 0, 0]

/-- With weights ready and the other bank full; in a cross-fade so; not yet started so; the same bank in a DEFINED sub-array; and a ring of eight bays. -/
def weighted : State :=
  ((obs saObserve).onBeamStat 0 fun x => { x with weightReady := true }).onSievStat 0 fun x => { x with standbyValid := true }
def faded : State :=
  (weighted.onCellar 0 fun x => { x with cfg := { x.cfg with blockMask := 1 } }).onSieve 0 fun x =>
    { x with fades := [⟨0, 4, false⟩], ins := [(0, { fineN := 1 })] }
def unstarted : State := weighted.onParser 0 fun x => { x with start := none }
def banked : State := (obs saDefined).onSievStat 0 fun x => { x with standbyValid := true }
def deep : State := (obs saObserve).onCellar 0 fun x => { x with cfg := { x.cfg with depth := 8 } }

/-- Witness: each steering command in a state that takes it; CELLAR_TRIGGER of six spans, and CELLAR_RELEASE. -/
theorem test_SteeringCommandsComplete :
    ((obs saObserve).ready 0 ∧
     ((obs saObserve).handed 0).holdsObs 0 0 = true ∧
     (pk [0, 5, 0, 0] 2).sized 6 0x02 ∧
     ((obs saObserve).handed 0).active 0 = true ∧
     (pk [0, 5, 0, 0] 2).stray 2 0xFFFFFFFC = false ∧
     (pk [0, 5, 0, 0] 2).badPoint 3 = false ∧
     ((obs saObserve).handed 0).obs[(0 : SubId)].stopping = false ∧
     (((obs saObserve).handed 0).boundaryOf 0 (((obs saObserve).handed 0).pointSpan 0 ((pk [0, 5, 0, 0] 2).flag 1) ((pk [0, 5, 0,
        0] 2).point 3))).2 = false ∧
     ((obs saObserve).handed 0).ledger[(0 : SubId)].drains.length = 0 ∧
     (pk [0, 5, 0, 0]).sized 6 ∧
     ((obs saObserve).handed 0).saState 0 = saObserve ∧
     (pk [0, 5, 0, 0]).badTime 3 = false) ∧
    (((obs saObserve).handed 0).time16 ≤ (pk [0, 5, 0, 0]).time 3 ∧
     delays.ready 0 ∧
     (delays.handed 0).holdsObs 0 0 = true ∧
     (delays.handed 0).loadOrder 0 (pk ldWords) = some 0 ∧
     (pk ldWords).badFlags = false ∧
     (pk ldWords).stray 2 0xF00000FC = false ∧
     (pk ldWords).badTime 3 = false ∧
     ((delays.handed 0).delaySet 0 ((pk ldWords).bits 2 8 8)).isSome ∧
     (delays.handed 0).active 0 = true ∧
     (∀ k, k < (pk ldWords).bits 2 16 12 → (pk ldWords).stray (6 + k * loadWords 0) 0xFFFFF000 = false) ∧
     (∀ e ∈ loadEntries (pk ldWords) 0, e.1 ∈ (delays.handed 0).inputs 0) ∧
     ((loadEntries (pk ldWords) 0).map fun e => e.1).eraseDups.length = (loadEntries (pk ldWords) 0).length) ∧
    ((delays.handed 0).time16 ≤ (pk ldWords).time 3 ∧
     (delays.handed 0).sieve[(0 : SubId)].loads.length < 16 ∧
     (pk ldWords).len ≤ 1024 ∧
     (obs saDefined).ready 0 ∧
     (pk [0]).sized 3 0x04 ∧
     (pk [0]).flag 2 = false ∧
     (pk [0]).stray 2 0xFFFFFFFC = false ∧
     ((obs saDefined).handed 0).saState 0 = saDefined ∧
     ((obs saDefined).handed 0).holdsObs 0 0 = true ∧
     weighted.ready 0 ∧
     (weighted.handed 0).holdsObs 0 0 = true ∧
     (pk [0, 5, 0, 0] 4).sized 6 0x04) ∧
    ((pk [0, 5, 0, 0] 4).flag 2 = true ∧
     (weighted.handed 0).active 0 = true ∧
     (weighted.handed 0).beam[(0 : SubId)].stat.weightReady = true ∧
     (weighted.handed 0).beam[(0 : SubId)].stat.switchPending = false ∧
     (weighted.handed 0).time16 ≤ (pk [0, 5, 0, 0] 4).time 3 ∧
     banked.ready 0 ∧
     (banked.handed 0).holdsObs 0 0 = true ∧
     (banked.handed 0).saState 0 = saDefined ∧
     (banked.handed 0).sieve[(0 : SubId)].stat.standbyValid = true ∧
     (weighted.handed 0).sieve[(0 : SubId)].stat.standbyValid = true ∧
     (weighted.handed 0).sieve[(0 : SubId)].swapWaits ((weighted.handed 0).unformed 0) = false ∧
     (weighted.handed 0).sieve[(0 : SubId)].fades = []) ∧
    ((faded.handed 0).sieve[(0 : SubId)].fades ≠ [] ∧
     (faded.handed 0).sieve[(0 : SubId)].swapWaits ((faded.handed 0).unformed 0) = false ∧
     (faded.handed 0).active 0 = true ∧
     (faded.handed 0).sieve[(0 : SubId)].stat.standbyValid = true ∧
     faded.ready 0 ∧
     (faded.handed 0).holdsObs 0 0 = true ∧
     (weighted.handed 0).parser[(0 : SubId)].start.isSome = true ∧
     (unstarted.handed 0).parser[(0 : SubId)].start.isSome = false ∧
     (unstarted.handed 0).active 0 = true ∧
     (unstarted.handed 0).sieve[(0 : SubId)].swapWaits ((unstarted.handed 0).unformed 0) = false ∧
     unstarted.ready 0 ∧
     (pk [0, 0, 5, 0]).sized 6) ∧
    ((pk [0, 0, 5, 0]).stray 2 0xFFFFFEFC = false ∧
     ((pk [0, 0, 5, 0]).w 3).toNat &&& ((obs saObserve).handed 0).cellar[(0 : SubId)].cfg.blockMask.toNat = ((pk [0, 0, 5,
        0]).w 3).toNat ∧
     ((obs saObserve).handed 0).beatIndex 0 ≤ (pk [0, 0, 5, 0]).long 4 ∧
     (pk [0x5000, 0, 0, 0]).sized 6 ∧
     (pk [0x5000, 0, 0, 0]).stray 2 0xFFFF00FC = false ∧
     (deep.handed 0).obs[(0 : SubId)].stopping = false ∧
     (pk [0x5000, 0, 0, 0]).bits 2 8 4 ≤ 0 ∧
     (pk [0x5000, 0, 0, 0]).bits 2 8 4 + (pk [0x5000, 0, 0, 0]).bits 2 12 4 + 1 = 6 ∧
     deep.ready 0 ∧
     (deep.handed 0).holdsObs 0 0 = true ∧
     (deep.handed 0).saState 0 = saObserve ∧
     (deep.handed 0).front.capture.state = 0) ∧
    (6 + 2 ≤ (deep.handed 0).cellar[(0 : SubId)].cfg.depth.toNat ∧
     (deep.handed 0).spanAt 0 ((pk [0x5000, 0, 0, 0]).time 3) = some 0 ∧
     (deep.handed 0).cellar[(0 : SubId)].next ≤ 0 - 0 ∧
     (pk []).sized 2 ∧
     ((obs saObserve).handed 0).holdsWork 0 = true ∧
     ((obs saObserve).handed 0).start.recovery = false) :=
  ⟨by unfold State.ready Packet.sized; decide +kernel, by unfold State.ready; decide +kernel, 
   by unfold State.ready Packet.sized; decide +kernel, by unfold State.ready; decide +kernel, by unfold State.ready Packet.sized; decide +kernel, 
   by unfold State.ready Packet.sized; decide +kernel, by unfold Packet.sized; decide +kernel⟩

/-- Witness: STORE_WRITE of the last word of a copy with FIRST, STORE_ACTIVATE asked of a copy being written, STORE_QUERY. -/
theorem test_StoreCommandsComplete :
    (up.ready 0 ∧
     (pk [0x80000000, 1, 0]).sized 5 ∧
     (up.handed 0).storeLease 0 = true ∧
     (pk [0x80000000, 1, 0]).stray 2 0x7FFC0000 = false ∧
     (pk [0x80000000, 1, 0]).stray 3 0xFFF80000 = false ∧
     ((pk [0x80000000, 1, 0]).w 4).toNat % 4 = 0 ∧
     (pk [0x80000000, 1, 0]).bits 3 0 19 = 1 ∧
     (pk [0x80000000, 1, 0]).bits 2 0 18 + 1 ≤ 262144) ∧
    (((pk [0x80000000, 1, 0]).w 4).toNat + 4 * 1 ≤ copyBytes ∧
     (pk [0x80000000, 1, 0]).bit 2 31 = true ∧
     (pk [0]).sized 3 ∧
     (pk [0]).stray 2 0xFFFFFFFC = false ∧
     (pk [0]).bits 2 0 2 = 0 ∧
     (pk []).sized 2 ∧
     (up.handed 0).holdsAny 0 = true) :=
  ⟨by unfold State.ready Packet.sized; decide +kernel, by unfold Packet.sized; decide +kernel⟩

/-- With every Granary channel serving; one word at the base of SCRATCH; WORKSHOP. -/
def moved : State := { up with gran := { up.gran with chans := up.gran.chans.map fun c => { c with stat := { c.stat with state := gsActive } } } }
def bulkWords : List Word := [0, 1, 0xC0000000, 0x3EF]
def workshop : State := inMode modeWorkshop
/-- Foreman core 1 holds the locks of its SRAM and of every Granary quadrant. -/
def lockedOff : State := moved.onExch fun x => { x with locks := [1, 8, 9, 10, 11].map fun t => ⟨1, t, 0⟩ }

/-- Witness: a BULK_WRITE and a BULK_READ of one word of SCRATCH, a PEEK of one word, a POKE of one. -/
theorem test_BulkPeekAndPokeComplete :
    (moved.ready 0 ∧
     (pk bulkWords).len = 6 ∧
     bulkParams (pk bulkWords) = true ∧
     (moved.handed 0).areaOf 0 ((pk bulkWords).addr 4) (4 * 1) = .scratch ∧
     (moved.handed 0).holdsObsWork 0 = true ∧
     (moved.handed 0).dataPath = true ∧
     ((moved.handed 0).copyOut moverPort ((pk bulkWords).addr 4) (wordsBytes (SMap.getRange 0 ((moved.handed 0).benchOf 0).bulk 0
        1))).2 = none ∧
     ((up.handed 0).copyOut moverPort ((pk bulkWords).addr 4) (wordsBytes (SMap.getRange 0 ((up.handed 0).benchOf 0).bulk 0
        1))).2.isSome ∧
     (moved.handed 0).holdsAny 0 = true ∧
     ((moved.handed 0).copyIn moverPort ((pk bulkWords).addr 4) (4 * 1)).2.2 = none) ∧
    (((moved.handed 0).copyIn moverPort ((pk bulkWords).addr 4) (4 * 1)).2.1.length = 4 * 1 ∧
     workshop.ready 0 ∧
     (workshop.handed 0).holdsWork 0 = true ∧
     (workshop.handed 0).mode = modeWorkshop ∧
     (pk [0, 1, 1]).badFlags = false ∧
     (pk [0, 1, 1]).meets = .nothing ∧
     (pk bulkWords).sized 6 ∧
     (pk [0, 1, 1]).badAddr 2 = false ∧
     (pk [0, 1, 1]).addr 2 % 4 = 0 ∧
     (pk [0, 1, 1]).len = 5) ∧
    ((pk [0, 1, 1]).stray 4 0xFFFFFC00 = false ∧
     (pk [0, 1, 1]).bits 4 0 10 = 1 ∧
     4 ≤ (pk [0, 1, 1]).len ∧ (pk [0, 1, 1]).len ≤ 1024 ∧
     (([0x70, 0xF1, 0xF2] : List Nat).all fun op => !workshop.busLocked op (pk [0, 1, 1]) && !moved.busLocked op (pk bulkWords)) =
        true ∧
     lockedOff.ready 0 ∧
     lockedOff.busLocked 0x70 (pk bulkWords) = true ∧
     lockedOff.busLocked 0xF1 (pk [0x20000000, 0, 1]) = true ∧
     lockedOff.busLocked 0xF2 (pk [0x20000000, 0, 1]) = true) :=
  ⟨by unfold State.ready; decide +kernel, by unfold State.ready Packet.sized; decide +kernel, 
   by unfold State.ready; decide +kernel⟩

/-- Witness: the last byte of the Shelf. -/
theorem test_BusWritesAreVisible :
    Memory.wf up.mem = true ∧
    up.targetOf 0 0x301FFFFFF = some (4, 0x301FFFFFF) ∧
    1 ≤ 4 ∧ 4 ≤ 4 ∧
    ((allFin 2).all fun b => up.move.exch.down[b].isEmpty) = true :=
  by decide +kernel

/-- A job over 64 bytes of SCRATCH into the 4 KiB after them. -/
def baleWords : List Word := [0xC0000000, 0x3EF, 64, 0, 0xC0001000, 0x3EF, 4096, 0, 0x1030]
def bopt : BaleOptions := ((baleOptions 0x1030).getD ⟨0, false, 12, 16⟩)
def busyBale : State := { moved with move := { moved.move with baleRun := some ⟨1, 5, 2, 3, [], false⟩ } }
def unbaleWords : List Word := [0xC0000000, 0x3EF, 64, 0, 0xC0001000, 0x3EF, 4096, 0, 0]

/-- Witness: BALE of nothing and UNBALE of a stream of wrong magic, within SCRATCH. -/
theorem test_BalerJobsComplete :
    (moved.ready 0 ∧
     (pk baleWords).sized 11 ∧
     (moved.handed 0).areaOf 0 ((pk baleWords).addr 6) ((pk baleWords).long 8) = .scratch ∧
     (moved.handed 0).holdsObsWork 0 = true ∧
     (moved.handed 0).dataPath = true ∧
     (moved.handed 0).areaOf 0 ((pk baleWords).addr 2) ((pk baleWords).long 4) = .scratch ∧
     (pk baleWords).badAddr 2 = false ∧
     (pk baleWords).badAddr 6 = false ∧
     (pk baleWords).stray 5 0xFFFF0000 = false ∧
     (pk baleWords).stray 9 0xFFFF0000 = false) ∧
    ((moved.handed 0).islandOn balerIsland = true ∧
     moved.busLocked 0xB0 (pk baleWords) = false ∧
     (baleOptions ((pk baleWords).w 10)).isSome ∧
     (pk unbaleWords).w 10 = 0 ∧
     (pk unbaleWords).sized 11 ∧
     moved.move.baleRun = none ∧
     (moved.handed 0).balerBusy 0 = false ∧
     (busyBale.handed 0).move.baleRun = some ⟨1, 5, 2, 3, [], false⟩ ∧
     (busyBale.handed 0).balerBusy 0 = true ∧
     busyBale.ready 0) ∧
    (busyBale.busLocked 0xB0 (pk baleWords) = false ∧
     (1 : BenchId) ≠ 0 ∧
     ((moved.handed 0).baleJob bopt 0x3EFC0000000 64 0x3EFC0001000 4096).2 matches .ok 64 _ ∧
     ((moved.handed 0).baleJob bopt 0x3EFC0000000 0 0x3EFC0001000 4096).2 matches .ok 0 _ ∧
     ((moved.handed 0).baleJob bopt 0x3EFC0000000 64 0x3EFC0001000 31).2 matches .nospace ∧
     (baleOptions ((pk baleWords).w 10)) = some bopt ∧
     (pk baleWords).addr 2 = 0x3EFC0000000 ∧ (pk baleWords).long 4 = 64 ∧ (pk baleWords).addr 6 =
        0x3EFC0001000 ∧ (pk baleWords).long 8 = 4096 ∧
     ((moved.handed 0).baleJob ((baleOptions ((pk baleWords).w 10)).getD ⟨0, false, 12,
        16⟩) ((pk baleWords).addr 2) ((pk baleWords).long 4) ((pk baleWords).addr 6) ((pk baleWords).long 8)).2 matches .ok _ _ ∧
     ((moved.handed 0).unbaleJob ((pk unbaleWords).addr 2) ((pk unbaleWords).long 4) ((pk unbaleWords).addr 6) ((pk unbaleWords).long
        8)).2 matches .other _) :=
  ⟨by unfold State.ready Packet.sized; decide +kernel, by unfold State.ready Packet.sized; decide +kernel, 
   by decide +kernel⟩

/-- Witness: a job of one byte begins; one whose end has come. -/
theorem test_BalerRunAndEnd :
    0 < 1 ∧
    up.move.baleRun = none ∧
    up.inReset = false ∧
    busyBale.move.baleRun = some ⟨1, 5, 2, 3, [], false⟩ ∧
    5 ≤ busyBale.now :=
  by decide +kernel

/-- Witness: widths at both ends of their range and a block of one byte. -/
theorem test_BalerRoundTrip :
    9 ≤ 9 ∧ 9 ≤ 16 ∧
    9 ≤ 16 ∧ 16 ≤ 16 ∧
    ([65] : List Byte) ≠ [] ∧
    ([65] : List Byte).length ≤ 2 ^ 24 ∧
    1 ≤ 1 :=
  by decide +kernel

/-- WORKSHOP with a sub-array still in ALIGN. -/
def busyTest : State := workshop.onObs 0 fun x => { x with state := saAlign }

/-- Witness: each unit of SELFTEST in WORKSHOP. -/
theorem test_SelftestsComplete :
    workshop.ready 0 ∧
    (workshop.handed 0).holdsWork 0 = true ∧
    (workshop.handed 0).mode = modeWorkshop ∧
    (workshop.handed 0).noneActive = true ∧
    (([1, 2, 3, 4, 5] : List Word).all fun u => decide ((pk [u, 0, 0]).len = 5 ∧ (pk [u, 0, 0]).badFlags = false ∧ (pk [u, 0,
       0]).stray 2 0xFFFFFF00 = false ∧ (pk [u, 0, 0]).bits 2 0 8 = u.toNat ∧ (pk [u, 0, 0]).stray 4 0xFFFFFC00 = false ∧ (pk [u, 0,
       0]).long 3 = 0 ∧ (pk [u, 0, 0]).w 4 = 0)) = true ∧
    busyTest.ready 0 ∧
    (busyTest.handed 0).noneActive = false ∧
    (busyTest.handed 0).mode = modeWorkshop :=
  by unfold State.ready; decide +kernel

/-- A lane in a state, and the module with it as lane 0. -/
def lst (st : BitVec 4) : Lane := { Lane.cold 0 with stat := { (Lane.cold 0).stat with state := st } }
def ln (x : Lane) : State := up.onLane 0 fun _ => x

/-- Lane 0 UP, expecting SEQ 5 with a NAK pending, a frame just ended; and with frames 4 to 6 held; in SYNC so, and in SYNC
with a tag to expect. -/
def ended (f : EndedFrame) : State := ln { lst lsUp with ended := some f, expect := 5, fresh := false, nakPending := true }
def holding : State := ln { lst lsUp with held := [⟨4, []⟩, ⟨5, []⟩, ⟨6, []⟩] }
def syncHolding : State := ln { lst lsSync with held := [⟨4, []⟩, ⟨5, []⟩, ⟨6, []⟩] }
def tagged : State := (ln (lst lsSync)).onOctet 0 fun o => { o with cfg := { o.cfg with expectTag0 := 7 } }

/-- Witness: good frames expected, first after SYNC, the newest and the oldest duplicate, the nearest ahead of a gap,
and a bad one; ACK and NAK of a held frame and of none; LINK in SYNC with the right and a wrong tag, and RETRAIN_REQ while UP. -/
theorem test_FramesAcksAndLinks :
    (((ended ⟨5, [], .good⟩).laneOf 0).ended = some ⟨5, [], .good⟩ ∧
     ((ended ⟨9, [], .good⟩).laneOf 0).ended = some ⟨9, [], .good⟩ ∧
     ((ended ⟨4, [], .good⟩).laneOf 0).ended = some ⟨4, [], .good⟩ ∧
     ((ended ⟨2053, [], .good⟩).laneOf 0).ended = some ⟨2053, [], .good⟩ ∧
     ((ended ⟨5, [], .crcWrong⟩).laneOf 0).ended = some ⟨5, [], .crcWrong⟩ ∧
     ((ended ⟨5, [], .good⟩).laneOf 0).expect = 5 ∧
     ((ended ⟨4, [], .good⟩).laneOf 0).fresh = false ∧
     (((ended ⟨9, [], .good⟩).onLane 0 fun x => { x with fresh := true }).laneOf 0).fresh = true ∧
     ((5 : BitVec 12) - 1 - 4).toNat < 2048 ∧
     ((5 : BitVec 12) - 1 - 2053).toNat = 2047) ∧
    (2048 ≤ ((5 : BitVec 12) - 1 - 2052).toNat ∧
     ((ended ⟨2052, [], .good⟩).laneOf 0).nakPending = true ∧
     holding.receiving 0 = true ∧
     (holding.laneOf 0).held = [⟨4, []⟩] ++ ⟨5, []⟩ :: [⟨6, []⟩] ∧
     (5 : BitVec 12) = blkSeq 0x500 ∧
     (∀ g ∈ ([⟨4, []⟩] : List TxFrame), g.seq ≠ 5) ∧
     1 < (holding.cfgOf 0).replayLimit.toNat ∧
     (∀ g ∈ (holding.laneOf 0).held, g.seq ≠ blkSeq 0x700) ∧
     (holding.laneOf 0).isUp = true ∧
     syncHolding.receiving 0 = true) ∧
    ((syncHolding.laneOf 0).isUp = false ∧
     (syncHolding.laneOf 0).held = [⟨4, []⟩] ++ ⟨5, []⟩ :: [⟨6, []⟩] ∧
     (ln (lst lsSync)).receiving 0 = true ∧
     ((ln (lst lsSync)).laneOf 0).st = lsSync ∧
     (ln (lst lsSync)).expectTag 0 = 0xFF ∧
     ((ln (lst lsSync)).laneOf 0).held = [] ∧
     blkField (1 <<< 28) 28 2 = 1 ∧
     blkField (2 <<< 28) 28 2 = 2 ∧
     tagged.expectTag 0 = 7 ∧
     tagged.expectTag 0 ≠ blkField (1 <<< 28) 8 8) ∧
    ((tagged.laneOf 0).tagRaised = false ∧
     tagged.inReset = false ∧
     tagged.receiving 0 = true ∧
     (tagged.laneOf 0).st = lsSync ∧
     ((ln (lst lsUp)).laneOf 0).st = lsUp ∧
     (ln (lst lsUp)).receiving 0 = true ∧
     blkField (3 <<< 28) 28 2 = 3 ∧
     (ln (lst lsUp)).inReset = false) :=
  ⟨by decide +kernel, by decide +kernel, by decide +kernel, by decide +kernel⟩

/-- Lane 0 in TRAIN, having applied request 3; waiting for the status of its own request 0; and in a scan of one point. -/
def applied : State := ln { lst lsTrain with applied := some 3 }
def asking : State := ln { lst lsTrain with waiting := true, search := .presets [] }
def scanning : State := ln { lst lsUp with eye := { (lst lsUp).eye with status := 1 }, eyeLeft := [(-32, 127)] }

/-- Witness: requests new and applied at both ends of the presets, the status that opens the search,
a request unanswered for 10 us and a search past 450 ms; each state of a lane past its time; a scan of one point. -/
theorem test_TrainingTimeoutsAndEyeScan :
    ((ln (lst lsTrain)).receiving 0 = true ∧
     ((ln (lst lsTrain)).laneOf 0).st = lsTrain ∧
     (3 : BitVec 8).toNat = blkField 0x03010000 24 8 ∧
     (0x03010000 : BitVec 64).getLsbD 20 = false ∧
     ((ln (lst lsTrain)).laneOf 0).peerDone = false ∧
     ((ln (lst lsTrain)).laneOf 0).applied ≠ some 3 ∧
     blkField 0x03010000 16 3 = 1 ∧
     blkField 0x03050000 16 3 = 5 ∧
     (applied.laneOf 0).applied = some 3 ∧
     applied.receiving 0 = true ∧
     (applied.laneOf 0).st = lsTrain ∧
     (asking.laneOf 0).waiting = true) ∧
    (blkField 0x00010000 24 8 = (asking.laneOf 0).reqNum.toNat ∧
     (asking.laneOf 0).search = .presets [] ∧
     asking.skipSearch 0 0 = false ∧
     asking.receiving 0 = true ∧
     (asking.laneOf 0).st = lsTrain ∧
     (asking.laneOf 0).reqAt + 10000 ≤ asking.now ∧
     (asking.laneOf 0).search ≠ .done ∧
     (asking.laneOf 0).stepAt + 450000000 < asking.now ∧
     (asking.laneOf 0).peerDone = false ∧
     ((ln (lst lsWait)).laneOf 0).st = lsWait ∧
     ((ln { lst lsUp with huntAt := some 0 }).laneOf 0).huntAt = some 0 ∧
     (ln (lst lsUp)).isEth 0 = false) ∧
    (0 + 1000000 < up.now ∧
     up.inReset = false ∧
     (ln (lst lsWait)).stepLimit 0 = some 20000000 ∧
     ((ln (lst lsWait)).laneOf 0).stepAt + 20000000 < up.now ∧
     (ln (lst lsSync)).stepLimit 0 = some 1000000 ∧
     (ln (lst lsUp)).laneCanRun 0 = true ∧
     ((ln { lst lsRetrain with retrainAt := some 0 }).laneOf 0).retrainAt = some 0 ∧
     0 + 200000000 < up.now ∧
     ((ln (lst lsFault)).laneOf 0).st = lsFault ∧
     ((ln (lst lsFault)).laneOf 0).faultAt + 10000000000 ≤ up.now ∧
     (scanning.laneOf 0).eye.status = 1 ∧
     (scanning.laneOf 0).eyeLeft = (-32, 127) :: []) :=
  ⟨by decide +kernel, by decide +kernel, by decide +kernel⟩

/-- Lane 0 hunting after some valid headers, in lock after 15 invalid ones, so again in a RETRAIN, and UP with something of every timed block due. -/
def hunting (n : Nat) : State := ln { lst lsHunt with valid := n, rxSinceFill := 2047 }
def locked : State := ln { lst lsUp with stat := { (lst lsUp).stat with blockLock := true }, winBad := 15 }
def retraining : State := locked.onLane 0 fun x => { x with stat := { x.stat with state := lsSync }, retrainAt := some 0 }
def timed : State := ln { lst lsUp with lastAck := some 1, held := [⟨4, []⟩], rxSinceFill := 2048 }

/-- Witness: headers in HUNT and in LOCK at both ends of their counts; each timed block due. -/
theorem test_BlockLockAndTimedBlocks :
    ((hunting 62).receiving 0 = true ∧
     ((hunting 62).laneOf 0).rxSinceFill < 2048 ∧
     ((hunting 62).laneOf 0).stat.blockLock = false ∧
     (1 : BitVec 2) = 1 ∧
     ((hunting 62).laneOf 0).valid + 1 < 64 ∧
     ((hunting 63).laneOf 0).valid + 1 = 64 ∧
     (locked.laneOf 0).stat.blockLock = true ∧
     (locked.laneOf 0).winBad + 1 = 16 ∧
     (locked.laneOf 0).st = lsUp ∧ (locked.laneOf 0).retrainAt = none ∧
     (retraining.laneOf 0).retrainAt ≠ none) ∧
    ((retraining.laneOf 0).stat.blockLock = true ∧
     (retraining.laneOf 0).winBad + 1 = 16 ∧
     retraining.receiving 0 = true ∧
     locked.receiving 0 = true ∧
     (locked.laneOf 0).rxSinceFill < 2048 ∧
     (¬ ((0 : BitVec 2) = 1 ∨ (0 : BitVec 2) = 2)) ∧
     timed.isEth 0 = false ∧
     (timed.laneOf 0).st = lsUp ∧
     (timed.laneOf 0).ackAt + 1000 ≤ timed.now ∧
     (timed.laneOf 0).lastAck = some 1) ∧
    ((timed.laneOf 0).nakPending = false ∧
     (timed.laneOf 0).held ≠ [] ∧
     (timed.laneOf 0).releaseAt + 2000 ≤ timed.now ∧
     (timed.laneOf 0).requests + 1 < (timed.cfgOf 0).replayLimit.toNat ∧
     timed.receiving 0 = true ∧
     1024 * 66 * 100 ≤ (timed.now - (timed.laneOf 0).fillAt) * 10625 ∧
     2048 ≤ (timed.laneOf 0).rxSinceFill ∧
     timed.inReset = false) :=
  ⟨by decide +kernel, by decide +kernel, by decide +kernel⟩

/-- Lane 96 of an Ethernet egress octet in a state; lane 0 UP in an octet made Ethernet; the port of lane
96 in work, and looped with what it sent; and a pause frame. -/
def eth (st : BitVec 4) : State := up.onLane 96 fun x => { x with stat := { x.stat with state := st } }
def portUp : State := (eth lsUp).onOctet 12 fun o => { o with cfg := { o.cfg with enable := true, laneEn := 0xFF, ethLayout := 0 } }
def loopedP (sent : List Output) : State :=
  { portUp.onOctet 12 (fun o => { o with cfg := { o.cfg with loopback := true } }) with out := sent }
def ethIn : State := (ln (lst lsUp)).onOctet 0 fun o => { o with cfg := { o.cfg with pers := true } }
def pauseFr : List Byte := fr ([0x01, 0x80, 0xC2, 0, 0, 1] ++ List.replicate 6 0 ++ [0x88, 0x08, 0, 1])

/-- Witness: an egress lane in each state, an ingress lane, a port in work and not, looped with a frame sent and with none,
and frames too short, of 64 bytes with and without the right FCS, and a pause frame. -/
theorem test_EthernetLaneEvents :
    ((eth lsHunt).isEth 96 = true ∧
     ((eth lsHunt).laneOf 96).st = lsHunt ∧
     ((eth lsTrain).laneOf 96).st = lsTrain ∧
     ((eth lsUp).laneOf 96).st = lsUp ∧
     (eth lsUp).laneCanRun 96 = true ∧
     (eth lsUp).isEgress 96 = true ∧
     (⟨3, 2, 1⟩ : FecReport).uncorrectable ≠ 0 ∧
     (⟨3, 2, 0⟩ : FecReport).uncorrectable = 0 ∧
     ([] : List Byte).length < 64 ∧
     otherFr.length = 64) ∧
    (fcsOk otherFr = true ∧
     fcsOk (List.replicate 64 0) = false ∧
     isPause pauseFr = true ∧
     isPause otherFr = false ∧
     fcsOk pauseFr = true ∧
     portUp.isEth 96 = true ∧
     portUp.ethPortRuns (portUp.portOf 96) = true ∧
     portUp.looped 96 = false ∧
     (eth lsUp).ethPortRuns ((eth lsUp).portOf 96) = false ∧
     (eth lsUp).looped 96 = false) ∧
    ((loopedP []).ethPortRuns ((loopedP []).portOf 96) = true ∧
     (loopedP []).looped 96 = true ∧
     (loopedP []).loopRest ((loopedP []).portOf 96) (framesOn ((loopedP []).portOf 96)) = [] ∧
     (loopedP [.ethFrame 96 [7]]).loopRest 96 (framesOn 96) = [7] :: [] ∧
     (loopedP [.ethFrame 96 [7]]).portOf 96 = 96 ∧
     ethIn.isEth 0 = true ∧
     ethIn.isEgress 0 = false ∧
     (ethIn.laneOf 0).st = lsUp) :=
  ⟨by decide +kernel, by decide +kernel, by decide +kernel⟩

/-- Input block 0 with one coarse channel, fed by octet 0 through packets of one sample; a packet of KIND, VERSION and length;
what such a packet parses to; and what the parser makes of one. -/
def fmtI : FmtIn := ⟨false, 0xFFF, 0, 0, 0, 1, 1, 1, 0, false, false, false⟩
def ing : State :=
  let s := (obs saObserve).onCellar 0 fun x => { x with cfg := { x.cfg with blockMask := 1 } }
  let s := s.onSieve 0 fun x => { x with cfg := { x.cfg with coarseChannels := 1 } }
  let s := s.onParser 0 fun x => { x with since := [(127, 1)] }
  { s with fmt := { s.fmt with fmts := vset s.fmt.fmts 0 (some (.ingress fmtI)) } }
def pkt (kind version len : Nat) : List Byte :=
  [BitVec.ofNat 8 kind, BitVec.ofNat 8 version, 0, 127, 0, 0, 0, 0, 0, 0, 0, 0, 0, 255, 255, 255] ++ List.replicate (len - 16) 0
def prs (kind len : Nat) : Parsed := ⟨fmtI, 0, 0, 127, 0, 0, 2 ^ 24 - 1, pkt kind 1 len⟩

def parsed (bs : List Byte) (kind : Nat) : Discard ⊕ Parsed :=
  match (ing.takeArrival 0 bs).parsePacket 0 bs kind with
  | .error d => .inl d
  | .ok p => .inr p

/-- With every packet FUTURE since the start; and with a packet queued at the port of lane 96, which is UP; that port paced
with some tokens; the same as a PLF lane; and a producer of format 5 waiting. -/
def jumpy : State := ing.onParser 0 fun x => { x with future := some 0 }
def outP : State :=
  let s := portUp
  { s with fmt := { s.fmt with addr := List.replicate 3072 0
                               ports := vmod s.fmt.ports 96 fun p => { p with queue := [⟨0, 0, 0, [1]⟩] } } }
def paced (tokens : Nat) : State :=
  { outP with fmt := { outP.fmt with addr := List.replicate 3072 0x00640001
                                     ports := vmod outP.fmt.ports 96 fun p => { p with tokens := tokens, at' := outP.now } } }
def plfP : State := outP.onOctet 12 fun o => { o with cfg := { o.cfg with pers := false } }
def waitingP (told : Bool) (since : Nat) : State := { up with fmt := { up.fmt with stalls := [⟨5, since, told⟩] } }

/-- Witness: a sample packet during a supply event, one that passes every test,
one of a wrong VERSION; a status packet that passes and a short one; FUTURE for 1 s; a packet at the head of an Ethernet port
without pacing, paced with too few tokens and with enough, and of a PLF lane; stalls of 100 ms and 101 ms, told and not. -/
theorem test_PacketsInAndOut :
    ((ing.isEgress 0) = false ∧
     { ing with bell := { ing.bell with event := some { start := 0 } } }.riding = true ∧
     ing.riding = false ∧
     parsed (pkt 1 2 26) 1 = .inl .malformed ∧
     parsed (pkt 1 1 26) 1 = .inr (prs 1 26) ∧
     (prs 1 26).fmt.chanBase ≤ (prs 1 26).chan ∧
     (prs 1 26).chan - (prs 1 26).fmt.chanBase < ing.coarse 0 ∧
     (prs 1 26).count % (prs 1 26).fmt.samples = 0 ∧
     ing.parser[(prs 1 26).sub].start = some 0 ∧
     ing.active (prs 1 26).sub = true ∧
     0 ≤ (prs 1 26).count ∧
     ing.parser[(prs 1 26).sub].next ≤ (prs 1 26).count / ing.slotLen (prs 1 26).sub) ∧
    ((prs 1 26).count < ing.parser[(prs 1 26).sub].front + 2 ^ 24 ∧
     ((packetCells (prs 1 26) (ing.coarse 0) (ing.slotLen 0)).all fun e => decide (SMap.get none (ing.parser[(0 : SubId)].slot ((prs
        1 26).count / ing.slotLen 0)).cells e.1 = none)) = true ∧
     parsed [] 2 = .inl .malformed ∧
     parsed (pkt 2 1 80) 2 = .inr (prs 2 80) ∧
     (prs 2 80).fmt.statusEvery ≤ SMap.get 0 ing.parser[(prs 2 80).sub].since ((prs 2 80).block * 128 + (prs 2 80).group) ∧
     jumpy.parser[(0 : SubId)].future = some 0 ∧
     jumpy.parser[(0 : SubId)].jumped = false ∧
     0 + 1000000000 ≤ jumpy.now ∧
     jumpy.inReset = false ∧
     outP.fmt.ports[(96 : LaneId)].queue = ⟨0, 0, 0, [1]⟩ :: [] ∧
     outP.portOpen 96 = true ∧
     outP.isEth 96 = true) ∧
    (fieldOf (outP.portWord (96 : LaneId).val 7) 0 16 = 0 ∧
     outP.fmt.blocked = [] ∧
     fieldOf ((paced 0).portWord (96 : LaneId).val 7) 0 16 ≠ 0 ∧
     (paced 0).fmt.ports[(96 : LaneId)].tokensAt (fieldOf ((paced 0).portWord (96 : LaneId).val 7) 0 16) (fieldOf ((paced 0).portWord
        (96 : LaneId).val 7) 16 16) (paced 0).now < ((paced 0).frameOf 96 ⟨0, 0, 0, [1]⟩).length * 80 ∧
     (paced 0).portOpen 96 = true ∧
     (paced 0).fmt.ports[(96 : LaneId)].queue = ⟨0, 0, 0, [1]⟩ :: [] ∧
     ((paced 100000).frameOf 96 ⟨0, 0, 0, [1]⟩).length * 80 ≤ (paced 100000).fmt.ports[(96 : LaneId)].tokensAt (fieldOf ((paced
        100000).portWord (96 : LaneId).val 7) 0 16) (fieldOf ((paced 100000).portWord (96 : LaneId).val 7) 16 16) (paced 100000).now ∧
     plfP.fmt.ports[(96 : LaneId)].queue = ⟨0, 0, 0, [1]⟩ :: [] ∧
     plfP.portOpen 96 = true ∧
     plfP.isEth 96 = false ∧
     (pad8 [1]).length ≤ 1024 ∧
     (plfP.laneOf 96).isUp = true) ∧
    (heldBlocks (plfP.laneOf 96).held + (pad8 [1]).length / 8 + 2 ≤ 512 ∧
     plfP.fmt.blocked = [] ∧
     (waitingP false 0).fmt.stalls = [⟨5, 0, false⟩] ∧
     0 + 101 * 1000000 ≤ (waitingP false 0).now ∧
     (waitingP false 0).inReset = false ∧
     (waitingP true 0).fmt.stalls = [⟨5, 0, true⟩] ∧
     (waitingP false 999999999999).fmt.stalls = [⟨5, 999999999999, false⟩] ∧
     (waitingP false 0).now < 999999999999 + 101 * 1000000 ∧
     100 ≤ 100) :=
  ⟨by decide +kernel, by decide +kernel, by decide +kernel, by decide +kernel⟩

/-- With a passed slot; with a cross-fade in a sub-array of no inputs; with a bypassed frame at slice 3; with a commit passed. -/
def slotted : State := (obs saObserve).onParser 0 fun x => { x with passed := [(⟨0, []⟩, [0])] }
def fading : State := (obs saObserve).onSieve 0 fun x => { x with fades := [⟨0, 4, false⟩] }
def assayed : State :=
  let s := obs saObserve
  { s with front := { s.front with assayIn := vset s.front.assayIn 3 [⟨0, 0, 0, 0, false, 0, []⟩] } }
def committed (n0 : Nat) : State :=
  let s := obs saObserve
  { s with front := { s.front with assay := vmod s.front.assay 0 fun a =>
    { a with gainAt := some n0, stat := { a.stat with gainPending := true } } } }
def gained : State := committed 32768

/-- Witness: a slot that slice 0 has still to take; a cross-fade formed by every stream; a frame at the Assay; gains to commit in and
outside ALIGN and OBSERVE, a commit pending and passed, and a span boundary passed. -/
theorem test_FrontEndSteps :
    (slotted.parser[(0 : SubId)].passed.find? (fun e => e.2.contains 0) = some (⟨0, []⟩, [0]) ∧
     slotted.active 0 = true ∧
     slotted.islandOn (sliceIsland 0) = true ∧
     slotted.sieve[(0 : SubId)].returned.contains 0 = false ∧
     fading.sieve[(0 : SubId)].fades = ⟨0, 4, false⟩ :: [] ∧
     fading.active 0 = true ∧
     fading.allFormed 0 (0 + 4) = true ∧
     assayed.front.assayIn[(3 : SliceId)] = ⟨0, 0, 0, 0, false, 0, []⟩ :: [] ∧
     (obs saObserve).front.assay[(0 : SubId)].stat.gainPending = false) ∧
    ((obs saObserve).active 0 = true ∧
     up.active 0 = false ∧
     up.front.assay[(0 : SubId)].stat.gainPending = false ∧
     (committed 0).front.assay[(0 : SubId)].gainAt = some 0 ∧
     gained.front.assay[(0 : SubId)].stat.gainPending = true ∧
     gained.front.assay[(0 : SubId)].gainAt = some 32768 ∧
     gained.assayPast 0 32768 = true ∧
     gained.active 0 = true ∧
     gained.assayPast 0 (gained.front.assay[(0 : SubId)].span * 32768) = true) :=
  ⟨by decide +kernel, by decide +kernel⟩

/-- Witness: a bypassed frame, and curves of the most levels of each format. -/
theorem test_MarkerCodeStandsForInvalid :
    (⟨0, 0, 0, 0, false, 0, []⟩ : AssayIn).valid = false ∧
    (⟨true, List.range 127⟩ : Curve).ts.length ≤ 127 ∧
    (⟨false, List.range 7⟩ : Curve).ts.length ≤ 7 :=
  by decide +kernel

/-- A kernel of one instruction, generator 0 reading and 1 writing, and engine 31 at it; the engine; with a frame in its queue; with
a frame in slot 0. -/
def krn (op : Nat) : Kernel := ⟨100, 6, 100, 0, 1, [], [BitVec.ofNat 32 op ||| 0x1000, 0, 0, 0], []⟩
def mill (op : Nat) : State := up.onEngine 31 fun x => { x with kernel := some (krn op), stat := { x.stat with state := 1 } }
def engOf (op : Nat) : Engine := (mill op).engine 31
def frame : Frame := ⟨0, 5, 6, 7, false, List.replicate 64 (1, 2)⟩
def fed : Engine := { engOf 8 with queue := [frame] }
def full : Engine := (engOf 9).onSlot 0 fun m => { m with frame := some frame }
def ends (r : MillRes) : Bool :=
  match r with
  | .done _ none _ => true
  | _ => false
def sends (r : MillRes) : Bool :=
  match r with
  | .done _ (some _) _ => true
  | _ => false

/-- Witness: an engine at each opcode, a fourth and a fifth loop level, a frame to load and none,
a slot with a finished frame and none, an input awaited for 4096 cycles. -/
theorem test_MillInstructions :
    (((mill 0).engine 31).kernel = some (krn 0) ∧
     ((mill 1).engine 31).kernel = some (krn 1) ∧
     ((mill 2).engine 31).kernel = some (krn 2) ∧
     ((mill 3).engine 31).kernel = some (krn 3) ∧
     ((mill 4).engine 31).kernel = some (krn 4) ∧
     ((mill 8).engine 31).kernel = some (krn 8) ∧
     ((mill 9).engine 31).kernel = some (krn 9) ∧
     ((mill 10).engine 31).kernel = some (krn 10) ∧
     ((mill 16).engine 31).kernel = some (krn 16) ∧
     ((mill 17).engine 31).kernel = some (krn 17) ∧
     ((mill 18).engine 31).kernel = some (krn 18) ∧
     ((mill 0).engine 31).stat.state = 1) ∧
    (((mill 0).engine 31).pc < (krn 0).count ∧
     ([0, 1, 2, 3, 4, 8, 9, 10, 16, 17, 18].all fun op => ((krn op).instr 0).legal && ((krn op).instr 0).op == op) = true ∧
     (((mill 16).onEngine 31 fun x => { x with loops := List.replicate 3 ⟨9, 9, 9⟩ }).engine 31).loops.length < 4 ∧
     4 ≤ (((mill 16).onEngine 31 fun x => { x with loops := List.replicate 4 ⟨9, 9, 9⟩ }).engine 31).loops.length ∧
     ends ((engOf 3).arith ((krn 3).instr 0) up.freeNat fun vs => vs) = true ∧
     ends ((engOf 1).butterfly (krn 1) ((krn 1).instr 0) up.freeNat bf4Of fun lane => lane % 4) = true ∧
     ends ((engOf 2).butterfly (krn 2) ((krn 2).instr 0) up.freeNat bf2Of fun lane => lane % 2) = true ∧
     ends ((engOf 4).arith ((krn 4).instr 0) up.freeNat fun vs => twVec vs ((engOf 4).coefs (krn 4) ((krn 4).instr 0).twAg (fun lane
        => up.freeNat (128 + lane)) up.freeNat)) = true ∧
     ends (fed.loadVec ((krn 8).instr 0) (fed.vecAddrs ((krn 8).instr 0).wrAg fun n => up.freeNat (64 + n)) none) = true ∧
     (engOf 8).loading = none ∧
     (engOf 8).queue = [] ∧
     ((engOf 9).unloadVec (krn 9) ((krn 9).instr 0) ((engOf 9).vecAddrs ((krn 9).instr 0).rdAg up.freeNat)).2 = none) ∧
    (ends ((engOf 9).passOver ((krn 9).instr 0) ((engOf 9).outSlotOf ((krn 9).instr 0)) ((engOf 9).slots[(engOf 9).outSlotOf ((krn
       9).instr 0)]) none) = true ∧
     ((full.unloadVec (krn 9) ((krn 9).instr 0) (full.vecAddrs ((krn 9).instr 0).rdAg up.freeNat)).2.map fun r => (r.1.frame,
        r.2)) = some (some frame, 64) ∧
     sends (let r := full.unloadVec (krn 9) ((krn 9).instr 0) (full.vecAddrs ((krn 9).instr 0).rdAg up.freeNat); r.1.passOver ((krn
        9).instr 0) (full.outSlotOf ((krn 9).instr 0)) (r.1.slots[full.outSlotOf ((krn 9).instr 0)]) r.2) = true ∧
     frame.null = false ∧
     ¬(fed.loading = none ∧ fed.queue = []) ∧
     ((krn 10).instr 0).rdAg ≠ ((krn 10).instr 0).wrAg ∧
     (fed.unloadVec (krn 10) ((krn 10).instr 0) (fed.vecAddrs ((krn 10).instr 0).rdAg up.freeNat)).2 = none ∧
     ends ((fed.unloadVec (krn 10) ((krn 10).instr 0) (fed.vecAddrs ((krn 10).instr 0).rdAg up.freeNat)).1.loadVec ((krn 10).instr 0)
        (fed.vecAddrs ((krn 10).instr 0).wrAg fun n => up.freeNat (64 + n)) none) = true ∧
     (((mill 8).onEngine 31 fun x => { x with waitAt := some 0 }).engine 31).waitAt = some 0 ∧
     (((mill 8).onEngine 31 fun x => { x with waitAt := some 0 }).engine 31).queue = [] ∧
     4096 ≤ millCycles (up.now - 0)) :=
  ⟨by decide +kernel, by decide +kernel, by decide +kernel⟩

/-- With span 0 open and ready since the start, or since just under 100 us; with span 0 overrun by span 2 in bay 0, its unit in copy or
staged; and with bay 0 lost to that span, a unit of span 1 or of span 0 staged. -/
def filled : State := (obs saObserve).onCellar 0 fun x => { x with ready := [(0, 0)], opened := [⟨0, 0, []⟩] }
def late : State := (obs saObserve).onCellar 0 fun x => { x with ready := [(0, 999999900001)] }
def overS (copy : Bool) : State :=
  (obs saObserve).onCellar 0 fun x =>
    { x with cfg := { x.cfg with base := 0x20000000000, bayBytes := 128, shelfUnit := 65 }
             overrun := some ⟨0, 2, 0⟩, bays := [{ span := some 0 }, { span := some 1 }], avail := 2, next := 2
             buffers := vset x.buffers 0 (some ⟨0, 0, !copy, false⟩) }
def bufS (span : Nat) : State :=
  (overS false).onCellar 0 fun x => { x with bays := [{ span := none }, { span := some 1 }]
                                             buffers := vset x.buffers 0 (some ⟨span, 0, true, false⟩) }

/-- Witness: a span ready for 100 us and for less; an overrun of a span that staging copies and of one it does not; a unit to stage
from a Granary that answers; a staged unit whose bay holds its span, one whose span has no bay, and one not yet staged. -/
theorem test_CellarAndShelfSteps :
    ((filled.cellar[(0 : SubId)].avail, 0) ∈ filled.cellar[(0 : SubId)].ready ∧
     0 + 100000 ≤ filled.now ∧
     filled.cellar[(0 : SubId)].openOf filled.cellar[(0 : SubId)].avail = some ⟨0, 0, []⟩ ∧
     late.cellar[(0 : SubId)].ready = [(late.cellar[(0 : SubId)].avail, 999999900001)] ∧
     late.now < 999999900001 + 100000 ∧
     (overS false).cellar[(0 : SubId)].overrun = some ⟨0, 2, 0⟩ ∧
     (overS false).cellar[(0 : SubId)].copying 0 = false ∧
     (overS true).cellar[(0 : SubId)].overrun = some ⟨0, 2, 0⟩ ∧
     (overS true).cellar[(0 : SubId)].copying 0 = true) ∧
    (Memory.wf (overS true).mem = true ∧
     (overS true).cellar[(0 : SubId)].buffers[(0 : Fin 2)] = some ⟨0, 0, false, false⟩ ∧
     (overS true).cellar[(0 : SubId)].buffers[(1 : Fin 2)] = none ∧
     (overS true).cellar[(0 : SubId)].sourceBay 0 = some 0 ∧
     ((overS true).granRead ((overS true).bayAddr 0 0 + (((overS true).unitParts 0 0).1 * 512 + 64 * ((overS true).unitParts 0
        0).2.1) * (overS true).nb 0 * (overS true).brick 0 + ((overS true).unitParts 0 0).2.2 * (overS true).cellar[(0 :
        SubId)].cfg.shelfUnit.toNat) (overS true).cellar[(0 : SubId)].cfg.shelfUnit.toNat).2.isSome ∧
     (bufS 1).cellar[(0 : SubId)].buffers[(0 : Fin 2)] = some ⟨1, 0, true, false⟩ ∧
     ((bufS 1).cellar[(0 : SubId)].bayOf 1).isSome = true ∧
     (bufS 0).cellar[(0 : SubId)].buffers[(0 : Fin 2)] = some ⟨0, 0, true, false⟩ ∧
     (bufS 0).cellar[(0 : SubId)].bayOf 0 = none) :=
  ⟨by decide +kernel, by decide +kernel⟩

/-- A job of unit 1; a tile that correlates as logical tile 0, and a spare; tile 41 so, under a plan of that one logical tile with the
job queued; with the unit staged, its set in use, or its copy not over; with the job in computation; a dump of zeros, and one whose first entry is not; a
beam job of that unit, and one in flight since the start. -/
def job : Job := ⟨0, 0, 1, 0, 1, 0, 0, 0, [], none, false, false⟩
def corrT : Tile := { reg := { state := tsCorr, logical := 0 } }
def spareT : Tile := { reg := { state := tsSpare, logical := 63 } }
def tileS (x : Tile) : State :=
  ((obs saObserve).onTile 41 fun _ => x).onLoom 0 fun y =>
    { y with plan := some ⟨0, false, 1, 0, [(0, 0)]⟩, running := some 0, queue := [job] }
def unitIn : State := (tileS corrT).onCellar 0 fun x => { x with buffers := vset x.buffers 1 (some ⟨0, 1, true, false⟩) }
def copyIn : State := (tileS corrT).onCellar 0 fun x => { x with buffers := vset x.buffers 1 (some ⟨0, 1, false, false⟩) }
def setTaken : State := unitIn.onLedger 0 fun x => { x with sets := vset x.sets (setOf job.f) (some (7, 7)) }
def computing : State := unitIn.onTile 41 fun _ => { corrT with job := some (job, 0) }
def clean : Dump := ⟨job, 0, 0, [], [], []⟩
def dump (v : Int) : Dump := { clean with entries := [(0, v)] }
def bjob : BeamJob := ⟨0, 0, 1, 0, 1, 0, 0, [], none, false⟩
def flying (stop : Nat) : BeamRun := ⟨bjob, 1, 0, stop⟩

/-- Witness: an idle tile whose job is staged with its set free and in use,
and one whose job is not staged; a job in computation and past 50 us; a dump that passes and one that fails; a beam job past 50
us; a tile that can lose its clock, a spare due for its test, one in it, and one in it behind a gated island. -/
theorem test_LoomJobs :
    (unitIn.corrSub 41 = some 0 ∧
     unitIn.loomHeld = false ∧
     unitIn.loom[(0 : SubId)].running.isSome = true ∧
     (unitIn.tile 41).job = none ∧
     unitIn.nextJob 0 41 = some job ∧
     unitIn.setFree 0 job.span job.f = true ∧
     setTaken.corrSub 41 = some 0 ∧
     setTaken.nextJob 0 41 = some job ∧
     setTaken.setFree 0 job.span job.f = false ∧
     copyIn.corrSub 41 = some 0 ∧
     copyIn.nextJob 0 41 = none ∧
     copyIn.shelfShort 0 = true) ∧
    ((computing.tile 41).job = some (job, 0) ∧
     (computing.tile 41).dump = none ∧
     computing.stagedAt job.sub job.span job.unit = some 1 ∧
     (if computing.cellar[job.sub].cfg.format then 4 else 1) * computing.sliceLen job.sub * 20 ≤ (computing.now - 0) * 33 ∧
     0 + 50000 ≤ computing.now ∧
     ((tileS { corrT with dump := some (dump 0) }).tile 41).dump = some (dump 0) ∧
     ((tileS { corrT with dump := some clean }).tile 41).dump = some clean ∧
     2048 * 20 ≤ (up.now - clean.since) * 33 ∧
     clean.passes = true ∧
     (dump 1).passes = false ∧
     ((tileS { corrT with beam := some (flying 4096) }).tile 41).beam = some (flying 4096) ∧
     (flying 4096).start + 50000 ≤ up.now) ∧
    ((tileS corrT).mode ≠ modeRide ∧
     ((tileS corrT).tile 41).reg.state ≠ tsFailed ∧
     ((tileS corrT).tile 41).reg.state ≠ tsRetired ∧
     (tileS corrT).islandOn (tileIsland 41) = true ∧
     ((tileS corrT).tile 41).test ≠ .restore ∧
     (tileS spareT).mode = modeObserve ∧
     ((tileS spareT).tile 41).reg.state = tsSpare ∧
     ((tileS spareT).tile 41).testedAt + 60000000000 ≤ (tileS spareT).now ∧
     State.reset.islandOn (tileIsland 41) = false ∧
     ((tileS { spareT with test := .spare }).tile 41).test = .spare ∧
     ((tileS { spareT with test := .spare }).tile 41).asked = none ∧
     (tileS { spareT with test := .spare }).islandOn (tileIsland 41) = true) :=
  ⟨by decide +kernel, by decide +kernel, by decide +kernel⟩

/-- A list of 16,384 entries with its last one changed. -/
theorem changed_last (es : List Cplx) (h : es.length = 16384) :
    ∃ fs : List Cplx, fs.length = 16384 ∧ [16383].length ≤ 3 ∧ fs ≠ es ∧
      ∀ k, k ∉ [16383] → fs.getD k (0, 0) = es.getD k (0, 0) := by
  refine ⟨es.set 16383 ((es.getD 16383 (0, 0)).1 + 1, 0), by simp [h], by decide, fun e => ?_, fun k hk => ?_⟩
  · have g := congrArg (fun l => (l.getD 16383 (0, 0)).1) e
    simp [List.getD_eq_getElem?_getD, h] at g <;> omega
  · simp at hk
    simp [List.getD_eq_getElem?_getD, Ne.symm hk]

/-- Witness: the entries of a job, and the same with the last cell changed. -/
theorem test_SmallErrorsFailTheCheck :
    (∃ es : List Cplx, es.length = 16384 ∧ [16383].length ≤ 3 ∧ es ≠ State.reset.jobEntries 0 0 job [] ∧
      ∀ k, k ∉ [16383] → es.getD k (0, 0) = (State.reset.jobEntries 0 0 job []).getD k (0, 0)) :=
  by exact changed_last _ (by simp [State.jobEntries, tileEntries])

/-- Witness: sums at the pin and one below it; an entry at both ends; canonical memory and the last of two entries. -/
theorem test_LedgerAccumulates :
    pin64 - 1 + 1 ≤ pin64 ∧
    -pin64 ≤ pin64 - 1 + 1 ∧
    pin64 - 1 ≠ pin64 ∧
    pin64 - 1 ≠ -pin64 ∧
    -pin64 ≤ ((pin64, -pin64) : Cplx).1 ∧ ((pin64, -pin64) : Cplx).1 ≤ pin64 ∧
    -pin64 ≤ ((pin64, -pin64) : Cplx).2 ∧ ((pin64, -pin64) : Cplx).2 ≤ pin64 ∧
    Memory.wf up.mem = true ∧
    1 < [((1, 2) : Cplx), (3, 4)].length ∧
    up.setAddr 0 0 0 [((1, 2) : Cplx), (3, 4)].length ≤ up.setAddr 0 0 0 2 ∧
    ledgerBase - 1 < up.setAddr 0 0 0 0 :=
  by decide +kernel

/-- With span 0 available; with two channels to fold; with output of sub-array 0 held for egress staging; with a beam job of a staged unit,
the cache holding its weights; with one in flight; with a unit of the turn; with a cursor. -/
def spanned : State := ((tileS corrT).onLoom 0 fun x => { x with running := none, queue := [] }).onCellar 0 fun x => { x with avail := 1 }
def folding : State := (obs saObserve).onLoom 0 fun x => { x with folds := [⟨0, 0, 2, 0, false, 0, none⟩] }
def stalled : State := { ing with fmt := { ing.fmt with stalls := [⟨0, 0, false⟩] } }
def beaming : State :=
  ((unitIn.onTile 41 fun _ => { reg := { state := tsBeam, logical := 0 } }).onLoom 0 fun x => { x with beamQueue := [bjob] }).onBeam 0
    fun x => { x with cached := some (0, 0) }
def flyingAt (stop start : Nat) : State := beaming.onTile 41 fun x => { x with beam := some { flying stop with start := start } }
def turning : State := up.onBeam 0 fun x => { x with owner := vset x.owner 1 (some (0, 1)) }
def cursing : State := (obs saObserve).onBeam 0 fun x => { x with cursors := [⟨63, 0, 0, 0, 0, [], []⟩] }

/-- Witness: a span to start, one running and settled, one not; folds with channels left, in HOLD,
with output held and without; errors of the Ledger; a beam job that may run, one running,
one over and one stopped by a row sum; a unit ready for the turn; a cursor, in HOLD too. -/
theorem test_SpansFoldsAndBeams :
    (spanned.saState 0 = saObserve ∧
     spanned.loom[(0 : SubId)].plan.isSome = true ∧
     spanned.loomHeld = false ∧
     spanned.loom[(0 : SubId)].running = none ∧
     spanned.loom[(0 : SubId)].next < spanned.cellar[(0 : SubId)].avail ∧
     spanned.obs[(0 : SubId)].stopping = false ∧
     (tileS corrT).loom[(0 : SubId)].running = some 0 ∧
     (tileS corrT).loom[(0 : SubId)].finishAt = none ∧
     ((tileS corrT).onLoom 0 fun x => { x with finishAt := some 0 }).loom[(0 : SubId)].finishAt.isSome = true ∧
     ((tileS corrT).onLoom 0 fun x => { x with finishAt := some 0 }).loomHeld = false) ∧
    ((inMode modeHold).mode = modeHold ∧
     up.loom[(0 : SubId)].folds = [] ∧
     up.obs[(0 : SubId)].stopping = false ∧
     stalled.stalled 0 = true ∧
     folding.mode ≠ modeHold ∧
     folding.stalled 0 = false ∧
     folding.loom[(0 : SubId)].folds = ⟨0, 0, 2, 0, false, 0, none⟩ :: [] ∧
     0 + 1 < 2 ∧
     folding.chanSettled 0 0 0 = true ∧
     ((tileS { corrT with dump := some (dump 0) }).tile 41).dump = some (dump 0)) ∧
    ((dump 0).job.sub = 0 ∧
     (beaming.tile 41).beam = none ∧
     beaming.beamSub 41 = some 0 ∧
     beaming.loomHeld = false ∧
     beaming.loom[(0 : SubId)].running.isSome = true ∧
     beaming.nextBeam 0 41 = some bjob ∧
     beaming.stagedAt 0 bjob.span bjob.unit = some 1 ∧
     (let r := beaming.fetchWeights 0 bjob.span (bjob.f / 2 ^ beaming.beam[(0 : SubId)].cfg.wgroupLog2.toNat); r.2 =
        true ∧ r.1.stagedAt 0 bjob.span bjob.unit = some 1) ∧
     ((flyingAt 4096 up.now).tile 41).beam = some { flying 4096 with start := up.now } ∧
     ({ flying 4096 with start := up.now } : BeamRun).upTo up.now < 4096) ∧
    (((flyingAt 4096 0).tile 41).beam = some (flying 4096) ∧
     (flying 4096).stop = 4096 ∧
     (flying 4096).upTo up.now = 4096 ∧
     (flying 100).stop < 4096 ∧
     (flying 100).upTo up.now = 100 ∧
     turning.unitReady 0 = some (1, 0, 1) ∧
     cursing.cursorSub 63 = some 0 ∧
     cursing.obs[(0 : SubId)].stopping = false ∧
     ({ cursing with bell := { cursing.bell with stat := { cursing.bell.stat with mode := modeHold } } } : State).mode = modeHold) :=
  ⟨by decide +kernel, by decide +kernel, by decide +kernel, by decide +kernel⟩

/-- Every channel of the Granary in one state. -/
def served (st : BitVec 3) : State := { up with gran := { up.gran with chans := Vector.replicate 32 { stat := { state := st } } } }

/-- Witness: addresses beside the Granary, its first and last; a frozen channel and one that serves; reads that match at once,
on the third try and never. -/
theorem test_GranaryServesRequests :
    ((0x1FFFFFFFFFF : BitVec 44).toNat < granBase ∧
     granEnd ≤ (0x3F000000000 : BitVec 44).toNat ∧
     Memory.wf (served gsActive).mem = true ∧
     granBase ≤ (0x20000000000 : BitVec 44).toNat ∧
     (0x3EFFFFFFFFF : BitVec 44).toNat < granEnd ∧
     (served gsActive).granServes = true ∧
     (served gsFrozen).granServes = true ∧
     ((served gsFrozen).chan ((served gsFrozen).chanOf (pageOf (((0x3EFFFFFFFFF : BitVec 44).toNat - granBase) / 64)))).stat.state =
        gsFrozen ∧
     ((served gsActive).chan ((served gsActive).chanOf (pageOf (((0x3EFFFFFFFFF : BitVec 44).toNat - granBase) / 64)))).stat.state ≠
        gsFrozen) ∧
    ((⟨2, false, 0, 0, 0⟩ : ReadOutcome).mismatches.val ≠ 3 ∧
     (⟨3, true, 0, 0, 0⟩ : ReadOutcome).mismatches.val = 3 ∧
     ((served gsActive).fetched (((0x3EFFFFFFFFF : BitVec 44).toNat - granBase) / 64) true ⟨2, false, 0, 0, 0⟩).mismatches.val ≠ 3 ∧
     ((served gsActive).fetched (((0x3EFFFFFFFFF : BitVec 44).toNat - granBase) / 64) true ⟨3, false, 0, 0, 0⟩).mismatches.val = 3 ∧
     ((served gsActive).fetched (((0x3EFFFFFFFFF : BitVec 44).toNat - granBase) / 64) false ⟨3, false, 0, 0, 0⟩).mismatches.val ≠ 3 ∧
     ((served gsActive).fetched (((0x3EFFFFFFFFF : BitVec 44).toNat - granBase) / 64) (!((served gsActive).foldGroup (((0x3EFFFFFFFFF
        : BitVec 44).toNat - granBase) / 64)).read) ⟨2, true, 0, 0, 0⟩).mismatches.val ≠ 3 ∧
     63 + ([1] : List Byte).length ≤ 64 ∧
     FoldKind.swap ≠ .direct ∧
     up.mode ≠ modeDormant) :=
  ⟨by decide +kernel, by decide +kernel⟩

/-- Witness: the masks of Table 10-3 keep the rule of R242, and the last page of the space. -/
theorem test_GranaryMappingIsOneToOne :
    ((List.range 11).all fun k => !badMask k (State.reset.gran.masks.getD k 0)) = true ∧
    2 ^ 30 - 1 < 2 ^ 30 ∧
    State.reset.hashOf (2 ^ 30 - 1) = State.reset.hashOf (2 ^ 30 - 1) :=
  by decide +kernel

/-- With AUTO_SR on and no wait before it. -/
def idle : State :=
  let s := served gsActive
  { s with gran := { s.gran with cfg := { s.gran.cfg with autoSr := true, srIdleUs := 0 } } }

/-- Witness: channels in each state, AUTO_SR on, idle for its time. -/
theorem test_GranaryBringUpAndSelfRefresh :
    ((served gsActive).chan 31).stat.state ≠ gsOff ∧
    ((served gsTraining).chan 31).stat.state = gsTraining ∧
    (31 : ChanId).val / 8 = (3 : Fin 4).val ∧
    ((served gsFilling).chan 31).stat.state = gsFilling ∧
    (0 : ChanId).val / 8 ≠ (3 : Fin 4).val ∧
    idle.srIdleNs = some 0 ∧
    (idle.chan 5).stat.state = gsActive ∧
    (idle.chan 5).lastReq + 0 ≤ idle.now ∧
    ((served gsFrozen).chan 5).stat.state = gsFrozen ∧
    ((served gsSelf).chan 5).stat.state = gsSelf ∧
    ((served gsActive).chan 5).stat.state ≠ gsSelf :=
  by decide +kernel

/-- A read of 1,024 bytes; requests of the host link that wait; and master 3 with a lock of the table store since the start. -/
def bst (m : MasterId) (a : Nat) (k : LockKind) : Burst := ⟨m, false, BitVec.ofNat 44 a, 1024, [], k⟩
def upLine (n : Nat) : State := up.onExch fun x => { x with held := List.replicate n ⟨bst 7 tableBase .none, 0, .order⟩ }
def locked2 : State := up.onExch fun x => { x with locks := [⟨3, 2, 0⟩] }

/-- Witness: a burst that nothing holds and one behind a lock; a LOCK access that may be granted, its UNLOCK,
one of a port that may not lock; a burst to a bridge; the upstream queue with a place and without; a master to reset. -/
theorem test_ExchangeServesBursts :
    ((bst 0 tableBase .none).lock = .none ∧
     up.mustWait (bst 0 tableBase .none) = false ∧
     locked2.mustWait (bst 0 tableBase .none) = true ∧
     (upLine 3).upFull = false ∧
     (upLine 3).mustWait (bst 7 granBase .none) = false ∧
     (upLine 4).upFull = true ∧
     (bst 7 granBase .none).lock = .none ∧
     up.burstBridge (bst 0 0xF00000000 .none) = some 0 ∧
     up.mustWait (bst 0 0xF00000000 .none) = false ∧
     up.move.exch.down[(0 : Fin 2)] = [] ∧
     (bst 3 tableBase .lock).lock = .lock ∧
     up.move.exch.broken.contains 3 = false) ∧
    ((3 : MasterId).val < 4 ∧
     up.targetOf 3 (bst 3 tableBase .lock).addr.toNat = some (2, tableBase) ∧
     lockable 2 = true ∧
     up.lockOf 3 = none ∧
     up.mustWait (bst 3 tableBase .lock) = false ∧
     (bst 3 tableBase .lock).write = false ∧
     1 ≤ (bst 3 tableBase .lock).len ∧
     (bst 3 tableBase .lock).addr.toNat % 1024 + (bst 3 tableBase .lock).len ≤ 1024 ∧
     locked2.move.exch.broken.contains 3 = false ∧
     (locked2.targetOf 3 (bst 3 tableBase .unlock).addr.toNat).map (fun e => e.1) = some 2 ∧
     locked2.lockOf 3 = some ⟨3, 2, 0⟩ ∧
     locked2.mustWait (bst 3 tableBase .unlock) = false) ∧
    (locked2.move.exch.held = [] ∧ locked2.move.exch.upWait = [] ∧
     up.move.exch.broken.contains 4 = false ∧
     (up.targetOf 4 tableBase).map (fun e => e.1) = some 2 ∧
     4 ≤ (4 : MasterId).val ∧
     up.lockOf 4 = none ∧
     lockable 3 = false ∧
     (up.targetOf 0 (bst 0 ledgerBase .lock).addr.toNat).map (fun e => e.1) = some 3 ∧
     up.targetOf 0 (bst 0 0xF00000000 .none).addr.toNat = some (6, 0xF00000000) ∧
     (7 : MasterId).val ≠ 4 ∧
     up.move.exch.held = [] ∧ up.move.exch.upWait = []) :=
  ⟨by decide +kernel, by decide +kernel, by decide +kernel⟩

/-- Witness: a lock 64 us old, one younger, none; a LOCK and an UNLOCK access of a master whose lock was broken. -/
theorem test_LockBreaks :
    locked2.move.exch.locks.find? (fun k => decide (k.since + 64000 ≤ locked2.now)) = some ⟨3, 2, 0⟩ ∧
    locked2.inReset = false ∧
    locked2.move.exch.held = [] ∧ locked2.move.exch.upWait = [] ∧
    (∀ k ∈ (up.onExch fun x => { x with locks := [⟨3, 2, 999999936001⟩] }).move.exch.locks, up.now < k.since + 64000) ∧
    (∀ k ∈ up.move.exch.locks, up.now < k.since + 64000) ∧
    (up.onExch fun x => { x with broken := [3] }).move.exch.broken.contains (bst 3 0 .lock).master = true ∧
    (bst 3 0 .lock).lock = .lock ∧
    (bst 3 0 .unlock).lock = .unlock :=
  by decide +kernel

/-- Witness: addresses beside each region of Table 14-1, a burst there, and the first and last of the regions. -/
theorem test_AddressesOutsideRegionsAreUnmapped :
    ([0x40000, 0x7FFFFF, 0x800000, 0xFFFFFFF, 0x10040000, 0x1FFFFFFF, 0x20800000, 0xFFFFFFFF, 0x101000000, 0x1FFFFFFFF, 0x20E000000,
      0x302000000, 0x3FFFFFFFF, 0x401000000, 0xEFFFFFFFF, 0x1000000000, 0x1FFFFFFFFFF, 0x3F000000000].all fun a =>
        decide (State.reset.targetOf 0 a = none)) = true ∧
    ([0, 0x3FFFF, 0x10000000, 0x1003FFFF, 0x20000000, 0x207FFFFF, 0x100000000, 0x100FFFFFF, 0x200000000, 0x20DFFFFFF, 0x300000000,
      0x301FFFFFF, 0x400000000, 0x400FFFFFF, 0xF00000000, 0xFFFFFFFFF, 0x20000000000, 0x3EFFFFFFFFF].all fun a =>
        (State.reset.targetOf 0 a).isSome) = true ∧
    (bst 0 0x800000 .none).addr.toNat = 0x800000 ∧
    up.mustWait (bst 0 0x800000 .none) = false ∧
    1 ≤ (bst 0 0x800000 .none).len ∧
    0x800000 % 1024 + (bst 0 0x800000 .none).len ≤ 1024 ∧
    (0 : MasterId).val ≠ 7 ∧
    up.upFull = false ∧
    up.mustWait (bst 7 0x800000 .none) = false ∧
    (bst 7 0x800000 .none).addr.toNat = 0x800000 :=
  by decide +kernel

/-- Channel 15 of the Drayman in a state, with its pending triggers, the address and the words of its descriptor. -/
def dray (st : BitVec 2) (n : BitVec 8) (at' : BitVec 44) (ds : List Word) : State :=
  up.onDray 15 fun x => { x with desc := ds, reg := { x.reg with state := st, pending := n, curDesc := at', trigSrc := 2, trigLine := 21 } }

/-- Witness: channel 15 in each of its states, with triggers at their limit, a misplaced descriptor,
and descriptors that chain and end. -/
theorem test_DraymanChannelSteps :
    (((dray dcIdle 0 0 []).dray 15).reg.state = dcIdle ∧
     ((dray dcError 0 0 []).dray 15).reg.state = dcError ∧
     ((dray dcWaiting 0 0 []).dray 15).reg.state = dcWaiting ∧
     ((dray dcMoving 0 0 []).dray 15).reg.state = dcMoving ∧
     (21 : Fin 32).val < 22 ∧
     ((dray dcWaiting 255 0 []).dray 15).reg.trigSrc = 2 ∧
     ((dray dcWaiting 255 0 []).dray 15).reg.trigLine.toNat = (21 : Fin 32).val ∧
     ((dray dcWaiting 255 0 []).dray 15).reg.state ≠ dcIdle ∧
     ((dray dcWaiting 255 0 []).dray 15).reg.pending = 255 ∧
     ((dray dcWaiting 254 0 []).dray 15).reg.pending ≠ 255) ∧
    (((dray dcMoving 0 31 []).dray 15).desc = [] ∧
     ((dray dcMoving 0 31 []).dray 15).reg.curDesc.toNat % 32 ≠ 0 ∧
     ((dray dcWaiting 1 0 [0]).dray 15).reg.pending ≠ 0 ∧
     (dray dcWaiting 1 0 [0]).lockedOut drayPort ((dray dcWaiting 1 0 [0]).moveRanges 15 (descriptorOf [0])) = false ∧
     ((dray dcMoving 0 0 [0]).dray 15).desc ≠ [] ∧
     (descriptorOf [0]).event = false ∧
     (descriptorOf [0]).chain = false ∧
     (descriptorOf [8]).chain = true ∧
     (descriptorOf [8]).event = false) :=
  ⟨by decide +kernel, by decide +kernel⟩

/-- With a Baler job that ends at an instant; with timer 31 a pulse timer that is due; and with an edge of source 0 at this instant and a full queue of source 1. -/
def baling (t : Nat) : State := { up with move := { up.move with baleRun := some ⟨0, t, 2, 3, [], false⟩ } }
def timers (period : BitVec 48) (count : BitVec 32) : State :=
  { up with time := { up.time with timers := vmod up.time.timers 31 fun x =>
    { x with reg := { x.reg with action := taPulse, periodNs := period, count := count } } } }
def edges : State :=
  { up with time := { up.time with
    lastEdge := vset up.time.lastEdge 0 (some (4 * up.now)), captures := vset up.time.captures 1 (List.replicate 16 { at16 := 1, source := 1 }) } }

/-- Witness: before and after power; a Baler job due and one that is not; a sub-array in ALIGN whose start has come; no slew left; no
increment for 10 s; a pulse timer due, periodic and at its last pulse; a second whose pulse has left and one whose has not; edges
early, first and at full queues. -/
theorem test_TimekeeperEvents :
    (State.reset.bell.alive = false ∧
     State.reset.move.baleRun = none ∧
     up.move.exch.locks = [] ∧
     (up.tick 5).balerDue = false ∧
     ((baling 1000000000020).tick 5).balerDue = true ∧
     (baling 1000000000020).move.exch.locks = [] ∧
     ((allFin 42).all fun k => (up.tile k).beam.isNone) = true ∧
     ((allFin 2).all fun b => up.move.exch.down[b].isEmpty) = true ∧
     up.move.baleRun = none ∧
     (baling 1000000000021).move.baleRun = some ⟨0, 1000000000021, 2, 3, [], false⟩) ∧
    ((baling 1000000000021).now + 4 * 5 < 1000000000021 ∧
     up.move.exch.upWait = [] ∧ up.move.exch.held = [] ∧
     up.bell.alive = true ∧
     (obs saAlign).parser[(0 : SubId)].start = some 0 ∧
     (obs saAlign).saState 0 = saAlign ∧
     ((obs saAlign).obs[(0 : SubId)].epoch.timeOf 0 ≤ (obs saAlign).time16) ∧
     (obs saAlign).saState 1 ≠ saAlign ∧
     up.time.slewLeft = 0 ∧
     (obs saAlign).time.stat.state = 1 ∧
     (obs saAlign).freshInc = false) ∧
    ((obs saAlign).inReset = false ∧
     up.running = true ∧
     (timers 1000 0).time.timers[(31 : TimerId)].armed 31 = true ∧
     (timers 1000 0).time.timers[(31 : TimerId)].next ≤ (timers 1000 0).time16 ∧
     (timers 1000 0).time.timers[(31 : TimerId)].reg.action = taPulse ∧
     (timers 0 1).time.timers[(31 : TimerId)].reg.periodNs = 0 ∧
     (timers 1000 1).time.timers[(31 : TimerId)].reg.count = 1 ∧
     (timers 1000 0).time.timers[(31 : TimerId)].reg.periodNs ≠ 0 ∧
     (timers 1000 2).time.timers[(31 : TimerId)].reg.count ≠ 1 ∧
     (timers 1000 2).time.timers[(31 : TimerId)].reg.count ≠ 0) ∧
    (up.time.lastPps ≠ some (secOf up.time16) ∧
     edges.running = true ∧
     edges.earlyEdge 0 (4 * edges.now + (15 : Fin 16).val) = true ∧
     edges.earlyEdge 1 (4 * edges.now + (15 : Fin 16).val) = false ∧
     up.earlyEdge 2 (4 * up.now + (0 : Fin 16).val) = false ∧
     (1 : Fin 3) ≠ 2 ∧
     up.time.captures[(1 : Fin 4)].length < 16 ∧
     16 ≤ edges.time.captures[(1 : Fin 4)].length ∧
     up.time.captures[(2 : Fin 4)].length < 16) :=
  ⟨by decide +kernel, by decide +kernel, by decide +kernel, by decide +kernel⟩

/-- With REF_A ranked and in a state; with REC_A ranked and qualified, its link up; and with a switch since the start. -/
def ref (q : BitVec 3) (n : Nat) : State :=
  { up with clock := { up.clock with
    srcs := vmod up.clock.srcs 0 fun r => { r with qstate := q, qual := n }, stat := { up.clock.stat with rankA := 1 } } }
def linked : State :=
  ({ up with clock := { up.clock with
    srcs := vmod up.clock.srcs 2 fun r => { r with qstate := qsQualified }, stat := { up.clock.stat with rankC := 1 } } } : State).onBnch 2
    fun x => { x with linkUp := true }
def switching : State := { up with clock := { up.clock with stat := { up.clock.stat with state := csSwitching } } }

/-- Witness: a source in each state at the ends of its ranges; a measurement due; a switch of 50 ms. -/
theorem test_ClocksmithEvents :
    ((ref qsQualifying 398).clock.stat.rank 0 ≠ 0 ∧
     ((ref qsQualifying 398).refOf 0).qstate = qsQualifying ∧
     (ref qsQualifying 398).measuredPresent 0 ⟨true, false, 2000, false⟩ = true ∧
     -2000 ≤ (⟨true, false, 2000, false⟩ : RefMeasure).offset ∧
     (⟨true, false, 2000, false⟩ : RefMeasure).offset ≤ 2000 ∧
     ((ref qsQualifying 398).refOf 0).qual + 1 < 400 ∧
     (ref qsQualifying 399).measuredPresent 0 ⟨true, false, -2001, false⟩ = true ∧
     (⟨true, false, -2001, false⟩ : RefMeasure).offset < -2000 ∧
     400 ≤ ((ref qsQualifying 399).refOf 0).qual + 1 ∧
     (ref qsQualifying 399).betterThanIncoming 0 = false) ∧
    ((ref qsQualifying 399).measuredPresent 0 ⟨true, false, 0, true⟩ = true ∧
     (⟨true, false, 0, true⟩ : RefMeasure).missing = true ∧
     (⟨true, false, 2000, false⟩ : RefMeasure).missing = false ∧
     ((linked.refOf 2).qstate = qsQualified) ∧
     linked.clock.stat.rank 2 ≠ 0 ∧
     linked.measuredPresent 2 ⟨true, false, 4001, false⟩ = true ∧
     4000 < (⟨true, false, 4001, false⟩ : RefMeasure).offset ∧
     linked.measuredPresent 2 ⟨false, false, 0, false⟩ = false ∧
     ((ref qsWaiting 0).refOf 0).qstate ≠ qsQualified ∧
     ((ref qsWaiting 0).refOf 0).qstate ≠ qsDisputed) ∧
    ((ref qsWaiting 0).measuredPresent 0 ⟨true, false, 4001, false⟩ = false ∧
     up.bell.alive = true ∧
     up.clock.lastMeasure + 10000000 ≤ up.now ∧
     ((ref qsQualified 0).refOf 0).qstate ≠ qsUnused ∧
     ((ref qsQualified 0).refOf 0).qstate ≠ qsAbsent ∧
     ((ref qsQualified 0).refOf 0).qstate = qsQualified ∧
     switching.clock.stat.state = csSwitching ∧
     switching.clock.switchAt + 50000000 ≤ switching.now ∧
     switching.inReset = false ∧
     switching.bell.alive = true) :=
  ⟨by decide +kernel, by decide +kernel, by decide +kernel⟩

/-- With beat 0 to start at an instant, at 64 ms and 1 ns, and at 66 ms. -/
def beats (b : Nat) : State :=
  { up with time := { up.time with tk := 64000001 * 2 ^ 32, nextBeat := some (0, b) } }
def longPast : State := { up with time := { up.time with tk := 66000000 * 2 ^ 32, nextBeat := some (0, 64 * ms16 + 1) } }

/-- Witness: a beat whose instant has come, as late as 64 ms; one that is later, and one past the next grid instant too. -/
theorem test_BeatsRunOrSlip :
    ((beats (64 * ms16)).time.nextBeat = some (0, 64 * ms16) ∧
     (beats (64 * ms16)).foremanRuns = true ∧
     64 * ms16 ≤ (beats (64 * ms16)).time16 ∧
     64 * ms16 ≤ 0 * ms16 + 64 * ms16 ∧
     0 * ms16 + 64 * ms16 < 64 * ms16 + 1 ∧
     (beats (64 * ms16 + 1)).time16 < (beatFrom (64 * ms16 + 1)).2 ∧
     64 * ms16 + 1 ≤ (beats (64 * ms16 + 1)).time16) ∧
    ((beats (64 * ms16 + 1)).time.nextBeat = some (0, 64 * ms16 + 1) ∧
     (beats 0).inReset = false ∧
     (longPast).time.nextBeat = some (0, 64 * ms16 + 1) ∧
     (beatFrom (64 * ms16 + 1)).2 ≤ longPast.time16 ∧
     longPast.foremanRuns = true ∧
     64 * ms16 + 1 ≤ longPast.time16) :=
  ⟨by decide +kernel, by decide +kernel⟩

/-- Source 0x70 in a state, with AUTO_CLEAR; SEVERE with an event at a millisecond; and disabled. -/
def tly (st : BitVec 3) : State :=
  up.onSource 0x70 fun x => { x with reg := { x.reg with state := st }, cfg := { x.cfg with autoClear := true }, grace := some 1000000 }
def stamped (k : Nat) : State := (tly 3).onSource 0x70 fun x => { x with stamps := [k] }
def tlyOff : State := up.onSource 0x70 fun x => { x with cfg := { x.cfg with enable := false } }

/-- Witness: an assigned source at each of its states, enabled and disabled,
at its threshold; quiet for its time; AUTO_CLEAR set and the newest event named. -/
theorem test_TallyEventsCountAndClear :
    ((tly 0).running = true ∧
     assignedSource (0x70 : SourceId).val = true ∧
     (tly 0).inReset = false ∧
     2 ≤ ((tly 2).source 0x70).reg.state.toNat ∧
     ((tly 1).source 0x70).reg.state.toNat < 2 ∧
     ((tly 0).source 0x70).cfg.enable = true ∧
     severeNow ((tly 0).source 0x70).cfg (((tly 0).monoMs :: ((tly 0).source 0x70).stamps).take 255) (tly 0).monoMs = true ∧
     ((tlyOff).source 0x70).cfg.enable = false ∧
     ((tly 2).source 0x70).stamps.headD 0 + ((tly 2).source 0x70).cfg.quietMs.toNat ≤ (tly 2).monoMs ∧
     ((tly 3).source 0x70).cfg.autoClear = true) ∧
    ((0 : Word) = ((tly 3).source 0x70).reg.lastDetail ∧
     ((tly 3).source 0x70).stamps = [] ∧
     ((stamped 5).source 0x70).cfg.autoClear = true ∧
     (((stamped 5).source 0x70).stamps.all fun k => k != (stamped 5).monoMs) = true ∧
     ((stamped 5).source 0x70).stamps.filter (fun k => k == (stamped 5).monoMs) = [] ∧
     ((stamped (tly 3).monoMs).source 0x70).stamps.filter (fun k => k == (tly 3).monoMs) ≠ [] ∧
     (stamped 5).monoMs = (tly 3).monoMs ∧
     ((stamped 5).source 0x70).cfg.windowMs ≠ 0 ∧
     ((tly 0).source 0x70).cfg.windowMs ≠ 0) :=
  ⟨by decide +kernel, by decide +kernel⟩

/-- Source 0x70 with its grace over: FALLBACK, STATE and STEP. -/
def grace (s : State) (f : BitVec 3) (st : BitVec 3) (step : BitVec 2) : State :=
  s.onSource 0x70 fun x => { x with grace := some 0, cfg := { x.cfg with fallback := f }, reg := { x.reg with state := st, step := step } }

/-- Witness: a source SEVERE whose grace is over, with FALLBACK WAIT, TRAP and CHIP_RESET; one ESCALATED past its trap in HOLD. -/
theorem test_GraceExpiryEscalates :
    (((grace up 0 2 0).source 0x70).grace = some 0 ∧
     0 ≤ (grace up 0 2 0).monoMs ∧
     (grace up 0 2 0).running = true ∧
     2 ≤ ((grace up 0 2 0).source 0x70).reg.state.toNat ∧
     ((grace up 0 2 0).source 0x70).cfg.fallback = 0 ∧
     2 ≤ ((grace up 2 2 0).source 0x70).cfg.fallback.toNat ∧
     ((grace up 4 2 0).source 0x70).cfg.fallback.toNat ≤ 4) ∧
    (((grace up 4 2 0).source 0x70).reg.state = 2 ∧
     ((grace up 4 2 0).source 0x70).reg.step = 0 ∧
     ((grace (inMode modeHold) 4 3 1).source 0x70).cfg.fallback = 4 ∧
     ((grace (inMode modeHold) 4 3 1).source 0x70).reg.state = 3 ∧
     ((grace (inMode modeHold) 4 3 1).source 0x70).reg.step = 1 ∧
     (grace (inMode modeHold) 4 3 1).mode = modeHold ∧
     (grace (inMode modeHold) 4 3 1).running = true) :=
  ⟨by decide +kernel, by decide +kernel⟩

/-- A SAG ridden from PROVISION since the start; a high input 1 ms ago; an event over in HOLD; and a bank test of an hour due, with the last rail on. -/
def sag (past : Bool) : State :=
  let s := inMode modeRide
  { s with bell := { s.bell with event := some { start := 0, past := past, rodeFrom := some modeProvision }
                                 events := vmod s.bell.events 0 fun x => { x with cls := 1 } } }
def lately : State := { up with bell := { up.bell with highAt := 999999000001 } }
def inHold : State :=
  let s := inMode modeHold
  { s with bell := { s.bell with event := some { start := 0, past := true }, stat := { s.bell.stat with rideInHold := true } } }
def banked2 : State :=
  { up with now := 3600000000000, bell := { up.bell with cfg := { up.bell.cfg with bankTestH := 1 }, rails := 0x800 } }

/-- Witness: inputs at the edges of each class; an event in progress that is good again, one lost,
one over with the bank charged; a bank test due; a rail on that fails; temperatures at their limits. -/
theorem test_SupplyEventsRide :
    (up.running = true ∧
     up.start.reg.step ≠ 1 ∧
     classOf (3999 : BitVec 16).toNat ≠ 0 ∧
     classOf (6001 : BitVec 16).toNat ≠ 0 ∧
     up.bell.event = none ∧
     up.mode = modeProvision ∧
     (inMode modeHold).mode = modeHold ∧
     up.inReset = false ∧
     up.move.baleRun = none ∧
     up.bell.alive = true ∧
     6000 < (6001 : BitVec 16).toNat) ∧
    (up.bell.highAt + 1000000 ≤ up.now ∧
     lately.bell.alive = true ∧
     lately.now < lately.bell.highAt + 1000000 ∧
     (5899 : BitVec 16).toNat ≤ 6000 ∧
     5900 ≤ (6000 : BitVec 16).toNat ∧ (6000 : BitVec 16).toNat ≤ 6000 ∧
     (5899 : BitVec 16).toNat < 5900 ∧
     (3299 : BitVec 16).toNat < 3300 ∧
     (sag false).bell.alive = true ∧
     holdup 1500 9600 / 100 = 279 ∧
     holdup 1350 9600 / 100 = 251 ∧
     (sag false).bell.event = some { start := 0, rodeFrom := some modeProvision }) ∧
    ((sag false).bell.events[0].cls < 3 ∧
     (sag false).bell.stat.classNow < 3 ∧
     (sag false).bell.goodSince + 1000000 * (sag false).bell.cfg.recoverMs.toNat ≤ (sag false).now ∧
     goodInput 4100 = true ∧
     goodInput 5900 = true ∧
     0 + 1000000 * (sag false).bell.cfg.recoverMs.toNat ≤ (sag false).now ∧
     (sag false).bell.events[0].cls = 1 ∧
     (sag false).inReset = false ∧
     (sag false).lossDue { start := 0, rodeFrom := some modeProvision } (4800 : BitVec 16).toNat (4200 : BitVec 16).toNat = true ∧
     (sag false).bell.falling = false ∧
     (sag false).noneActive = true) ∧
    ((sag true).bell.event = some { start := 0, past := true, rodeFrom := some modeProvision } ∧
     9000 ≤ (9000 : BitVec 16).toNat ∧
     (sag true).mode = modeRide ∧
     (sag true).bell.stat.rideInHold = false ∧
     (∀ i, (sag true).active i = false) ∧
     inHold.bell.stat.rideInHold = true ∧
     inHold.bell.event = some { start := 0, past := true } ∧
     0 < banked2.bell.cfg.bankTestH.toNat ∧
     banked2.bell.lastTest + 3600000000000 * banked2.bell.cfg.bankTestH.toNat ≤ banked2.now ∧
     banked2.bell.event = none ∧
     banked2.inReset = false) ∧
    (banked2.bell.alive = true ∧
     (1349 : BitVec 16).toNat < 1350 ∧
     banked2.running = true ∧
     banked2.bell.running = none ∧
     banked2.bell.rails.getLsbD (11 : Fin 12).val = true ∧
     (10 : Nat) ≤ 10 ∧
     920 < (921 : BitVec 16).toInt ∧
     720 < (721 : BitVec 16).toInt ∧
     banked2.noneActive = true) :=
  ⟨by decide +kernel, by decide +kernel, by decide +kernel, by decide +kernel, by decide +kernel⟩

/-- A sequence of two steps that wait for nothing; island 78 on its way; a cable of octet 15 under power. -/
def seqOf (id : Fin 6) (since : Nat) : SeqRun := ⟨id, [⟨0, 0, 10, 0⟩, ⟨0, 1, 10, 0⟩], 0, since, false, .nothing⟩
def seqn (id : Fin 6) (since : Nat) : State :=
  { up with bell := { up.bell with running := some (seqOf id since), stat := { up.bell.stat with supply10mv := 4800 } } }
def isl (st : Fin 4) : State := { up with bell := { up.bell with islands := vset up.bell.islands 78 { state := st } } }
def cabled : State := { up with side := { up.side with cable3v3 := 0x8000 } }

/-- Witness: a sequence whose step is met and one timed out; an island in each of its ways, beyond its limit; a cable under power. -/
theorem test_SequencesIslandsAndCables :
    ((seqn 2 0).bell.running = some (seqOf 2 0) ∧
     (seqOf 2 0).left = ⟨0, 0, 10, 0⟩ :: ⟨0, 1, 10, 0⟩ :: [] ∧
     (seqn 2 0).seqMay (seqOf 2 0) = true ∧
     (seqOf 2 0).stepMet ⟨0, 0, 10, 0⟩ false (seqn 2 0).now = true ∧
     (seqn 0 0).bell.running = some (seqOf 0 0) ∧
     (seqn 0 0).seqMay (seqOf 0 0) = true ∧
     (seqOf 0 0).since + 1000 * 10 < (seqn 0 0).now ∧
     (seqOf 0 0).forced = false ∧
     (seqn 0 0).inReset = false) ∧
    ((seqOf 0 0).id = 0 ∧
     ((isl 1).island 78).state = 1 ∧
     (((78 : IslandId).val < 46 ∨ 50 < (78 : IslandId).val)) ∧
     ((isl 3).island 78).state = 3 ∧
     ((isl 1).island 78).gated = false ∧
     ((isl 1).island 78).since + gateLimit (78 : IslandId).val < (isl 1).now ∧
     (isl 1).inReset = false ∧
     cabled.side.cable3v3.getLsbD (15 : OctetId).val = true ∧
     cabled.inReset = false) :=
  ⟨by decide +kernel, by decide +kernel⟩

/-- DORMANT after an orderly shutdown, the input good since the start. -/
def ended2 : State :=
  let s := inMode modeDormant
  { s with bell := { s.bell with down := true, cfg := { s.bell.cfg with autoRestart := true }, stat := { s.bell.stat with supply10mv := 4800 } } }

/-- Witness: a running module after step 4 with PWR_GOOD high, and low; one that an orderly shutdown brought to DORMANT,
its input good. -/
theorem test_StartsAreColdOrWarm :
    (up.bell.alive = true ∧
     up.bell.falling = false ∧
     10 ≤ 10 ∧
     999999 < 1000000 ∧
     up.bell.stat.pwrGood = true ∧
     up.reachedFour = true ∧
     State.reset.reachedFour = false ∧
     ended2.bell.alive = true) ∧
    (ended2.bell.down = true ∧
     ended2.bell.falling = false ∧
     ended2.mode = modeDormant ∧
     ended2.rolling = false ∧
     ended2.bell.cfg.autoRestart = true ∧
     goodInput 4800 = true ∧
     goodInput ended2.bell.stat.supply10mv = true ∧
     ended2.bell.goodSince + 1000000000 ≤ ended2.now) :=
  ⟨by decide +kernel, by decide +kernel⟩

/-- DORMANT in a step of a roll call. -/
def roll (n : BitVec 4) : State :=
  let s := inMode modeDormant
  { s with start := { s.start with reg := { s.start.reg with step := n } } }

/-- Witness: a roll call at each of steps 5 to 9, with no lane enabled and no sequence running. -/
theorem test_RollCallSteps :
    (roll 5).start.reg.step = 5 ∧
    (roll 6).start.reg.step = 6 ∧
    (roll 7).start.reg.step = 7 ∧
    (roll 8).start.reg.step = 8 ∧
    (roll 9).start.reg.step = 9 ∧
    (roll 9).bell.alive = true ∧
    (roll 9).bell.falling = false ∧
    (roll 9).rolling = true ∧
    (roll 5).rolling = true ∧
    (roll 8).lanesReady = true ∧
    (roll 9).bell.running = none :=
  by decide +kernel

/-- Witness: addresses at the ends of the Granary, and a retired tile. -/
theorem test_WarmStartKeeps :
    granBase ≤ granEnd - 1 ∧ granEnd - 1 < granEnd ∧
    granBase - 1 < granBase ∧
    (((up.onTile 41 fun x => { x with reg := { x.reg with state := tsRetired } }).tile 41).reg.state = tsRetired) :=
  by decide +kernel

/-- Witness: a powered module, pointers to pages 2 and 3, a longer write. -/
theorem test_SidebandReadsAndWrites :
    up.bell.alive = true ∧
    (0xBF : Byte) >>> 6 ≠ 3 ∧
    (0xC0 : Byte) >>> 6 = 3 ∧
    ([0, 0] : List Byte).length ≠ 1 :=
  by decide +kernel

/-- Witness, for StepsOnlyAdd too: a step of the module after reset. -/
theorem test_MemoryStaysCanonical :
    Memory.wf State.reset.mem = true ∧
    step State.reset = .next State.reset ∧
    (∃ t, step { up with pending := [.stop 15] } = .next t) :=
  ⟨by first | decide +kernel | rfl | exact ⟨_, rfl⟩, by first | decide +kernel | rfl | exact ⟨_, 
   rfl⟩, by first | decide +kernel | rfl | exact ⟨_, rfl⟩⟩

end Sys2Proof.Tests
end

