-- ==== Sys2Proof/Proofs/Records.lean ====
section
/-! SET_RECORD at the greatest WORD_COUNT. `Obligations.RecordsAreReadAndWritten` admits a WORD_COUNT of 1021, whose packet has
LENGTH 1025, since WORD_COUNT is LENGTH - 4 (Table 13-4). R313 answers such a packet with BAD_LENGTH and does not execute it. -/

namespace Sys2Proof.Machine

variable {s : State} {b : BenchId} {op : BitVec 8} {p : Packet}

/-- A packet of LENGTH above 1024 is taken, answered BAD_LENGTH and not executed (R313). -/
theorem State.hand_tooLong {run : State → Ran} (h : s.ready b) (hl : 1024 < p.len) :
    s.hand b op p run = (State.answered b op p.tag false (s.handed b, some (Reply.plain stBadLength))).serve := by
  obtain ⟨hreach, hfree⟩ := h
  simp [State.hand, hreach, hfree, State.carry, hl, State.handed]

namespace LongSetRecord

/-- The module in PROVISION, its benches serving, bench 0 with an OBSERVATION lease, and a scan of 1024 points asked for on
lane 0: LANE_EYE of that lane is 1028 words long (R63). -/
def scanned : State :=
  let s := State.reset
  ({ s with
    bell := { s.bell with alive := true, stat := { s.bell.stat with mode := modeProvision } }
    bench := { s.bench with serving := true, obsHolder := Vector.replicate 4 (some 0) } } : State).onLane 0 fun x =>
      { x with eye := { x.eye with pointsTotal := 1024 } }

/-- SET_RECORD of words 0 to 1020 of LANE_EYE of lane 0, under tag 7. -/
def packet : Packet := ⟨0, 7, 0x0104 :: 0x03FD0000 :: List.replicate 1021 0, .nothing⟩

/-- LANE_EYE of lane 0 as the command finds it. -/
def eyeWords : List Word := ((scanned.handed 0).laneOf 0).eyeWords

theorem scanned_ready : scanned.ready 0 := ⟨by decide +kernel, by decide +kernel⟩

theorem packet_sized : packet.sized (packet.bits 3 16 16 + 4) := by unfold Packet.sized; decide +kernel

/-- LANE_EYE takes nothing from a write and refuses none (R63, R341). -/
theorem writeRecord_eye (s : State) (len : Nat) (ws : Writes) : s.writeRecord 0x0104 0 len ws = (s, stOk) := rfl

/-- The reply that the packet gets: BAD_LENGTH (R313). -/
theorem replies_badLength :
    ((State.answered 0 0x12 packet.tag false (scanned.handed 0, some (Reply.plain stBadLength))).serve.benchOf 0).replies =
      [[0x12210003, 7, 0]] := by decide +kernel

/-- The reply that a SET_RECORD applied whole gets: OK. -/
theorem replies_ok :
    ((State.replied 0 0x12 packet (scanned.handed 0, Reply.ok)).benchOf 0).replies = [[0x12000003, 7, 0]] := by decide +kernel

end LongSetRecord

open LongSetRecord

/-- Refutes O13: SET_RECORD of 1021 words of LANE_EYE meets every hypothesis of the SET_RECORD clause, but its packet has LENGTH
1025, so it is answered BAD_LENGTH and not OK (R313). -/
theorem not_recordsAreReadAndWritten : ¬ Obligations.RecordsAreReadAndWritten := by
  unfold Obligations.RecordsAreReadAndWritten
  rintro ⟨-, hset, -⟩
  have hcode : packet.bits 2 0 16 = 0x0104 := by decide +kernel
  have hindex : packet.bits 2 16 16 = 0 := by decide +kernel
  have hlease (ws : Writes) : (scanned.handed 0).recordLease 0 0x0104 0 ws = true := rfl
  have claimed := hset scanned 0 packet eyeWords scanned_ready packet_sized
    (by rw [hcode, hindex]; rfl) (by decide +kernel) (by decide +kernel) (by decide +kernel)
    (by rw [hcode, hindex]; exact hlease _) (by rw [hcode, hindex, writeRecord_eye])
  rw [hcode, hindex, writeRecord_eye] at claimed
  have long : 1024 < packet.len := by decide +kernel
  have nextStates := Host.Outcome.next.inj claimed
  rw [State.hand_tooLong scanned_ready long] at nextStates
  have same := congrArg (fun t => (t.benchOf 0).replies) nextStates
  rw [replies_badLength, replies_ok] at same
  exact absurd same (by decide)

end Sys2Proof.Machine
end

section
/-! The marker code (R12): a requantised part keeps the most negative code free, packing and reading a fine sample is a round trip,
and so no packed sample is the marker, which reads as invalid. -/

namespace Sys2Proof.Machine

/-- The two's complement code of an integer in range reads back as the integer. -/
theorem signedOf_codeOf {n : Nat} {v : Int} (lo : -(2 : Int) ^ n ≤ v) (hi : v < 2 ^ n) :
    signedOf (n + 1) (codeOf (n + 1) v) = v := by
  have double : (2 : Int) ^ (n + 1) = 2 * 2 ^ n := by rw [Int.pow_succ, Int.mul_comm]
  have positive : (0 : Int) < 2 ^ n := Int.pow_pos (by decide)
  have code : ((codeOf (n + 1) v : Nat) : Int) = if v < 0 then v + 2 * 2 ^ n else v := by
    rw [codeOf, double, Int.toNat_of_nonneg (Int.emod_nonneg v (by omega))]
    split
    · rw [← Int.add_emod_right, Int.emod_eq_of_lt (by omega) (by omega)]
    · exact Int.emod_eq_of_lt (by omega) (by omega)
  have reduced : codeOf (n + 1) v % 2 ^ (n + 1) = codeOf (n + 1) v := by
    apply Nat.mod_eq_of_lt
    rw [← Int.ofNat_lt, Int.natCast_pow, Int.cast_ofNat_Int, double]
    split at code <;> omega
  have half : codeOf (n + 1) v < 2 ^ n ↔ 0 ≤ v := by
    rw [← Int.ofNat_lt, Int.natCast_pow, Int.cast_ofNat_Int]
    split at code <;> omega
  simp only [signedOf, reduced, Nat.add_sub_cancel, half]
  split at code <;> split <;> omega

/-- Only the low `n` bits count. -/
theorem signedOf_mod (n v : Nat) : signedOf n (v % 2 ^ n) = signedOf n v := by simp [signedOf]

theorem codeOf_lt (n : Nat) (v : Int) : codeOf n v < 2 ^ n := by
  have positive : (0 : Int) < 2 ^ n := Int.pow_pos (by decide)
  rw [codeOf, ← Int.ofNat_lt, Int.toNat_of_nonneg (Int.emod_nonneg v (by omega)), Int.natCast_pow]
  exact Int.emod_lt_of_pos v positive

/-- The greatest output part of a format: 7 in 4+4, 127 in 8+8 (R12). -/
def fullScale (wide : Bool) : Nat := if wide then 127 else 7

/-- The marker code of a format (R12). -/
def markerCode (wide : Bool) : List Byte := if wide then [0x80, 0x80] else [0x88]

theorem State.marker_eq (s : State) (i : SubId) : s.marker i = markerCode s.cellar[i].cfg.format := rfl

/-- The input stage reads the marker code as invalid (R12). -/
theorem decodeSample_marker (wide : Bool) : (decodeSample wide (markerCode wide)).1 = false := by
  cases wide <;> decide

/-- A fine sample of which no byte has arrived is the marker code. -/
theorem State.filled_none (s : State) (i : SubId) :
    s.filled i (List.replicate (s.sampleBytes i) none) = s.marker i := by
  unfold State.filled State.sampleBytes State.marker
  generalize s.cellar[i].cfg.format = wide
  cases wide <;> rfl

/-- An invalid frame files the marker code in each bin's place (R12, R127). -/
theorem State.assayBin_invalid (s : State) {a : AssayIn} (b : Nat) (h : a.valid = false) :
    s.assayBin a b = s.cellarWrite a.sub a.input
      (a.chan * s.fineLen a.sub + (b + s.fineLen a.sub / 2) % s.fineLen a.sub) a.n (s.marker a.sub) := by
  simp [State.assayBin, h]

/-- The level of a part is at most the number of the curve's thresholds (R129). -/
theorem Curve.natAbs_part_le (c : Curve) (q : Int) : (c.part q).natAbs ≤ c.ts.length := by
  have count := List.length_filter_le (fun t : Nat => decide (t ≤ q.natAbs)) c.ts
  unfold Curve.part
  split <;> simpa using count

/-- 4+4: two parts of at most 7 are read back as they were packed. -/
theorem decode4_pack {re im : Int} (hre : re.natAbs ≤ 7) (him : im.natAbs ≤ 7) :
    decode4 (BitVec.ofNat 8 (codeOf 4 re * 16 + codeOf 4 im)) = (true, (re, im), false) := by
  have reLt : codeOf 4 re < 16 := codeOf_lt 4 re
  have imLt : codeOf 4 im < 16 := codeOf_lt 4 im
  have byte : (BitVec.ofNat 8 (codeOf 4 re * 16 + codeOf 4 im)).toNat = codeOf 4 re * 16 + codeOf 4 im := by
    rw [BitVec.toNat_ofNat]
    omega
  have high : signedOf 4 ((codeOf 4 re * 16 + codeOf 4 im) / 16) = re := by
    rw [show (codeOf 4 re * 16 + codeOf 4 im) / 16 = codeOf 4 re by omega]
    exact signedOf_codeOf (n := 3) (by omega) (by omega)
  have low : signedOf 4 (codeOf 4 re * 16 + codeOf 4 im) = im := by
    rw [← signedOf_mod, show (codeOf 4 re * 16 + codeOf 4 im) % 2 ^ 4 = codeOf 4 im by omega]
    exact signedOf_codeOf (n := 3) (by omega) (by omega)
  have noMarker : ¬(re = -8 ∨ im = -8) := by omega
  simp only [decode4, byte, high, low, if_neg noMarker]

/-- 8+8: the byte of a part of at most 127 reads back as the part and is not 0x80. -/
theorem byte_of_part {v : Int} (h : v.natAbs ≤ 127) :
    signedOf 8 (BitVec.ofNat 8 (codeOf 8 v)).toNat = v ∧ BitVec.ofNat 8 (codeOf 8 v) ≠ (0x80 : Byte) := by
  have back : signedOf 8 (BitVec.ofNat 8 (codeOf 8 v)).toNat = v := by
    rw [BitVec.toNat_ofNat, signedOf_mod]
    exact signedOf_codeOf (n := 7) (by omega) (by omega)
  refine ⟨back, fun marker => ?_⟩
  rw [marker, show signedOf 8 (0x80 : Byte).toNat = -128 by decide] at back
  omega

/-- 8+8: two parts of at most 127 are read back as they were packed. -/
theorem decode8_pack {re im : Int} (hre : re.natAbs ≤ 127) (him : im.natAbs ≤ 127) :
    decode8 (BitVec.ofNat 8 (codeOf 8 re)) (BitVec.ofNat 8 (codeOf 8 im)) = (true, (re, im), false) := by
  obtain ⟨reBack, reFree⟩ := byte_of_part hre
  obtain ⟨imBack, imFree⟩ := byte_of_part him
  simp only [decode8, reBack, imBack, reFree, imFree, or_self, if_false]

/-- A sample within full scale is read back, as valid, from the bytes it is packed into. -/
theorem decodeSample_packSample {wide : Bool} {re im : Int} (hre : re.natAbs ≤ fullScale wide)
    (him : im.natAbs ≤ fullScale wide) : decodeSample wide (packSample wide re im) = (true, (re, im), false) := by
  cases wide with
  | false => exact decode4_pack hre him
  | true => exact decode8_pack hre him

/-- A sample within full scale is not packed as the marker: the one reads as valid, the other as invalid. -/
theorem packSample_ne_markerCode {wide : Bool} {re im : Int} (hre : re.natAbs ≤ fullScale wide)
    (him : im.natAbs ≤ fullScale wide) : packSample wide re im ≠ markerCode wide := by
  intro same
  have invalid := decodeSample_marker wide
  rw [← same, decodeSample_packSample hre him] at invalid
  cases invalid

/-- Settles O32: a curve's levels are at most its thresholds, so its parts stay within full scale, where packing is undone by
reading. -/
theorem markerCodeStandsForInvalid : Obligations.MarkerCodeStandsForInvalid := by
  unfold Obligations.MarkerCodeStandsForInvalid
  refine ⟨fun s i => ⟨rfl, ?_, s.filled_none i⟩, fun s _ b h => s.assayBin_invalid b h, fun c qr qi levels => ?_⟩
  · rw [State.marker_eq]
    exact decodeSample_marker _
  · have inScale (q : Int) : (c.part q).natAbs ≤ fullScale c.wide := Nat.le_trans (c.natAbs_part_le q) levels
    exact ⟨decodeSample_packSample (inScale qr) (inScale qi), packSample_ne_markerCode (inScale qr) (inScale qi)⟩

end Sys2Proof.Machine
end

section
/-! Rounding half to even and the butterflies (R86, R120). -/

namespace Sys2Proof.Machine

/-- The quotient rounded down by `shrEven` leaves a remainder below the divisor. -/
theorem fdiv_two_pow_remainder (v : Int) (n : Nat) :
    0 ≤ v - v.fdiv (2 ^ n) * 2 ^ n ∧ v - v.fdiv (2 ^ n) * 2 ^ n < 2 ^ n := by
  have positive : (0 : Int) < 2 ^ n := Int.pow_pos (by decide)
  have remainder : v.fmod (2 ^ n) = v - v.fdiv (2 ^ n) * 2 ^ n := by rw [Int.fmod_def, Int.mul_comm]
  rw [← remainder]
  exact ⟨Int.fmod_nonneg_of_pos v positive, Int.fmod_lt_of_pos v positive⟩

/-- A shift by `k + 1` goes down with a remainder of at most half a unit or up with one of at least half a unit, and to an even
number where the remainder is half a unit (R86). -/
theorem shrEven_succ_spec (v : Int) (k : Nat) :
    ∃ q r : Int, v = q * (2 ^ k * 2) + r ∧ 0 ≤ r ∧ r < 2 ^ k * 2 ∧
      (shrEven v (k + 1) = q ∧ (r < 2 ^ k ∨ r = 2 ^ k ∧ q % 2 = 0) ∨
       shrEven v (k + 1) = q + 1 ∧ (2 ^ k < r ∨ r = 2 ^ k ∧ (q + 1) % 2 = 0)) := by
  obtain ⟨low, high⟩ := fdiv_two_pow_remainder v (k + 1)
  simp only [shrEven]
  rw [Int.pow_succ] at low high ⊢
  generalize v.fdiv (2 ^ k * 2) = q at low high ⊢
  refine ⟨q, v - q * (2 ^ k * 2), by omega, low, high, ?_⟩
  split
  · next below => exact .inl ⟨rfl, .inl below⟩
  · split
    · next above => exact .inr ⟨rfl, .inl above⟩
    · have tie : v - q * (2 ^ k * 2) = 2 ^ k := by omega
      split
      · next even => exact .inl ⟨rfl, .inr ⟨tie, even⟩⟩
      · exact .inr ⟨rfl, .inr ⟨tie, by omega⟩⟩

/-- Rounding is within half a unit, and a tie goes to an even number (R86). -/
theorem shrEven_nearest (v : Int) (n : Nat) :
    (2 * (shrEven v n * 2 ^ n - v)).natAbs ≤ 2 ^ n ∧
    ((2 * (shrEven v n * 2 ^ n - v)).natAbs = 2 ^ n → shrEven v n % 2 = 0) := by
  cases n with
  | zero =>
    have noError : 2 * (shrEven v 0 * 2 ^ 0 - v) = 0 := by rw [shrEven, Int.pow_zero]; omega
    rw [noError]
    exact ⟨Nat.zero_le _, fun tie => absurd tie (by decide)⟩
  | succ k =>
    obtain ⟨q, r, divided, low, high, rounded⟩ := shrEven_succ_spec v k
    have unit : ((2 ^ k : Nat) : Int) = 2 ^ k := Int.natCast_pow 2 k
    rw [Int.pow_succ, Nat.pow_succ]
    rcases rounded with ⟨down, near⟩ | ⟨up, near⟩
    · have error : shrEven v (k + 1) * (2 ^ k * 2) - v = -r := by
        rw [down]
        omega
      rw [error, down]
      omega
    · have error : shrEven v (k + 1) * (2 ^ k * 2) - v = 2 ^ k * 2 - r := by
        rw [up, Int.add_mul, Int.one_mul]
        omega
      rw [error, up]
      omega

/-- The sum of four terms, written out. -/
theorem cSum_range_four (f : Nat → Cplx) :
    cSum ((List.range 4).map f) =
      ((f 0).1 + (f 1).1 + (f 2).1 + (f 3).1, (f 0).2 + (f 1).2 + (f 2).2 + (f 3).2) := by
  change (0 + (f 0).1 + (f 1).1 + (f 2).1 + (f 3).1, 0 + (f 0).2 + (f 1).2 + (f 2).2 + (f 3).2) = _
  rw [Int.zero_add, Int.zero_add]

/-- A value turned by `n` quarters: times `(-i) ^ n` (R120). -/
def quarterTurns (n : Nat) (v : Cplx) : Cplx :=
  if n % 4 = 0 then v else if n % 4 = 1 then (v.2, -v.1) else if n % 4 = 2 then (-v.1, -v.2) else (-v.2, v.1)

/-- BF4 is the Fourier transform of four points: output `q` is the sum of its inputs, input `l` turned by `l q` quarters (R120). -/
theorem bf4Of_eq_turned_sum (a : Nat → Cplx) (q : Fin 4) :
    (bf4Of (a 0) (a 1) (a 2) (a 3)).getD q.val (0, 0) =
      cSum ((List.range 4).map fun l => quarterTurns (l * q.val) (a l)) := by
  rw [cSum_range_four]
  match q with
  | 0 => rfl
  | 1 =>
    have re : (a 0).1 + (a 1).2 - (a 2).1 - (a 3).2 = (a 0).1 + (a 1).2 + -(a 2).1 + -(a 3).2 := by omega
    have im : (a 0).2 - (a 1).1 - (a 2).2 + (a 3).1 = (a 0).2 + -(a 1).1 + -(a 2).2 + (a 3).1 := by omega
    exact Prod.ext re im
  | 2 =>
    have re : (a 0).1 - (a 1).1 + (a 2).1 - (a 3).1 = (a 0).1 + -(a 1).1 + (a 2).1 + -(a 3).1 := by omega
    have im : (a 0).2 - (a 1).2 + (a 2).2 - (a 3).2 = (a 0).2 + -(a 1).2 + (a 2).2 + -(a 3).2 := by omega
    exact Prod.ext re im
  | 3 =>
    have re : (a 0).1 - (a 1).2 - (a 2).1 + (a 3).2 = (a 0).1 + -(a 1).2 + -(a 2).1 + (a 3).2 := by omega
    have im : (a 0).2 + (a 1).1 - (a 2).2 - (a 3).1 = (a 0).2 + (a 1).1 + -(a 2).2 + -(a 3).1 := by omega
    exact Prod.ext re im

/-- Settles O33: the rounding's quotient is taken down or up by its remainder, and the turned sums are the outputs of BF4. -/
theorem millArithmetic : Obligations.MillArithmetic := by
  unfold Obligations.MillArithmetic
  exact ⟨fun v n => ⟨(shrEven_nearest v n).1, (shrEven_nearest v n).2, rfl⟩, bf4Of_eq_turned_sum, fun _ _ _ _ => rfl⟩

end Sys2Proof.Machine
end

section
/-! The front end: what a slot, a cross-fade, a frame of the Assay, a gain commit and a span boundary change, and what they leave
(R98, R104, R127, R131, R132). -/

namespace Sys2Proof.Machine

variable {s t u : State}

/-- Only what the Sieve and those it feeds hold changed: the formats' packets, the Ledger's marks, the front end, and the
bookkeeping of the Cellar and the Loom. -/
def State.SlotOnly (s t : State) : Prop :=
  t = { s with sieve := t.sieve, fmt := t.fmt, ledger := t.ledger, front := t.front, cellar := t.cellar, loom := t.loom }

theorem State.SlotOnly.trans (h : s.SlotOnly t) (k : t.SlotOnly u) : s.SlotOnly u := by
  unfold State.SlotOnly at *
  rw [k, h]

theorem State.SlotOnly.parser (h : s.SlotOnly t) : t.parser = s.parser := by rw [h]

theorem State.SlotOnly.mem (h : s.SlotOnly t) : t.mem = s.mem := by rw [h]

/-! ### Events of a sub-array -/

/-- A packet that is built touches the formats alone: their counters, numbers and queues (R82, R84). -/
theorem State.buildPacket_fmt (s : State) (n : Fin 64) (f : FmtOut) (kind flags fine beam : Nat) (fields : List Byte) (t16 : Nat)
    (payload : List Byte) : ∃ x, s.buildPacket n f kind flags fine beam fields t16 payload = { s with fmt := x } := by
  unfold State.buildPacket
  dsimp only
  split
  · exact ⟨_, rfl⟩
  · split
    · exact ⟨_, rfl⟩
    · split <;> exact ⟨_, rfl⟩

theorem State.metadata_fmt (s : State) (i : SubId) (subtype t16 : Nat) (payload : List Byte) :
    ∃ x, s.metadata i subtype t16 payload = { s with fmt := x } := by
  refine foldl_keeps (fun t : State => ∃ x, t = { s with fmt := x }) _ ?_ _ _ ⟨s.fmt, rfl⟩
  rintro _ e ⟨x, rfl⟩
  exact State.buildPacket_fmt _ ..

/-- An event of a sub-array touches the formats that report it and the Ledger that marks it (Table 03-8). -/
theorem State.subEvent_fmt_ledger (s : State) (i : SubId) (code span detail : Nat) :
    ∃ x y, s.subEvent i code span detail = { s with fmt := x, ledger := y } := by
  obtain ⟨x, said⟩ := s.metadata_fmt i 3 s.time16 (leBytes 4 code ++ leBytes 8 span ++ leBytes 4 detail)
  unfold State.subEvent State.event
  rw [said]
  exact ⟨x, _, rfl⟩

theorem State.subEvent_slotOnly (s : State) (i : SubId) (code span detail : Nat) : s.SlotOnly (s.subEvent i code span detail) := by
  obtain ⟨x, y, said⟩ := s.subEvent_fmt_ledger i code span detail
  rw [said]
  rfl

@[simp] theorem State.subEvent_front (s : State) (i : SubId) (code span detail : Nat) :
    (s.subEvent i code span detail).front = s.front := by
  obtain ⟨x, y, said⟩ := s.subEvent_fmt_ledger i code span detail
  rw [said]

@[simp] theorem State.raise_front (s : State) (i : SourceId) (detail : Word) (sub : Option SubId) :
    (s.raise i detail sub).front = s.front := by
  rw [(State.raise_only s i detail sub).1]

theorem State.raise_if_front {c : Prop} [Decidable c] (s : State) (i : SourceId) (detail : Word) (sub : Option SubId) :
    (if c then s.raise i detail sub else s).front = s.front := by
  split
  · exact s.raise_front i detail sub
  · rfl

/-! ### What follows a settled job -/

/-- Filled spans are noted in the Cellar (R138). -/
theorem State.noteFilled_cellar (s : State) (i : SubId) : ∃ x, s.noteFilled i = { s with cellar := x } := by
  unfold State.noteFilled
  dsimp only
  split
  · exact ⟨s.cellar, rfl⟩
  · exact ⟨_, rfl⟩

theorem State.fillBuffers_cellar (s : State) (i : SubId) : ∃ x, s.fillBuffers i = { s with cellar := x } := by
  unfold State.fillBuffers
  dsimp only
  split
  · split
    · exact ⟨s.cellar, rfl⟩
    · split
      · exact ⟨_, rfl⟩
      · exact ⟨s.cellar, rfl⟩
  · exact ⟨s.cellar, rfl⟩

theorem State.releaseBuffers_cellar (s : State) (i : SubId) : ∃ x, s.releaseBuffers i = { s with cellar := x } := by
  unfold State.releaseBuffers
  dsimp only
  generalize released : (allFin 2).foldl _ s = t
  have emptied : ∃ x, t = { s with cellar := x } := by
    rw [← released]
    refine foldl_keeps (fun t : State => ∃ x, t = { s with cellar := x }) _ ?_ _ _ ⟨s.cellar, rfl⟩
    rintro _ n ⟨x, rfl⟩
    dsimp only
    split
    · split <;> exact ⟨_, rfl⟩
    · exact ⟨_, rfl⟩
  obtain ⟨x, rfl⟩ := emptied
  exact State.fillBuffers_cellar { s with cellar := x } i

theorem State.showFine_loom (s : State) (i : SubId) : ∃ x, s.showFine i = { s with loom := x } := by
  unfold State.showFine
  dsimp only
  split
  · exact ⟨s.loom, rfl⟩
  · exact ⟨_, rfl⟩

theorem State.noteFinished_cellar_loom (s : State) (i : SubId) :
    ∃ x y, s.noteFinished i = { s with cellar := x, loom := y } := by
  unfold State.noteFinished
  dsimp only
  split
  · split
    · exact ⟨_, _, rfl⟩
    · exact ⟨s.cellar, s.loom, rfl⟩
  · exact ⟨s.cellar, s.loom, rfl⟩

/-- What follows a settled job touches the Cellar's buffers and the Loom's account of its span (R149, R168). -/
theorem State.settled_cellar_loom (s : State) (i : SubId) : ∃ x y, s.settled i = { s with cellar := x, loom := y } := by
  obtain ⟨x, released⟩ := s.releaseBuffers_cellar i
  obtain ⟨y, shown⟩ := State.showFine_loom { s with cellar := x } i
  rw [State.settled, released, shown]
  exact State.noteFinished_cellar_loom _ i

theorem State.noteFilled_slotOnly (s : State) (i : SubId) : s.SlotOnly (s.noteFilled i) := by
  obtain ⟨x, noted⟩ := s.noteFilled_cellar i
  rw [noted]
  rfl

theorem State.settled_slotOnly (s : State) (i : SubId) : s.SlotOnly (s.settled i) := by
  obtain ⟨x, y, settled⟩ := s.settled_cellar_loom i
  rw [settled]
  rfl

@[simp] theorem State.noteFilled_front (s : State) (i : SubId) : (s.noteFilled i).front = s.front := by
  obtain ⟨x, noted⟩ := s.noteFilled_cellar i
  rw [noted]

@[simp] theorem State.settled_front (s : State) (i : SubId) : (s.settled i).front = s.front := by
  obtain ⟨x, y, settled⟩ := s.settled_cellar_loom i
  rw [settled]

/-! ### A slot of the Sieve -/

theorem State.syncReset_slotOnly (s : State) (i : SubId) (kr : Nat) (resync : Bool) : s.SlotOnly (s.syncReset i kr resync) := by
  unfold State.syncReset
  dsimp only
  split
  · refine State.SlotOnly.trans ?_ (State.subEvent_slotOnly ..)
    rfl
  · rfl

/-- The schedules that a slot reaches, resets and a freeze, are the Sieve's own (R89, R105). -/
theorem State.reachIndex_slotOnly (s : State) (i : SubId) (k : Nat) : s.SlotOnly (s.reachIndex i k) := by
  unfold State.reachIndex
  dsimp only
  generalize reached : List.foldl _ (s.onSieve i _) _ = t
  have kept : s.SlotOnly t := by
    rw [← reached]
    exact foldl_keeps s.SlotOnly _ (fun u e h => h.trans (u.syncReset_slotOnly ..)) _ _ rfl
  split
  · split
    · exact kept.trans rfl
    · exact kept
  · exact kept

/-- A frame is dealt to an engine or dropped; an invalid one goes to the Assay (R112, R113). -/
theorem State.sieveOut_slotOnly (s : State) (i : SubId) (sl : SliceId) (input : Nat) (o : SieveOut) :
    s.SlotOnly (s.sieveOut i sl input o) := by
  unfold State.sieveOut
  split
  · unfold State.dealFrame
    dsimp only
    split <;> rfl
  · rfl

theorem State.runInput_slotOnly (s : State) (i : SubId) (sl : SliceId) (slot : Slot) (input : Nat) :
    s.SlotOnly (s.runInput i sl slot input) := by
  unfold State.runInput
  dsimp only
  refine State.SlotOnly.trans ?_ (u := State.suppress _ i _ _) rfl
  exact foldl_keeps s.SlotOnly _ (fun u o h => h.trans (u.sieveOut_slotOnly ..)) _ _ rfl

/-- A slice of a running sub-array runs its inputs over the oldest slot it has not taken, and has taken it (R98). -/
theorem exec_sieveSlot {i : SubId} {sl : SliceId} {slot : Slot} {who : List SliceId}
    (oldest : s.parser[i].passed.find? (fun e => e.2.contains sl) = some (slot, who)) (active : s.active i = true)
    (powered : s.islandOn (sliceIsland sl) = true) (present : s.sieve[i].returned.contains sl = false) :
    ∃ u, s.SlotOnly u ∧ exec (.sieveSlot i sl) s = .next ((((u.tookSlot i sl slot.q).showSieve i).noteFilled i).settled i) := by
  have run : s.SlotOnly ((s.inputsOn i sl).foldl (fun u k => u.runInput i sl slot k)
      (s.reachIndex i ((slot.q + 1) * s.slotLen i))) :=
    foldl_keeps s.SlotOnly _ (fun u k h => h.trans (u.runInput_slotOnly ..)) _ _ (s.reachIndex_slotOnly ..)
  refine ⟨_, run, ?_⟩
  change execSieveSlot i sl s = _
  unfold execSieveSlot
  rw [oldest]
  dsimp only
  rw [if_pos ⟨active, powered, by rw [present]; rfl⟩]

/-- No entry of a slot that a slice has taken still waits for it. -/
theorem State.tookSlot_waits (s : State) (i : SubId) (sl : SliceId) (q : Nat) :
    ∀ e ∈ (s.tookSlot i sl q).parser[i].passed, e.1.q = q → e.2.contains sl = false := by
  intro e waiting same
  simp only [State.tookSlot, State.onParser_parser, List.mem_filter, List.mem_map] at waiting
  obtain ⟨⟨old, -, rfl⟩, -⟩ := waiting
  split at same
  · next taken => simp [taken]
  · next other => exact absurd same other

/-- SIEVE_SLOT (R98): the slice no longer waits for its oldest slot; the other parsers and memory are as before. -/
theorem sieveSlot_completes {i : SubId} {sl : SliceId} {slot : Slot} {who : List SliceId}
    (oldest : s.parser[i].passed.find? (fun e => e.2.contains sl) = some (slot, who)) (active : s.active i = true)
    (powered : s.islandOn (sliceIsland sl) = true) (present : s.sieve[i].returned.contains sl = false) :
    ∃ t, exec (.sieveSlot i sl) s = .next t ∧ (∀ e ∈ t.parser[i].passed, e.1.q = slot.q → e.2.contains sl = false) ∧
      (∀ j, j ≠ i → t.parser[j] = s.parser[j]) ∧ s.sameMemory t := by
  obtain ⟨u, run, next⟩ := exec_sieveSlot oldest active powered present
  refine ⟨_, next, ?_⟩
  have after : (u.tookSlot i sl slot.q).SlotOnly ((((u.tookSlot i sl slot.q).showSieve i).noteFilled i).settled i) :=
    State.SlotOnly.trans (t := (u.tookSlot i sl slot.q).showSieve i) rfl
      ((State.noteFilled_slotOnly ..).trans (State.settled_slotOnly ..))
  rw [after.parser]
  refine ⟨u.tookSlot_waits i sl slot.q, fun j other => ?_, fun a => ?_⟩
  · rw [State.tookSlot, State.onParser_parser_ne _ _ _ _ other, run.parser]
  · rw [after.mem, State.tookSlot, State.onParser_mem, run.mem]

/-! ### Cross-fades -/

/-- What SIEV_STAT shows of the schedules is three of its fields (Table 04-7, Table 04-8). -/
theorem State.showSieve_sieve (s : State) (i : SubId) :
    ∃ state left pending, (s.showSieve i).sieve[i] = { s.sieve[i] with
      stat := { s.sieve[i].stat with state := state, xfadeLeft := left, swapPending := pending } } :=
  ⟨_, _, _, by rw [State.showSieve, State.onSievStat, State.onSieve_sieve]⟩

theorem State.showSieve_sieve_ne (s : State) (i j : SubId) (other : j ≠ i) : (s.showSieve i).sieve[j] = s.sieve[j] := by
  rw [State.showSieve, State.onSievStat, State.onSieve_sieve_ne _ _ _ _ other]

/-- The Sieve of a sub-array whose cross-fade `f` is over: the banks are swapped and both are full (R104). -/
def SieveSub.swapped (x : SieveSub) (f : Fade) (rest : List Fade) : SieveSub :=
  { x with fades := rest, stat := { x.stat with activeBank := !f.leaves, standbyValid := true, swaps := x.stat.swaps + 1 }
           bankFull := (x.bankFull.set 0 true).set 1 true }

/-- XFADE_END (R104): the bank that the cross-fade led to is in force. Only the Sieve changes. -/
theorem xfadeEnd_completes {i : SubId} {f : Fade} {rest : List Fade} (fades : s.sieve[i].fades = f :: rest)
    (active : s.active i = true) (formed : s.allFormed i (f.n0 + f.len) = true) :
    ∃ t, exec (.xfadeEnd i) s = .next t ∧ t.sieve[i].stat.activeBank = !f.leaves ∧ t.sieve[i].fades = rest ∧
      t.sieve[i].stat.swaps = s.sieve[i].stat.swaps + 1 ∧ t.sieve[i].stat.standbyValid = true ∧
      (∀ j, j ≠ i → t.sieve[j] = s.sieve[j]) ∧ t = { s with sieve := t.sieve } ∧ s.sameMemory t := by
  refine ⟨(s.onSieve i fun x => x.swapped f rest).showSieve i, ?_, ?_⟩
  · change execXfadeEnd i s = _
    unfold execXfadeEnd
    rw [fades]
    dsimp only
    rw [if_pos ⟨active, formed⟩]
    rfl
  · obtain ⟨_, _, _, shown⟩ := (s.onSieve i fun x => x.swapped f rest).showSieve_sieve i
    rw [shown, State.onSieve_sieve]
    refine ⟨rfl, rfl, rfl, rfl, fun j other => ?_, rfl, fun _ => rfl⟩
    rw [State.showSieve_sieve_ne _ _ _ other, State.onSieve_sieve_ne _ _ _ _ other]

/-! ### Frames of the Assay

The writer of the Cellar opens spans, condemns what is overrun and writes granules; the frames that wait for the Assay are no part
of it. -/

@[simp] theorem State.granuleWrite_front (s : State) (g off : Nat) (data : List Byte) : (s.granuleWrite g off data).1.front = s.front := by
  unfold State.granuleWrite
  dsimp only
  split <;> rfl

@[simp] theorem State.granWrite_front (s : State) (a : Nat) (data : List Byte) : (s.granWrite a data).1.front = s.front :=
  foldl_keeps (fun r : State × Bool => r.1.front = s.front) _ (fun r e h => by rw [State.granuleWrite_front, h]) _ _ rfl

@[simp] theorem State.putGranule_front (s : State) (i : SubId) (span bay index : Nat) (bytes : List Byte) :
    (s.putGranule i span bay index bytes).front = s.front := by
  unfold State.putGranule
  rw [State.onCellar_front, State.granWrite_front]

@[simp] theorem State.freezeBay_assayIn (s : State) (i : SubId) (span m : Nat) :
    (s.freezeBay i span m).front.assayIn = s.front.assayIn := by
  unfold State.freezeBay
  split <;> rfl

@[simp] theorem State.takeBay_assayIn (s : State) (i : SubId) (span m : Nat) :
    (s.takeBay i span m).front.assayIn = s.front.assayIn := by
  rw [State.takeBay, State.freezeBay_assayIn, State.onCellar_front]

@[simp] theorem State.assign_assayIn (s : State) (i : SubId) (m : Nat) : (s.assign i m).front.assayIn = s.front.assayIn := by
  rw [State.assign, State.openAt, State.onCellar_front, State.takeBay_assayIn]

@[simp] theorem State.onCombine_assayIn (s : State) (sl : SliceId) (f : List OpenGran → List OpenGran) :
    (s.onCombine sl f).front.assayIn = s.front.assayIn := rfl

@[simp] theorem State.dropGranules_assayIn (s : State) (i : SubId) (span : Nat) :
    (s.dropGranules i span).front.assayIn = s.front.assayIn := by
  refine foldl_keeps (fun t : State => t.front.assayIn = s.front.assayIn) _ ?_ _ _ rfl
  intro t sl kept
  rw [State.onCombine_assayIn, kept]

@[simp] theorem State.condemn_assayIn (s : State) (i : SubId) (old : Nat) : (s.condemn i old).front.assayIn = s.front.assayIn := by
  unfold State.condemn
  rw [State.subEvent_front, State.raise_front, State.onCellar_front, State.dropGranules_assayIn]

@[simp] theorem State.openSpan_assayIn (s : State) (i : SubId) : (s.openSpan i).front.assayIn = s.front.assayIn := by
  unfold State.openSpan
  dsimp only
  split
  · rfl
  · rfl
  · split
    · rw [State.assign_assayIn]
    · split
      · rw [State.assign_assayIn]
      · split
        · rw [State.onCellar_front, State.takeBay_assayIn]
        · rw [State.assign_assayIn, State.condemn_assayIn]

@[simp] theorem State.openTo_assayIn (i : SubId) (span n : Nat) (s : State) :
    (State.openTo i span n s).front.assayIn = s.front.assayIn := by
  induction n generalizing s with
  | zero => rw [State.openTo]
  | succ n ih =>
    rw [State.openTo]
    split
    · rw [ih, State.openSpan_assayIn]
    · rfl

@[simp] theorem State.writeOut_assayIn (s : State) (sl : SliceId) (g : OpenGran) :
    (s.writeOut sl g).front.assayIn = s.front.assayIn := by
  unfold State.writeOut
  dsimp only
  split
  · rw [State.onCombine_assayIn, State.putGranule_front, State.openTo_assayIn]
  · rw [State.openTo_assayIn]

@[simp] theorem State.combineWrite_assayIn (s : State) (sl : SliceId) (mine : OpenGran → Bool) (i : SubId)
    (span index n off : Nat) (data : List Byte) :
    (s.combineWrite sl mine i span index n off data).front.assayIn = s.front.assayIn := by
  unfold State.combineWrite
  dsimp only
  generalize placed : (if (s.combine sl).any mine then s else _) = t
  have kept : t.front.assayIn = s.front.assayIn := by
    rw [← placed]
    split
    · rfl
    · rw [State.onCombine_assayIn]
      split
      · split
        · rw [State.writeOut_assayIn]
        · rfl
      · rfl
  split
  · split
    · rw [State.writeOut_assayIn, State.onCombine_assayIn, kept]
    · rw [State.onCombine_assayIn, kept]
  · rw [State.onCombine_assayIn, kept]

/-- What the writer of a slice does with a fine sample leaves every frame that waits for the Assay (R136 to R141). -/
@[simp] theorem State.cellarWrite_assayIn (s : State) (i : SubId) (input f n : Nat) (data : List Byte) :
    (s.cellarWrite i input f n data).front.assayIn = s.front.assayIn := by
  unfold State.cellarWrite
  dsimp only
  split
  · rfl
  · split
    · split
      · rw [State.onCellStat, State.onCellar_front, State.granWrite_front]
      · exact State.combineWrite_assayIn ..
    · exact State.combineWrite_assayIn ..

@[simp] theorem State.assayBin_assayIn (s : State) (a : AssayIn) (b : Nat) :
    (s.assayBin a b).front.assayIn = s.front.assayIn := by
  unfold State.assayBin
  dsimp only
  split
  · exact State.cellarWrite_assayIn ..
  · rw [State.cellarWrite_assayIn]
    rfl

/-- The module once the oldest frame of a slice's Assay has left its queue. -/
def State.frameTaken (s : State) (sl : SliceId) (rest : List AssayIn) : State :=
  { s with front := { s.front with assayIn := vset s.front.assayIn sl rest } }

/-- The frame's bins are filed with the frame gone from its queue and the other frames as they were (R127). -/
theorem exec_assayFrame {sl : SliceId} {a : AssayIn} {rest : List AssayIn} (oldest : s.front.assayIn[sl] = a :: rest) :
    ∃ t, exec (.assayFrame sl) s = .next t ∧ t.front.assayIn = vset s.front.assayIn sl rest := by
  refine ⟨_, congrArg Host.Outcome.next (by rw [oldest]), ?_⟩
  rw [State.settled_front, State.noteFilled_front]
  exact foldl_keeps (fun t : State => t.front.assayIn = vset s.front.assayIn sl rest) _
    (fun t b kept => by rw [State.assayBin_assayIn, kept]) _ (s.frameTaken sl rest) rfl

/-- ASSAY_FRAME (R127): the oldest frame of the slice leaves its queue, the other slices' frames wait on. -/
theorem assayFrame_completes {sl : SliceId} {a : AssayIn} {rest : List AssayIn} (oldest : s.front.assayIn[sl] = a :: rest) :
    ∃ t, exec (.assayFrame sl) s = .next t ∧ t.front.assayIn[sl] = rest ∧
      (∀ k, k ≠ sl → t.front.assayIn[k] = s.front.assayIn[k]) := by
  obtain ⟨t, next, queues⟩ := exec_assayFrame oldest
  refine ⟨t, next, ?_⟩
  rw [queues]
  refine ⟨by simp, fun k other => ?_⟩
  have apart : sl.val ≠ k.val := fun same => other (Fin.ext same.symm)
  simp [apart]

/-! ### Gains -/

@[simp] theorem State.onAssay_assay (s : State) (i : SubId) (f : AssaySub → AssaySub) :
    (s.onAssay i f).front.assay[i] = f s.front.assay[i] := by simp [State.onAssay]

theorem State.onAssay_assay_ne (s : State) (i j : SubId) (f : AssaySub → AssaySub) (other : j ≠ i) :
    (s.onAssay i f).front.assay[j] = s.front.assay[j] := vmod_ne _ _ other

/-- GAIN_COMMIT while a commit is pending is refused and changes nothing (R131). -/
theorem gainCommit_pending {i : SubId} (pending : s.front.assay[i].stat.gainPending = true) :
    exec (.gainCommit i) s = .next s := by
  change Host.Outcome.next (s.gainCommit i).1 = _
  rw [State.gainCommit, if_pos pending]

/-- GAIN_COMMIT in a running sub-array waits for the next front-end span boundary (R131). -/
theorem gainCommit_running {i : SubId} (free : s.front.assay[i].stat.gainPending = false) (active : s.active i = true) :
    ∃ t, exec (.gainCommit i) s = .next t ∧ t.front.assay[i].gainAt = some (s.frontSpan i * 32768) ∧
      t.front.assay[i].stat.gainPending = true ∧ t.front.assay[i].active = s.front.assay[i].active ∧
      (∀ j, j ≠ i → t.front.assay[j] = s.front.assay[j]) ∧ t = { s with front := t.front } ∧ s.sameMemory t := by
  refine ⟨s.onAssay i fun y =>
    { y with gainAt := some (s.frontSpan i * spanLen), stat := { y.stat with gainPending := true } }, ?_, ?_⟩
  · change Host.Outcome.next (s.gainCommit i).1 = _
    rw [State.gainCommit, if_neg (by rw [free]; exact Bool.false_ne_true), if_pos active]
  · rw [State.onAssay_assay]
    exact ⟨rfl, rfl, rfl, fun j other => State.onAssay_assay_ne _ _ _ _ other, rfl, fun _ => rfl⟩

/-- GAIN_COMMIT in a sub-array that does not run exchanges the copies at once (R131). -/
theorem gainCommit_idle {i : SubId} (free : s.front.assay[i].stat.gainPending = false) (idle : s.active i = false) :
    ∃ t, exec (.gainCommit i) s = .next t ∧ t.front.assay[i].active = s.front.assay[i].shadow ∧
      t.front.assay[i].shadow = s.front.assay[i].active ∧ t.front.assay[i].stat.gainPending = false ∧
      (∀ j, j ≠ i → t.front.assay[j] = s.front.assay[j]) ∧ t = { s with front := t.front } ∧ s.sameMemory t := by
  have swapped : exec (.gainCommit i) s = .next (s.gainCommit i).1 := rfl
  rw [State.gainCommit, if_neg (by rw [free]; exact Bool.false_ne_true), if_neg (by rw [idle]; exact Bool.false_ne_true)]
    at swapped
  refine ⟨_, swapped, ?_⟩
  rw [State.onAssay_assay]
  exact ⟨rfl, rfl, free, fun j other => State.onAssay_assay_ne _ _ _ _ other, rfl, fun _ => rfl⟩

/-- GAIN_COPYBACK (R131): once the old gains are needed no more, both copies hold the new ones. -/
theorem gainCopyback_completes {i : SubId} {n0 : Nat} (pending : s.front.assay[i].gainAt = some n0)
    (passed : n0 = 0 ∨ s.assayPast i n0 = true) :
    ∃ t, exec (.gainCopyback i) s = .next t ∧ t.front.assay[i].active = s.front.assay[i].shadow ∧
      t.front.assay[i].shadow = s.front.assay[i].shadow ∧ t.front.assay[i].gainAt = none ∧
      t.front.assay[i].stat.gainPending = false ∧ t = { s with front := t.front } ∧ s.sameMemory t := by
  refine ⟨s.copyGains i, ?_, ?_⟩
  · change execGainCopyback i s = _
    unfold execGainCopyback
    rw [pending]
    dsimp only
    rw [if_pos passed]
  · rw [State.copyGains, State.onAssay_assay]
    exact ⟨rfl, rfl, rfl, rfl, rfl, fun _ => rfl⟩

/-! ### Span boundaries -/

/-- The records of a span are completed for every input of the sub-array (R132). -/
theorem State.completeLevels_assay (s : State) (i : SubId) (span : Nat) :
    (s.completeLevels i span).front.assay[i].span = s.front.assay[i].span ∧
    (s.completeLevels i span).front.assay[i].levels = (s.inputs i).foldl (fun (m : SMap AssyLevels) k =>
      SMap.set {} m k (s.front.assay[i].levelOf span k)) s.front.assay[i].levels ∧
    (s.completeLevels i span).front.assay[i].stat.lastSpan = BitVec.ofNat 64 span := by
  unfold State.completeLevels
  dsimp only
  rw [State.raise_if_front, State.onAssay_assay]
  exact ⟨rfl, rfl, rfl⟩

@[simp] theorem State.completeLevels_mem (s : State) (i : SubId) (span : Nat) : (s.completeLevels i span).mem = s.mem := by
  unfold State.completeLevels
  dsimp only
  split
  · rw [State.raise_mem]
    rfl
  · rfl

@[simp] theorem State.publishExps_mem (s : State) (i : SubId) : (s.publishExps i).mem = s.mem := rfl

@[simp] theorem State.applyIngress_mem (s : State) (i : SubId) (k : Nat) : (s.applyIngress i k).mem = s.mem := rfl

@[simp] theorem State.publishExps_assay (s : State) (i : SubId) : (s.publishExps i).front.assay = s.front.assay := rfl

@[simp] theorem State.applyIngress_front (s : State) (i : SubId) (k : Nat) : (s.applyIngress i k).front = s.front := rfl

/-- The module after a front-end span boundary: the records and exponents of the span before it are published, the waiting
formats are in place, and the next span is the one counted (R22, R132). -/
def State.pastBoundary (s : State) (i : SubId) : State :=
  (((s.completeLevels i (s.front.assay[i].span - 1)).publishExps i).applyIngress i
    (s.ks i + s.front.assay[i].span * spanLen * s.decim i)).onAssay i fun y => { y with span := y.span + 1 }

/-- FRONT_END_SPAN_BOUNDARY passes the boundary; where a commit takes its gains there, MASKED follows them (R131). -/
theorem exec_frontEndSpanBoundary {i : SubId} (active : s.active i = true)
    (passed : s.assayPast i (s.front.assay[i].span * spanLen) = true) :
    exec (.frontEndSpanBoundary i) s = .next (s.pastBoundary i) ∨
    ∃ m, exec (.frontEndSpanBoundary i) s = .next ((s.pastBoundary i).onAssyStat i fun y => { y with masked := m }) := by
  change execFrontEndSpanBoundary i s = _ ∨ ∃ m, execFrontEndSpanBoundary i s = _
  unfold execFrontEndSpanBoundary
  dsimp only
  rw [if_pos (by rw [active, passed]; rfl)]
  split
  · split
    · exact .inr ⟨_, rfl⟩
    · exact .inl rfl
  · exact .inl rfl

theorem State.pastBoundary_assay (s : State) (i : SubId) :
    (s.pastBoundary i).front.assay[i].span = s.front.assay[i].span + 1 ∧
    (s.pastBoundary i).front.assay[i].levels = (s.inputs i).foldl (fun (m : SMap AssyLevels) k =>
      SMap.set {} m k (s.front.assay[i].levelOf (s.front.assay[i].span - 1) k)) s.front.assay[i].levels ∧
    (s.pastBoundary i).front.assay[i].stat.lastSpan = BitVec.ofNat 64 (s.front.assay[i].span - 1) := by
  obtain ⟨span, levels, lastSpan⟩ := s.completeLevels_assay i (s.front.assay[i].span - 1)
  rw [State.pastBoundary, State.onAssay_assay, State.applyIngress_front, State.publishExps_assay]
  exact ⟨congrArg (· + 1) span, levels, lastSpan⟩

@[simp] theorem State.pastBoundary_mem (s : State) (i : SubId) : (s.pastBoundary i).mem = s.mem := by
  rw [State.pastBoundary, State.onAssay_mem, State.applyIngress_mem, State.publishExps_mem, State.completeLevels_mem]

/-- FRONT_END_SPAN_BOUNDARY (R22, R132): the levels of the span before the boundary are complete. -/
theorem frontEndSpanBoundary_completes {i : SubId} (active : s.active i = true)
    (passed : s.assayPast i (s.front.assay[i].span * 32768) = true) :
    ∃ t, exec (.frontEndSpanBoundary i) s = .next t ∧ t.front.assay[i].span = s.front.assay[i].span + 1 ∧
      t.front.assay[i].levels = (s.inputs i).foldl (fun (m : SMap AssyLevels) k =>
        SMap.set {} m k (s.front.assay[i].levelOf (s.front.assay[i].span - 1) k)) s.front.assay[i].levels ∧
      t.front.assay[i].stat.lastSpan = BitVec.ofNat 64 (s.front.assay[i].span - 1) ∧ s.sameMemory t := by
  obtain ⟨span, levels, lastSpan⟩ := s.pastBoundary_assay i
  have memory (a : Nat) : (s.pastBoundary i).mem.byte a = s.mem.byte a := by rw [State.pastBoundary_mem]
  rcases exec_frontEndSpanBoundary active passed with next | ⟨m, next⟩
  · exact ⟨_, next, span, levels, lastSpan, memory⟩
  · refine ⟨_, next, ?_⟩
    rw [State.onAssyStat, State.onAssay_assay]
    refine ⟨span, levels, lastSpan, fun a => ?_⟩
    rw [State.onAssay_mem, memory]

/-- Settles O31, clause by clause: what each row leaves alone comes from what the operations it is made of can change. -/
theorem frontEndSteps : Obligations.FrontEndSteps := by
  unfold Obligations.FrontEndSteps
  refine ⟨fun s i sl slot who => sieveSlot_completes, fun s i f rest => xfadeEnd_completes,
    fun s sl a rest => assayFrame_completes, fun s i => ⟨gainCommit_pending, gainCommit_running, gainCommit_idle,
      fun n0 => gainCopyback_completes, frontEndSpanBoundary_completes⟩⟩

end Sys2Proof.Machine
end

section
/-! DELAY_LOAD in which the firmware meets a fault. `Obligations.SteeringCommandsComplete` says of every packet of the right words that
it is ACCEPTED; R336 has a command with an internal fault answered INTERNAL. -/

namespace Sys2Proof.Machine

/-- A DELAY_LOAD in which the firmware meets a fault before it acts changes nothing and is answered INTERNAL (R336; log entry 79). -/
theorem exec_delayLoad_internal {s : State} {b : BenchId} {p : Packet} (ready : s.ready b) (len : p.len ≤ 1024)
    (fault : p.meets = .firmware false) :
    exec (.delayLoad b p) s =
      .next (State.replied b 0x40 p ((s.handed b).raise srcCmdInternal 0, Reply.plain stInternal)) := by
  change Host.Outcome.next (s.hand b 0x40 p fun t => atOnce (cmdDelayLoad b p t)) = _
  rw [State.hand_internal ready len fault, if_neg Bool.false_ne_true]

namespace FaultyDelayLoad

/-- The module in OBSERVE, its benches serving, bench 0 the holder of every OBSERVATION lease, sub-array 0 observing with input
block 0 and a resident DELAY set 0 of order 0. -/
def steered : State :=
  let s := State.reset
  { s with
    bell := { s.bell with alive := true, stat := { s.bell.stat with mode := modeObserve } }
    bench := { s.bench with serving := true, obsHolder := Vector.replicate 4 (some 0) }
    obs := vmod s.obs 0 fun x => { x with state := saObserve }
    cellar := vmod s.cellar 0 fun x => { x with cfg := { x.cfg with blockMask := 1 } }
    tables := [⟨9, 0, 28, 0, [0, 0, 0], .inForce, 0, 0, false⟩] }

/-- DELAY_LOAD of input 0 into set 0 at second 5, during which the firmware meets a fault before it acts. -/
def packet : Packet := ⟨0, 7, [0x00010000, 5, 0, 0, 0, 0, 0], .firmware false⟩

theorem steered_ready : steered.ready 0 := ⟨by decide +kernel, by decide +kernel⟩

/-- The reply that the packet gets: INTERNAL (R336). -/
theorem replies_internal :
    ((State.replied 0 0x40 packet ((steered.handed 0).raise srcCmdInternal 0, Reply.plain stInternal)).benchOf 0).replies =
      [[0x407F0003, 7, 0]] := by decide +kernel

/-- The module with the delay on its schedule, as a DELAY_LOAD that is carried out leaves it (R353). -/
def scheduled : State :=
  (steered.handed 0).onSieve packet.sub fun x =>
    { x with loads := x.loads ++ [⟨packet.time 3, packet.bits 2 8 8, loadEntries packet 0⟩] }

/-- The reply that a DELAY_LOAD carried out gets: ACCEPTED. -/
theorem replies_accepted :
    ((State.replied 0 0x40 packet (scheduled, Reply.plain stAccepted)).benchOf 0).replies = [[0x40010003, 7, 0]] := by
  decide +kernel

end FaultyDelayLoad

open FaultyDelayLoad

/-- Refutes O19: the DELAY_LOAD clause does not ask that nothing go wrong inside the module (`Packet.meets`), as `Packet.sized` does
in the other clauses. A DELAY_LOAD that meets every hypothesis, and in which the firmware meets a fault before it acts, is answered
INTERNAL and not ACCEPTED (R336; log entry 79). -/
theorem not_steeringCommandsComplete : ¬ Obligations.SteeringCommandsComplete := by
  unfold Obligations.SteeringCommandsComplete
  rintro ⟨steering, -⟩
  obtain ⟨-, -, delayLoad, -⟩ := steering steered 0 packet steered_ready (by decide +kernel)
  have claimed : exec (.delayLoad 0 packet) steered =
      .next (State.replied 0 0x40 packet (scheduled, Reply.plain stAccepted)) :=
    delayLoad 0 (loadEntries packet 0) (by decide +kernel) rfl (by decide +kernel) (by decide +kernel) (by decide +kernel)
      (by decide +kernel) (by decide +kernel) (by decide +kernel) (by decide +kernel) (by decide +kernel) (by decide +kernel)
      (by decide +kernel) (by decide +kernel)
  rw [exec_delayLoad_internal steered_ready (by decide +kernel) rfl] at claimed
  have same := congrArg (fun t => (t.benchOf 0).replies) (Host.Outcome.next.inj claimed)
  rw [replies_internal, replies_accepted] at same
  exact absurd same (by decide)

end Sys2Proof.Machine
end

section
/-! One instruction of a Mill engine (R114 to R123). Every opcode's row runs through `State.millStep`; what that does with each
result is said once below, and the rows follow from it. -/

namespace Sys2Proof.Machine

variable {s : State} {e : EngineId} {k : Kernel} {op : Nat} {run : Engine → Kernel → MillWord → (Nat → Nat) → MillRes}

/-! ### Engines -/

@[simp] theorem Engine.waited_regs (x : Engine) (now : Nat) : (x.waited now).regs = x.regs := by
  unfold Engine.waited
  split <;> rfl

@[simp] theorem Engine.postAll_stat (x : Engine) (w : MillWord) : (x.postAll w).stat = x.stat := by
  unfold Engine.postAll
  dsimp only
  split <;> split <;> split <;> rfl

@[simp] theorem Engine.proceed_stat (x : Engine) (jump : Option Nat) : (x.proceed jump).stat = x.stat := by
  cases jump <;> rfl

@[simp] theorem Engine.proceed_regs (x : Engine) (jump : Option Nat) : (x.proceed jump).regs = x.regs := by
  cases jump <;> rfl

/-- An instruction that is over without a fault has changed one slot: the engine's record is as it was. -/
theorem Engine.passOver_done_stat {x z : Engine} {w : MillWord} {n : Fin 16} {m : MillSlot} {out out' : Option (MillSlot × Nat)}
    {j : Option Nat} (done : x.passOver w n m out = .done z out' j) : z.stat = x.stat := by
  unfold Engine.passOver at done
  dsimp only at done
  generalize (if x.passEnds w = true then m.endPass else m) = slot at done
  by_cases range : 31 < slot.e
  · rw [if_pos range] at done
    cases done
  · rw [if_neg range] at done
    obtain ⟨rfl, -, -⟩ := MillRes.done.inj done
    rfl

/-- A LOAD finds no vector while no frame is being loaded and none waits (R119). -/
theorem Engine.loadVec_wait {x : Engine} (idle : x.loading = none) (empty : x.queue = []) (w : MillWord) (wa : List Nat)
    (out : Option (MillSlot × Nat)) : x.loadVec w wa out = .wait := by
  simp only [Engine.loadVec, Engine.nextVec, idle, empty]

/-! ### The module around an engine -/

/-- A change of one engine leaves the others and everything outside the Mill. -/
theorem State.onEngine_onlyEngine (s : State) (e : EngineId) (f : Engine → Engine) : s.onlyEngine e (s.onEngine e f) :=
  ⟨fun _ other => s.onEngine_engine_ne _ _ f other, rfl⟩

/-- So does such a change with free values drawn. -/
theorem State.onEngine_drawn_onlyEngine (s : State) (e : EngineId) (f : Engine → Engine) (n : Nat) :
    s.onlyEngine e ((s.onEngine e f).drawn n) :=
  ⟨fun _ other => s.onEngine_engine_ne _ _ f other, rfl⟩

/-- A faulted engine is in state 2 with its code, and holds no frame (R123). -/
theorem State.millFault_engine (s : State) (e : EngineId) (code : Nat) :
    ((s.millFault e code).engine e).stat.state = 2 ∧
    ((s.millFault e code).engine e).stat.faultCode = BitVec.ofNat 4 code ∧ ((s.millFault e code).engine e).queue = [] := by
  unfold State.millFault
  dsimp only
  rw [State.engine, State.raise_front, ← State.engine, State.onEngine_engine]
  exact ⟨rfl, rfl, rfl⟩

/-- What the Assay is given of a finished frame: its tag, its exponent and its bins (R121). -/
def MillSlot.toAssay (m : MillSlot) (f : Frame) (p : Nat) : AssayIn :=
  ⟨f.sub, f.input, f.chan, f.n, true, m.e, (List.range p).map fun b => SMap.get (0, 0) m.bins b⟩

/-- A finished frame that is no null frame joins the Assay's queue on its slice and is counted (R121). -/
theorem State.millOutput_frame (s : State) (e : EngineId) {m : MillSlot} {f : Frame} (p : Nat) (holds : m.frame = some f)
    (real : f.null = false) :
    (s.millOutput e m p).front.assayIn[sliceOf e] = s.front.assayIn[sliceOf e] ++ [m.toAssay f p] ∧
    ((s.millOutput e m p).engine e).stat.frames = (s.engine e).stat.frames + 1 := by
  unfold State.millOutput
  rw [holds]
  dsimp only
  rw [real, if_neg Bool.false_ne_true]
  constructor
  · simp [State.onEngine, MillSlot.toAssay]
  · rw [State.onEngine_engine]
    rfl

/-! ### One step of an engine -/

/-- Engine `e` runs kernel `k`, and its next instruction is a legal one with opcode `op`. -/
structure State.Issues (s : State) (e : EngineId) (k : Kernel) (op : Nat) : Prop where
  kernel : (s.engine e).kernel = some k
  running : (s.engine e).stat.state = 1
  inside : (s.engine e).pc < k.count
  legal : (k.instr (s.engine e).pc).legal = true
  opcode : (k.instr (s.engine e).pc).op = op

/-- The result of the engine's next instruction under the rule `run`, any wait for input behind it. -/
def State.millRuns (s : State) (e : EngineId) (k : Kernel) (run : Engine → Kernel → MillWord → (Nat → Nat) → MillRes) :
    MillRes :=
  run ((s.engine e).waited s.now) k (k.instr (s.engine e).pc) s.freeNat

/-- A result with the generators after the instruction, where it is carried out (R116). -/
def MillRes.posted (w : MillWord) : MillRes → MillRes
  | .done y out j => .done (y.postAll w) out j
  | r => r

/-- The module after an instruction with the given result: the engine goes on, waits from now if it did not wait yet, or faults; a
frame it finished goes out. -/
def State.millAfter (s : State) (e : EngineId) : MillRes → State
  | .fault code => s.millFault e code
  | .wait => s.onEngine e fun y => { y with waitAt := some (y.waitAt.getD s.now) }
  | .done y none j => (s.onEngine e fun _ => y.proceed j).drawn 256
  | .done y (some (m, p)) j => ((s.onEngine e fun _ => y.proceed j).drawn 256).millOutput e m p

namespace State.Issues

/-- A step under the rule of the opcode that comes next has the result of that rule. -/
theorem millStep_eq (at' : s.Issues e k op) (run : Engine → Kernel → MillWord → (Nat → Nat) → MillRes) :
    s.millStep e op run = s.millAfter e (s.millRuns e k run) := by
  obtain ⟨kernel, running, inside, legal, opcode⟩ := at'
  have assigned : ¬(k.count ≤ (s.engine e).pc ∨ (!(k.instr (s.engine e).pc).legal) = true) := by
    rw [legal]
    exact fun bad => bad.elim (Nat.not_le_of_lt inside) Bool.false_ne_true
  unfold State.millStep State.millRuns
  dsimp only
  rw [kernel]
  dsimp only
  rw [if_neg (not_not_intro running), if_neg assigned, if_neg (not_not_intro opcode)]
  cases run ((s.engine e).waited s.now) k (k.instr (s.engine e).pc) s.freeNat with
  | fault code => rfl
  | wait =>
    refine congrArg (s.onEngine e) (funext fun y => ?_)
    cases y.waitAt <;> rfl
  | done y out j => cases out <;> rfl

/-- A row that steps the engine under such a rule ends as the rule's result says. -/
theorem exec_eq {i : Instr} (at' : s.Issues e k op) (row : exec i s = .next (s.millStep e op run)) {r : MillRes}
    (result : s.millRuns e k run = r) : exec i s = .next (s.millAfter e r) := by
  rw [row, at'.millStep_eq, result]

/-- A row whose instruction is carried out and finishes no frame changes the engine alone. -/
theorem completes {i : Instr} (at' : s.Issues e k op) (row : exec i s = .next (s.millStep e op run)) {y : Engine} {j : Option Nat}
    (done : s.millRuns e k run = .done y none j) :
    ∃ t, exec i s = .next t ∧ t.engine e = y.proceed j ∧ s.onlyEngine e t :=
  ⟨_, at'.exec_eq row done, s.onEngine_engine e _, s.onEngine_drawn_onlyEngine e _ 256⟩

/-- So does a row whose rule leaves the generators to follow. -/
theorem completes_posted {i : Instr} (at' : s.Issues e k op) (row : exec i s = .next (s.millStep e op run)) {w : MillWord}
    {r : MillRes} {y : Engine} {j : Option Nat} (done : r = .done y none j) (posts : s.millRuns e k run = r.posted w) :
    ∃ t, exec i s = .next t ∧ t.engine e = (y.postAll w).proceed j ∧ s.onlyEngine e t :=
  at'.completes row (by rw [posts, done, MillRes.posted])

end State.Issues

/-! ### The rows -/

/-- SETREG (R116): the register takes the low bits of the value (log entry 16). -/
theorem setreg_completes (at' : s.Issues e k opSetreg) {w : MillWord} (fetched : k.instr (s.engine e).pc = w) :
    ∃ t, exec (.setreg e) s = .next t ∧
      t.engine e = (((s.engine e).waited s.now).setReg w.reg w.w3.toNat).proceed none ∧
      (t.engine e).regs = SMap.set 0 (s.engine e).regs w.reg (w.w3.toNat % 2 ^ regWidth (w.reg % 16)) ∧ s.onlyEngine e t := by
  subst fetched
  obtain ⟨t, next, engine, only⟩ := at'.completes (i := .setreg e) rfl rfl
  refine ⟨t, next, engine, ?_, only⟩
  rw [engine, Engine.proceed_regs, Engine.setReg, Engine.waited_regs]

/-- JUMP (R118). -/
theorem jump_completes (at' : s.Issues e k opJump) :
    ∃ t, exec (.jump e) s = .next t ∧
      t.engine e = ((s.engine e).waited s.now).proceed (some (k.instr (s.engine e).pc).target) ∧
      (t.engine e).pc = (k.instr (s.engine e).pc).target ∧ s.onlyEngine e t := by
  obtain ⟨t, next, engine, only⟩ := at'.completes (i := .jump e) rfl rfl
  exact ⟨t, next, engine, by rw [engine]; rfl, only⟩

/-- LOOP with a level free (R117): the level is opened, and its body begins at the next address. -/
theorem loop_completes (at' : s.Issues e k opLoop) (free : ((s.engine e).waited s.now).loops.length < 4) :
    let w := k.instr (s.engine e).pc
    let x := (s.engine e).waited s.now
    ∃ t, exec (.loop e) s = .next t ∧ (t.engine e).pc = x.pc + 1 ∧
      (t.engine e).loops = ⟨x.pc + 1, w.target, w.countM1⟩ :: x.loops ∧ s.onlyEngine e t := by
  obtain ⟨t, next, engine, only⟩ := at'.completes (i := .loop e) rfl (if_neg (Nat.not_le_of_lt free))
  exact ⟨t, next, by rw [engine]; rfl, by rw [engine]; rfl, only⟩

/-- A LOOP that would open a fifth level faults with LOOP_DEPTH (R117, R123). -/
theorem loop_faults (at' : s.Issues e k opLoop) (full : 4 ≤ ((s.engine e).waited s.now).loops.length) :
    ∃ t, exec (.loop e) s = .next t ∧ (t.engine e).stat.state = 2 ∧ (t.engine e).stat.faultCode = 2 ∧
      (t.engine e).queue = [] :=
  ⟨_, at'.exec_eq (i := .loop e) (r := .fault 2) rfl (if_pos full), s.millFault_engine e 2⟩

/-- LOAD with no frame to take (R119): the engine stays where it is and waits, from now or from when it began to. -/
theorem load_waits (at' : s.Issues e k opLoad) (idle : ((s.engine e).waited s.now).loading = none)
    (empty : ((s.engine e).waited s.now).queue = []) :
    ∃ t, exec (.load e) s = .next t ∧ (t.engine e).waitAt = some ((s.engine e).waitAt.getD s.now) ∧
      (t.engine e).pc = (s.engine e).pc ∧ s.onlyEngine e t := by
  refine ⟨_, at'.exec_eq (i := .load e) (r := .wait) rfl ?_, ?_⟩
  · dsimp only [State.millRuns]
    rw [Engine.loadVec_wait idle empty]
  · rw [State.millAfter, State.onEngine_engine]
    exact ⟨rfl, rfl, s.onEngine_onlyEngine e _⟩

/-- UNLOAD of the last vector of a frame (R121): the frame goes to the Assay and is counted. -/
theorem unload_outputs (at' : s.Issues e k opUnload) {w : MillWord} {x y z : Engine} {m : MillSlot} {p : Nat} {f : Frame}
    {j : Option Nat} (fetched : k.instr (s.engine e).pc = w) (before : (s.engine e).waited s.now = x)
    (unloaded : x.unloadVec k w (x.vecAddrs w.rdAg s.freeNat) = (y, some (m, p))) (holds : m.frame = some f)
    (real : f.null = false)
    (ended : y.passOver w (x.outSlotOf w) (y.slots[x.outSlotOf w]) (some (m, p)) = .done z (some (m, p)) j) :
    ∃ t, exec (.unload e) s = .next t ∧
      t.front.assayIn[sliceOf e] = s.front.assayIn[sliceOf e] ++ [m.toAssay f p] ∧
      (t.engine e).stat.frames = y.stat.frames + 1 := by
  subst fetched before
  refine ⟨_, at'.exec_eq (i := .unload e) (r := .done (z.postAll (k.instr (s.engine e).pc)) (some (m, p)) j) rfl ?_, ?_⟩
  · dsimp only [State.millRuns]
    rw [unloaded]
    dsimp only
    rw [ended]
  · rw [State.millAfter]
    obtain ⟨queued, counted⟩ :=
      State.millOutput_frame ((s.onEngine e fun _ => (z.postAll _).proceed j).drawn 256) e p holds real
    refine ⟨queued, ?_⟩
    rw [counted, State.engine, State.drawn_front, ← State.engine, State.onEngine_engine, Engine.proceed_stat,
      Engine.postAll_stat, Engine.passOver_done_stat ended]

/-- UNLOAD of a vector that is not a frame's last, or of an empty slot (R121): the engine goes on. -/
theorem unload_completes (at' : s.Issues e k opUnload) {w : MillWord} {x y z : Engine} {j : Option Nat}
    (fetched : k.instr (s.engine e).pc = w) (before : (s.engine e).waited s.now = x)
    (unloaded : x.unloadVec k w (x.vecAddrs w.rdAg s.freeNat) = (y, none))
    (ended : y.passOver w (x.outSlotOf w) (y.slots[x.outSlotOf w]) none = .done z none j) :
    ∃ t, exec (.unload e) s = .next t ∧ t.engine e = (z.postAll w).proceed j ∧ s.onlyEngine e t := by
  subst fetched before
  refine at'.completes_posted rfl ended ?_
  dsimp only [State.millRuns]
  rw [unloaded]
  rfl

/-- XFER with two generators and input at hand (R118): the UNLOAD, then the LOAD into the engine that it leaves. -/
theorem xfer_completes (at' : s.Issues e k opXfer) {w : MillWord} {x y z : Engine} {j : Option Nat}
    (fetched : k.instr (s.engine e).pc = w) (before : (s.engine e).waited s.now = x)
    (input : ¬(x.loading = none ∧ x.queue = [])) (apart : w.rdAg ≠ w.wrAg)
    (unloaded : x.unloadVec k w (x.vecAddrs w.rdAg s.freeNat) = (y, none))
    (loaded : y.loadVec w (x.vecAddrs w.wrAg fun n => s.freeNat (64 + n)) none = .done z none j) :
    ∃ t, exec (.xfer e) s = .next t ∧ t.engine e = (z.postAll w).proceed j ∧ s.onlyEngine e t := by
  subst fetched before
  have atHand : ¬(((s.engine e).waited s.now).loading.isNone ∧ ((s.engine e).waited s.now).queue.isEmpty) := by
    rwa [Option.isNone_iff_eq_none, List.isEmpty_iff]
  refine at'.completes_posted rfl loaded ?_
  dsimp only [State.millRuns]
  rw [if_neg atHand, if_neg apart, unloaded]
  rfl

/-- NULL_FRAME (R122): an engine that has waited 4096 cycles for input is given a frame of zeros. -/
theorem nullFrame_completes (kernel : (s.engine e).kernel = some k) (running : (s.engine e).stat.state = 1) {since : Nat}
    (waits : (s.engine e).waitAt = some since) (empty : (s.engine e).queue = []) (long : 4096 ≤ millCycles (s.now - since)) :
    ∃ t f, exec (.nullFrame e) s = .next t ∧ (t.engine e).queue = [f] ∧ f.null = true ∧ f.data.length = 2 ^ k.pLog2 ∧
      s.onlyEngine e t := by
  change ∃ t f, execNullFrame e s = _ ∧ _
  unfold execNullFrame
  dsimp only
  rw [kernel, waits]
  dsimp only
  rw [if_pos ⟨running, by rw [empty]; rfl, long⟩]
  refine ⟨_, ⟨(s.engine e).stat.subarray.toFin, 0, 0, 0, true, List.replicate (2 ^ k.pLog2) (0, 0)⟩, rfl, ?_, rfl,
    List.length_replicate, s.onEngine_onlyEngine e _⟩
  rw [State.onEngine_engine]

/-- Settles O34: each row is `State.millStep` at the opcode that comes next, so it has the result of its rule. -/
theorem millInstructions : Obligations.MillInstructions := by
  unfold Obligations.MillInstructions
  intro s e k kernel running inside legal w x
  have issues {op : Nat} (opcode : w.op = op) : s.Issues e k op := ⟨kernel, running, inside, legal, opcode⟩
  exact ⟨fun nop => (issues nop).completes rfl rfl, fun jump => jump_completes (issues jump),
    fun setreg => setreg_completes (issues setreg) rfl, fun loop => loop_completes (issues loop),
    fun loop => loop_faults (issues loop), fun y j move done => (issues move).completes_posted rfl done rfl,
    fun y j bf4 done => (issues bf4).completes_posted rfl done rfl,
    fun y j bf2 done => (issues bf2).completes_posted rfl done rfl,
    fun y j cmul done => (issues cmul).completes_posted rfl done rfl,
    fun y j load done => (issues load).completes_posted rfl done rfl, fun load => load_waits (issues load),
    fun y z j unload => unload_completes (issues unload) rfl rfl,
    fun y z m p f j unload => unload_outputs (issues unload) rfl rfl,
    fun y z j xfer => xfer_completes (issues xfer) rfl rfl, fun since => nullFrame_completes kernel running⟩

end Sys2Proof.Machine
end

section
/-! The Cellar and the Shelf: when a span becomes available, when an overrun bay passes to its new span, what a staged unit holds and
queues, and what an error of a Shelf word does (R138, R141, R149). -/

namespace Sys2Proof.Machine

variable {s t : State} {i : SubId}

/-! ### What the parts of a step leave of the Cellar -/

@[simp] theorem State.raise_cellar (s : State) (n : SourceId) (detail : Word) (sub : Option SubId) :
    (s.raise n detail sub).cellar = s.cellar := by
  rw [(State.raise_only s n detail sub).1]

@[simp] theorem State.subEvent_cellar (s : State) (i : SubId) (code span detail : Nat) :
    (s.subEvent i code span detail).cellar = s.cellar := by
  obtain ⟨x, y, said⟩ := s.subEvent_fmt_ledger i code span detail
  rw [said]

@[simp] theorem State.setBuffer_cellar (s : State) (i : SubId) (n : Fin 2) (b : Option Staging) :
    (s.setBuffer i n b).cellar[i] = { s.cellar[i] with buffers := vset s.cellar[i].buffers n b } := by
  rw [State.setBuffer, State.onCellar_cellar]

/-- A capture that counts a span touches its own record (R144). -/
theorem State.captureSpan_record (s : State) (i : SubId) (span : Nat) :
    (s.captureSpan i span).cellar = s.cellar ∧ (s.captureSpan i span).front.combine = s.front.combine := by
  unfold State.captureSpan
  dsimp only
  split
  · exact ⟨rfl, rfl⟩
  · split
    · rw [State.subEvent_cellar, State.subEvent_front]
      exact ⟨rfl, rfl⟩
    · exact ⟨rfl, rfl⟩

/-! ### Open granules -/

theorem State.onCombine_combine (s : State) (sl k : SliceId) (f : List OpenGran → List OpenGran) :
    (s.onCombine sl f).combine k = if sl = k then f (s.combine k) else s.combine k := by
  simp [State.combine, State.onCombine, Fin.ext_iff]

/-- No combine buffer keeps an open granule of a span whose granules leave. -/
theorem State.dropGranules_combine (s : State) (i : SubId) (span : Nat) (sl : SliceId) :
    (s.dropGranules i span).combine sl = (s.combine sl).filter fun g => !(g.sub == i && g.span == span) := by
  have slices : allFin 4 = [0, 1, 2, 3] := rfl
  have which : sl = 0 ∨ sl = 1 ∨ sl = 2 ∨ sl = 3 := by revert sl; decide
  unfold State.dropGranules
  rw [slices]
  simp only [List.foldl_cons, List.foldl_nil, State.onCombine_combine]
  rcases which with rfl | rfl | rfl | rfl <;> rfl

@[simp] theorem State.dropGranules_cellar (s : State) (i : SubId) (span : Nat) : (s.dropGranules i span).cellar = s.cellar := by
  refine foldl_keeps (fun t : State => t.cellar = s.cellar) _ ?_ _ _ rfl
  intro t sl kept
  exact kept

/-- The combine buffers keep no granule of a span that is closed (R138). -/
theorem State.closeSpan_combine (s : State) (i : SubId) (o : OpenSpan) (sl : SliceId) :
    ∀ g ∈ (s.closeSpan i o).combine sl, ¬(g.sub = i ∧ g.span = o.span) := by
  rintro g inside ⟨sub, same⟩
  unfold State.closeSpan at inside
  dsimp only at inside
  rw [State.combine, State.onCellStat_front, ← State.combine, State.dropGranules_combine] at inside
  have other := (List.mem_filter.mp inside).2
  simp [sub, same] at other

/-! ### Availability (R138) -/

theorem State.spanDue_iff : s.spanDue i = true ↔ ∃ e ∈ s.cellar[i].ready, e.1 = s.cellar[i].avail ∧ e.2 + 100000 ≤ s.now := by
  simp [State.spanDue]

/-- The spans that are noted as filled are not yet available. -/
theorem State.noteFilled_ready (s : State) (i : SubId) :
    (s.noteFilled i).cellar[i].avail = s.cellar[i].avail ∧ (s.noteFilled i).cellar[i].opened = s.cellar[i].opened ∧
      ∀ e ∈ (s.noteFilled i).cellar[i].ready, e ∈ s.cellar[i].ready ∨ s.cellar[i].avail ≤ e.1 := by
  unfold State.noteFilled
  dsimp only
  split
  · exact ⟨rfl, rfl, fun e noted => .inl noted⟩
  · rw [State.onCellar_cellar]
    refine ⟨rfl, rfl, fun e noted => ?_⟩
    refine (List.mem_append.mp noted).imp_right fun fresh => ?_
    simp only [List.mem_map, List.mem_filter] at fresh
    obtain ⟨_, ⟨⟨k, -, rfl⟩, -⟩, rfl⟩ := fresh
    exact Nat.le_add_right _ k

/-- The Cellar's account once a span is available: it is open no more, and no longer among those that wait (R138). -/
def CellarSub.passed (x : CellarSub) (span now : Nat) : CellarSub :=
  { x with opened := x.opened.filter fun y => y.span != span, avail := span + 1
           ready := x.ready.filter fun e => e.1 != span, availAt := x.availAt ++ [(span, now)] }

/-- The module once the granules of a span that becomes available are written. -/
def State.closed (s : State) (i : SubId) (span : Nat) : State :=
  match s.cellar[i].openOf span with
  | some o => s.closeSpan i o
  | none => s

theorem State.makeAvailable_eq (s : State) (i : SubId) (span : Nat) :
    s.makeAvailable i span =
      (((((s.closed i span).onCellar i fun x => x.passed span s.now).captureSpan i span).showPending i).noteFilled i) := rfl

theorem State.closed_combine {span : Nat} {o : OpenSpan} (held : s.cellar[i].openOf span = some o) (sl : SliceId) :
    ∀ g ∈ (s.closed i span).combine sl, ¬(g.sub = i ∧ g.span = span) := by
  have same : o.span = span := by simpa using List.find?_some held
  have kept := s.closeSpan_combine i o sl
  rwa [same, show s.closeSpan i o = s.closed i span by rw [State.closed, held]] at kept

theorem State.makeAvailable_combine (s : State) (i : SubId) (span : Nat) (sl : SliceId) :
    (s.makeAvailable i span).combine sl = (s.closed i span).combine sl := by
  rw [State.makeAvailable_eq, State.combine, State.noteFilled_front, State.showPending, State.onCellStat_front,
    (State.captureSpan_record ..).2]
  rfl

theorem State.makeAvailable_account (s : State) (i : SubId) (span : Nat) : let t := s.makeAvailable i span
    t.cellar[i].avail = span + 1 ∧ t.cellar[i].openOf span = none ∧ ∀ e ∈ t.cellar[i].ready, e.1 ≠ span := by
  rw [State.makeAvailable_eq]
  generalize shown : State.showPending _ i = u
  have account : u.cellar[i].avail = span + 1 ∧
      u.cellar[i].opened = (s.closed i span).cellar[i].opened.filter (fun y => y.span != span) ∧
      u.cellar[i].ready = (s.closed i span).cellar[i].ready.filter (fun e => e.1 != span) := by
    rw [← shown, State.showPending, State.onCellStat, State.onCellar_cellar, (State.captureSpan_record ..).1,
      State.onCellar_cellar]
    exact ⟨rfl, rfl, rfl⟩
  obtain ⟨avail, opened, ready⟩ := account
  obtain ⟨availKept, openedKept, readyGrown⟩ := u.noteFilled_ready i
  refine ⟨availKept.trans avail, ?_, fun e listed => ?_⟩
  · rw [CellarSub.openOf, openedKept, opened]
    simp
  · rcases readyGrown e listed with old | fresh
    · rw [ready] at old
      simpa using (List.mem_filter.mp old).2
    · omega

/-- SPAN_AVAILABLE (R138): 100 µs after the next span is filled it is available, and nothing of it is open any more. -/
theorem spanAvailable_completes {since : Nat} (filled : (s.cellar[i].avail, since) ∈ s.cellar[i].ready)
    (waited : since + 100000 ≤ s.now) :
    ∃ t, exec (.spanAvailable i) s = .next t ∧ t.cellar[i].avail = s.cellar[i].avail + 1 ∧
      t.cellar[i].openOf s.cellar[i].avail = none ∧ (∀ e ∈ t.cellar[i].ready, e.1 ≠ s.cellar[i].avail) ∧
      (∀ o, s.cellar[i].openOf s.cellar[i].avail = some o → ∀ sl : SliceId, ∀ g ∈ t.combine sl,
        ¬(g.sub = i ∧ g.span = s.cellar[i].avail)) := by
  have due : s.spanDue i = true := State.spanDue_iff.mpr ⟨_, filled, rfl, waited⟩
  obtain ⟨avail, closed, ready⟩ := s.makeAvailable_account i s.cellar[i].avail
  refine ⟨_, congrArg Host.Outcome.next (if_pos due), avail, closed, ready, fun o held sl => ?_⟩
  rw [State.makeAvailable_combine]
  exact State.closed_combine held sl

/-- The next span waits while its 100 µs have not passed. -/
theorem spanAvailable_waits (early : ∀ e ∈ s.cellar[i].ready, e.1 = s.cellar[i].avail → s.now < e.2 + 100000) :
    exec (.spanAvailable i) s = .next s := by
  have notDue : ¬s.spanDue i = true := by
    rw [State.spanDue_iff]
    rintro ⟨e, ready, isNext, waited⟩
    exact absurd (early e ready isNext) (Nat.not_lt.mpr waited)
  exact congrArg Host.Outcome.next (if_neg notDue)

/-! ### Overruns (R141) -/

/-- A span that is condemned is open no more, and counts as overrun. -/
theorem State.condemn_account (s : State) (i : SubId) (old : Nat) :
    (s.condemn i old).cellar[i].opened = s.cellar[i].opened.filter (fun o => o.span != old) ∧
      (s.condemn i old).cellar[i].stat.overrunSpans = s.cellar[i].stat.overrunSpans + 1 := by
  unfold State.condemn
  rw [State.subEvent_cellar, State.raise_cellar, State.onCellar_cellar, State.dropGranules_cellar]
  exact ⟨rfl, rfl⟩

/-- CONDEMN (R141): no copy reads the bay any more, so the span that took it is open there and the overrun one is condemned. -/
theorem condemn_completes {v : Overrun} (overrun : s.cellar[i].overrun = some v) (free : s.cellar[i].copying v.old = false) :
    let t := (s.condemn i v.old).openAt i v.new v.bay
    exec (.condemn i) s = .next (((t.flushFull i).noteFilled i).settled i) ∧
      t.cellar[i].next = v.new + 1 ∧ t.cellar[i].overrun = none ∧ (t.cellar[i].openOf v.old = none ∨ v.old = v.new) ∧
      t.cellar[i].stat.overrunSpans = s.cellar[i].stat.overrunSpans + 1 := by
  obtain ⟨opened, counted⟩ := s.condemn_account i v.old
  refine ⟨?_, ?_⟩
  · change execCondemn i s = _
    unfold execCondemn
    rw [overrun]
    dsimp only
    rw [if_neg (by rw [free]; exact Bool.false_ne_true)]
  · rw [State.openAt, State.onCellar_cellar]
    refine ⟨rfl, rfl, ?_, counted⟩
    by_cases same : v.old = v.new
    · exact .inr same
    · refine .inl ?_
      unfold CellarSub.openOf
      dsimp only
      rw [opened]
      simp [Ne.symm same]

/-- While a staging copy still reads the bay, the overrun waits. -/
theorem condemn_waits {v : Overrun} (overrun : s.cellar[i].overrun = some v) (copying : s.cellar[i].copying v.old = true) :
    exec (.condemn i) s = .next s := by
  change execCondemn i s = _
  unfold execCondemn
  rw [overrun]
  dsimp only
  rw [if_pos copying]

/-! ### The end of a copy (R149) -/

/-- A read of the Granary touches the Granary's own account alone (R245, R246, R253). -/
theorem State.granRead_gran (s : State) (a n : Nat) : ∃ x, (s.granRead a n).1 = { s with gran := x } := by
  refine foldl_keeps (fun r : State × Option (List Byte) => ∃ x, r.1 = { s with gran := x }) _ ?_ _ _ ⟨s.gran, rfl⟩
  rintro ⟨_, bytes⟩ e ⟨x, rfl⟩
  dsimp only
  unfold State.granuleRead
  dsimp only
  split <;> exact ⟨_, rfl⟩

/-- The jobs of a unit come from the plan and the size of the units (R158). -/
theorem State.jobsOf_congr (plan : t.loom[i].plan = s.loom[i].plan) (cfg : t.cellar[i].cfg = s.cellar[i].cfg) (span u : Nat) :
    t.jobsOf i span u = s.jobsOf i span u := by
  simp only [State.jobsOf, State.unitParts, State.slicesOf, State.halves, plan, cfg]

/-- The beam jobs of a unit come from the beams and the sub-array's blocks (R219). -/
theorem State.beamJobsOf_congr (cfg : t.cellar[i].cfg = s.cellar[i].cfg) (beams : t.beam[i].cfg = s.beam[i].cfg) (span u : Nat) :
    t.beamJobsOf i span u = s.beamJobsOf i span u := by
  simp only [State.beamJobsOf, State.unitParts, State.beams, State.nb, State.blocks, State.halves, cfg, beams]

/-- The Loom's queues of a sub-array hold the same jobs. -/
def State.SameQueues (i : SubId) (s t : State) : Prop :=
  t.loom[i].queue = s.loom[i].queue ∧ t.loom[i].beamQueue = s.loom[i].beamQueue

theorem State.SameQueues.trans {u : State} (h : s.SameQueues i t) (k : t.SameQueues i u) : s.SameQueues i u :=
  ⟨k.1.trans h.1, k.2.trans h.2⟩

theorem State.onLoom_sameQueues {f : LoomSub → LoomSub} (queue : ∀ x, (f x).queue = x.queue)
    (beams : ∀ x, (f x).beamQueue = x.beamQueue) : s.SameQueues i (s.onLoom i f) := by
  unfold State.SameQueues
  rw [State.onLoom_loom]
  exact ⟨queue _, beams _⟩

theorem State.showFine_sameQueues (s : State) (i : SubId) : s.SameQueues i (s.showFine i) := by
  unfold State.showFine
  dsimp only
  split
  · exact ⟨rfl, rfl⟩
  · exact State.onLoom_sameQueues (fun _ => rfl) fun _ => rfl

theorem State.noteFinished_sameQueues (s : State) (i : SubId) : s.SameQueues i (s.noteFinished i) := by
  unfold State.noteFinished
  dsimp only
  split
  · split
    · refine State.SameQueues.trans ?_ (t := s.onLoom i fun y => { y with finishAt := some s.now }) ⟨rfl, rfl⟩
      exact State.onLoom_sameQueues (fun _ => rfl) fun _ => rfl
    · exact ⟨rfl, rfl⟩
  · exact ⟨rfl, rfl⟩

/-- What follows a settled job leaves the Loom's queues (R162, R221). -/
theorem State.settled_sameQueues (s : State) (i : SubId) : s.SameQueues i (s.settled i) := by
  obtain ⟨x, released⟩ := s.releaseBuffers_cellar i
  have kept : s.SameQueues i (s.releaseBuffers i) := by
    rw [released]
    exact ⟨rfl, rfl⟩
  exact (kept.trans (State.showFine_sameQueues ..)).trans (State.noteFinished_sameQueues ..)

@[simp] theorem State.settled_mem (s : State) (i : SubId) : (s.settled i).mem = s.mem := (s.settled_slotOnly i).mem

/-- The module once the bytes of a unit are in its buffer. -/
def State.unitCopied (s : State) (i : SubId) (n : Fin 2) (g : Staging) (data : List Byte) : State :=
  (({ s with mem := s.mem.store (s.shelfAddr i n) data }).setBuffer i n (some { g with staged := true })).endShelfWait i

/-- The module once the valid samples and the odd codes of a staged unit are counted. -/
def State.unitCounted (s : State) (i : SubId) (n : Fin 2) (u : Nat) : State :=
  ((s.countValid i n u).markFlags i n u).onLoomStat i fun x => { x with oddCodes := x.oddCodes + BitVec.ofNat 32 (s.oddCodes i n) }

/-- The module once the jobs of a staged unit have joined the queues. -/
def State.unitQueued (s : State) (i : SubId) (span u : Nat) : State :=
  s.onLoom i fun x => { x with queue := x.queue ++ s.jobsOf i span u, beamQueue := x.beamQueue ++ s.beamJobsOf i span u }

/-- Where the bytes of a unit lie in a bay (R136, R149). -/
def State.unitAddr (s : State) (i : SubId) (bay u : Nat) : Nat :=
  s.bayAddr i bay + ((s.unitParts i u).1 * 512 + 64 * (s.unitParts i u).2.1) * s.nb i * s.brick i +
    (s.unitParts i u).2.2 * s.cellar[i].cfg.shelfUnit.toNat

/-- A unit that is staged for the first time, from a Granary that answers with its bytes. -/
theorem State.stageUnit_eq {n : Fin 2} {g : Staging} {bay : Nat} {u : State} {data : List Byte} (fresh : g.again = false)
    (source : s.cellar[i].sourceBay g.span = some bay)
    (read : s.granRead (s.unitAddr i bay g.unit) s.cellar[i].cfg.shelfUnit.toNat = (u, some data)) :
    s.stageUnit i n g = ((u.unitCopied i n g data).unitCounted i n g.unit).unitQueued i g.span g.unit := by
  -- A variable in the Granary's place: reducing the model's own read would unfold the subtraction of `granBase`.
  obtain ⟨answers, same⟩ : ∃ answers, s.granRead = answers := ⟨_, rfl⟩
  unfold State.stageUnit
  rw [same] at read ⊢
  rw [source]
  dsimp only
  unfold State.unitAddr at read
  rw [read]
  dsimp only
  rw [if_neg (by rw [fresh]; exact Bool.false_ne_true)]
  rfl

/-- Counting touches the Ledger's counts, the beams' flags and the Loom's counter (R156, R163, R230). -/
theorem State.unitCounted_keeps (s : State) (i : SubId) (n : Fin 2) (u : Nat) : let t := s.unitCounted i n u
    t.mem = s.mem ∧ t.cellar = s.cellar ∧ t.beam[i].cfg = s.beam[i].cfg ∧ t.loom[i].plan = s.loom[i].plan ∧
      s.SameQueues i t := by
  have counted : ∃ x, s.countValid i n u = { s with ledger := x } := by
    unfold State.countValid
    dsimp only
    split <;> exact ⟨_, rfl⟩
  obtain ⟨x, counted⟩ := counted
  have marked : ∃ y, s.unitCounted i n u = ({ s with ledger := x, beam := y }).onLoomStat i (fun x =>
      { x with oddCodes := x.oddCodes + BitVec.ofNat 32 (s.oddCodes i n) }) ∧ y[i].cfg = s.beam[i].cfg := by
    unfold State.unitCounted State.markFlags
    rw [counted]
    split
    · exact ⟨_, rfl, rfl⟩
    · refine ⟨_, rfl, ?_⟩
      simp
  obtain ⟨y, marked, cfg⟩ := marked
  dsimp only
  unfold State.SameQueues
  rw [marked, State.onLoomStat, State.onLoom_loom]
  exact ⟨rfl, rfl, cfg, rfl, rfl, rfl⟩

theorem State.unitCopied_mem (s : State) (i : SubId) (n : Fin 2) (g : Staging) (data : List Byte) :
    (s.unitCopied i n g data).mem = s.mem.store (s.shelfAddr i n) data := rfl

theorem State.unitCopied_keeps (s : State) (i : SubId) (n : Fin 2) (g : Staging) (data : List Byte) :
    let t := s.unitCopied i n g data
    t.cellar[i].cfg = s.cellar[i].cfg ∧ t.loom[i].plan = s.loom[i].plan ∧ t.beam = s.beam ∧ s.SameQueues i t := by
  unfold State.unitCopied State.endShelfWait State.SameQueues
  dsimp only
  rw [State.onLoom_loom, State.onLoom_cellar, State.setBuffer_cellar]
  exact ⟨rfl, rfl, rfl, rfl, rfl⟩

/-- The copy that is in progress in buffer 0 alone ends with its unit. -/
theorem exec_unitStaged {g : Staging} (filling : s.cellar[i].buffers[(0 : Fin 2)] = some g) (copying : g.staged = false)
    (fresh : g.again = false) (free : s.cellar[i].buffers[(1 : Fin 2)] = none) :
    exec (.unitStaged i) s = .next ((s.stageUnit i 0 g).settled i) := by
  have buffers : allFin 2 = [0, 1] := rfl
  change execUnitStaged i s = _
  unfold execUnitStaged
  rw [buffers, List.filterMap_cons, List.filterMap_cons, List.filterMap_nil, filling, free]
  simp [copying, fresh]

/-- A unit staged for the first time: its bytes are in the buffer, and its jobs follow those that wait. -/
theorem State.stageUnit_stages {n : Fin 2} {u : State} {g : Staging} {bay : Nat} {data : List Byte} (fresh : g.again = false)
    (source : s.cellar[i].sourceBay g.span = some bay)
    (read : s.granRead (s.unitAddr i bay g.unit) s.cellar[i].cfg.shelfUnit.toNat = (u, some data)) :
    let t := s.stageUnit i n g
    t.mem = s.mem.store (s.shelfAddr i n) data ∧ t.loom[i].queue = s.loom[i].queue ++ s.jobsOf i g.span g.unit ∧
      t.loom[i].beamQueue = s.loom[i].beamQueue ++ s.beamJobsOf i g.span g.unit := by
  obtain ⟨x, touched⟩ := s.granRead_gran (s.unitAddr i bay g.unit) s.cellar[i].cfg.shelfUnit.toNat
  rw [read] at touched
  dsimp only
  rw [State.stageUnit_eq fresh source read, show u = { s with gran := x } from touched]
  have mem := State.unitCopied_mem { s with gran := x } i n g data
  obtain ⟨cfg, plan, beam, queue, beams⟩ := State.unitCopied_keeps { s with gran := x } i n g data
  generalize State.unitCopied { s with gran := x } i n g data = v at *
  obtain ⟨memKept, cellarKept, beamKept, planKept, queueKept, beamsKept⟩ := v.unitCounted_keeps i n g.unit
  generalize v.unitCounted i n g.unit = w at *
  have sameCfg : w.cellar[i].cfg = s.cellar[i].cfg := by rw [cellarKept, cfg]
  rw [State.unitQueued, State.onLoom_loom, State.onLoom_mem]
  dsimp only
  rw [State.jobsOf_congr (planKept.trans plan) sameCfg, State.beamJobsOf_congr sameCfg (beamKept.trans (by rw [beam])),
    memKept, queueKept, beamsKept]
  exact ⟨mem, congrArg (· ++ _) queue, congrArg (· ++ _) beams⟩

/-- UNIT_STAGED (R149): the buffer holds the bytes of the bay, and the unit's jobs follow those that wait. -/
theorem unitStaged_completes {u : State} {g : Staging} {bay : Nat} {data : List Byte} (canonical : Memory.wf s.mem = true)
    (filling : s.cellar[i].buffers[(0 : Fin 2)] = some g) (copying : g.staged = false) (fresh : g.again = false)
    (free : s.cellar[i].buffers[(1 : Fin 2)] = none) (source : s.cellar[i].sourceBay g.span = some bay)
    (read : s.granRead (s.unitAddr i bay g.unit) s.cellar[i].cfg.shelfUnit.toNat = (u, some data)) :
    ∃ t, exec (.unitStaged i) s = .next t ∧ t.mem.load (s.shelfAddr i 0) data.length = data ∧
      (∀ a, a < s.shelfAddr i 0 ∨ s.shelfAddr i 0 + data.length ≤ a → t.mem.byte a = s.mem.byte a) ∧
      t.loom[i].queue = s.loom[i].queue ++ s.jobsOf i g.span g.unit ∧
      t.loom[i].beamQueue = s.loom[i].beamQueue ++ s.beamJobsOf i g.span g.unit := by
  obtain ⟨mem, queue, beams⟩ := State.stageUnit_stages (n := 0) fresh source read
  obtain ⟨queueKept, beamsKept⟩ := (s.stageUnit i 0 g).settled_sameQueues i
  refine ⟨_, exec_unitStaged filling copying fresh free, ?_, fun a outside => ?_, queueKept.trans queue, beamsKept.trans beams⟩
  · rw [State.settled_mem, mem, Memory.load_store canonical]
  · rw [State.settled_mem, mem, Memory.byte_store_out outside]

/-! ### Uncorrectable Shelf errors (R149) -/

/-- Jobs that are abandoned leave their tiles, and their dumps count in the Ledger (R189). -/
theorem State.abandonUnits_tiles_ledger (s : State) (i : SubId) (mine : Nat → Nat → Bool) :
    ∃ x y, (s.abandonUnits i mine).1 = { s with tiles := x, ledger := y } := by
  refine foldl_keeps (fun r : State × List Job => ∃ x y, r.1 = { s with tiles := x, ledger := y }) _ ?_ _ _ ⟨s.tiles, s.ledger, rfl⟩
  rintro ⟨_, jobs⟩ tile ⟨x, y, rfl⟩
  dsimp only
  split
  · split <;> exact ⟨_, _, rfl⟩
  · exact ⟨_, _, rfl⟩

theorem State.clearStore_beam (s : State) (i : SubId) (span u : Nat) : ∃ x, s.clearStore i span u = { s with beam := x } := ⟨_, rfl⟩

/-- Staging a unit again marks its buffer and counts (R149); memory stays. -/
theorem State.restage_effect (s : State) (i : SubId) (n : Fin 2) (g : Staging) : let t := s.restage i n g
    t.cellar[i].buffers[n] = some { g with staged := false, again := true } ∧
      t.cellar[i].stat = { s.cellar[i].stat with shelfRestage := s.cellar[i].stat.shelfRestage + 1 } ∧ t.mem = s.mem := by
  obtain ⟨x, y, abandoned⟩ := State.abandonUnits_tiles_ledger (s.setBuffer i n (some { g with staged := false, again := true })) i
    fun span u => span == g.span && u == g.unit
  unfold State.restage
  dsimp only
  rw [State.onCellStat, State.onCellar_cellar, State.onCellar_mem]
  obtain ⟨z, cleared⟩ := State.clearStore_beam (State.onLoom _ i _) i g.span g.unit
  rw [cleared]
  dsimp only
  rw [State.onLoom_cellar, State.onLoom_mem, State.onLoom_cellar, State.onLoom_mem, abandoned]
  dsimp only
  rw [State.setBuffer_cellar]
  refine ⟨?_, rfl, rfl⟩
  simp

@[simp] theorem State.loseJob_mem (s : State) (i : SubId) (j : Job) (held : Bool) : (s.loseJob i j held).mem = s.mem := by
  unfold State.loseJob
  dsimp only
  rw [State.raise_mem]
  rfl

@[simp] theorem State.loseBeam_mem (s : State) (i : SubId) (j : BeamJob) : (s.loseBeam i j).mem = s.mem := by
  unfold State.loseBeam
  dsimp only
  rw [State.raise_mem, State.onBeam_mem]

@[simp] theorem State.markLost_mem (s : State) (i : SubId) (span f c : Nat) : (s.markLost i span f c).mem = s.mem := by
  unfold State.markLost
  split <;> rfl

/-- A unit that is lost leaves memory alone, whatever becomes of its jobs (R142, R178, R222). -/
@[simp] theorem State.loseUnit_mem (s : State) (i : SubId) (g : Staging) : (s.loseUnit i g).mem = s.mem := by
  unfold State.loseUnit
  dsimp only
  rw [State.onCellar_mem, State.markLost_mem]
  obtain ⟨x, cleared⟩ := State.clearStore_beam (State.onLedger _ i _) i g.span g.unit
  rw [cleared]
  dsimp only
  rw [State.onLedger_mem]
  obtain ⟨y, z, abandoned⟩ := s.abandonUnits_tiles_ledger i fun span u => span == g.span && u / s.halves i == g.unit / s.halves i
  split
  · refine foldl_keeps (fun t : State => t.mem = s.mem) _ (fun t j kept => by rw [State.loseBeam_mem, kept]) _ _ ?_
    refine foldl_keeps (fun t : State => t.mem = s.mem) _ (fun t j kept => by rw [State.loseJob_mem, kept]) _ _ ?_
    rw [State.onLoom_mem, abandoned]
  · rw [State.onLoom_mem, abandoned]

theorem State.halves_pos (s : State) (i : SubId) : 0 < s.halves i := by
  unfold State.halves
  split <;> decide

/-- The unit that is lost is among the condemned ones, with its whole chunk (R142). -/
theorem State.loseUnit_condemned (s : State) (i : SubId) (g : Staging) :
    (s.loseUnit i g).cellar[i].isCondemned g.span g.unit = true := by
  have first : g.unit / s.halves i * s.halves i ≤ g.unit := Nat.div_mul_le_self ..
  have last : g.unit < (g.unit / s.halves i + 1) * s.halves i := by
    rw [Nat.succ_mul]
    exact Nat.lt_div_mul_add (s.halves_pos i)
  unfold State.loseUnit CellarSub.isCondemned
  dsimp only
  rw [State.onCellar_cellar, List.any_append]
  simp [first, last]

/-- SHELF_ECC of a corrected word counts it. -/
theorem shelfEcc_corrected (s : State) (i : SubId) :
    ∃ t, exec (.shelfEcc i .corrected) s = .next t ∧ t.cellar[i].stat.shelfCorr = s.cellar[i].stat.shelfCorr + 1 ∧
      (∀ j, j ≠ i → t.cellar[j] = s.cellar[j]) ∧ t = { s with cellar := t.cellar } ∧ s.sameMemory t := by
  refine ⟨_, rfl, ?_, fun j other => State.onCellar_cellar_ne s i j _ other, rfl, fun _ => rfl⟩
  rw [State.onCellStat, State.onCellar_cellar]

/-- The module once an uncorrectable Shelf word is seen and its event is raised (R149). -/
def State.shelfErrRaised (s : State) (i : SubId) : State :=
  (s.onCellStat i fun x => { x with shelfErrSeen := true }).raise srcShelfEcc (BitVec.ofNat 32 i.val) (some i)

theorem State.shelfErrRaised_cellar (s : State) (i : SubId) :
    (s.shelfErrRaised i).cellar[i] = { s.cellar[i] with stat := { s.cellar[i].stat with shelfErrSeen := true } } := by
  rw [State.shelfErrRaised, State.raise_cellar, State.onCellStat, State.onCellar_cellar]

@[simp] theorem State.shelfErrRaised_mem (s : State) (i : SubId) : (s.shelfErrRaised i).mem = s.mem := by
  rw [State.shelfErrRaised, State.raise_mem, State.onCellStat_mem]

/-- An uncorrectable word in a staged unit: the unit is staged again if its bay holds its span, and lost if not (R149). -/
theorem exec_shelfEcc_buffer {n : Fin 2} {g : Staging} (held : s.cellar[i].buffers[n] = some g) (staged : g.staged = true) :
    exec (.shelfEcc i (.buffer n)) s = .next (
      if (s.cellar[i].bayOf g.span).isSome then (s.shelfErrRaised i).restage i n g
      else ((s.shelfErrRaised i).loseUnit i g).settled i) := by
  have bay : (s.shelfErrRaised i).cellar[i].bayOf g.span = s.cellar[i].bayOf g.span := by
    rw [State.shelfErrRaised_cellar]
    rfl
  change execShelfEcc i (.buffer n) s = _
  unfold execShelfEcc
  dsimp only
  rw [held]
  dsimp only
  rw [if_neg (by simp [staged]), ← bay]
  rfl

theorem shelfEcc_restages {n : Fin 2} {g : Staging} (held : s.cellar[i].buffers[n] = some g) (staged : g.staged = true)
    (bay : (s.cellar[i].bayOf g.span).isSome = true) :
    ∃ t, exec (.shelfEcc i (.buffer n)) s = .next t ∧
      t.cellar[i].buffers[n] = some { g with staged := false, again := true } ∧ t.cellar[i].stat.shelfErrSeen = true ∧
      t.cellar[i].stat.shelfRestage = s.cellar[i].stat.shelfRestage + 1 ∧ s.sameMemory t := by
  obtain ⟨buffer, stat, mem⟩ := (s.shelfErrRaised i).restage_effect i n g
  rw [State.shelfErrRaised_cellar] at stat
  refine ⟨_, by rw [exec_shelfEcc_buffer held staged, if_pos bay], buffer, ?_, ?_, fun a => ?_⟩
  · rw [stat]
  · rw [stat]
  · rw [mem, State.shelfErrRaised_mem]

theorem shelfEcc_loses {n : Fin 2} {g : Staging} (held : s.cellar[i].buffers[n] = some g) (staged : g.staged = true)
    (bay : s.cellar[i].bayOf g.span = none) :
    let u := s.shelfErrRaised i
    exec (.shelfEcc i (.buffer n)) s = .next ((u.loseUnit i g).settled i) ∧
      (u.loseUnit i g).cellar[i].isCondemned g.span g.unit = true ∧ s.sameMemory (u.loseUnit i g) := by
  refine ⟨?_, State.loseUnit_condemned .., fun a => ?_⟩
  · rw [exec_shelfEcc_buffer held staged, if_neg (by rw [bay]; exact Bool.false_ne_true)]
  · rw [State.loseUnit_mem, State.shelfErrRaised_mem]

/-- An uncorrectable word outside every staged unit changes nothing. -/
theorem shelfEcc_idle {n : Fin 2} (unstaged : ∀ g, s.cellar[i].buffers[n] = some g → g.staged = false) :
    exec (.shelfEcc i (.buffer n)) s = .next s := by
  change execShelfEcc i (.buffer n) s = _
  unfold execShelfEcc
  dsimp only
  split
  · next g held => rw [if_pos (by simp [unstaged g held])]
  · rfl

/-- Settles O35: each clause is what its row does with the Cellar's account of its spans, the Shelf's bytes and the Loom's queues. -/
theorem cellarAndShelfSteps : Obligations.CellarAndShelfSteps := by
  unfold Obligations.CellarAndShelfSteps
  exact ⟨fun s i since => spanAvailable_completes, fun s i => spanAvailable_waits,
    fun s i v overrun => ⟨condemn_waits overrun, condemn_completes overrun⟩,
    fun s u i g bay data canonical filling copying fresh free source read =>
      unitStaged_completes canonical filling copying fresh free source read,
    fun s i => ⟨shelfEcc_corrected s i, fun n g => shelfEcc_restages, fun n g => shelfEcc_loses, fun n => shelfEcc_idle⟩⟩

end Sys2Proof.Machine
end


section
/-! The check of a correlation job (R155, R156, R160): its row and column sums are the sums of its cells, which no clean dump's
32-bit accumulators can overflow; and a wrong cell stays hidden only in the company of three more. -/

namespace Sys2Proof.Machine

/-! ### Sums of complex numbers -/

/-- The sum of two complex numbers. -/
def cPlus (x y : Cplx) : Cplx := (x.1 + y.1, x.2 + y.2)

/-- The sum of the first `n` terms. -/
def sumTo : Nat → (Nat → Cplx) → Cplx
  | 0, _ => (0, 0)
  | n + 1, f => cPlus (sumTo n f) (f n)

theorem cSum_map_range (n : Nat) (f : Nat → Cplx) : cSum ((List.range n).map f) = sumTo n f := by
  induction n with
  | zero => rfl
  | succ n ih =>
    rw [List.range_succ, List.map_append, cSum, List.foldl_append, ← cSum, ih]
    rfl

theorem cSum_singleton (v : Cplx) : cSum [v] = v := Prod.ext (Int.zero_add v.1) (Int.zero_add v.2)

theorem sumTo_congr {n : Nat} {f g : Nat → Cplx} (same : ∀ k, k < n → f k = g k) : sumTo n f = sumTo n g := by
  induction n with
  | zero => rfl
  | succ n ih => rw [sumTo, sumTo, ih fun k hk => same k (Nat.lt_succ_of_lt hk), same n (Nat.lt_succ_self n)]

theorem cPlus_swap (a b c d : Cplx) : cPlus (cPlus a b) (cPlus c d) = cPlus (cPlus a c) (cPlus b d) := by
  simp only [cPlus, Prod.mk.injEq]
  omega

theorem sumTo_plus (n : Nat) (f g : Nat → Cplx) : sumTo n (fun k => cPlus (f k) (g k)) = cPlus (sumTo n f) (sumTo n g) := by
  induction n with
  | zero => rfl
  | succ n ih => rw [sumTo, sumTo, sumTo, ih, cPlus_swap]

theorem sumTo_zero (n : Nat) : sumTo n (fun _ => (0, 0)) = (0, 0) := by
  induction n with
  | zero => rfl
  | succ n ih => rw [sumTo, ih, cPlus, Int.add_zero]

/-- The order of two sums does not matter. -/
theorem sumTo_comm (n m : Nat) (f : Nat → Nat → Cplx) :
    sumTo n (fun a => sumTo m fun c => f a c) = sumTo m (fun c => sumTo n fun a => f a c) := by
  induction n with
  | zero => exact (sumTo_zero m).symm
  | succ n ih =>
    rw [sumTo, ih, ← sumTo_plus]
    rfl

theorem mulConj_plus_left (x x' y : Cplx) : mulConj (cPlus x x') y = cPlus (mulConj x y) (mulConj x' y) := by
  simp only [mulConj, cPlus, Int.add_mul, Prod.mk.injEq]
  omega

theorem mulConj_plus_right (x y y' : Cplx) : mulConj x (cPlus y y') = cPlus (mulConj x y) (mulConj x y') := by
  simp only [mulConj, cPlus, Int.mul_add, Prod.mk.injEq]
  omega

theorem mulConj_sumTo_left (n : Nat) (f : Nat → Cplx) (y : Cplx) :
    mulConj (sumTo n f) y = sumTo n fun k => mulConj (f k) y := by
  induction n with
  | zero => simp only [sumTo, mulConj, Int.zero_mul, Int.add_zero, Int.sub_zero]
  | succ n ih => rw [sumTo, mulConj_plus_left, ih, sumTo]

theorem mulConj_sumTo_right (n : Nat) (x : Cplx) (f : Nat → Cplx) :
    mulConj x (sumTo n f) = sumTo n fun k => mulConj x (f k) := by
  induction n with
  | zero => simp only [sumTo, mulConj, Int.mul_zero, Int.add_zero, Int.sub_zero]
  | succ n ih => rw [sumTo, mulConj_plus_right, ih, sumTo]

theorem cPlus_left_cancel {a b c : Cplx} (equal : cPlus a b = cPlus a c) : b = c := by
  simp only [cPlus, Prod.mk.injEq] at equal
  exact Prod.ext (by omega) (by omega)

theorem cPlus_right_cancel {a b c : Cplx} (equal : cPlus b a = cPlus c a) : b = c := by
  simp only [cPlus, Prod.mk.injEq] at equal
  exact Prod.ext (by omega) (by omega)

/-- A sum tells of one changed term: where all other terms and the sums agree, so does this one. -/
theorem eq_of_sumTo_eq {n k : Nat} {f g : Nat → Cplx} (inside : k < n) (same : ∀ m, m < n → m ≠ k → f m = g m)
    (equal : sumTo n f = sumTo n g) : f k = g k := by
  induction n with
  | zero => omega
  | succ n ih =>
    rw [sumTo, sumTo] at equal
    by_cases last : k = n
    · subst last
      rw [sumTo_congr fun m hm => same m (Nat.lt_succ_of_lt hm) (Nat.ne_of_lt hm)] at equal
      exact cPlus_left_cancel equal
    · rw [same n (Nat.lt_succ_self n) (Ne.symm last)] at equal
      exact ih (by omega) (fun m hm => same m (Nat.lt_succ_of_lt hm)) (cPlus_right_cancel equal)

/-! ### No accumulator of a clean dump overflows (R155, R156) -/

/-- Both parts are at most `b` in size. -/
def Cplx.Within (b : Nat) (v : Cplx) : Prop := v.1.natAbs ≤ b ∧ v.2.natAbs ≤ b

theorem Cplx.Within.zero (b : Nat) : Cplx.Within b (0, 0) := ⟨Nat.zero_le b, Nat.zero_le b⟩

theorem signedOf_four_natAbs_le (v : Nat) : (signedOf 4 v).natAbs ≤ 127 := by
  simp only [signedOf]
  split <;> omega

/-- The code 0x80 alone reads as -128. -/
theorem signedOf_byte_natAbs_le {v : Byte} (noMarker : v ≠ 0x80) : (signedOf 8 v.toNat).natAbs ≤ 127 := by
  have code : v.toNat ≠ 128 := fun marker => noMarker (BitVec.eq_of_toNat_eq marker)
  have byte : v.toNat < 256 := v.isLt
  simp only [signedOf]
  split <;> omega

/-- A sample's parts are at most 7 or 127: the code -8 or -128 reads as invalid, and zero (R12). -/
theorem decodeSample_within (wide : Bool) (bs : List Byte) : Cplx.Within 127 (decodeSample wide bs).2.1 := by
  cases wide with
  | false =>
    simp only [decodeSample, decode4, Bool.false_eq_true, if_false]
    split
    · exact .zero 127
    · exact ⟨signedOf_four_natAbs_le _, signedOf_four_natAbs_le _⟩
  | true =>
    simp only [decodeSample, decode8, if_true]
    split
    · exact .zero 127
    · next valid =>
      rw [not_or] at valid
      exact ⟨signedOf_byte_natAbs_le valid.1, signedOf_byte_natAbs_le valid.2⟩

theorem State.cellIn_within (s : State) (i : SubId) (n : Fin 2) (t input : Nat) : Cplx.Within 127 (s.cellIn i n t input) :=
  decodeSample_within ..

theorem mulConj_within {b : Nat} {x y : Cplx} (hx : Cplx.Within b x) (hy : Cplx.Within b y) :
    Cplx.Within (b * b + b * b) (mulConj x y) := by
  have product {u v : Int} (hu : u.natAbs ≤ b) (hv : v.natAbs ≤ b) : (u * v).natAbs ≤ b * b := by
    rw [Int.natAbs_mul]
    exact Nat.mul_le_mul hu hv
  exact ⟨Nat.le_trans (Int.natAbs_add_le ..) (Nat.add_le_add (product hx.1 hy.1) (product hx.2 hy.2)),
    Nat.le_trans (Int.natAbs_sub_le ..) (Nat.add_le_add (product hx.2 hy.1) (product hx.1 hy.2))⟩

theorem sumTo_within {b : Nat} {f : Nat → Cplx} (n : Nat) (each : ∀ k, Cplx.Within b (f k)) :
    Cplx.Within (n * b) (sumTo n f) := by
  induction n with
  | zero => exact .zero _
  | succ n ih =>
    rw [Nat.succ_mul]
    exact ⟨Nat.le_trans (Int.natAbs_add_le ..) (Nat.add_le_add ih.1 (each n).1),
      Nat.le_trans (Int.natAbs_add_le ..) (Nat.add_le_add ih.2 (each n).2)⟩

/-- A 32-bit accumulator holds a sum below 2^31 as it is. -/
theorem wrap32_of_within {b : Nat} {v : Cplx} (small : b < 2 ^ 31) (within : Cplx.Within b v) : wrap32 v = v := by
  obtain ⟨re, im⟩ := within
  exact Prod.ext (signedOf_codeOf (n := 31) (by omega) (by omega)) (signedOf_codeOf (n := 31) (by omega) (by omega))

theorem State.sliceLen_le (s : State) (i : SubId) : s.sliceLen i ≤ 4096 := by
  unfold State.sliceLen
  split
  · exact Nat.div_le_self ..
  · exact Nat.le_refl _

/-! ### The entries, the check row and the check column of a job -/

/-- The exact sum of a cell of a job over its fine samples (R155). -/
def State.cellSum (s : State) (i : SubId) (n : Fin 2) (j : Job) (a c : Nat) : Cplx :=
  sumTo (s.sliceLen i) fun k =>
    mulConj (s.cellIn i n (s.sliceAt i j + k) (128 * j.i + a)) (s.cellIn i n (s.sliceAt i j + k) (128 * j.j + c))

/-- 4096 products of parts of at most 127 stay below 2^31. -/
theorem State.wrap32_cellSum (s : State) (i : SubId) (n : Fin 2) (j : Job) (a c : Nat) :
    wrap32 (s.cellSum i n j a c) = s.cellSum i n j a c := by
  refine wrap32_of_within ?_ (sumTo_within _ fun k => mulConj_within (s.cellIn_within ..) (s.cellIn_within ..))
  have := s.sliceLen_le i
  omega

theorem getD_map_range {n k : Nat} (f : Nat → Cplx) (inside : k < n) : ((List.range n).map f).getD k (0, 0) = f k := by
  rw [List.getD_eq_getElem?_getD, List.getElem?_map, List.getElem?_range inside]
  rfl

theorem State.length_jobEntries (s : State) (i : SubId) (n : Fin 2) (j : Job) (upsets : List (Nat × Cplx)) :
    (s.jobEntries i n j upsets).length = 16384 := by
  rw [State.jobEntries, List.length_map, List.length_range, tileEntries]

theorem State.jobEntries_getD (s : State) (i : SubId) (n : Fin 2) (j : Job) {a c : Nat} (row : a < 128) (col : c < 128) :
    (s.jobEntries i n j []).getD (128 * a + c) (0, 0) = s.cellSum i n j a c := by
  unfold State.jobEntries
  dsimp only
  rw [getD_map_range _ (by rw [tileEntries]; omega), List.filter_nil, List.map_nil, List.map_map, cSum_map_range,
    show (128 * a + c) / 128 = a by omega, show (128 * a + c) % 128 = c by omega,
    cSum_singleton]
  exact s.wrap32_cellSum i n j a c

theorem State.checkRow_getD (s : State) (i : SubId) (n : Fin 2) (j : Job) {c : Nat} (col : c < 128) :
    (s.checkRow i n j).getD c (0, 0) = sumTo 128 fun a => s.cellSum i n j a c := by
  unfold State.checkRow State.cellSum
  dsimp only
  rw [getD_map_range _ col, List.map_map, cSum_map_range, sumTo_comm]
  simp only [Function.comp_def, cSum_map_range, mulConj_sumTo_left]

theorem State.checkCol_getD (s : State) (i : SubId) (n : Fin 2) (j : Job) {a : Nat} (row : a < 128) :
    (s.checkCol i n j).getD a (0, 0) = sumTo 128 fun c => s.cellSum i n j a c := by
  unfold State.checkCol State.cellSum
  dsimp only
  rw [getD_map_range _ row, List.map_map, cSum_map_range, sumTo_comm]
  simp only [Function.comp_def, cSum_map_range, mulConj_sumTo_right]

/-! ### What the check tells (R160) -/

theorem Dump.passes_iff (d : Dump) : d.passes = true ↔
    (∀ a, a < 128 → (sumTo 128 fun c => d.entries.getD (128 * a + c) (0, 0)) = d.col.getD a (0, 0)) ∧
      ∀ c, c < 128 → (sumTo 128 fun a => d.entries.getD (128 * a + c) (0, 0)) = d.row.getD c (0, 0) := by
  simp only [Dump.passes, Bool.and_eq_true, List.all_eq_true, List.mem_range, beq_iff_eq, cSum_map_range]

/-- Where one term is changed and the sum is not, another term is changed. -/
theorem exists_other_change {n k : Nat} {f g : Nat → Cplx} (inside : k < n) (changed : f k ≠ g k)
    (equal : sumTo n f = sumTo n g) : ∃ m, m < n ∧ m ≠ k ∧ f m ≠ g m :=
  Classical.byContradiction fun alone => changed <| eq_of_sumTo_eq inside
    (fun m hm other => Classical.byContradiction fun differ => alone ⟨m, hm, other, differ⟩) equal

/-- Two dumps of one job that both pass differ in no row, and in no column, in a single cell: where cell (a, c) differs, so does
another cell of row a and another of column c. -/
theorem Dump.passes_differ {d : Dump} {es : List Cplx} (passes : d.passes = true)
    (passes' : ({ d with entries := es } : Dump).passes = true) {a c : Nat} (row : a < 128) (col : c < 128)
    (wrong : es.getD (128 * a + c) (0, 0) ≠ d.entries.getD (128 * a + c) (0, 0)) :
    (∃ c', c' < 128 ∧ c' ≠ c ∧ es.getD (128 * a + c') (0, 0) ≠ d.entries.getD (128 * a + c') (0, 0)) ∧
      ∃ a', a' < 128 ∧ a' ≠ a ∧ es.getD (128 * a' + c) (0, 0) ≠ d.entries.getD (128 * a' + c) (0, 0) := by
  obtain ⟨rows, cols⟩ := d.passes_iff.mp passes
  obtain ⟨rows', cols'⟩ := (Dump.passes_iff _).mp passes'
  exact ⟨exists_other_change (f := fun c => es.getD (128 * a + c) (0, 0)) col wrong ((rows' a row).trans (rows a row).symm),
    exists_other_change (f := fun a => es.getD (128 * a + c) (0, 0)) row wrong ((cols' c col).trans (cols c col).symm)⟩

/-- Where one cell is wrong and the check passes still, four cells are wrong: another of its row, another of its column, and
one more in that other cell's column. -/
theorem Dump.passes_four_differ {d : Dump} {es : List Cplx} (passes : d.passes = true)
    (passes' : ({ d with entries := es } : Dump).passes = true) {k : Nat} (inside : k < 16384)
    (wrong : es.getD k (0, 0) ≠ d.entries.getD k (0, 0)) :
    ∃ ks : List Nat, ks.Nodup ∧ ks.length = 4 ∧ ∀ m ∈ ks, es.getD m (0, 0) ≠ d.entries.getD m (0, 0) := by
  obtain ⟨a, c, rfl, row, col⟩ : ∃ a c, k = 128 * a + c ∧ a < 128 ∧ c < 128 := ⟨k / 128, k % 128, by omega, by omega, by omega⟩
  obtain ⟨⟨c', col', otherCol, inRow⟩, ⟨a', row', otherRow, inCol⟩⟩ := passes_differ passes passes' row col wrong
  obtain ⟨-, b, rowB, otherB, inCol'⟩ := passes_differ passes passes' row col' inRow
  refine ⟨[128 * a + c, 128 * a + c', 128 * a' + c, 128 * b + c'], ?_, rfl, ?_⟩
  · simp only [List.nodup_cons, List.mem_cons, List.not_mem_nil, or_false, not_or, not_false_eq_true, List.nodup_nil, and_true]
    omega
  · simp only [List.forall_mem_cons]
    exact ⟨wrong, inRow, inCol, inCol', fun _ none => absurd none List.not_mem_nil⟩

theorem exists_getD_ne {es fs : List Cplx} (same : es.length = fs.length) (differ : es ≠ fs) :
    ∃ k, k < es.length ∧ es.getD k (0, 0) ≠ fs.getD k (0, 0) := by
  refine Classical.byContradiction fun none => differ (List.ext_getElem same fun k inside inside' => ?_)
  refine Classical.byContradiction fun wrong => none ⟨k, inside, ?_⟩
  rw [List.getD_eq_getElem?_getD, List.getD_eq_getElem?_getD, List.getElem?_eq_getElem inside,
    List.getElem?_eq_getElem inside']
  exact wrong

/-- A dump whose error lies in three cells or fewer fails, where one without error passes. -/
theorem Dump.small_error_fails {d : Dump} {es : List Cplx} {cells : List Nat} (passes : d.passes = true)
    (size : d.entries.length = 16384) (size' : es.length = 16384) (few : cells.length ≤ 3) (differ : es ≠ d.entries)
    (confined : ∀ k, k ∉ cells → es.getD k (0, 0) = d.entries.getD k (0, 0)) :
    ({ d with entries := es } : Dump).passes = false := by
  rw [Bool.eq_false_iff]
  intro hidden
  obtain ⟨k, inside, wrong⟩ := exists_getD_ne (size'.trans size.symm) differ
  obtain ⟨ks, distinct, four, allWrong⟩ :=
    passes_four_differ passes hidden (size' ▸ inside) wrong
  have listed : ks ⊆ cells := fun m hm => Classical.byContradiction fun unlisted => allWrong m hm (confined m unlisted)
  have := distinct.length_le_of_subset listed
  omega

/-- A dump of a job without an upset passes its check. -/
theorem State.clean_dump_passes (s : State) (i : SubId) (n : Fin 2) (j : Job) (start since : Nat) :
    ({ job := j, start := start, since := since, entries := s.jobEntries i n j [], row := s.checkRow i n j,
       col := s.checkCol i n j } : Dump).passes = true := by
  rw [Dump.passes_iff]
  dsimp only
  refine ⟨fun a row => ?_, fun c col => ?_⟩
  · rw [s.checkCol_getD i n j row]
    exact sumTo_congr fun c col => s.jobEntries_getD i n j row col
  · rw [s.checkRow_getD i n j col]
    exact sumTo_congr fun a row => s.jobEntries_getD i n j row col

/-- Settles O37: the check sums are the exact sums of the cells, and an error they do not show takes four cells. -/
theorem smallErrorsFailTheCheck : Obligations.SmallErrorsFailTheCheck := by
  unfold Obligations.SmallErrorsFailTheCheck
  intro s i n j start since clean
  have passes : clean.passes = true := s.clean_dump_passes i n j start since
  have size : clean.entries.length = 16384 := by
    dsimp only [clean]
    exact s.length_jobEntries i n j []
  exact ⟨passes, fun es cells => Dump.small_error_fails passes size⟩

end Sys2Proof.Machine
end

section
/-! Jobs and tiles of the Loom (R160 to R162, R169, R171, R180, R220): what the failure and the retirement of a tile leave of it, and
the rows that start, end, check and time out its jobs and end its self-tests. -/

namespace Sys2Proof.Machine

variable {s u v : State} {t : TileId}

/-! ### Tiles beside the updates of other parts -/

@[simp] theorem State.onLoom_tile (s : State) (i : SubId) (f : LoomSub → LoomSub) (t : TileId) : (s.onLoom i f).tile t = s.tile t := rfl
@[simp] theorem State.onLoomStat_tile (s : State) (i : SubId) (f : LoomStat → LoomStat) (t : TileId) :
    (s.onLoomStat i f).tile t = s.tile t := rfl
@[simp] theorem State.onLedgStat_tile (s : State) (i : SubId) (f : LedgStat → LedgStat) (t : TileId) :
    (s.onLedgStat i f).tile t = s.tile t := rfl
@[simp] theorem State.askIsland_tile (s : State) (i : IslandId) (on : Bool) (t : TileId) : (s.askIsland i on).tile t = s.tile t := rfl
@[simp] theorem State.requeue_tile (s : State) (j : Job) (t : TileId) : (s.requeue j).tile t = s.tile t := rfl
@[simp] theorem State.requeue_mem (s : State) (j : Job) : (s.requeue j).mem = s.mem := rfl
@[simp] theorem State.requeueBeam_tile (s : State) (j : BeamJob) (t : TileId) : (s.requeueBeam j).tile t = s.tile t := rfl
@[simp] theorem State.requeueBeam_mem (s : State) (j : BeamJob) : (s.requeueBeam j).mem = s.mem := rfl
@[simp] theorem State.onLedger_tile (s : State) (i : SubId) (f : LedgerSub → LedgerSub) (t : TileId) :
    (s.onLedger i f).tile t = s.tile t := rfl
@[simp] theorem State.commitDump_tile (s : State) (i : SubId) (f p : Nat) (es : List Cplx) (t : TileId) :
    (s.commitDump i f p es).tile t = s.tile t := rfl

@[simp] theorem State.onTileReg_tile (s : State) (t : TileId) (f : LoomTile → LoomTile) :
    (s.onTileReg t f).tile t = { s.tile t with reg := f (s.tile t).reg } := State.onTile_tile ..

theorem State.onTileReg_tile_ne (s : State) {t k : TileId} (f : LoomTile → LoomTile) (h : k ≠ t) :
    (s.onTileReg t f).tile k = s.tile k := State.onTile_tile_ne s t k _ h

@[simp] theorem State.showLoom_tile (s : State) (i : SubId) (t : TileId) : (s.showLoom i).tile t = s.tile t := rfl
@[simp] theorem State.showLoom_mem (s : State) (i : SubId) : (s.showLoom i).mem = s.mem := rfl

@[simp] theorem State.raise_tile (s : State) (i : SourceId) (detail : Word) (sub : Option SubId) (t : TileId) :
    (s.raise i detail sub).tile t = s.tile t := by
  rw [(State.raise_only s i detail sub).1]
  rfl

@[simp] theorem State.settled_tile (s : State) (i : SubId) (t : TileId) : (s.settled i).tile t = s.tile t := by
  obtain ⟨x, y, settled⟩ := s.settled_cellar_loom i
  rw [settled]
  rfl

@[simp] theorem State.loseJob_tile (s : State) (i : SubId) (j : Job) (held : Bool) (t : TileId) :
    (s.loseJob i j held).tile t = s.tile t := by
  unfold State.loseJob
  dsimp only
  rw [State.raise_tile]
  rfl

/-! ### What becomes of a tile that fails -/

/-- A tile computes nothing and dumps nothing. -/
def Tile.Idle (x : Tile) : Prop := x.job = none ∧ x.dump = none ∧ x.beam = none

/-- A tile is FAILED or RETIRED. -/
def Tile.OutOfService (x : Tile) : Prop := x.reg.state = tsFailed ∨ x.reg.state = tsRetired

/-- The counts of a tile's failures are as they were. -/
structure Tile.SameFails (x y : Tile) : Prop where
  check : y.reg.checkFail = x.reg.checkFail
  selftest : y.reg.selftestFail = x.reg.selftestFail

theorem Tile.SameFails.trans {x y z : Tile} (h : x.SameFails y) (k : y.SameFails z) : x.SameFails z :=
  ⟨k.check.trans h.check, k.selftest.trans h.selftest⟩

/-- A step in the handling of a tile: memory stays, the tile's failures stay as they are recorded, and it gets no job. -/
structure State.Handles (t : TileId) (s u : State) : Prop where
  mem : u.mem = s.mem
  cause : (u.tile t).reg.lastCause = (s.tile t).reg.lastCause
  fails : (s.tile t).SameFails (u.tile t)
  idle : (s.tile t).Idle → (u.tile t).Idle

theorem State.Handles.trans (h : s.Handles t u) (k : u.Handles t v) : s.Handles t v :=
  ⟨k.mem.trans h.mem, k.cause.trans h.cause, h.fails.trans k.fails, fun idle => k.idle (h.idle idle)⟩

/-- Where the tile and memory stay, nothing is to say. -/
theorem State.Handles.of_tile (mem : u.mem = s.mem) (tile : u.tile t = s.tile t) : s.Handles t u :=
  ⟨mem, by rw [tile], by rw [tile]; exact ⟨rfl, rfl⟩, fun idle => by rwa [tile]⟩

/-- A change of the tile's LOOM_TILE that leaves its failures. -/
theorem State.Handles.onTileReg (s : State) (t : TileId) {f : LoomTile → LoomTile}
    (kept : ∀ r, (f r).lastCause = r.lastCause ∧ (f r).checkFail = r.checkFail ∧ (f r).selftestFail = r.selftestFail) :
    s.Handles t (s.onTileReg t f) := by
  obtain ⟨cause, check, selftest⟩ := kept (s.tile t).reg
  exact ⟨rfl, by rw [State.onTileReg_tile]; exact cause, by rw [State.onTileReg_tile]; exact ⟨check, selftest⟩,
    fun idle => by rw [State.onTileReg_tile]; exact idle⟩

/-- A change of the tile that only ends what it does. -/
theorem State.Handles.onTile (s : State) (t : TileId) {f : Tile → Tile} (reg : ∀ x, (f x).reg = x.reg)
    (idle : ∀ x, x.Idle → (f x).Idle) : s.Handles t (s.onTile t f) :=
  ⟨rfl, by rw [State.onTile_tile, reg], ⟨by rw [State.onTile_tile, reg], by rw [State.onTile_tile, reg]⟩,
    fun h => by rw [State.onTile_tile]; exact idle _ h⟩

/-- Committed fine samples are in the beam store (R218). -/
theorem State.commitBeam_beam (s : State) (i : SubId) (n : Fin 2) (j : BeamJob) (lo hi : Nat) :
    ∃ x, s.commitBeam i n j lo hi = { s with beam := x } := ⟨_, rfl⟩

/-- A beam job that stops has left its tile; its sums are in the beam store (R220). -/
theorem State.haltBeam_handles (s : State) (t : TileId) :
    s.Handles t (s.haltBeam t).1 ∧ ((s.haltBeam t).1.tile t).beam = none := by
  unfold State.haltBeam
  split
  · next landed => exact ⟨.of_tile rfl rfl, landed⟩
  · next r flying =>
    have stopped : s.Handles t (s.onTile t fun x => { x with beam := none }) :=
      .onTile s t (fun _ => rfl) fun _ idle => ⟨idle.1, idle.2.1, rfl⟩
    have landed : ((s.onTile t fun x => { x with beam := none }).tile t).beam = none := by rw [State.onTile_tile]
    dsimp only
    obtain ⟨x, committed⟩ := State.commitBeam_beam (s.onTile t fun x => { x with beam := none }) r.job.sub r.buf r.job
      r.job.start (r.upTo s.now)
    rw [committed]
    generalize s.onTile t (fun x => { x with beam := none }) = u at *
    have kept : s.Handles t { u with beam := x } := stopped.trans (.of_tile rfl rfl)
    split
    · have counted : s.Handles t (State.onBeamStat { u with beam := x } r.job.sub fun x => { x with jobs := x.jobs + 1 }) :=
        kept.trans (.of_tile rfl rfl)
      dsimp only
      refine ⟨counted.trans (.onTileReg _ t ?_), ?_⟩
      · exact fun _ => ⟨rfl, rfl, rfl⟩
      · rw [State.onTileReg_tile]
        exact landed
    · exact ⟨kept, landed⟩

/-- The jobs of a tile go back, and it is idle. -/
theorem State.returnJobs_handles (s : State) (t : TileId) : s.Handles t (s.returnJobs t) ∧ ((s.returnJobs t).tile t).Idle := by
  unfold State.returnJobs
  dsimp only
  obtain ⟨halted, landed⟩ := s.haltBeam_handles t
  generalize s.haltBeam t = r at *
  have ended (u : State) (mem : u.mem = r.1.mem) (tile : u.tile t = r.1.tile t) :
      s.Handles t (u.onTile t fun y => { y with job := none, dump := none }) ∧
        ((u.onTile t fun y => { y with job := none, dump := none }).tile t).Idle := by
    refine ⟨halted.trans (.trans (.of_tile mem tile) (.onTile u t (fun _ => rfl) fun _ idle => ⟨rfl, rfl, idle.2.2⟩)), ?_⟩
    rw [State.onTile_tile, tile]
    exact ⟨rfl, rfl, landed⟩
  split <;> split <;> split <;> exact ended _ (by simp) (by simp)

theorem State.announceFail_handles (s : State) (t : TileId) : s.Handles t (s.announceFail t) := by
  refine .trans (.onTileReg s t (f := fun r => { r with failSeen := true }) fun _ => ⟨rfl, rfl, rfl⟩) (.of_tile ?_ ?_)
  · exact State.raise_mem ..
  · exact State.raise_tile ..

/-- A retired tile is idle (R176). -/
theorem State.retire_handles (s : State) (t : TileId) :
    s.Handles t (s.retire t) ∧ ((s.retire t).tile t).Idle ∧ ((s.retire t).tile t).reg.state = tsRetired := by
  have announced : s.Handles t (if (s.tile t).reg.state = tsRetired then s else s.announceFail t) := by
    split
    · exact .of_tile rfl rfl
    · exact s.announceFail_handles t
  unfold State.retire
  dsimp only
  generalize (if (s.tile t).reg.state = tsRetired then s else s.announceFail t) = u at *
  refine ⟨announced.trans ⟨rfl, ?_, ?_, fun _ => ?_⟩, ?_, ?_⟩ <;> rw [State.onTile_tile, State.askIsland_tile]
  · exact ⟨rfl, rfl⟩
  · exact ⟨rfl, rfl, rfl⟩
  · exact ⟨rfl, rfl, rfl⟩

/-- A ready spare takes a number; a tile that is no spare stays (R173). -/
theorem State.takeSpare_other (s : State) (n : Nat) (noSpare : (s.tile t).reg.state ≠ tsSpare) :
    (s.takeSpare n).mem = s.mem ∧ (s.takeSpare n).tile t = s.tile t := by
  unfold State.takeSpare
  split
  · exact ⟨rfl, rfl⟩
  · split
    · next k ready =>
      have spare : (s.tile k).reg.state = tsSpare := by simpa using List.find?_some ready
      have other : t ≠ k := fun same => noSpare (same ▸ spare)
      exact ⟨State.raise_mem .., (State.raise_tile ..).trans (State.onTile_tile_ne s k t _ other)⟩
    · exact ⟨rfl, rfl⟩

/-- The records follow the plans: a tile changes its SUBARRAY, and its STATE only in service (R182). -/
theorem State.showTiles_handles (s : State) (t : TileId) (retired : (s.tile t).reg.state = tsRetired) :
    s.Handles t s.showTiles ∧ (s.showTiles.tile t).reg.state = tsRetired := by
  unfold State.showTiles
  dsimp only
  refine foldl_keeps (fun u => s.Handles t u ∧ (u.tile t).reg.state = tsRetired) _ ?_ _ _ ?_
  · exact fun u i kept => ⟨kept.1.trans (.of_tile rfl rfl), kept.2⟩
  · refine foldl_keeps (fun u => s.Handles t u ∧ (u.tile t).reg.state = tsRetired) _ ?_ _ _ ⟨.of_tile rfl rfl, retired⟩
    rintro u k ⟨handled, state⟩
    by_cases same : t = k
    · subst same
      refine ⟨handled.trans (.onTileReg u t fun _ => ⟨rfl, rfl, rfl⟩), ?_⟩
      rw [State.onTileReg_tile]
      simp [state]
    · refine ⟨handled.trans (.of_tile rfl (State.onTileReg_tile_ne u _ same)), ?_⟩
      rw [State.onTileReg_tile_ne u _ same]
      exact state

theorem State.showAll_handles (s : State) (t : TileId) (retired : (s.tile t).reg.state = tsRetired) :
    s.Handles t s.showAll ∧ (s.showAll.tile t).reg.state = tsRetired := by
  unfold State.showAll
  refine foldl_keeps (fun u => s.Handles t u ∧ (u.tile t).reg.state = tsRetired) _ ?_ _ _ (s.showTiles_handles t retired)
  exact fun u i kept => ⟨kept.1.trans (.of_tile (u.showLoom_mem i) (u.showLoom_tile i t)), kept.2⟩

/-- A tile that is retired at once is idle and RETIRED, whatever spare takes its number (R173, R176). -/
theorem State.retireNow_handles (s : State) (t : TileId) :
    s.Handles t (s.retireNow t) ∧ ((s.retireNow t).tile t).Idle ∧ ((s.retireNow t).tile t).reg.state = tsRetired := by
  obtain ⟨handled, idle, retired⟩ := s.retire_handles t
  have ended (u : State) (mem : u.mem = (s.retire t).mem) (tile : u.tile t = (s.retire t).tile t) :
      s.Handles t u.showAll ∧ (u.showAll.tile t).Idle ∧ (u.showAll.tile t).reg.state = tsRetired := by
    rw [← tile] at idle retired
    obtain ⟨shown, retired'⟩ := u.showAll_handles t retired
    exact ⟨handled.trans (.trans (.of_tile mem tile) shown), shown.idle idle, retired'⟩
  unfold State.retireNow
  dsimp only
  split
  · obtain ⟨mem, tile⟩ := State.takeSpare_other (s.retire t) (s.tile t).reg.logical.toNat (by rw [retired]; decide)
    exact ended _ mem tile
  · exact ended _ rfl rfl

/-- A tile that fails for a cause: memory stays, the tile is idle, and its record has the cause (Table 07-3). -/
structure State.Fails (t : TileId) (cause : BitVec 3) (s u : State) : Prop where
  mem : u.mem = s.mem
  idle : (u.tile t).Idle
  cause : (u.tile t).reg.lastCause = cause
  fails : (s.tile t).SameFails (u.tile t)

theorem State.Fails.handles {cause : BitVec 3} (h : s.Fails t cause u) (k : u.Handles t v) : s.Fails t cause v :=
  ⟨k.mem.trans h.mem, k.idle h.idle, k.cause.trans h.cause, h.fails.trans k.fails⟩

/-- A tile that fails is out of service (Table 07-3). -/
theorem State.failTile_fails (s : State) (t : TileId) (cause : BitVec 3) :
    s.Fails t cause (s.failTile t cause) ∧ ((s.failTile t cause).tile t).OutOfService := by
  obtain ⟨returned, idle⟩ := s.returnJobs_handles t
  have caused : s.Fails t cause ((s.returnJobs t).onTile t fun x =>
      { x with test := .none, reg := { x.reg with lastCause := cause } }) := by
    refine ⟨returned.mem, ?_, ?_, ?_⟩ <;> rw [State.onTile_tile]
    · exact idle
    · exact ⟨returned.fails.check, returned.fails.selftest⟩
  have announced := caused.handles (State.announceFail_handles _ t)
  have retired (v : State) : v.Handles t ((v.onTileReg t fun r => { r with state := tsFailed }).retireNow t) ∧
      (((v.onTileReg t fun r => { r with state := tsFailed }).retireNow t).tile t).OutOfService := by
    obtain ⟨handled, -, state⟩ := (v.onTileReg t fun r => { r with state := tsFailed }).retireNow_handles t
    have failed : v.Handles t (v.onTileReg t fun r => { r with state := tsFailed }) := .onTileReg v t fun _ => ⟨rfl, rfl, rfl⟩
    exact ⟨failed.trans handled, .inr state⟩
  unfold State.failTile
  dsimp only
  split
  · next i owner =>
    have seen := announced.handles (.of_tile (u := State.onLoomStat _ i fun x => { x with failSeen := true }) rfl rfl)
    split
    · refine ⟨seen.handles (.onTileReg _ t fun _ => ⟨rfl, rfl, rfl⟩), .inl ?_⟩
      rw [State.onTileReg_tile]
    · exact ⟨seen.handles (retired _).1, (retired _).2⟩
  · exact ⟨announced.handles (retired _).1, (retired _).2⟩

/-- A tile whose job failed its check is idle, and the failure is counted (Table 07-3). -/
theorem State.checkTile_effect (s : State) (i : SubId) (t : TileId) :
    (s.checkTile i t).mem = s.mem ∧ ((s.checkTile i t).tile t).Idle ∧
      ((s.checkTile i t).tile t).reg.checkFail = satInc (s.tile t).reg.checkFail := by
  unfold State.checkTile
  dsimp only
  generalize noted : State.raise _ srcLoomCheck _ _ = u
  have mem : u.mem = s.mem := by
    rw [← noted, State.raise_mem, State.onLoomStat_mem, State.onTile_mem]
  have counted : (u.tile t).reg.checkFail = satInc (s.tile t).reg.checkFail := by
    rw [← noted, State.raise_tile, State.onLoomStat_tile, State.onTile_tile]
  obtain ⟨failed, -⟩ := u.failTile_fails t 2
  obtain ⟨returned, idle⟩ := u.returnJobs_handles t
  split
  · split
    · exact ⟨by rw [failed.mem, mem], failed.idle, by rw [failed.fails.check, counted]⟩
    · rw [State.onTile_mem, State.onTile_tile]
      exact ⟨by rw [returned.mem, mem], idle, by rw [returned.fails.check, counted]⟩
  · rw [if_neg Bool.false_ne_true, State.onTile_mem, State.onTile_tile]
    exact ⟨by rw [returned.mem, mem], idle, by rw [returned.fails.check, counted]⟩

/-- A job that fails its check leaves no entry: memory stays, and the tile's dump is gone (R161). -/
theorem State.failJob_effect (s : State) (t : TileId) (d : Dump) :
    (s.failJob t d).mem = s.mem ∧ ((s.failJob t d).tile t).dump = none ∧
      ((s.failJob t d).tile t).reg.checkFail = satInc (s.tile t).reg.checkFail := by
  unfold State.failJob
  dsimp only
  rw [State.settled_mem, State.settled_tile]
  generalize discarded : State.onLedgStat _ d.job.sub _ = u
  have mem : u.mem = s.mem := by rw [← discarded]; rfl
  have tile : (u.tile t).reg = (s.tile t).reg := by rw [← discarded, State.onLedgStat_tile, State.onTile_tile]
  obtain ⟨checkMem, idle, counted⟩ := u.checkTile_effect d.job.sub t
  rw [mem] at checkMem
  rw [tile] at counted
  split
  · rw [State.loseJob_mem, State.loseJob_tile]
    exact ⟨checkMem, idle.2.1, counted⟩
  · exact ⟨checkMem, idle.2.1, counted⟩

/-! ### JOB_START of an idle tile, the Loom running and not held (R162, R169) -/

section
variable {i : SubId} (corr : s.corrSub t = some i) (free : s.loomHeld = false) (running : s.loom[i].running.isSome = true)
  (idle : (s.tile t).job = none)
include free running idle

theorem jobStart_ready : ¬(s.loomHeld = true ∨ s.loom[i].running.isNone = true ∨ (s.tile t).job.isSome = true) := by
  rw [free, ← Option.not_isSome, running, idle]
  decide

include corr

theorem jobStart_begins {j : Job} (next : s.nextJob i t = some j) (set : s.setFree i j.span j.f = true) :
    exec (.jobStart t) s = .next (s.beginJob i t j) := by
  change execJobStart t s = _
  simp only [execJobStart, corr, if_neg (jobStart_ready free running idle), next, set, Bool.not_true, Bool.false_eq_true, if_false]

theorem jobStart_waits_set {j : Job} (next : s.nextJob i t = some j) (set : s.setFree i j.span j.f = false) :
    exec (.jobStart t) s = .next (s.onLoom i fun x => { x with ledgerIdle := since s.now x.ledgerIdle }) := by
  change execJobStart t s = _
  simp only [execJobStart, corr, if_neg (jobStart_ready free running idle), next, set, Bool.not_false, if_true]

theorem jobStart_waits_unit (next : s.nextJob i t = none) (short : s.shelfShort i = true) :
    exec (.jobStart t) s = .next (s.onLoom i fun x => { x with shelfIdle := since s.now x.shelfIdle }) := by
  change execJobStart t s = _
  simp only [execJobStart, corr, if_neg (jobStart_ready free running idle), next, if_pos short]

end

/-- The job a tile takes next has its unit staged (R162). -/
theorem State.nextJob_staged {i : SubId} {j : Job} (next : s.nextJob i t = some j) : (s.stagedAt i j.span j.unit).isSome = true := by
  have taken := List.find?_some next
  rw [Bool.and_eq_true] at taken
  exact taken.1

/-- What the start of a job changes: its tile, the queue and the waits, and the set it uses (R162, R169). -/
theorem State.beginJob_effect (s : State) (i : SubId) (t : TileId) (j : Job) : let u := s.beginJob i t j
    (u.tile t).job = some ({ j with avoid := none, again := false, rode := false }, s.now) ∧
      u.ledger[i].sets[setOf j.f] = some (j.span, j.f) ∧ u.loom[i].queue = s.loom[i].queue.erase j ∧
      u.loom[i].shelfIdle = none ∧ u.loom[i].ledgerIdle = none ∧
      (∀ k, k ≠ t → u.tile k = s.tile k) ∧ u = { s with tiles := u.tiles, loom := u.loom, ledger := u.ledger } ∧ s.sameMemory u := by
  unfold State.beginJob
  dsimp only
  refine ⟨?_, ?_, ?_, ?_, ?_, fun k other => ?_, rfl, fun a => ?_⟩
  · rw [State.onLedger_tile, State.onLoom_tile, State.onTile_tile]
  · rw [State.onLedger_ledger]
    exact (vset_getElem _ _ _ _ (setOf j.f).isLt).trans (if_pos rfl)
  · rw [State.onLedger_loom, State.onLoom_loom, State.onTile_loom]
  · rw [State.onLedger_loom, State.onLoom_loom]
  · rw [State.onLedger_loom, State.onLoom_loom]
  · rw [State.onLedger_tile, State.onLoom_tile, State.onTile_tile_ne s t k _ other]
  · rw [State.onLedger_mem, State.onLoom_mem, State.onTile_mem]

/-- A wait that has begun goes on, and one that has not begins now. -/
theorem since_eq_getD (now : Nat) (wait : Option Nat) : since now wait = some (wait.getD now) := by
  cases wait <;> rfl

/-! ### The end of a job and its check (R159 to R161) -/

/-- The dump that begins when a job's cycles have passed (R159, R160). -/
def State.newDump (s : State) (j : Job) (t0 : Nat) (n : Fin 2) (upsets : List (Nat × Cplx)) : Dump :=
  { job := j, start := t0, since := s.now, entries := s.jobEntries j.sub n j upsets, row := s.checkRow j.sub n j
    col := s.checkCol j.sub n j }

/-- JOB_COMPUTE_DONE after the job's cycles: its cells are dumped (R159). -/
theorem jobComputeDone_dumps {j : Job} {t0 : Nat} {n : Fin 2} {upsets : List (Nat × Cplx)}
    (computing : (s.tile t).job = some (j, t0)) (empty : (s.tile t).dump = none) (staged : s.stagedAt j.sub j.span j.unit = some n)
    (ended : (if s.cellar[j.sub].cfg.format then 4 else 1) * s.sliceLen j.sub * 20 ≤ (s.now - t0) * 33) :
    exec (.jobComputeDone t upsets) s =
      .next (s.onTile t fun x => { x with job := none, dump := some (s.newDump j t0 n upsets) }) := by
  have cycles : tileCycles ((if s.cellar[j.sub].cfg.format then 4 else 1) * s.sliceLen j.sub) (s.now - t0) = true :=
    decide_eq_true ended
  change execJobComputeDone t upsets s = _
  unfold execJobComputeDone
  dsimp only
  rw [computing, empty]
  dsimp only
  rw [staged]
  dsimp only
  rw [if_pos cycles]
  rfl

/-- The module once a dump is committed (R161). -/
def State.jobCommitted (s : State) (t : TileId) (d : Dump) : State :=
  (((s.commitDump d.job.sub d.job.f (posIndex (s.nb d.job.sub) d.job.i d.job.j) d.entries).onTile t fun x =>
    { x with dump := none, reg := { x.reg with jobs := x.reg.jobs + 1 } }).onLoomStat d.job.sub fun x =>
      { x with jobs := x.jobs + 1 }).settled d.job.sub

/-- JOB_CHECK of a complete dump commits it or fails its job (R160, R161). -/
theorem exec_jobCheck {d : Dump} (dumped : (s.tile t).dump = some d) (ended : 2048 * 20 ≤ (s.now - d.since) * 33) :
    exec (.jobCheck t) s = .next (if d.passes then s.jobCommitted t d else s.failJob t d) := by
  have cycles : tileCycles 2048 (s.now - d.since) = true := decide_eq_true ended
  change execJobCheck t s = _
  unfold execJobCheck
  rw [dumped]
  dsimp only
  rw [if_neg (by simp [cycles])]
  rfl

/-- A commit adds the entries to their set, and the tile's dump is gone (R161). -/
theorem State.jobCommitted_effect (s : State) (t : TileId) (d : Dump) : let u := s.jobCommitted t d
    (u.tile t).dump = none ∧ (u.tile t).reg.jobs = (s.tile t).reg.jobs + 1 ∧
      (s.commitDump d.job.sub d.job.f (posIndex (s.nb d.job.sub) d.job.i d.job.j) d.entries).sameMemory u := by
  unfold State.jobCommitted
  dsimp only
  rw [State.settled_tile, State.onLoomStat_tile, State.onTile_tile, State.commitDump_tile]
  exact ⟨rfl, rfl, fun a => by rw [State.settled_mem, State.onLoomStat_mem, State.onTile_mem]⟩

/-! ### Timeouts and lost clocks (R171, R220) -/

/-- A tile that fails in its sub-array's plan is out of service, and what it computed or dumped is gone (Table 07-3). -/
theorem State.failTile_afterTile (s : State) (t : TileId) (cause : BitVec 3) (sub : Option SubId) :
    let u := (s.failTile t cause).afterTile sub
    (u.tile t).Idle ∧ (u.tile t).reg.lastCause = cause ∧ (u.tile t).OutOfService ∧ s.sameMemory u := by
  obtain ⟨failed, out⟩ := s.failTile_fails t cause
  cases sub with
  | none =>
    dsimp only [State.afterTile]
    exact ⟨failed.idle, failed.cause, out, fun a => by rw [failed.mem]⟩
  | some i =>
    dsimp only [State.afterTile]
    rw [State.settled_tile]
    exact ⟨failed.idle, failed.cause, out, fun a => by rw [State.settled_mem, failed.mem]⟩

/-- JOB_TIMEOUT of a tile whose job, dump or beam job is 50 µs old (R171, R220). -/
theorem jobTimeout_job {j : Job} {start : Nat} (computing : (s.tile t).job = some (j, start)) (late : start + 50000 ≤ s.now) :
    exec (.jobTimeout t) s = .next ((s.failTile t 3).afterTile (s.tileSub t)) := by
  change execJobTimeout t s = _
  unfold execJobTimeout
  dsimp only
  rw [computing, if_pos (by simp [late])]

theorem jobTimeout_beam {r : BeamRun} (flying : (s.tile t).beam = some r) (late : r.start + 50000 ≤ s.now) :
    exec (.jobTimeout t) s = .next ((s.failTile t 3).afterTile (s.tileSub t)) := by
  change execJobTimeout t s = _
  unfold execJobTimeout
  dsimp only
  rw [flying, if_pos (by simp [late])]

/-- TILE_CLOCK_LOSS of a tile in service, outside the self-test of a TILE_RESTORE (R171). -/
theorem tileClockLoss_fails (mode : s.mode ≠ modeRide) (failed : (s.tile t).reg.state ≠ tsFailed)
    (retired : (s.tile t).reg.state ≠ tsRetired) (on : s.islandOn (tileIsland t) = true) (test : (s.tile t).test ≠ .restore) :
    exec (.tileClockLoss t) s = .next ((s.failTile t 4).afterTile (s.tileSub t)) := by
  change execTileClockLoss t s = _
  unfold execTileClockLoss State.clockLoss
  dsimp only
  rw [if_neg fun restoring => test restoring.1, if_neg]
  rintro (riding | out | gone | off)
  · exact mode riding
  · exact failed out
  · exact retired gone
  · rw [on] at off
    exact Bool.noConfusion off

/-! ### Self-tests (R180) -/

/-- SPARE_SELFTEST of a spare whose minute has passed (R180). -/
theorem spareSelftest_begins (mode : s.mode = modeObserve) (spare : (s.tile t).reg.state = tsSpare)
    (due : (s.tile t).testedAt + 60000000000 ≤ s.now) :
    exec (.spareSelftest t) s = .next (s.onTile t fun x =>
      { x with test := .spare, testedAt := s.now, reg := { x.reg with state := tsTesting } }) := by
  change execSpareSelftest t s = _
  unfold execSpareSelftest
  dsimp only
  rw [if_pos ⟨mode, spare, due⟩]

/-- The self-test of a tile whose island is gated has no end (R180; log entry 20). -/
theorem tileSelftestDone_gated (pass : Bool) (off : s.islandOn (tileIsland t) = false) :
    exec (.tileSelftestDone t pass) s = .next s := by
  change execTileSelftestDone t pass s = _
  unfold execTileSelftestDone
  dsimp only
  rw [if_pos (by simp [off])]
  split
  · next asked => rw [if_pos (by simp [asked])]
  · rfl

/-- A self-test that no command waits for ends by itself (R180). -/
theorem tileSelftestDone_unasked (pass : Bool) (asked : (s.tile t).asked = none) (on : s.islandOn (tileIsland t) = true) :
    exec (.tileSelftestDone t pass) s = .next (s.selftestDone t pass) := by
  change execTileSelftestDone t pass s = _
  unfold execTileSelftestDone
  dsimp only
  rw [if_neg (by simp [on]), asked]

/-- A spare that passes is ready again (R180). -/
theorem State.selftestDone_spare_passes (test : (s.tile t).test = .spare) : let u := s.selftestDone t true
    (u.tile t).reg.state = tsSpare ∧ (u.tile t).test = .none ∧ (u.tile t).reg.selftests = satInc (s.tile t).reg.selftests ∧
      (∀ k, k ≠ t → u.tile k = s.tile k) ∧ u = { s with tiles := u.tiles } ∧ s.sameMemory u := by
  unfold State.selftestDone
  dsimp only
  rw [test]
  dsimp only
  rw [if_pos rfl, State.onTile_tile, State.onTileReg_tile]
  refine ⟨rfl, rfl, rfl, fun k other => ?_, rfl, fun _ => rfl⟩
  rw [State.onTile_tile_ne _ _ _ _ other, State.onTileReg_tile_ne _ _ other]

/-- A spare that fails is retired at once (R180). -/
theorem State.selftestDone_spare_fails (test : (s.tile t).test = .spare) : let u := s.selftestDone t false
    (u.tile t).reg.state = tsRetired ∧ (u.tile t).reg.lastCause = 5 ∧
      (u.tile t).reg.selftestFail = satInc (s.tile t).reg.selftestFail ∧ s.sameMemory u := by
  unfold State.selftestDone
  dsimp only
  rw [test]
  dsimp only
  rw [if_neg Bool.false_ne_true]
  generalize counted : State.onTileReg _ t (fun r => { r with lastCause := 5 }) = u
  obtain ⟨handled, -, retired⟩ := u.retireNow_handles t
  refine ⟨retired, handled.cause.trans ?_, handled.fails.selftest.trans ?_, fun a => ?_⟩
  · rw [← counted, State.onTileReg_tile]
  · rw [← counted, State.onTileReg_tile, State.onTileReg_tile]
    rfl
  · rw [handled.mem, ← counted]
    rfl

/-! ### The statement -/

/-- Settles O36: each clause is what its row does with the tile and the Loom's account; a tile that fails, by its check, its time or its
clock, is idle and out of service whatever spare takes its number. -/
theorem loomJobs : Obligations.LoomJobs := by
  unfold Obligations.LoomJobs
  refine ⟨fun s t i j corr free running idle => ⟨fun next set => ?_, fun next set => ?_, fun next short => ?_⟩,
    fun s t j t0 n upsets computing empty staged ended => ?_,
    fun s t d dumped ended => ⟨fun passes => ?_, fun wrong => ?_⟩,
    fun s t j start computing late => ?_, fun s t r flying late => ?_, fun s t mode failed retired on test => ?_,
    fun s t mode spare due => ?_, fun s t pass => tileSelftestDone_gated pass,
    fun s t test asked on => ?_, fun s t test asked on => ?_⟩
  · exact ⟨s.nextJob_staged next, _, jobStart_begins corr free running idle next set, s.beginJob_effect i t j⟩
  · refine ⟨_, jobStart_waits_set corr free running idle next set, ?_, ?_, rfl⟩
    · rw [State.onLoom_loom, since_eq_getD]
    · rw [State.onLoom_loom]
  · refine ⟨_, jobStart_waits_unit corr free running idle next short, ?_, ?_, rfl⟩
    · rw [State.onLoom_loom, since_eq_getD]
    · rw [State.onLoom_loom]
  · refine ⟨_, s.newDump j t0 n upsets, jobComputeDone_dumps computing empty staged ended, ?_⟩
    rw [State.onTile_tile]
    exact ⟨rfl, rfl, rfl, by rw [State.newDump], by rw [State.newDump], by rw [State.newDump],
      fun k other => State.onTile_tile_ne s t k _ other, rfl, fun _ => rfl⟩
  · exact ⟨_, by rw [exec_jobCheck dumped ended, if_pos passes], s.jobCommitted_effect t d⟩
  · obtain ⟨mem, dump, counted⟩ := s.failJob_effect t d
    exact ⟨_, by rw [exec_jobCheck dumped ended, if_neg (by simp [wrong])], dump, counted, fun a => by rw [mem]⟩
  · obtain ⟨⟨job, dump, -⟩, cause, out, mem⟩ := s.failTile_afterTile t 3 (s.tileSub t)
    exact ⟨_, jobTimeout_job computing late, job, dump, cause, out, mem⟩
  · obtain ⟨⟨-, -, beam⟩, cause, out, mem⟩ := s.failTile_afterTile t 3 (s.tileSub t)
    exact ⟨_, jobTimeout_beam flying late, beam, cause, out, mem⟩
  · obtain ⟨⟨job, dump, beam⟩, cause, out, mem⟩ := s.failTile_afterTile t 4 (s.tileSub t)
    exact ⟨_, tileClockLoss_fails mode failed retired on test, job, dump, beam, cause, out, mem⟩
  · refine ⟨_, spareSelftest_begins mode spare due, ?_⟩
    rw [State.onTile_tile]
    exact ⟨rfl, rfl, fun k other => State.onTile_tile_ne s t k _ other, rfl, fun _ => rfl⟩
  · exact ⟨_, tileSelftestDone_unasked true asked on, s.selftestDone_spare_passes test⟩
  · exact ⟨_, tileSelftestDone_unasked false asked on, s.selftestDone_spare_fails test⟩

end Sys2Proof.Machine
end

section
/-! The Ledger's arithmetic (Table 08-2, R189, R191, R194, R196): the saturating adder, the stored form of an entry, and a dump added
into its set. A dump is committed one entry after another, so what it leaves is proved by adding one more entry at its end. -/

namespace Sys2Proof.Machine

/-! ### The DRAM adder (R191) -/

/-- A pinned part stays, whatever is added (R191). -/
theorem addPinned_of_pinned {a : Int} (b : Int) (pinned : a = pin64 ∨ a = -pin64) : addPinned a b = a := if_pos pinned

/-- A part that is not pinned takes the sum, held within the pins. -/
theorem addPinned_of_free {a : Int} (b : Int) (high : a ≠ pin64) (low : a ≠ -pin64) :
    addPinned a b = clampInt (-pin64) pin64 (a + b) := if_neg (not_or.mpr ⟨high, low⟩)

theorem clampInt_of_within {lo hi v : Int} (low : lo ≤ v) (high : v ≤ hi) : clampInt lo hi v = v := by
  rw [clampInt, Int.min_eq_right high, Int.max_eq_right low]

theorem clampInt_within {lo hi : Int} (v : Int) (order : lo ≤ hi) : lo ≤ clampInt lo hi v ∧ clampInt lo hi v ≤ hi :=
  ⟨Int.le_max_left .., Int.max_le.mpr ⟨order, Int.min_le_left ..⟩⟩

/-- The adder never leaves ±(2^63 - 1) (R191). -/
theorem addPinned_within {a : Int} (b : Int) (low : -pin64 ≤ a) (high : a ≤ pin64) :
    -pin64 ≤ addPinned a b ∧ addPinned a b ≤ pin64 := by
  unfold addPinned
  split
  · exact ⟨low, high⟩
  · exact clampInt_within _ (by decide)

/-! ### Numbers in bytes -/

@[simp] theorem length_leBytes (n v : Nat) : (leBytes n v).length = n := by
  induction n generalizing v with
  | zero => rfl
  | succ n ih => rw [leBytes, List.length_cons, ih]

theorem leNat_leBytes (n v : Nat) : leNat (leBytes n v) = v % 2 ^ (8 * n) := by
  induction n generalizing v with
  | zero => rw [leBytes, leNat, Nat.mul_zero, Nat.pow_zero, Nat.mod_one]
  | succ n ih => rw [leBytes, leNat, ih, BitVec.toNat_ofNat, Nat.mul_succ, Nat.pow_add, Nat.mul_comm (2 ^ (8 * n)),
    Nat.mod_mul]

/-- The bytes of a part of a longer string. -/
theorem bytesAt_middle (xs ys zs : List Byte) : bytesAt (xs ++ ys ++ zs) xs.length ys.length = ys := by
  simp [bytesAt]

/-- Two's complement codes of one width, one after the other, read back as their integers. -/
theorem signedOf_leAt_codes {n b w : Nat} {u v : Int} (bytes : 8 * n = w) (width : w = b + 1) (uLow : -(2 : Int) ^ b ≤ u)
    (uHigh : u < 2 ^ b) (vLow : -(2 : Int) ^ b ≤ v) (vHigh : v < 2 ^ b) :
    signedOf w (leAt (leBytes n (codeOf w u) ++ leBytes n (codeOf w v)) 0 n) = u ∧
      signedOf w (leAt (leBytes n (codeOf w u) ++ leBytes n (codeOf w v)) n n) = v := by
  have first := bytesAt_middle [] (leBytes n (codeOf w u)) (leBytes n (codeOf w v))
  have second := bytesAt_middle (leBytes n (codeOf w u)) (leBytes n (codeOf w v)) []
  simp only [List.nil_append, List.append_nil, List.length_nil, length_leBytes] at first second
  rw [leAt, leAt, first, second, leNat_leBytes, leNat_leBytes, bytes, signedOf_mod, signedOf_mod, width]
  exact ⟨signedOf_codeOf uLow uHigh, signedOf_codeOf vLow vHigh⟩

/-- What the 16 bytes of an entry hold is the entry (R196). -/
theorem entryOf_entryBytes {v : Cplx} (reLow : -pin64 ≤ v.1) (reHigh : v.1 ≤ pin64) (imLow : -pin64 ≤ v.2)
    (imHigh : v.2 ≤ pin64) : entryOf (entryBytes v) = v := by
  rw [pin64] at reLow reHigh imLow imHigh
  obtain ⟨re, im⟩ := signedOf_leAt_codes (n := 8) (b := 63) (u := v.1) (v := v.2) rfl rfl (by omega) (by omega) (by omega)
    (by omega)
  rw [entryOf, entryBytes, re, im]

/-! ### Loads beside stores -/

theorem Memory.load_congr {m u : Memory} {a n : Nat} (same : ∀ k < n, m.byte (a + k) = u.byte (a + k)) :
    m.load a n = u.load a n :=
  List.map_congr_left fun k inside => same k (List.mem_range.mp inside)

/-! ### A dump into its set (R189, R193) -/

/-- Induction on a dump by its last entry, the one that the adders take last. -/
theorem entries_induction {P : List Cplx → Prop} (nil : P []) (concat : ∀ es e, P es → P (es ++ [e])) (es : List Cplx) : P es := by
  rw [← es.reverse_reverse]
  induction es.reverse with
  | nil => exact nil
  | cons e rest ih =>
    rw [List.reverse_cons]
    exact concat _ e ih

/-- An SRAM entry takes 12 bytes (Table 08-1). -/
@[simp] theorem length_setBytesOf (v : Cplx) : (setBytesOf v).length = 12 := by simp [setBytesOf]

/-- Entry `e` of a position lies 12 bytes further for each entry before it. -/
theorem State.setAddr_eq (s : State) (i : SubId) (f p e : Nat) : s.setAddr i f p e = s.setAddr i f p 0 + 12 * e := by
  simp only [State.setAddr]
  omega

theorem State.commitDump_mem_nil (s : State) (i : SubId) (f p : Nat) : (s.commitDump i f p []).mem = s.mem := rfl

/-- One more entry is one more addition, to what stands at its place. -/
theorem State.commitDump_mem_concat (s : State) (i : SubId) (f p : Nat) (es : List Cplx) (e : Cplx) :
    (s.commitDump i f p (es ++ [e])).mem =
      (s.commitDump i f p es).mem.store (s.setAddr i f p es.length)
        (setBytesOf (cPlus (setEntryOf ((s.commitDump i f p es).mem.load (s.setAddr i f p es.length) 12)) e)) := by
  simp only [State.commitDump, State.onLedgStat_mem, List.zipIdx_append, List.foldl_append]
  simp [cPlus]

/-- A dump changes no byte outside the entries it is added to. -/
theorem State.commitDump_byte_outside (s : State) (i : SubId) (f p : Nat) (es : List Cplx) {a : Nat}
    (outside : a < s.setAddr i f p 0 ∨ s.setAddr i f p es.length ≤ a) : (s.commitDump i f p es).mem.byte a = s.mem.byte a := by
  induction es using entries_induction with
  | nil => rw [s.commitDump_mem_nil]
  | concat es e ih =>
    rw [List.length_append, List.length_singleton, s.setAddr_eq i f p (es.length + 1)] at outside
    have last := s.setAddr_eq i f p es.length
    rw [s.commitDump_mem_concat, Memory.byte_store_out (by rw [length_setBytesOf]; omega), ih (by omega)]

theorem State.commitDump_wf {s : State} (canonical : Memory.wf s.mem = true) (i : SubId) (f p : Nat) (es : List Cplx) :
    Memory.wf (s.commitDump i f p es).mem = true := by
  induction es using entries_induction with
  | nil => exact canonical
  | concat es e ih =>
    rw [s.commitDump_mem_concat]
    exact Memory.wf_store ih

/-- Each entry of a dump is added to the entry of the set at its place. -/
theorem State.commitDump_load {s : State} (canonical : Memory.wf s.mem = true) (i : SubId) (f p : Nat) (es : List Cplx)
    {k : Nat} (inside : k < es.length) :
    (s.commitDump i f p es).mem.load (s.setAddr i f p k) 12 =
      setBytesOf (cPlus (setEntryOf (s.mem.load (s.setAddr i f p k) 12)) (es.getD k (0, 0))) := by
  induction es using entries_induction with
  | nil => cases inside
  | concat es e ih =>
    have place := s.setAddr_eq i f p k
    have last := s.setAddr_eq i f p es.length
    rw [s.commitDump_mem_concat]
    rcases Nat.lt_succ_iff_lt_or_eq.mp (by simpa using inside) with before | rfl
    · rw [Memory.load_congr fun b _ => Memory.byte_store_out (by rw [length_setBytesOf]; omega), ih before,
        List.getD_eq_getElem?_getD, List.getD_eq_getElem?_getD, List.getElem?_append_left before]
    · have untouched : (s.commitDump i f p es).mem.load (s.setAddr i f p es.length) 12 =
          s.mem.load (s.setAddr i f p es.length) 12 :=
        Memory.load_congr fun b _ => s.commitDump_byte_outside i f p es (by omega)
      rw [untouched, List.getD_eq_getElem?_getD, List.getElem?_concat_length, Option.getD_some]
      exact Memory.load_store (bs := setBytesOf _) (s.commitDump_wf canonical i f p es)

/-- Settles O38: the adder holds its sum within the pins, an entry's bytes are the codes of its two parts, and a dump is one addition
after another, each at a place of its own. -/
theorem ledgerAccumulates : Obligations.LedgerAccumulates := by
  unfold Obligations.LedgerAccumulates
  refine ⟨fun a b => ⟨addPinned_of_pinned b, fun high low above below => ?_, addPinned_within b⟩,
    fun old v => ⟨rfl, rfl, rfl, rfl, rfl, rfl⟩, fun v => entryOf_entryBytes,
    fun s i f p es k canonical => s.commitDump_load canonical i f p es,
    fun s i f p es a => s.commitDump_byte_outside i f p es⟩
  rw [addPinned_of_free b high low, clampInt_of_within above below]

end Sys2Proof.Machine
end

section
/-! The Granary's address mapping (R242): each hashed bit is its own page bit, turned by a parity of the row's bits, so that the
eleven hashed bits and the row give every page bit back. -/

namespace Sys2Proof.Machine

/-! ### Masks and counts of bits -/

theorem maskOf_succ (n : Nat) (f : Nat → Bool) : maskOf (n + 1) f = maskOf n f + (if f n then 2 ^ n else 0) := by
  rw [maskOf, List.range_succ, List.foldl_append, ← maskOf, List.foldl_cons, List.foldl_nil]
  split <;> rfl

theorem maskOf_lt (n : Nat) (f : Nat → Bool) : maskOf n f < 2 ^ n := by
  induction n with
  | zero => exact Nat.one_pos
  | succ n ih =>
    rw [maskOf_succ, Nat.pow_succ]
    split <;> omega

/-- A mask of the numbers for which `f` holds has the bits for which `f` holds. -/
theorem testBit_maskOf {n k : Nat} (f : Nat → Bool) (below : k < n) : (maskOf n f).testBit k = f k := by
  induction n with
  | zero => cases below
  | succ n ih =>
    have rest := maskOf_lt n f
    rw [maskOf_succ]
    rcases Nat.lt_succ_iff_lt_or_eq.mp below with lower | rfl
    · rw [← ih lower]
      split
      · rw [Nat.add_comm, Nat.testBit_two_pow_add_gt lower]
      · rfl
    · split
      · next set => rw [Nat.add_comm, Nat.testBit_two_pow_add_eq, Nat.testBit_lt_two_pow rest, set]; rfl
      · next clear => rw [Nat.add_zero, Nat.testBit_lt_two_pow rest, Bool.eq_false_iff.mpr clear]

/-- The ones of a number are those of its low bits and those of the rest. -/
theorem popCount_add (a b v : Nat) : popCount (a + b) v = popCount a (v % 2 ^ a) + popCount b (v / 2 ^ a) := by
  have low : (List.range a).filter (fun k => v.testBit k) = (List.range a).filter fun k => (v % 2 ^ a).testBit k :=
    List.filter_congr fun k inside => by simp [Nat.testBit_mod_two_pow, List.mem_range.mp inside]
  rw [popCount, List.range_add, List.filter_append, List.length_append, low, List.filter_map, List.length_map]
  simp only [popCount, Function.comp_def, Nat.testBit_div_two_pow, Nat.add_comm]

/-! ### The hashed bits -/

/-- What a single bit keeps of a number. -/
theorem twoPow_and (k n : Nat) : 2 ^ k &&& n = 2 ^ k * (n.testBit k).toNat := by
  refine Nat.eq_of_testBit_eq fun j => ?_
  rw [Nat.testBit_and, Nat.testBit_two_pow]
  by_cases same : k = j
  · subst same
    cases n.testBit k <;> simp
  · rw [decide_eq_false same, Bool.false_and]
    cases n.testBit k <;> simp [same]

/-- A single bit among the low eleven counts once. -/
theorem popCount_ownBit : ∀ k < 11, ∀ b : Bool, popCount 11 (2 ^ k * b.toNat) = b.toNat := by decide

/-- One more bit turns a parity. -/
theorem parity_add_bit (b : Bool) (n : Nat) : ((b.toNat + n) % 2 == 1) = (b ^^ (n % 2 == 1)) := by
  cases b with
  | false => simp
  | true => rcases Nat.mod_two_eq_zero_or_one n with even | odd <;> simp [Nat.add_mod, *]

/-- A hashed bit of a page is its own bit of the page, turned by a parity of the row's bits (R242). -/
theorem hashBit_eq {k m : Nat} (below : k < 11) (rule : badMask k m = false) (p : Nat) :
    hashBit m p = (p.testBit k ^^ (popCount 19 (m / 2 ^ 11 &&& p / 2 ^ 11) % 2 == 1)) := by
  have own : m % 2 ^ 11 = 2 ^ k := by
    simp only [badMask, Bool.or_eq_false_iff, bne_eq_false_iff_eq] at rule
    exact rule.1.2
  have low : (m &&& p) % 2 ^ 11 = 2 ^ k * (p.testBit k).toNat := by
    rw [Nat.and_mod_two_pow, own, twoPow_and, Nat.testBit_mod_two_pow, decide_eq_true below, Bool.true_and]
  rw [hashBit, popCount_add 11 19, low, popCount_ownBit k below, Nat.and_div_two_pow, parity_add_bit]

/-- Pages of one row that agree in a hashed bit agree in that bit of their own. -/
theorem testBit_eq_of_hashBit_eq {k m p q : Nat} (below : k < 11) (rule : badMask k m = false) (rows : p / 2 ^ 11 = q / 2 ^ 11)
    (bits : hashBit m p = hashBit m q) : p.testBit k = q.testBit k := by
  rw [hashBit_eq below rule, hashBit_eq below rule, rows] at bits
  exact Bool.xor_left_inj.mp bits

/-- Settles O41: with the row known, each hashed bit gives the page's bit of that number back, and the row is the bits above. -/
theorem granaryMappingIsOneToOne : Obligations.GranaryMappingIsOneToOne := by
  unfold Obligations.GranaryMappingIsOneToOne
  intro s p q rule _ _ hashes rows
  refine Nat.eq_of_testBit_eq fun k => ?_
  by_cases below : k < 11
  · have bits := congrArg (·.testBit k) hashes
    simp only [State.hashOf, testBit_maskOf _ below] at bits
    exact testBit_eq_of_hashBit_eq below (rule k below) rows bits
  · obtain ⟨j, rfl⟩ := Nat.exists_eq_add_of_le' (Nat.not_lt.mp below)
    rw [← Nat.testBit_div_two_pow p j, ← Nat.testBit_div_two_pow q j]
    exact congrArg (·.testBit j) rows

end Sys2Proof.Machine
end

section
/-! The Granary's channels as they are brought up, put to sleep and woken (R251 to R257): what each row does with one channel, and
what a quadrant's rows do with the channels of that quadrant. -/

namespace Sys2Proof.Machine

/-! ### One channel -/

@[simp] theorem State.onChan_chan (s : State) (c : ChanId) (f : GranChan → GranChan) : (s.onChan c f).chan c = f (s.chan c) := by
  simp [State.onChan, State.chan]

theorem State.onChan_chan_ne (s : State) {c d : ChanId} (f : GranChan → GranChan) (other : d ≠ c) :
    (s.onChan c f).chan d = s.chan d := vmod_ne _ f other

@[simp] theorem State.onGranStat_chan (s : State) (c : ChanId) (f : GranStat → GranStat) :
    (s.onGranStat c f).chan c = { s.chan c with stat := f (s.chan c).stat } := s.onChan_chan c _

theorem State.onChan_only (s : State) (c : ChanId) (f : GranChan → GranChan) :
    s.onChan c f = { s with gran := (s.onChan c f).gran } := rfl

@[simp] theorem State.raise_chan (s : State) (i : SourceId) (detail : Word) (sub : Option SubId) (c : ChanId) :
    (s.raise i detail sub).chan c = s.chan c := by
  rw [(s.raise_only i detail sub).1]
  rfl

/-! ### Refresh rate (R251) -/

/-- The module with a channel's reading kept, and a hot one seen. -/
def State.readRate (s : State) (c : ChanId) (rate : BitVec 4) (temp : BitVec 16) : State :=
  s.onGranStat c fun x => { x with refreshRate := rate, temp := temp, hotSeen := x.hotSeen || decide (12 ≤ rate.toNat) }

/-- A reading of a channel that is not OFF is kept, and a hot one is told (R251; log entry 11). -/
theorem exec_refreshRateRead (s : State) (c : ChanId) (rate : BitVec 4) (temp : BitVec 16) (on : (s.chan c).stat.state ≠ gsOff) :
    exec (.refreshRateRead c rate temp) s = .next (if 12 ≤ rate.toNat then
      (s.readRate c rate temp).raise srcGranHot (BitVec.ofNat 32 c.val) else s.readRate c rate temp) := by
  change execRefreshRateRead c rate temp s = _
  simp only [execRefreshRateRead, if_neg on, decide_eq_true_eq, State.readRate]

/-! ### The channels of a quadrant -/

theorem mem_quadChans : ∀ (q : Fin 4) (c : ChanId), c ∈ quadChans q ↔ c.val / 8 = q.val := by decide

theorem nodup_quadChans : ∀ q : Fin 4, (quadChans q).Nodup := by decide

/-- A step taken for each of some channels, which gives that channel its new value and leaves the others, gives each of them its new
value; what every step keeps of the rest holds at the end. -/
theorem foldl_chan {step : State → ChanId → State} {new : ChanId → GranChan → GranChan} {Kept : State → Prop}
    (keeps : ∀ t c, Kept t → Kept (step t c)) (own : ∀ t c, Kept t → (step t c).chan c = new c (t.chan c))
    (others : ∀ t c d, d ≠ c → (step t c).chan d = t.chan d) {cs : List ChanId} (distinct : cs.Nodup) {s : State} (kept : Kept s) :
    Kept (cs.foldl step s) ∧ (∀ c ∈ cs, (cs.foldl step s).chan c = new c (s.chan c)) ∧
      ∀ c, c ∉ cs → (cs.foldl step s).chan c = s.chan c := by
  induction cs generalizing s with
  | nil => exact ⟨kept, fun c inside => absurd inside List.not_mem_nil, fun c _ => rfl⟩
  | cons d cs ih =>
    obtain ⟨fresh, rest⟩ := List.nodup_cons.mp distinct
    obtain ⟨keptRest, inRest, outRest⟩ := ih rest (keeps s d kept)
    refine ⟨keptRest, fun c inside => ?_, fun c outside => ?_⟩
    · rcases List.mem_cons.mp inside with rfl | later
      · exact (outRest c fresh).trans (own s c kept)
      · have other : c ≠ d := fun same => fresh (same ▸ later)
        exact (inRest c later).trans (by rw [others s d c other])
    · obtain ⟨other, later⟩ := List.ne_and_not_mem_of_not_mem_cons outside
      exact (outRest c later).trans (others s d c other)

/-! ### Training (R254 to R256) -/

/-- A channel at the end of its training. -/
def GranChan.trained (now : Nat) (cold failed : Bool) (x : GranChan) : GranChan :=
  if x.stat.state = gsTraining then
    if failed then { x with stat := { x.stat with state := gsFault } }
    else { x with lastReq := now, stat := { x.stat with state := if cold then gsFilling else gsActive
                                                        trainFull := x.stat.trainFull || cold } }
  else x

theorem GranChan.trained_state (now : Nat) (cold failed : Bool) {x : GranChan} (training : x.stat.state = gsTraining) :
    (x.trained now cold failed).stat.state = if failed then gsFault else if cold then gsFilling else gsActive := by
  rw [GranChan.trained, if_pos training]
  cases failed <;> rfl

theorem GranChan.trained_of_ne (now : Nat) (cold failed : Bool) {x : GranChan} (other : x.stat.state ≠ gsTraining) :
    x.trained now cold failed = x := if_neg other

/-- The end of a channel's training changes that channel, and the Tally when it failed. -/
theorem State.trainChan_spec (s : State) (c : ChanId) (failed : Bool) :
    (s.trainChan c failed).chan c = (s.chan c).trained s.now s.coldStart failed ∧
      (∀ d, d ≠ c → (s.trainChan c failed).chan d = s.chan d) ∧
      (s.trainChan c failed).mem = s.mem ∧ (s.trainChan c failed).now = s.now ∧ (s.trainChan c failed).start = s.start := by
  unfold State.trainChan GranChan.trained
  split
  · split
    · refine ⟨by simp, fun d other => ?_, by simp, ?_, ?_⟩
      · rw [State.raise_chan]
        exact s.onChan_chan_ne _ other
      · rw [(State.raise_only ..).1]; rfl
      · rw [(State.raise_only ..).1]; rfl
    · exact ⟨s.onChan_chan c _, fun d other => s.onChan_chan_ne _ other, rfl, rfl, rfl⟩
  · exact ⟨rfl, fun _ _ => rfl, rfl, rfl, rfl⟩

/-- The end of a quadrant's training, channel by channel. -/
theorem exec_granaryTrainingDone (s : State) (q : Fin 4) (failed : BitVec 8) :
    ∃ t, exec (.granaryTrainingDone q failed) s = .next t ∧ t.mem = s.mem ∧
      (∀ c : ChanId, c.val / 8 = q.val → t.chan c = (s.chan c).trained s.now s.coldStart (failed.getLsbD (c.val % 8))) ∧
      ∀ c : ChanId, c.val / 8 ≠ q.val → t.chan c = s.chan c := by
  obtain ⟨⟨mem, -, -⟩, inside, outside⟩ := foldl_chan (s := s) (step := fun t c => t.trainChan c (failed.getLsbD (c.val % 8)))
    (new := fun c x => x.trained s.now s.coldStart (failed.getLsbD (c.val % 8)))
    (Kept := fun t => t.mem = s.mem ∧ t.now = s.now ∧ t.start = s.start)
    (fun t c ⟨mem, now, start⟩ => by
      obtain ⟨-, -, mem', now', start'⟩ := t.trainChan_spec c (failed.getLsbD (c.val % 8))
      exact ⟨mem'.trans mem, now'.trans now, start'.trans start⟩)
    (fun t c ⟨_, now, start⟩ => by
      rw [(t.trainChan_spec c _).1, now, State.coldStart, start, ← State.coldStart])
    (fun t c d other => (t.trainChan_spec c _).2.1 d other)
    (nodup_quadChans q) ⟨rfl, rfl, rfl⟩
  exact ⟨_, rfl, mem, fun c at' => inside c ((mem_quadChans q c).mpr at'),
    fun c other => outside c (mt (mem_quadChans q c).mp other)⟩

/-! ### Zero-fill (R257) -/

/-- A filled quadrant reads zero on its pages, and every other byte stands. -/
theorem State.zeroQuad_byte (s : State) (q : Fin 4) (a : Nat) :
    (s.zeroQuad q).mem.byte a =
      if granBase ≤ a ∧ a < granEnd ∧ (s.chanOf (pageOf ((a - granBase) / 64))).val / 8 = q.val then 0 else s.mem.byte a := by
  rw [Memory.byte, State.zeroQuad, SMap.get_filter (p := fun a => !(decide (granBase ≤ a) && decide (a < granEnd) &&
    decide ((s.chanOf (pageOf ((a - granBase) / 64))).val / 8 = q.val)))]
  simp only [← Bool.decide_and, ← decide_not, decide_eq_true_eq, ite_not, and_assoc]
  rfl

/-- A channel that is being filled serves with an empty check cache. -/
def GranChan.filled (x : GranChan) : GranChan :=
  if x.stat.state = gsFilling then { x with cache := [], stat := { x.stat with state := gsActive } } else x

theorem GranChan.filled_state {x : GranChan} (filling : x.stat.state = gsFilling) : x.filled.stat.state = gsActive := by
  rw [GranChan.filled, if_pos filling]

/-- The end of a quadrant's fill, channel by channel. -/
theorem exec_zeroFillDone (s : State) (q : Fin 4) {c : ChanId} (at' : c.val / 8 = q.val)
    (filling : (s.chan c).stat.state = gsFilling) :
    ∃ t, exec (.zeroFillDone q) s = .next t ∧ t = { s.zeroQuad q with gran := t.gran } ∧
      ∀ d : ChanId, d.val / 8 = q.val → t.chan d = (s.chan d).filled := by
  have someFilling : ((quadChans q).any fun d => (s.chan d).stat.state == gsFilling) = true :=
    List.any_eq_true.mpr ⟨c, (mem_quadChans q c).mpr at', beq_iff_eq.mpr filling⟩
  obtain ⟨rest, inside, -⟩ := foldl_chan (s := s.zeroQuad q)
    (step := fun t c => if (t.chan c).stat.state = gsFilling then
      t.onChan c fun x => { x with cache := [], stat := { x.stat with state := gsActive } } else t)
    (new := fun _ x => x.filled) (Kept := fun t => t = { s.zeroQuad q with gran := t.gran })
    (fun t c kept => by
      split
      · rw [kept]; rfl
      · exact kept)
    (fun t c _ => by
      rw [GranChan.filled]
      split
      · exact t.onChan_chan c _
      · rfl)
    (fun t c d other => by
      split
      · exact t.onChan_chan_ne _ other
      · rfl)
    (nodup_quadChans q) rfl
  refine ⟨_, ?_, rest, fun d at' => inside d ((mem_quadChans q d).mpr at')⟩
  change execZeroFillDone q s = _
  rw [execZeroFillDone, if_pos someFilling]

/-! ### Self-refresh (R252, R253) -/

/-- A channel that enters self-refresh keeps no dirty check granule. -/
theorem GranChan.enter_cache_clean (x : GranChan) (now : Nat) : ∀ e ∈ (x.enter now).cache, e.2 = false := by
  simp [GranChan.enter, GranChan.writeBack]

theorem GranChan.enter_state (x : GranChan) (now : Nat) (thawed : x.stat.state ≠ gsFrozen) :
    (x.enter now).stat.state = gsSelf := if_neg thawed

theorem exec_srIdle_enters (s : State) (c : ChanId) {t : Nat} (on : s.srIdleNs = some t)
    (idle : (s.chan c).stat.state = gsActive ∧ (s.chan c).lastReq + t ≤ s.now) :
    exec (.srIdle c) s = .next (s.onChan c fun y => y.enter s.now) := by
  change execSrIdle c s = _
  rw [execSrIdle, on]
  exact congrArg _ (if_pos idle)

/-- Only an active channel goes into self-refresh of itself. -/
theorem exec_srIdle_stays (s : State) (c : ChanId) (other : (s.chan c).stat.state ≠ gsActive) : exec (.srIdle c) s = .next s := by
  change execSrIdle c s = _
  rw [execSrIdle]
  split
  · exact congrArg _ (if_neg fun idle => other idle.1)
  · rfl

theorem exec_srExit_wakes (s : State) (c : ChanId) (ns : Nat) (asleep : (s.chan c).stat.state = gsSelf) :
    exec (.srExit c ns) s = .next (s.onChan c fun y => { y.exit ns with lastReq := s.now }) :=
  congrArg _ (if_pos asleep)

theorem exec_srExit_stays (s : State) (c : ChanId) (ns : Nat) (awake : (s.chan c).stat.state ≠ gsSelf) :
    exec (.srExit c ns) s = .next s :=
  congrArg _ (if_neg awake)

/-! ### The obligation's clauses -/

theorem State.sameMemory_of_mem {s t : State} (same : t.mem = s.mem) : s.sameMemory t := fun _ => congrArg (Memory.byte · _) same

/-- Settles O42: each clause is what its row does with the channel it names, or with every channel of its quadrant. -/
theorem granaryBringUpAndSelfRefresh : Obligations.GranaryBringUpAndSelfRefresh := by
  unfold Obligations.GranaryBringUpAndSelfRefresh
  refine ⟨fun s c rate temp on => ?rate, fun s => rfl, fun s q failed => ?training, fun s q c at' filling => ?fill,
    fun s c => ⟨fun t on active idle => ?enter, fun frozen => ?frozen, fun ns asleep => ?exit, fun ns awake => ?awake⟩⟩
  case rate =>
    have kept : (s.readRate c rate temp).chan c = _ := s.onGranStat_chan c _
    rw [exec_refreshRateRead s c rate temp on]
    split
    · next hot =>
      refine ⟨_, rfl, ?_, ?_, ?_, State.sameMemory_of_mem (State.raise_mem ..), fun cool => absurd hot (Nat.not_le.mpr cool)⟩ <;>
        rw [State.raise_chan, kept]
    · refine ⟨_, rfl, ?_, ?_, ?_, fun _ => rfl, fun _ => rfl⟩ <;> rw [kept]
  case training =>
    obtain ⟨t, ran, mem, inside, outside⟩ := exec_granaryTrainingDone s q failed
    refine ⟨t, ran, State.sameMemory_of_mem mem, fun c at' training => ?_, fun c other => ?_⟩
    · rw [inside c at', GranChan.trained_state _ _ _ training]
    · by_cases at' : c.val / 8 = q.val
      · rw [inside c at', GranChan.trained_of_ne _ _ _ (other.resolve_left fun apart => apart at')]
      · exact outside c at'
  case fill =>
    obtain ⟨t, ran, rest, inside⟩ := exec_zeroFillDone s q at' filling
    have byte (a : Nat) : t.mem.byte a = (s.zeroQuad q).mem.byte a := by rw [rest]
    refine ⟨t, ran, ?_, fun a base top own => ?_, fun a other => ?_, rest.trans ?_⟩
    · rw [inside c at', GranChan.filled_state filling]
    · rw [byte, s.zeroQuad_byte, if_pos ⟨base, top, own⟩]
    · rw [byte, s.zeroQuad_byte, if_neg]
      rintro ⟨base, top, own⟩
      omega
    · rw [rest]; rfl
  case enter =>
    have thawed : (s.chan c).stat.state ≠ gsFrozen := by rw [active]; decide
    refine ⟨_, exec_srIdle_enters s c on ⟨active, idle⟩, ?_, ?_, ?_, fun d other => s.onChan_chan_ne _ other, rfl, fun _ => rfl⟩
    · rw [s.onChan_chan, GranChan.enter_state _ _ thawed]
    · rw [s.onChan_chan]
      exact GranChan.enter_cache_clean _ _
    · rw [s.onChan_chan]
      rfl
  case frozen => exact exec_srIdle_stays s c (by rw [frozen]; decide)
  case exit =>
    refine ⟨_, exec_srExit_wakes s c ns asleep, ?_, ?_, ?_, rfl, fun _ => rfl⟩ <;> rw [s.onChan_chan]
    · rfl
    · rfl
  case awake => exact exec_srExit_stays s c ns awake

end Sys2Proof.Machine
end

section
/-! A read of the Granary that mismatches three times, while a host has the MODE interrupt enabled. `Obligations.GranaryServesRequests`
says that nothing but the error response leaves the module; R246 also asks the Bellows for HOLD, and the change of mode is
told to every open bench (R317, R421). -/

namespace Sys2Proof.Machine

/-- The module after a read that mismatched three times, its channel frozen (R245, R246). -/
def State.uncorrected (s : State) (g : Nat) (src : GranSource) (op : BitVec 2) (rd : ReadOutcome) : State :=
  let c := s.chanOf (pageOf g)
  (((s.reach c).onChan c fun x =>
    { x.touch (pageOf g) false with stat := { (x.touch (pageOf g) false).stat with reads := x.stat.reads + 1 } }).reread c
      2).freezeChan g src op rd

/-- The error response goes out last, after all that the freeze says (R246). -/
theorem State.verified_uncorrectable (s : State) (g : Nat) (src : GranSource) (op : BitVec 2) {rd : ReadOutcome}
    (after : State → State) (three : rd.mismatches.val = 3) :
    s.verified g src op rd after = (s.uncorrected g src op rd).emit (.granError src) := by
  have nonzero : rd.mismatches.val ≠ 0 := by rw [three]; decide
  simp only [State.verified, State.uncorrected, if_neg nonzero, if_pos three]

/-- A read of a channel that serves is a verified read (R245). -/
theorem exec_granaryAccess_read {s : State} (src : GranSource) {a : BitVec 44} (rd : ReadOutcome) (base : granBase ≤ a.toNat)
    (top : a.toNat < granEnd) (serves : s.granServes = true)
    (thawed : (s.chan (s.chanOf (pageOf ((a.toNat - granBase) / 64)))).stat.state ≠ gsFrozen) :
    exec (.granaryAccess src .read a rd) s =
      .next (s.verified ((a.toNat - granBase) / 64) src 0 (s.fetched ((a.toNat - granBase) / 64) true rd)
        fun t => (t.granuleRead ((a.toNat - granBase) / 64)).1) := by
  change execGranaryAccess src .read a rd s = _
  have within : ¬(a.toNat < granBase ∨ granEnd ≤ a.toNat) := by omega
  simp only [execGranaryAccess, if_neg within, serves, Bool.not_true, Bool.false_eq_true, if_false, if_neg thawed]

namespace TornRead

/-- The module in PROVISION with every channel of the Granary ACTIVE. Bench 0 is open, its link is up, its host has enabled the MODE
interrupt, and its function may send every vector. -/
def told : State :=
  let s := State.reset
  { s with
    bell := { s.bell with alive := true, stat := { s.bell.stat with mode := modeProvision } }
    gran := { s.gran with chans := Vector.replicate 32 { stat := { state := gsActive } } }
    bench := { s.bench with
      serving := true
      benches := vmod s.bench.benches 0 fun x => { x with stat := { x.stat with isOpen := true, linkUp := true, irqEnable := 0x10 } }
      funcs := vmod s.bench.funcs 0 fun x => { x with busMaster := true, masked := 0 } } }

/-- Three reads of the data granule that all mismatched. -/
def torn : ReadOutcome := ⟨3, false, 0x1234, 0x4321, 9⟩

/-- The first address of the Granary. -/
def firstAddr : BitVec 44 := 0x20000000000

/-- The freeze of its channel sends the message of the MODE bit (R317, R421). -/
theorem out_uncorrected : (told.uncorrected 0 .exchange 0 torn).out = [.msix 0 4] := by decide +kernel

end TornRead

open TornRead

/-- Refutes O40: a host that has the MODE interrupt enabled gets its message when an uncorrectable error takes the module to HOLD, so
the error response is not all that leaves the module (R246, R317, R421). -/
theorem not_granaryServesRequests : ¬ Obligations.GranaryServesRequests := by
  unfold Obligations.GranaryServesRequests
  intro claim
  obtain ⟨-, within⟩ := claim told .exchange firstAddr torn
  obtain ⟨-, thawed⟩ := within (by decide +kernel) (by decide +kernel) (by decide +kernel) (by decide +kernel)
  obtain ⟨-, -, -, -, uncorrectable⟩ := thawed (by decide +kernel)
  obtain ⟨t, ran, -, alone, -⟩ := uncorrectable (by decide +kernel)
  rw [exec_granaryAccess_read .exchange torn (by decide +kernel) (by decide +kernel) (by decide +kernel) (by decide +kernel),
    State.verified_uncorrectable _ _ _ _ _ (by decide +kernel)] at ran
  have granule : (firstAddr.toNat - granBase) / 64 = 0 := by decide +kernel
  have found : told.fetched 0 true torn = torn := by decide +kernel
  rw [← Host.Outcome.next.inj ran, State.emit_out, granule, found, out_uncorrected] at alone
  exact absurd alone (by decide +kernel)

end Sys2Proof.Machine
end

section
/-! The index of a time (R284, R285): T(k) is rounded to the nearest unit and rises with `k`, so that the least `k` at or after a time
lies one below or above the quotient that the model begins at. -/

namespace Sys2Proof.Machine

/-- Rounding half to even reaches `t` from half a unit below it on, from that point itself only where `t` is even (R284). -/
theorem le_half16_iff (t v : Nat) : t ≤ half16 v ↔ t * 65536 < v + 32768 ∨ t * 65536 = v + 32768 ∧ t % 2 = 0 := by
  obtain ⟨q, r, divided, low, high, rounded⟩ := shrEven_succ_spec (Int.ofNat v) 15
  have value : Int.ofNat v = (v : Int) := rfl
  rw [half16]
  rcases rounded with ⟨down, near⟩ | ⟨up, near⟩
  · rw [down]
    omega
  · rw [up]
    omega

theorem half16_mono {u v : Nat} (le : u ≤ v) : half16 u ≤ half16 v := by
  have reached := (le_half16_iff (half16 u) u).mp (Nat.le_refl _)
  rw [le_half16_iff]
  omega

namespace TimeEpoch

variable (e : TimeEpoch)

theorem timeOf_mono {k m : Nat} (le : k ≤ m) : e.timeOf k ≤ e.timeOf m :=
  half16_mono (Nat.add_le_add_left (Nat.mul_le_mul_right _ le) _)

theorem timeOf_zero : e.timeOf 0 = e.epoch16 := by
  have low := le_half16_iff e.epoch16 (e.epoch16 * 2 ^ 16 + 0 * e.period32)
  have high := le_half16_iff (e.epoch16 + 1) (e.epoch16 * 2 ^ 16 + 0 * e.period32)
  rw [timeOf]
  omega

/-- The quotient at which the model begins to look for the index of a time after T(0). -/
def quotientAt (t : Nat) : Nat := (t * 2 ^ 16 - e.epoch16 * 2 ^ 16 - 2 ^ 15) / e.period32

/-- Before the quotient T(k) is early, and after it T(k) is late enough. -/
theorem timeOf_quotientAt {t : Nat} (period : 0 < e.period32) (late : e.timeOf 0 < t) :
    (∀ k, k < e.quotientAt t → e.timeOf k < t) ∧ t ≤ e.timeOf (e.quotientAt t + 1) := by
  rw [timeOf_zero] at late
  have least : e.quotientAt t * e.period32 ≤ t * 2 ^ 16 - e.epoch16 * 2 ^ 16 - 2 ^ 15 := Nat.div_mul_le_self ..
  have next : t * 2 ^ 16 - e.epoch16 * 2 ^ 16 - 2 ^ 15 < (e.quotientAt t + 1) * e.period32 := by
    rw [Nat.succ_mul]
    exact Nat.lt_div_mul_add period
  refine ⟨fun k before => ?_, ?_⟩
  · have step : (k + 1) * e.period32 ≤ e.quotientAt t * e.period32 := Nat.mul_le_mul_right _ before
    rw [Nat.succ_mul] at step
    rw [← Nat.not_le, timeOf, le_half16_iff]
    omega
  · rw [timeOf, le_half16_iff]
    omega

/-- The index of a time is the least `k` of which T(k) lies at or after it (R285). -/
theorem indexAt_least (period : 0 < e.period32) (t : Nat) :
    t ≤ e.timeOf (e.indexAt t) ∧ ∀ k, k < e.indexAt t → e.timeOf k < t := by
  unfold indexAt
  split
  · next first => exact ⟨first, fun k none => absurd none (Nat.not_lt_zero k)⟩
  · next late =>
    obtain ⟨early, reached⟩ := e.timeOf_quotientAt period (Nat.not_le.mp late)
    dsimp only
    rw [← quotientAt, if_pos reached]
    split
    · next found => exact ⟨found, early⟩
    · next missed =>
      exact ⟨reached, fun k before => Nat.lt_of_le_of_lt (e.timeOf_mono (Nat.le_of_lt_succ before)) (Nat.not_le.mp missed)⟩

end TimeEpoch

/-- Rounding up to a multiple gives the least multiple at or after a number. -/
theorem ceilDiv_mul_least {l : Nat} (positive : 0 < l) (n : Nat) :
    n ≤ ceilDiv n l * l ∧ ∀ m, l ∣ m → m < ceilDiv n l * l → m < n := by
  have quotient : ceilDiv n l * l ≤ n + l - 1 := Nat.div_mul_le_self ..
  have remainder : n + l - 1 < ceilDiv n l * l + l := Nat.lt_div_mul_add positive
  refine ⟨by omega, ?_⟩
  rintro _ ⟨c, rfl⟩ before
  rw [Nat.mul_comm] at before ⊢
  have step : (c + 1) * l ≤ ceilDiv n l * l := Nat.mul_le_mul_right _ (Nat.lt_of_mul_lt_mul_right before)
  rw [Nat.succ_mul] at step
  omega

/-- Settles O18: the index is found beside the quotient, and the start index is the next multiple of S_q. -/
theorem indexOfTimeIsLeast : Obligations.IndexOfTimeIsLeast := by
  unfold Obligations.IndexOfTimeIsLeast
  refine ⟨fun e period => ⟨fun k m => e.timeOf_mono, e.indexAt_least period⟩, fun s i t slot period => ?_⟩
  obtain ⟨reached, early⟩ := s.obs[i].epoch.indexAt_least period t
  obtain ⟨after, least⟩ := ceilDiv_mul_least slot (s.obs[i].epoch.indexAt t)
  exact ⟨Nat.dvd_mul_left .., Nat.le_trans reached (s.obs[i].epoch.timeOf_mono after),
    fun m multiple before => early m (least m multiple before)⟩

end Sys2Proof.Machine
end

section
/-! What a Tally event leaves and counts: the parts of the state it does not touch, and EVENTS of its own source (R388). -/

namespace Sys2Proof.Machine

section
variable (s : State) (i : SourceId) (detail : Word) (sub : Option SubId)

@[simp] theorem State.raise_now : (s.raise i detail sub).now = s.now := by rw [(State.raise_only s i detail sub).1]
@[simp] theorem State.raise_time : (s.raise i detail sub).time = s.time := by rw [(State.raise_only s i detail sub).1]
@[simp] theorem State.raise_clock : (s.raise i detail sub).clock = s.clock := by rw [(State.raise_only s i detail sub).1]
@[simp] theorem State.raise_move : (s.raise i detail sub).move = s.move := by rw [(State.raise_only s i detail sub).1]

/-- What only says leaves the Tally. -/
theorem State.SaysOnly.source {s t : State} (said : s.SaysOnly t) : t.source i = s.source i :=
  (congrArg (fun u : State => u.source i) said.1).trans rfl

/-- A source that takes a newest event keeps the count of its events. -/
theorem State.judge_source_events (y : TallySource) : ((s.judge i y).source i).reg.events = y.reg.events := by
  unfold State.judge
  split
  · rw [(State.tallyIrqs_says _ _ _).source, State.onSource_source]
    rfl
  · rw [State.onSource_source]

/-- An event outside a warm start's reset counts in its source (R388, R399). -/
theorem State.raise_source_events (counted : s.inReset = false) :
    ((s.raise i detail sub).source i).reg.events = (s.source i).reg.events + 1 := by
  unfold State.raise
  rw [if_neg (by rw [counted]; exact Bool.false_ne_true)]
  dsimp only
  split
  · rw [State.onSource_source]
  · rw [State.judge_source_events]

end

end Sys2Proof.Machine
end

section
/-! The commands on time (R281, R283, R289, R291, R294, Table 13-12): when each acts, and what an increment and a step leave in the
Timekeeper. -/

namespace Sys2Proof.Machine

variable {s : State} {b : BenchId} {p : Packet}

/-- A command that is answered at once, taken from a packet of the right size, is answered with what it does. -/
theorem exec_of_hand {i : Instr} {op used : BitVec 8} {n : Nat} {cmd : State → State × Reply} {r : State × Reply}
    (row : exec i s = .next (s.hand b op p fun t => atOnce (cmd t))) (ready : s.ready b) (sized : p.sized n used) (short : n ≤ 1024)
    (acts : cmd (s.handed b) = r) : exec i s = .next (State.replied b op p r) := by
  obtain ⟨len, -, meets⟩ := sized
  rw [row, State.hand_replied ready (by rw [len]; exact short) meets acts]

/-! ### The commands -/

theorem timeGet_completes (ready : s.ready b) (sized : p.sized 2) (lease : (s.handed b).holdsAny b = true) :
    let u := s.handed b
    exec (.timeGet b p) s =
      .next (State.replied b 0x50 p (u, Reply.ok (timeWords u.time16 ++ [putAt u.time.stat.state 0 ||| putAt u.clock.stat.state 2]))) :=
  exec_of_hand rfl ready sized (by decide)
    (State.answer_tests (beq_iff_eq.mpr sized.1) lease rfl (by rw [sized.2.1]; rfl))

theorem timeIncrement_completes {inc : Nat} (ready : s.ready b) (sized : p.sized 6) (lease : (s.handed b).holdsTime b = true)
    (high : p.stray 3 0xFFFFFF00 = false) (ticksHigh : p.stray 5 0xFFFF0000 = false)
    (value : inc = (p.w 2).toNat + p.bits 3 0 8 * 2 ^ 32) (least : 0x03FF7CED92 ≤ inc) (most : inc ≤ 0x040083126E) :
    exec (.timeIncrement b p) s = .next (State.replied b 0x51 p ((s.handed b).setIncrement inc (p.long 4), Reply.ok)) := by
  subst value
  exact exec_of_hand rfl ready sized (by decide)
    (State.answer_tests (beq_iff_eq.mpr sized.1) lease rfl (by rw [sized.2.1, high, ticksHigh, decide_eq_true ⟨least, most⟩]; rfl))

/-- The time or the offset that a TIME_STEP names, in 2^-32 ns. -/
def namedTime (p : Packet) : Nat :=
  time16Of ((p.w 2).toNat + p.bits 3 0 16 * 2 ^ 32) (p.bits 4 0 30) (p.bits 3 16 16) * 2 ^ 16

/-- A TIME_STEP that passes its tests steps to the named time, or by the named offset on or back (R283). -/
theorem exec_timeStep (ready : s.ready b) (sized : p.sized 5 0x20) (lease : (s.handed b).holdsTime b = true)
    (idle : ∀ i, (s.handed b).active i = false) (ns : p.bits 4 0 30 ≤ 999999999) (reserved : p.stray 4 0x40000000 = false)
    (rest : (if p.flag 5 then !p.stray 3 0x8000 else !p.stray 4 0x80000000) = true) :
    let u := s.handed b
    exec (.timeStep b p) s = .next (State.replied b 0x52 p (u.stepTime (
      if !p.flag 5 then namedTime p
      else if p.bit 4 31 then (u.time.tk + wrap32tk - namedTime p) % wrap32tk else (u.time.tk + namedTime p) % wrap32tk), Reply.ok)) :=
  exec_of_hand rfl ready sized (by decide)
    (State.answer_tests (beq_iff_eq.mpr sized.1) lease (by simp [idle])
      (by rw [sized.2.1, reserved, rest, decide_eq_true ns]; rfl))

theorem timerSet_completes {t : TimerId} (ready : s.ready b) (sized : p.sized 9) (named : t.val = p.bits 2 0 3) (nonzero : t ≠ 0)
    (lease : (s.handed b).holdsTime b = true) (fits : p.bits 2 4 3 = 0 ∨ (s.handed b).badTimer p = false)
    (obs : (p.bits 2 4 3 = 3 ∨ p.bits 2 4 3 = 4) → 3 < p.bits 2 8 8 ∨ (s.handed b).holdsObs b (p.sub 2 8) = true) :
    exec (.timerSet b p) s =
      .next (State.replied b 0x53 p
        ((s.handed b).setTimer t (BitVec.ofNat 3 (p.bits 2 4 3)) (BitVec.ofNat 8 (p.bits 2 8 8)) (BitVec.ofNat 16 (p.bits 2 16 16))
          (p.time 3) (BitVec.ofNat 48 (p.long 6)) (p.w 8), Reply.ok)) := by
  obtain ⟨t, below⟩ := t
  dsimp only at named
  subst named
  refine exec_of_hand rfl ready sized (by decide) (State.answer_tests (beq_iff_eq.mpr sized.1) ?_ rfl ?_)
  · rw [lease, Bool.true_and]
    by_cases held : p.bits 2 4 3 = 3 ∨ p.bits 2 4 3 = 4
    · rcases obs held with far | own
      · simp [far]
      · simp [own]
    · rw [not_or] at held
      simp [held]
  · rcases fits with off | good
    · rw [sized.2.1, off]
      simp [nonzero]
    · rw [sized.2.1, good]
      simp [nonzero]

theorem captureGet_completes (ready : s.ready b) (sized : p.sized 3) (lease : (s.handed b).holdsTime b = true)
    (reserved : p.stray 2 0xFFFFE0FC = false) (least : 1 ≤ p.bits 2 8 5) (most : p.bits 2 8 5 ≤ 16) :
    let u := s.handed b
    let q := u.time.captures[(p.sub : Fin 4)]
    let n := p.bits 2 8 5
    exec (.captureGet b p) s =
      .next (State.replied b 0x54 p
        ({ u with time := { u.time with captures := vset u.time.captures (p.sub : Fin 4) (q.drop n) } },
          { status := stOk, detail := BitVec.ofNat 32 ((q.take n).length + 256 * (q.drop n).length)
            results := (q.take n).flatMap Capture.words })) := by
  refine exec_of_hand rfl ready sized (by decide)
    ((State.answer_tests (beq_iff_eq.mpr sized.1) lease rfl (by rw [sized.2.1, reserved, decide_eq_true ⟨least, most⟩]; rfl)).trans ?_)
  simp [State.takeCaptures]

/-! ### What an increment leaves (R281) -/

theorem State.setIncrement_now (s : State) (inc : Nat) : let t := s.setIncrement inc 0
    t.time.incBase = inc ∧ t.time.slewLeft = 0 ∧ t.time.stat.slewing = false := ⟨rfl, rfl, rfl⟩

theorem State.setIncrement_slew (s : State) (inc : Nat) {ticks : Nat} (lasts : ticks ≠ 0) : let t := s.setIncrement inc ticks
    t.time.incBase = s.time.incBase ∧ t.time.slewInc = inc ∧ t.time.slewLeft = ticks ∧ t.time.stat.slewing = true := by
  simp [State.setIncrement, State.onTimeStat, lasts]

theorem State.setIncrement_only (s : State) (inc ticks : Nat) : let t := s.setIncrement inc ticks
    t.time.tk = s.time.tk ∧ t.time.lastInc = some s.now ∧ t = { s with time := t.time } := by
  unfold State.setIncrement
  split <;> exact ⟨rfl, rfl, rfl⟩

/-! ### What a step leaves (R283, R289) -/

/-- FREE_RUN is recorded in TIME_STAT (R282). -/
theorem State.enterFreeRun_time (s : State) :
    s.enterFreeRun.time = { s.time with stat := { s.time.stat with state := 2, freeRunSeen := true } } := by
  rw [State.enterFreeRun, State.raise_time]
  rfl

@[simp] theorem State.enterFreeRun_mem (s : State) : s.enterFreeRun.mem = s.mem := by
  rw [State.enterFreeRun, State.raise_mem, State.onTimeStat_mem]

/-- An instant that has passed is noted as the last one of Delay_Req (R298). -/
theorem State.dreqPassed_lastDreq (s : State) :
    ∃ d, s.dreqPassed = { s with time := { s.time with lastDreq := d } } := by
  unfold State.dreqPassed
  split
  · exact ⟨s.time.lastDreq, rfl⟩
  · exact ⟨_, rfl⟩

/-- The Timekeeper put at a new count, its next beat and its last pulse those of the new time (R283, R289). -/
def State.retimed (s : State) (tk : Nat) : State :=
  { s with time := { s.time with
      tk := tk, nextBeat := some (beatFrom (tk / 2 ^ 16)), lastDreq := none
      lastPps := if tk / 2 ^ 16 % sec16 = 0 then none else some (secOf (tk / 2 ^ 16)) } }

/-- A Timekeeper that no step had set leaves UNSET (R282, R283). -/
def State.timeSet (s : State) : State :=
  if s.time.stat.state = 0 then
    if s.freshInc then s.onTimeStat fun x => { x with state := 1 } else s.enterFreeRun
  else s

/-- Only TIME_STAT tells that the time is set. -/
theorem State.timeSet_spec (s : State) :
    s.timeSet.time.stat.state ≠ 0 ∧ s.timeSet.mem = s.mem ∧
      ∃ state seen, s.timeSet.time = { s.time with stat := { s.time.stat with state := state, freeRunSeen := seen } } := by
  unfold State.timeSet
  split
  · split
    · exact ⟨(by decide : (1 : BitVec 2) ≠ 0), rfl, 1, _, rfl⟩
    · rw [State.enterFreeRun_time]
      exact ⟨(by decide : (2 : BitVec 2) ≠ 0), s.enterFreeRun_mem, _, _, rfl⟩
  · next set => exact ⟨set, rfl, _, _, rfl⟩

/-- A step that leaves the time at or before the present one passes no timer (R293). -/
theorem State.stepTime_of_back (s : State) {tk : Nat} (back : tk ≤ s.time.tk) :
    s.stepTime tk =
      ((s.retimed tk).dreqPassed.onTimeStat fun x => { x with steps := x.steps + 1, stepSeen := true }).timeSet := by
  unfold State.stepTime
  rw [decide_eq_false (Nat.not_lt.mpr back)]
  rfl

theorem State.stepTime_back (s : State) {tk : Nat} (back : tk ≤ s.time.tk) : let t := s.stepTime tk
    t.time.tk = tk ∧ t.time.nextBeat = some (beatFrom (tk / 2 ^ 16)) ∧ t.time.stat.steps = s.time.stat.steps + 1 ∧
      t.time.stat.stepSeen = true ∧ t.time.stat.state ≠ 0 ∧ t.time.timers = s.time.timers ∧ t.mem = s.mem := by
  obtain ⟨d, passed⟩ := (s.retimed tk).dreqPassed_lastDreq
  rw [s.stepTime_of_back back]
  obtain ⟨set, mem, _, _, time⟩ :=
    ((s.retimed tk).dreqPassed.onTimeStat fun x => { x with steps := x.steps + 1, stepSeen := true }).timeSet_spec
  dsimp only
  refine ⟨?_, ?_, ?_, ?_, set, ?_, mem.trans ?_⟩
  · rw [time, passed]; rfl
  · rw [time, passed]; rfl
  · rw [time, passed]; rfl
  · rw [time, passed]; rfl
  · rw [time, passed]; rfl
  · rw [passed]; rfl

/-- Settles O4: each command acts once its tests pass, and a step back leaves the timers. -/
theorem timeCommandsComplete : Obligations.TimeCommandsComplete := by
  unfold Obligations.TimeCommandsComplete
  refine ⟨fun s b p ready => ⟨timeGet_completes ready, fun inc sized lease => timeIncrement_completes ready sized lease, ?step,
    fun t sized named => timerSet_completes ready sized named, captureGet_completes ready⟩, fun s inc ticks => ?increment,
    fun s tk back => ?back⟩
  case step =>
    rintro off sized lease idle ns reserved (named : off = namedTime p)
    subst named
    have stepped := exec_timeStep ready sized lease idle ns reserved
    refine ⟨fun absolute rest => ?_, fun relative rest on => ?_, fun relative rest back => ?_⟩
    · rw [stepped (by rw [absolute, if_neg Bool.false_ne_true, rest]; rfl), absolute, if_pos Bool.not_false]
    · rw [stepped (by rw [relative, if_pos rfl, rest]; rfl), relative, on, if_neg (by decide), if_neg (by decide)]
    · rw [stepped (by rw [relative, if_pos rfl, rest]; rfl), relative, back, if_neg (by decide), if_pos rfl]
  case increment =>
    obtain ⟨tk, last, only⟩ := s.setIncrement_only inc ticks
    refine ⟨tk, last, ?_, s.setIncrement_slew inc, only, fun a => by rw [only]⟩
    rintro rfl
    exact s.setIncrement_now inc
  case back =>
    obtain ⟨at', beat, steps, seen, state, timers, mem⟩ := s.stepTime_back back
    exact ⟨at', beat, steps, seen, fun _ => state, timers, State.sameMemory_of_mem mem⟩

end Sys2Proof.Machine
end

section
/-! The Clocksmith (R273 to R279): what a measurement makes of a source, what a disqualification and a selection change, and the rows
that measure and switch. -/

namespace Sys2Proof.Machine

variable {s t u : State} {x : Fin 3} {m : RefMeasure}

/-! ### What the Clocksmith's operations touch -/

/-- Only the Clocksmith, but for the instant of its last measurement, and what a Tally event touches have changed. -/
def State.ClockOnly (s t : State) : Prop :=
  t = { s with clock := t.clock, tally := t.tally, bench := t.bench, out := t.out } ∧ t.clock.lastMeasure = s.clock.lastMeasure

theorem State.ClockOnly.refl (s : State) : s.ClockOnly s := ⟨rfl, rfl⟩

theorem State.ClockOnly.trans (h : s.ClockOnly t) (k : t.ClockOnly u) : s.ClockOnly u :=
  ⟨by rw [k.1, h.1], k.2.trans h.2⟩

theorem State.ClockOnly.mem (h : s.ClockOnly t) : t.mem = s.mem := by rw [h.1]

theorem State.ClockOnly.now (h : s.ClockOnly t) : t.now = s.now := by rw [h.1]

theorem State.ClockOnly.onRef (s : State) (x : Fin 3) (f : RefSource → RefSource) : s.ClockOnly (s.onRef x f) := ⟨rfl, rfl⟩

theorem State.ClockOnly.onClks (s : State) (f : ClksStat → ClksStat) : s.ClockOnly (s.onClks f) := ⟨rfl, rfl⟩

theorem State.ClockOnly.raise (s : State) (i : SourceId) (detail : Word) (sub : Option SubId) :
    s.ClockOnly (s.raise i detail sub) := by
  refine ⟨?_, by rw [State.raise_clock]⟩
  rw [State.raise_clock]
  exact (State.raise_only s i detail sub).1

theorem State.ClockOnly.foldl {β : Type} {f : State → β → State} (each : ∀ u b, State.ClockOnly u (f u b)) (l : List β) (s : State) :
    s.ClockOnly (l.foldl f s) :=
  foldl_keeps s.ClockOnly f (fun u b kept => kept.trans (each u b)) l s (.refl s)

/-! ### Sources beside the updates of other parts -/

@[simp] theorem State.onRef_refOf (s : State) (x : Fin 3) (f : RefSource → RefSource) : (s.onRef x f).refOf x = f (s.refOf x) := by
  simp [State.onRef, State.refOf]

theorem State.onRef_refOf_ne (s : State) {x y : Fin 3} (f : RefSource → RefSource) (other : y ≠ x) :
    (s.onRef x f).refOf y = s.refOf y := vmod_ne _ _ other

@[simp] theorem State.onClks_refOf (s : State) (f : ClksStat → ClksStat) (x : Fin 3) : (s.onClks f).refOf x = s.refOf x := rfl

@[simp] theorem State.raise_refOf (s : State) (i : SourceId) (detail : Word) (sub : Option SubId) (x : Fin 3) :
    (s.raise i detail sub).refOf x = s.refOf x := by
  rw [State.refOf, State.raise_clock, ← State.refOf]

/-- A change of every source. -/
theorem State.onRef_all_refOf (s : State) (f : RefSource → RefSource) (x : Fin 3) :
    ((allFin 3).foldl (fun (u : State) y => u.onRef y f) s).refOf x = f (s.refOf x) := by
  change (((s.onRef 0 f).onRef 1 f).onRef 2 f).refOf x = _
  match x with
  | 0 => rw [State.onRef_refOf_ne _ _ (by decide), State.onRef_refOf_ne _ _ (by decide), State.onRef_refOf]
  | 1 => rw [State.onRef_refOf_ne _ _ (by decide), State.onRef_refOf, State.onRef_refOf_ne _ _ (by decide)]
  | 2 => rw [State.onRef_refOf, State.onRef_refOf_ne _ _ (by decide), State.onRef_refOf_ne _ _ (by decide)]

/-! ### Selection (R275 to R279) -/

/-- Sources and the count of disqualifications stay as they are. -/
structure State.Selects (s t : State) : Prop where
  only : s.ClockOnly t
  srcs : t.clock.srcs = s.clock.srcs
  disqualifications : t.clock.stat.disqualifications = s.clock.stat.disqualifications
  seen : t.clock.stat.disqSeen = s.clock.stat.disqSeen

theorem State.Selects.refOf (h : s.Selects t) (x : Fin 3) : t.refOf x = s.refOf x := by
  rw [State.refOf, h.srcs, ← State.refOf]

theorem State.Selects.refl (s : State) : s.Selects s := ⟨.refl s, rfl, rfl, rfl⟩

theorem State.Selects.trans (h : s.Selects t) (k : t.Selects u) : s.Selects u :=
  ⟨h.only.trans k.only, k.srcs.trans h.srcs, k.disqualifications.trans h.disqualifications, k.seen.trans h.seen⟩

theorem State.Selects.raise (s : State) (i : SourceId) (detail : Word) (sub : Option SubId) : s.Selects (s.raise i detail sub) := by
  refine ⟨.raise .., ?_, ?_, ?_⟩ <;> rw [State.raise_clock]

theorem State.beginSwitch_selects (s : State) (x : Fin 3) : s.Selects (s.beginSwitch x) := ⟨⟨rfl, rfl⟩, rfl, rfl, rfl⟩

theorem State.enterHoldover_selects (s : State) : s.Selects s.enterHoldover := by
  unfold State.enterHoldover
  split
  · exact .refl s
  · refine .trans ?_ (.raise ..)
    exact ⟨⟨rfl, rfl⟩, rfl, rfl, rfl⟩

/-- Selection names a source or HOLDOVER; no source changes by it (R275, R279). -/
theorem State.reselect_selects (s : State) : s.Selects s.reselect := by
  unfold State.reselect
  split
  · exact .refl s
  · split
    · split
      · exact .refl s
      · exact s.beginSwitch_selects _
    · split
      · exact .refl s
      · exact s.enterHoldover_selects

/-- A source when a switch ends: it starts to qualify where it waited for that (R278). -/
def RefSource.unwaited (r : RefSource) : RefSource :=
  if r.qstate = qsWaiting then { r with qstate := qsQualifying, qual := 0 } else r

theorem RefSource.unwaited_of_ne {r : RefSource} (other : r.qstate ≠ qsWaiting) : r.unwaited = r := if_neg other

/-- Every source that waited for the end of a switch starts to qualify (R278). -/
def State.unwaited (s : State) : State := (allFin 3).foldl (fun (u : State) y => u.onRef y RefSource.unwaited) s

theorem State.unwaited_spec (s : State) :
    s.ClockOnly s.unwaited ∧ s.unwaited.clock.stat = s.clock.stat ∧ s.unwaited.tally = s.tally :=
  foldl_keeps (fun u : State => s.ClockOnly u ∧ u.clock.stat = s.clock.stat ∧ u.tally = s.tally) _
    (fun _ _ kept => ⟨kept.1.trans (.onRef ..), kept.2⟩) _ _ ⟨.refl s, rfl, rfl⟩

theorem State.endClkSwitch_eq (s : State) :
    s.endClkSwitch = { s.unwaited with clock := { s.unwaited.clock with incoming := none } } := by
  unfold State.endClkSwitch State.unwaited RefSource.unwaited
  rfl

/-- The end of a switch changes sources that waited, and there is no incoming source any more (R278). -/
theorem State.endClkSwitch_spec (s : State) : let t := s.endClkSwitch
    s.ClockOnly t ∧ (∀ x, t.refOf x = (s.refOf x).unwaited) ∧ t.clock.stat = s.clock.stat ∧ t.clock.incoming = none ∧
      t.tally = s.tally := by
  obtain ⟨only, stat, tally⟩ := s.unwaited_spec
  have refs : ∀ x, s.unwaited.refOf x = (s.refOf x).unwaited := s.onRef_all_refOf RefSource.unwaited
  rw [State.endClkSwitch_eq]
  generalize s.unwaited = t at *
  exact ⟨only.trans ⟨rfl, rfl⟩, refs, stat, rfl, tally⟩

/-- What a source is when it is disqualified (R274). -/
abbrev lostState (present : Bool) : BitVec 3 := if present then qsQualifying else qsAbsent

theorem lostState_ne_waiting (present : Bool) : lostState present ≠ qsWaiting := by
  cases present <;> decide

/-- A disqualified source starts again or is ABSENT, and the disqualification is counted (R274). -/
theorem State.disqualify_spec (s : State) (x : Fin 3) (present : Bool) : let t := s.disqualify x present
    s.ClockOnly t ∧ t.refOf x = { s.refOf x with qstate := lostState present, qual := 0 } ∧
      t.clock.stat.disqualifications = s.clock.stat.disqualifications + 1 ∧ t.clock.stat.disqSeen = true := by
  unfold State.disqualify
  dsimp only
  generalize counted : State.raise _ srcClkDisq _ = u
  have uOnly : s.ClockOnly u := by
    rw [← counted]
    exact ((State.ClockOnly.onRef ..).trans (.onClks ..)).trans (.raise ..)
  have uRef : u.refOf x = { s.refOf x with qstate := lostState present, qual := 0 } := by
    rw [← counted, State.raise_refOf, State.onClks_refOf, State.onRef_refOf]
  have uCount : u.clock.stat.disqualifications = s.clock.stat.disqualifications + 1 ∧ u.clock.stat.disqSeen = true := by
    rw [← counted, State.raise_clock]
    exact ⟨rfl, rfl⟩
  have selected {v : State} (only : s.ClockOnly v) (ref : v.refOf x = u.refOf x)
      (count : v.clock.stat.disqualifications = u.clock.stat.disqualifications ∧ v.clock.stat.disqSeen = u.clock.stat.disqSeen) :
      s.ClockOnly v.reselect ∧ v.reselect.refOf x = { s.refOf x with qstate := lostState present, qual := 0 } ∧
        v.reselect.clock.stat.disqualifications = s.clock.stat.disqualifications + 1 ∧ v.reselect.clock.stat.disqSeen = true := by
    have chosen := v.reselect_selects
    refine ⟨only.trans chosen.only, by rw [chosen.refOf, ref, uRef], ?_, ?_⟩
    · rw [chosen.disqualifications, count.1, uCount.1]
    · rw [chosen.seen, count.2, uCount.2]
  split
  · obtain ⟨ended, refs, stat, -, -⟩ := (u.onClks fun c => { c with state := csLocked }).endClkSwitch_spec
    refine selected ((uOnly.trans (.onClks ..)).trans ended) ?_ ?_
    · rw [refs, State.onClks_refOf, RefSource.unwaited_of_ne]
      rw [uRef]
      exact lostState_ne_waiting present
    · rw [stat]
      exact ⟨rfl, rfl⟩
  · exact selected uOnly rfl ⟨rfl, rfl⟩

/-- A source that has qualified is QUALIFIED, unless a running switch must not reconsider its choice for it (R278). -/
theorem State.qualify_spec (s : State) (x : Fin 3) :
    s.ClockOnly (s.qualify x) ∧ (∃ q n, (s.qualify x).refOf x = { s.refOf x with qstate := q, qual := n }) ∧
      (s.betterThanIncoming x = false → ((s.qualify x).refOf x).qstate = qsQualified) := by
  unfold State.qualify
  split
  · next better => exact ⟨.onRef .., ⟨_, _, s.onRef_refOf ..⟩, fun worse => absurd better (by rw [worse]; decide)⟩
  · exact ⟨.onRef .., ⟨_, _, s.onRef_refOf ..⟩, fun _ => by rw [State.onRef_refOf]⟩

/-! ### One measurement of one source (R273, R274) -/

/-- The module once the frequency and the offset of a present source are noted (R273). -/
def State.noted (s : State) (x : Fin 3) (m : RefMeasure) : State :=
  if s.measuredPresent x m then s.onRef x fun r => { r with f100 := m.f100 && decide (x.val ≠ 2), offset := m.offset } else s

theorem State.noted_only (s : State) (x : Fin 3) (m : RefMeasure) : s.ClockOnly (s.noted x m) := by
  unfold State.noted
  split
  · exact .onRef ..
  · exact .refl s

theorem State.noted_stat (s : State) (x : Fin 3) (m : RefMeasure) : (s.noted x m).clock.stat = s.clock.stat := by
  unfold State.noted
  split <;> rfl

theorem State.noted_better (s : State) (x : Fin 3) (m : RefMeasure) :
    (s.noted x m).betterThanIncoming x = s.betterThanIncoming x := by
  unfold State.noted
  split <;> rfl

theorem State.noted_present (present : s.measuredPresent x m = true) :
    (s.noted x m).refOf x = { s.refOf x with f100 := m.f100 && decide (x.val ≠ 2), offset := m.offset } := by
  rw [State.noted, if_pos present, State.onRef_refOf]

theorem State.noted_gone (gone : s.measuredPresent x m = false) : s.noted x m = s :=
  if_neg (by rw [gone]; exact Bool.false_ne_true)

/-- The offset of a measurement lies within a limit. -/
def offsetWithin (m : RefMeasure) (limit : Int) : Bool := decide (-limit ≤ m.offset ∧ m.offset ≤ limit)

theorem offsetWithin_of_le {limit : Int} (low : -limit ≤ m.offset) (high : m.offset ≤ limit) : offsetWithin m limit = true :=
  decide_eq_true ⟨low, high⟩

theorem offsetWithin_of_beyond {limit : Int} (beyond : m.offset < -limit ∨ limit < m.offset) : offsetWithin m limit = false :=
  decide_eq_false (by omega)

/-- The count of good measurements that a qualifying source comes to (R274). -/
def goodMeasures (m : RefMeasure) (n : Nat) : Nat := if offsetWithin m 2000 && !m.missing then n + 1 else 0

/-- What a measurement makes of a source that takes part, state by state (R274). -/
theorem State.measureRef_eq (ranked : s.clock.stat.rank x ≠ 0) :
    s.measureRef x m =
      let t := s.noted x m
      let q := (s.refOf x).qstate
      if q = qsQualified ∨ q = qsDisputed then
        if s.measuredPresent x m && offsetWithin m 4000 then t else t.disqualify x (s.measuredPresent x m)
      else if !s.measuredPresent x m then t.onRef x fun r => { r with qstate := qsAbsent, qual := 0 }
      else if q = qsWaiting then t
      else if q = qsQualifying then
        if goodMeasures m (s.refOf x).qual < 400 then t.onRef x fun r => { r with qual := goodMeasures m (s.refOf x).qual } else t.qualify x
      else if t.betterThanIncoming x then t.onRef x fun r => { r with qstate := qsWaiting, qual := 0 }
      else t.onRef x fun r => { r with qstate := qsQualifying, qual := 0 } := if_neg ranked

/-- A measurement changes the Clocksmith alone, and of its source no more than its qualification beside what it notes. -/
theorem State.measureRef_spec (ranked : s.clock.stat.rank x ≠ 0) :
    s.ClockOnly (s.measureRef x m) ∧
      ∃ q n, (s.measureRef x m).refOf x = { (s.noted x m).refOf x with qstate := q, qual := n } := by
  have noted := s.noted_only x m
  rw [State.measureRef_eq ranked]
  dsimp only
  generalize s.noted x m = t at *
  split
  · split
    · exact ⟨noted, _, _, rfl⟩
    · obtain ⟨only, ref, -⟩ := t.disqualify_spec x (s.measuredPresent x m)
      exact ⟨noted.trans only, _, _, ref⟩
  · split
    · exact ⟨noted.trans (.onRef ..), _, _, t.onRef_refOf ..⟩
    · split
      · exact ⟨noted, _, _, rfl⟩
      · split
        · split
          · exact ⟨noted.trans (.onRef ..), _, _, t.onRef_refOf ..⟩
          · obtain ⟨only, ⟨q, n, ref⟩, -⟩ := t.qualify_spec x
            exact ⟨noted.trans only, q, n, ref⟩
        · split <;> exact ⟨noted.trans (.onRef ..), _, _, t.onRef_refOf ..⟩

theorem State.measureRef_only (s : State) (x : Fin 3) (m : RefMeasure) : s.ClockOnly (s.measureRef x m) := by
  by_cases unranked : s.clock.stat.rank x = 0
  · rw [State.measureRef, if_pos unranked]
    exact (s.noted_only x m).trans (.onRef ..)
  · exact (State.measureRef_spec unranked).1

section
variable (ranked : s.clock.stat.rank x ≠ 0)
include ranked

/-- A qualifying source that is present counts the measurement, or starts again, or has qualified (R274). -/
theorem State.measureRef_qualifying (qualifying : (s.refOf x).qstate = qsQualifying) (present : s.measuredPresent x m = true) :
    s.measureRef x m =
      if goodMeasures m (s.refOf x).qual < 400 then (s.noted x m).onRef x fun r => { r with qual := goodMeasures m (s.refOf x).qual }
      else (s.noted x m).qualify x := by
  rw [State.measureRef_eq ranked]
  dsimp only
  rw [qualifying, present, if_neg (by decide), if_neg (by decide), if_neg (by decide), if_pos rfl]

theorem State.measureRef_counts (qualifying : (s.refOf x).qstate = qsQualifying) (present : s.measuredPresent x m = true)
    (few : goodMeasures m (s.refOf x).qual < 400) : let t := s.measureRef x m
    (t.refOf x).qstate = qsQualifying ∧ (t.refOf x).qual = goodMeasures m (s.refOf x).qual := by
  rw [State.measureRef_qualifying ranked qualifying present, if_pos few]
  dsimp only
  rw [State.onRef_refOf, State.noted_present present]
  exact ⟨qualifying, rfl⟩

theorem State.measureRef_qualifies (qualifying : (s.refOf x).qstate = qsQualifying) (present : s.measuredPresent x m = true)
    (enough : 400 ≤ goodMeasures m (s.refOf x).qual) (best : s.betterThanIncoming x = false) :
    ((s.measureRef x m).refOf x).qstate = qsQualified := by
  rw [State.measureRef_qualifying ranked qualifying present, if_neg (Nat.not_lt.mpr enough)]
  exact ((s.noted x m).qualify_spec x).2.2 (by rw [State.noted_better, best])

/-- A qualified source that is gone, or beyond 4 ppm, is disqualified (R274). -/
theorem State.measureRef_disqualifies (qualified : (s.refOf x).qstate = qsQualified)
    (bad : (s.measuredPresent x m && offsetWithin m 4000) = false) : let t := s.measureRef x m
    (t.refOf x).qstate = lostState (s.measuredPresent x m) ∧ (t.refOf x).qual = 0 ∧
      t.clock.stat.disqualifications = s.clock.stat.disqualifications + 1 := by
  obtain ⟨-, ref, count, -⟩ := (s.noted x m).disqualify_spec x (s.measuredPresent x m)
  rw [State.measureRef_eq ranked]
  dsimp only
  rw [qualified, bad, if_pos (.inl rfl), if_neg Bool.false_ne_true, ref, count, State.noted_stat]
  exact ⟨rfl, rfl, rfl⟩

/-- A source that is neither qualified nor disputed and is not found is ABSENT (R273). -/
theorem State.measureRef_absent (unqualified : (s.refOf x).qstate ≠ qsQualified) (undisputed : (s.refOf x).qstate ≠ qsDisputed)
    (gone : s.measuredPresent x m = false) : let t := s.measureRef x m
    (t.refOf x).qstate = qsAbsent ∧ (t.refOf x).qual = 0 := by
  rw [State.measureRef_eq ranked]
  dsimp only
  rw [gone, if_neg (not_or.mpr ⟨unqualified, undisputed⟩), if_pos Bool.not_false, State.onRef_refOf]
  exact ⟨rfl, rfl⟩

end

/-! ### CLK_MEASURE -/

theorem State.agreeRank_only (s : State) (k : Fin 3) : s.ClockOnly (s.agreeRank k) := by
  unfold State.agreeRank
  dsimp only
  generalize (if (s.refsAgree (s.ofRank (k.val + 1) true) && !(s.ofRank (k.val + 1) true).isEmpty) = true then
    min 400 (s.clock.agree[k] + 1) else 0) = n
  split
  · exact ⟨rfl, rfl⟩
  · generalize requalified : List.foldl _ _ (s.ofRank (k.val + 1) true) = t
    have only : s.ClockOnly t := by
      rw [← requalified]
      refine State.ClockOnly.trans ⟨rfl, rfl⟩ (.foldl (fun u x => ?_) _ _)
      split
      · exact (u.qualify_spec x).1
      · exact .refl u
    split
    · exact only.trans ⟨rfl, rfl⟩
    · exact only

theorem State.endDispute_only (s : State) : s.ClockOnly s.endDispute := by
  unfold State.endDispute
  split
  · exact .refl s
  · split
    · exact ⟨rfl, rfl⟩
    · exact .refl s

theorem State.disputeRank_only (s : State) (r : Nat) (xs : List (Fin 3)) : s.ClockOnly (s.disputeRank r xs) := by
  unfold State.disputeRank
  extract_lets kept out disputed told toldClock held
  have one : s.ClockOnly disputed := .foldl (f := fun u x => State.onRef u x fun z => { z with qstate := qsDisputed })
    (fun u x => .onRef ..) out s
  have two : disputed.ClockOnly told := .onClks ..
  have three : told.ClockOnly held := by
    unfold held
    split
    · exact .refl told
    · exact ⟨rfl, rfl⟩
  exact ((one.trans two).trans three).trans (.raise ..)

theorem State.checkDispute_only (s : State) : s.ClockOnly s.checkDispute := by
  unfold State.checkDispute
  split
  · dsimp only
    split
    · exact .refl s
    · exact s.disputeRank_only ..
  · exact .refl s

/-- The estimate E is drawn anew while the Clocksmith is LOCKED (log entry 3). -/
theorem State.updateEstimate_est (s : State) :
    ∃ e n, s.updateEstimate = { s with clock := { s.clock with est := e }, freeCount := n } := by
  unfold State.updateEstimate
  split
  · exact ⟨_, _, rfl⟩
  · exact ⟨s.clock.est, s.freeCount, rfl⟩

/-- The sources' measurements, their agreement, and the selection that follows (R273 to R279). -/
def State.measured (s : State) (a b c : RefMeasure) : State :=
  let t := (allFin 3).foldl (fun (u : State) k => u.agreeRank k) (((s.measureRef 0 a).measureRef 1 b).measureRef 2 c)
  (if t.clock.stat.state = csSwitching then t else t.endDispute.checkDispute).reselect

theorem State.measured_only (s : State) (a b c : RefMeasure) : s.ClockOnly (s.measured a b c) := by
  unfold State.measured
  dsimp only
  generalize agreed : List.foldl _ _ (allFin 3) = t
  have only : s.ClockOnly t := by
    rw [← agreed]
    exact (((s.measureRef_only 0 a).trans (State.measureRef_only ..)).trans (State.measureRef_only ..)).trans
      (.foldl (fun u k => u.agreeRank_only k) _ _)
  split
  · exact only.trans (State.reselect_selects _).only
  · exact ((only.trans t.endDispute_only).trans (State.checkDispute_only _)).trans (State.reselect_selects _).only

/-- The instant of a measurement is noted. -/
def State.measuring (s : State) : State := { s with clock := { s.clock with lastMeasure := s.now } }

theorem exec_clkMeasure (alive : s.bell.alive = true) (a b c : RefMeasure) (due : s.clock.lastMeasure + 10000000 ≤ s.now) :
    exec (.clkMeasure a b c) s = .next (s.measuring.measured a b c).updateEstimate := by
  change execClkMeasure a b c s = _
  unfold execClkMeasure State.measured State.measuring
  rw [if_pos ⟨alive, due⟩]

/-- CLK_MEASURE (R273): once its 10 ms have passed, the Clocksmith has measured now. -/
theorem clkMeasure_completes (alive : s.bell.alive = true) (a b c : RefMeasure) (due : s.clock.lastMeasure + 10000000 ≤ s.now) :
    ∃ t, exec (.clkMeasure a b c) s = .next t ∧ t.clock.lastMeasure = s.now ∧
      t = { s with clock := t.clock, tally := t.tally, bench := t.bench, out := t.out, freeCount := t.freeCount } ∧
      s.sameMemory t := by
  obtain ⟨only, last⟩ := s.measuring.measured_only a b c
  have row := exec_clkMeasure alive a b c due
  generalize s.measuring.measured a b c = t at *
  obtain ⟨e, n, estimated⟩ := t.updateEstimate_est
  rw [estimated] at row
  refine ⟨_, row, last, ?_, fun a => ?_⟩
  · rw [only]; rfl
  · rw [only]; rfl

/-! ### REF_CYCLES_MISSING and CLK_SWITCH -/

/-- REF_CYCLES_MISSING (R274): the source is ABSENT, and disqualified where it was qualified. -/
theorem refCyclesMissing_completes (alive : s.bell.alive = true) (used : (s.refOf x).qstate ≠ qsUnused)
    (present : (s.refOf x).qstate ≠ qsAbsent) :
    ∃ t, exec (.refCyclesMissing x) s = .next t ∧ (t.refOf x).qstate = qsAbsent ∧ (t.refOf x).qual = 0 ∧
      ((s.refOf x).qstate = qsQualified → t.clock.stat.disqualifications = s.clock.stat.disqualifications + 1 ∧
        t.clock.stat.disqSeen = true) ∧
      t = { s with clock := t.clock, tally := t.tally, bench := t.bench, out := t.out } ∧ s.sameMemory t := by
  have acts : ¬((!s.bell.alive) = true ∨ (s.refOf x).qstate = qsUnused ∨ (s.refOf x).qstate = qsAbsent) := by
    rw [alive, not_or, not_or]
    exact ⟨by decide, used, present⟩
  change ∃ t, execRefCyclesMissing x s = .next t ∧ _
  unfold execRefCyclesMissing
  dsimp only
  rw [if_neg acts]
  split
  · obtain ⟨only, ref, count, seen⟩ := s.disqualify_spec x false
    refine ⟨_, rfl, ?_, ?_, fun _ => ⟨count, seen⟩, only.1, State.sameMemory_of_mem only.mem⟩ <;> rw [ref]
    rfl
  · next other =>
    refine ⟨_, rfl, ?_, ?_, fun qualified => absurd (.inl qualified) other, rfl, fun _ => rfl⟩ <;> rw [State.onRef_refOf]

/-- The module once a switch has absorbed the phase it measured: LOCKED, and counted (R277). -/
def State.switched (s : State) (phasePs : Int) : State :=
  s.onClks fun c => { c with state := csLocked, switchSeen := true, switches := c.switches + 1
                             buildoutPs := c.buildoutPs + BitVec.ofInt 32 phasePs }

theorem exec_clkSwitch (phasePs : Int) (switching : s.clock.stat.state = csSwitching) (due : s.clock.switchAt + 50000000 ≤ s.now) :
    exec (.clkSwitch phasePs) s =
      .next ((s.switched phasePs).endClkSwitch.raise srcClkSwitch (BitVec.ofNat 32 s.clock.stat.selected.toNat)) :=
  congrArg Host.Outcome.next (if_pos ⟨switching, due⟩)

/-- CLK_SWITCH (R277, R278): the switch is over, the phase absorbed, and the event counted. -/
theorem clkSwitch_completes (phasePs : Int) (switching : s.clock.stat.state = csSwitching)
    (due : s.clock.switchAt + 50000000 ≤ s.now) (counted : s.inReset = false) :
    ∃ t, exec (.clkSwitch phasePs) s = .next t ∧ t.clock.stat.state = csLocked ∧ t.clock.incoming = none ∧
      t.clock.stat.switches = s.clock.stat.switches + 1 ∧
      t.clock.stat.buildoutPs = s.clock.stat.buildoutPs + BitVec.ofInt 32 phasePs ∧
      (t.source srcClkSwitch).reg.events = (s.source srcClkSwitch).reg.events + 1 ∧
      t = { s with clock := t.clock, tally := t.tally, bench := t.bench, out := t.out } ∧ s.sameMemory t := by
  obtain ⟨ended, -, stat, incoming, tally⟩ := (s.switched phasePs).endClkSwitch_spec
  have only : s.ClockOnly (s.switched phasePs).endClkSwitch := (State.ClockOnly.onClks ..).trans ended
  have start : (s.switched phasePs).endClkSwitch.inReset = s.inReset := by
    rw [State.inReset, only.1]
    rfl
  refine ⟨_, exec_clkSwitch phasePs switching due, ?_, ?_, ?_, ?_, ?_, (only.trans (.raise ..)).1,
    State.sameMemory_of_mem (only.trans (.raise ..)).mem⟩
  · rw [State.raise_clock, stat]; rfl
  · rw [State.raise_clock, incoming]
  · rw [State.raise_clock, stat]; rfl
  · rw [State.raise_clock, stat]; rfl
  · rw [State.raise_source_events _ _ _ _ (start.trans counted), State.source, tally]
    rfl

/-- Settles O48: what a measurement makes of a source is read off its state, and a disqualification or the end of a switch leaves the
qualification of the source as it makes it. -/
theorem clocksmithEvents : Obligations.ClocksmithEvents := by
  unfold Obligations.ClocksmithEvents
  refine ⟨fun s x m ranked => ?measure, fun s alive => ⟨clkMeasure_completes alive, fun x => refCyclesMissing_completes alive,
    clkSwitch_completes⟩⟩
  case measure =>
    obtain ⟨only, q, n, ref⟩ := State.measureRef_spec (m := m) ranked
    refine ⟨State.sameMemory_of_mem only.mem, fun present => ?_, fun gone => ?_,
      fun qualifying present low high whole few => ?_, fun qualifying present bad => ?_,
      fun qualifying present low high whole enough best => ?_, fun qualified present beyond => ?_,
      fun qualified gone => ?_, State.measureRef_absent ranked⟩
    · rw [ref, State.noted_present present]
      exact ⟨rfl, rfl⟩
    · rw [ref, State.noted_gone gone]
      exact ⟨rfl, rfl⟩
    · have good : goodMeasures m (s.refOf x).qual = (s.refOf x).qual + 1 := by
        rw [goodMeasures, offsetWithin_of_le low high, whole, if_pos (by decide)]
      rw [← good] at few ⊢
      exact State.measureRef_counts ranked qualifying present few
    · have again : goodMeasures m (s.refOf x).qual = 0 := by
        rw [goodMeasures, if_neg]
        rcases bad with below | above | missing
        · simp [offsetWithin_of_beyond (limit := 2000) (.inl below)]
        · simp [offsetWithin_of_beyond (limit := 2000) (.inr above)]
        · simp [missing]
      have counts := State.measureRef_counts ranked qualifying present (by rw [again]; decide)
      rwa [again] at counts
    · have good : goodMeasures m (s.refOf x).qual = (s.refOf x).qual + 1 := by
        rw [goodMeasures, offsetWithin_of_le low high, whole, if_pos (by decide)]
      exact State.measureRef_qualifies ranked qualifying present (by rw [good]; exact enough) best
    · have lost := State.measureRef_disqualifies (m := m) ranked qualified
        (by rw [offsetWithin_of_beyond beyond, Bool.and_false])
      rwa [present] at lost
    · have lost := State.measureRef_disqualifies (m := m) ranked qualified (by rw [gone, Bool.false_and])
      rwa [gone] at lost

end Sys2Proof.Machine
end

section
/-! Captures of the Timekeeper (R294, R297, R298) and the management ports (R273, R295 to R298, R444): what block lock, a received frame
and the instant of a Delay_Req change. -/

namespace Sys2Proof.Machine

variable {s t u : State} {port : PortId}

/-! ### Link states beside Tally events -/

/-- The link of every bench is up or down as before. -/
structure State.SameLinks (s t : State) : Prop where
  linkUp : ∀ b, (t.benchOf b).stat.linkUp = (s.benchOf b).stat.linkUp

theorem State.SameLinks.refl (s : State) : s.SameLinks s := ⟨fun _ => rfl⟩

theorem State.SameLinks.trans (h : s.SameLinks t) (k : t.SameLinks u) : s.SameLinks u :=
  ⟨fun b => (k.linkUp b).trans (h.linkUp b)⟩

theorem State.SameLinks.of_benches (same : t.bench.benches = s.bench.benches) : s.SameLinks t :=
  ⟨fun b => by rw [State.benchOf, same, ← State.benchOf]⟩

/-- A change of a bench that is not of its link. -/
theorem State.SameLinks.onBench (s : State) (b : BenchId) {f : Bench → Bench} (kept : ∀ x, (f x).stat.linkUp = x.stat.linkUp) :
    s.SameLinks (s.onBench b f) := by
  refine ⟨fun c => ?_⟩
  by_cases same : c = b
  · rw [same, State.onBench_benchOf, kept]
  · rw [State.onBench_benchOf_ne _ _ _ _ same]

theorem State.sendDatagram_links (s : State) (b : BenchId) (type cmd : Nat) (offset aux : Word) (payload : List Word) :
    s.SameLinks (s.sendDatagram b type cmd offset aux payload) := by
  unfold State.sendDatagram
  dsimp only
  split
  · exact .trans (.onBench s b (f := fun y => { y with ownSeq := y.ownSeq + 1 }) fun _ => rfl) (.of_benches rfl)
  · exact .refl s

theorem State.announce_links (s : State) (b : BenchId) (n : Fin 6) : s.SameLinks (s.announce b n) := by
  unfold State.announce
  split
  · unfold State.sendMsix
    dsimp only
    split
    · exact .of_benches rfl
    · exact .of_benches rfl
  · exact (s.sendDatagram_links ..).trans (.onBench _ b fun _ => rfl)

theorem State.setIrq_links (s : State) (b : BenchId) (n : Fin 6) : s.SameLinks (s.setIrq b n) := by
  have set : s.SameLinks (s.onBnch b fun x => { x with irqStatus := x.irqStatus ||| (1 <<< n.val : BitVec 6) }) :=
    .onBench s b fun _ => rfl
  unfold State.setIrq
  split
  · exact .refl s
  · dsimp only
    split
    · exact set.trans (State.announce_links ..)
    · exact set

theorem State.tallyIrqs_links (s : State) (leases : BitVec 5) (sub : Option SubId) : s.SameLinks (s.tallyIrqs leases sub) := by
  refine foldl_keeps s.SameLinks _ (fun u b kept => ?_) _ _ (.refl s)
  split
  · exact kept.trans (u.setIrq_links ..)
  · exact kept

/-- A Tally event tells benches of it; no link changes by that. -/
theorem State.raise_links (s : State) (i : SourceId) (detail : Word) (sub : Option SubId) : s.SameLinks (s.raise i detail sub) := by
  unfold State.raise
  split
  · exact .refl s
  · dsimp only
    split
    · exact .of_benches rfl
    · unfold State.judge
      split
      · refine .trans ?_ (State.tallyIrqs_links ..)
        exact .of_benches rfl
      · exact .of_benches rfl

theorem State.reselect_links (s : State) : s.SameLinks s.reselect := by
  unfold State.reselect State.enterHoldover
  split
  · exact .refl s
  · split
    · split
      · exact .refl s
      · exact .of_benches rfl
    · split
      · exact .refl s
      · split
        · exact .refl s
        · refine .trans ?_ (State.raise_links ..)
          exact .of_benches rfl

theorem State.endClkSwitch_benches (s : State) : s.endClkSwitch.bench.benches = s.bench.benches := by
  rw [State.endClkSwitch_eq]
  exact foldl_keeps (fun u : State => u.bench.benches = s.bench.benches) (fun u y => u.onRef y RefSource.unwaited) (fun _ _ kept => kept) _ _ rfl

theorem State.disqualify_links (s : State) (x : Fin 3) (present : Bool) : s.SameLinks (s.disqualify x present) := by
  unfold State.disqualify
  dsimp only
  generalize counted : State.raise _ srcClkDisq _ = u
  have told : s.SameLinks u := by
    rw [← counted]
    refine .trans ?_ (State.raise_links ..)
    exact .of_benches rfl
  split
  · have ended : u.SameLinks (u.onClks fun c => { c with state := csLocked }).endClkSwitch :=
      .of_benches (State.endClkSwitch_benches _)
    exact (told.trans ended).trans (State.reselect_links _)
  · exact told.trans (State.reselect_links _)

/-! ### Block lock (R273, R444) -/

/-- The link of a management port goes up or down. -/
def State.linked (s : State) (port : PortId) (up : Bool) : State :=
  s.onBnch (portBench port) fun x => { x with linkUp := up }

theorem State.linked_linkUp (s : State) (port : PortId) (up : Bool) :
    ((s.linked port up).benchOf (portBench port)).stat.linkUp = up := by
  rw [State.linked, State.onBnch, State.onBench_benchOf]

/-- Block lock on port A makes an ABSENT REC_A present; it starts to qualify (R273). -/
theorem State.recA_lock (s : State) :
    (∃ x, s.recA true = { s with clock := x }) ∧
      ((s.refOf 2).qstate = qsAbsent → ((s.recA true).refOf 2).qstate = qsQualifying ∧ ((s.recA true).refOf 2).qual = 0) := by
  unfold State.recA
  dsimp only
  rw [if_pos rfl]
  split
  · next unused => exact ⟨⟨_, rfl⟩, fun absent => absurd (unused.symm.trans absent) (by decide)⟩
  · split
    · refine ⟨⟨_, rfl⟩, fun _ => ?_⟩
      rw [State.onRef_refOf]
      exact ⟨rfl, rfl⟩
    · next present => exact ⟨⟨_, rfl⟩, fun absent => absurd absent present⟩

/-- Without block lock on port A, REC_A is ABSENT unless it is UNUSED (R273). -/
theorem State.recA_loss (s : State) :
    s.ClockOnly (s.recA false) ∧ s.SameLinks (s.recA false) ∧
      ((s.refOf 2).qstate ≠ qsUnused → ((s.recA false).refOf 2).qstate = qsAbsent) := by
  unfold State.recA
  dsimp only
  rw [if_neg Bool.false_ne_true]
  split
  · next unused => exact ⟨.refl s, .refl s, fun used => absurd unused used⟩
  · split
    · obtain ⟨only, ref, -, -⟩ := s.disqualify_spec 2 false
      exact ⟨only, s.disqualify_links 2 false, fun _ => by rw [ref]; rfl⟩
    · exact ⟨.onRef .., .of_benches rfl, fun _ => by rw [State.onRef_refOf]⟩

/-- MGMT_BLOCK_LOCK (R273, R444). -/
theorem mgmtBlockLock_completes (alive : s.bell.alive = true) (port : PortId) :
    ∃ t, exec (.mgmtBlockLock port) s = .next t ∧ (t.benchOf (portBench port)).stat.linkUp = true ∧
      (port = 0 → (s.refOf 2).qstate = qsAbsent → (t.refOf 2).qstate = qsQualifying ∧ (t.refOf 2).qual = 0) ∧
      t = { s with bench := t.bench, clock := t.clock } ∧ s.sameMemory t := by
  have row : exec (.mgmtBlockLock port) s =
      .next (if port = 0 then (s.linked port true).recA true else s.linked port true) :=
    congrArg Host.Outcome.next (if_neg (by rw [alive]; decide))
  have up := s.linked_linkUp port true
  obtain ⟨⟨x, only⟩, qualifies⟩ := (s.linked port true).recA_lock
  rw [row]
  split
  · refine ⟨_, rfl, ?_, fun _ => qualifies, ?_, fun _ => ?_⟩ <;> rw [only]
    · exact up
    · rfl
    · rfl
  · next other => exact ⟨_, rfl, up, fun own => absurd own other, rfl, fun _ => rfl⟩

/-- MGMT_BLOCK_LOCK_LOSS (R273). -/
theorem mgmtBlockLockLoss_completes (alive : s.bell.alive = true) (port : PortId) :
    ∃ t, exec (.mgmtBlockLockLoss port) s = .next t ∧ (t.benchOf (portBench port)).stat.linkUp = false ∧
      (port = 0 → (s.refOf 2).qstate ≠ qsUnused → (t.refOf 2).qstate = qsAbsent) ∧
      t = { s with bench := t.bench, clock := t.clock, tally := t.tally, out := t.out } ∧ s.sameMemory t := by
  have row : exec (.mgmtBlockLockLoss port) s =
      .next (if port = 0 then (s.linked port false).recA false else s.linked port false) :=
    congrArg Host.Outcome.next (if_neg (by rw [alive]; decide))
  have down := s.linked_linkUp port false
  obtain ⟨only, links, absent⟩ := (s.linked port false).recA_loss
  rw [row]
  split
  · refine ⟨_, rfl, (links.linkUp _).trans down, fun _ => absent, ?_, State.sameMemory_of_mem only.mem⟩
    rw [only.1]
    rfl
  · next other => exact ⟨_, rfl, down, fun own => absurd own other, rfl, fun _ => rfl⟩

/-! ### Captures (R294) -/

/-- An entry with room joins its queue; one without is dropped and counted. -/
theorem State.capture_spec (s : State) (c : Capture) :
    (s.time.captures[c.source].length < capRoom c.source →
      s.capture c = { s with time := { s.time with
        captures := vset s.time.captures c.source (s.time.captures[c.source] ++ [c]) } }) ∧
    (capRoom c.source ≤ s.time.captures[c.source].length →
      s.capture c = { s with time := { s.time with
        capDropped := true, stat := { s.time.stat with capDrops := s.time.stat.capDrops + 1, capOvfSeen := true } } }) :=
  ⟨fun room => if_pos room, fun full => if_neg (Nat.not_lt.mpr full)⟩

/-- A capture touches the queues and what tells of a full one. -/
theorem State.capture_only (s : State) (c : Capture) :
    ∃ q d x, s.capture c = { s with time := { s.time with captures := q, capDropped := d, stat := x } } := by
  obtain ⟨joins, drops⟩ := s.capture_spec c
  by_cases room : s.time.captures[c.source].length < capRoom c.source
  · exact ⟨_, _, _, joins room⟩
  · exact ⟨_, _, _, drops (Nat.not_lt.mp room)⟩

/-! ### Received frames (R295 to R297) -/

/-- Where Delay_Req only now begins to be sent, an instant that has passed is noted (R298). -/
theorem State.dreqPassed_if (s : State) (c : Prop) [Decidable c] :
    ∃ d, (if c then s.dreqPassed else s) = { s with time := { s.time with lastDreq := d } } := by
  split
  · exact s.dreqPassed_lastDreq
  · exact ⟨s.time.lastDreq, rfl⟩

/-- A received PTP frame touches the Timekeeper alone (R297, R298). -/
theorem State.ptpReceived_time (s : State) (p : PortId) (f : MgmtFrame) (bs : List Byte) :
    ∃ x, s.ptpReceived p f bs = { s with time := x } := by
  unfold State.ptpReceived
  dsimp only
  split
  · obtain ⟨q, d, x, captured⟩ := s.capture_only
      { at16 := s.time16, source := 3, port := p == 1, msg := ptpMessage f bs, len := (ptpMessage f bs).length }
    rw [captured]
    split
    · rw [(State.dreqPassed_if _ _).choose_spec]
      exact ⟨_, rfl⟩
    · exact ⟨_, rfl⟩
  · exact ⟨s.time, rfl⟩

/-- An answer to an address request is all that it sends (R318). -/
theorem State.answerArp_out (s : State) (p : PortId) (f : MgmtFrame) (bs : List Byte) :
    ∃ o, s.answerArp p f bs = s.emits o := by
  unfold State.answerArp
  dsimp only
  split
  · exact ⟨[_], rfl⟩
  · exact ⟨[], by rw [State.emits, List.append_nil]⟩

theorem State.answerNs_out (s : State) (p : PortId) (f : MgmtFrame) (bs : List Byte) :
    ∃ o, s.answerNs p f bs = s.emits o := by
  unfold State.answerNs
  dsimp only
  split
  · exact ⟨[_], rfl⟩
  · exact ⟨[], by rw [State.emits, List.append_nil]⟩

theorem mgmtFrame_dropped {frame : List Byte} (residence : Nat) (bad : s.framesRun = false ∨ mgmtFcsOk frame = false) :
    exec (.mgmtFrameReceived port frame residence) s = .next s := by
  refine congrArg Host.Outcome.next (if_pos ?_)
  rcases bad with off | wrong
  · rw [off]; rfl
  · rw [wrong, Bool.not_false, Bool.or_true]

/-- What becomes of a frame with a right FCS while frames are handled. -/
theorem exec_mgmtFrameReceived {frame : List Byte} (residence : Nat) (run : s.framesRun = true) (right : mgmtFcsOk frame = true) :
    let bs := frame.take (frame.length - 4)
    let f := frameHead bs
    let m := s.bench.mgmt[port]
    exec (.mgmtFrameReceived port frame residence) s = .next (
      if m.benchFrame f then
        s.datagram port { mac := BitVec.ofNat 48 f.src, v6 := f.ipVer == 6, ip := BitVec.ofNat 128 f.srcIp, port := BitVec.ofNat 16 f.sport }
          (bytesAt bs f.pay (min f.len (bs.length - f.pay)))
      else if f.isPtp bs then
        if m.addressed f then s.ptpReceived port f bs
        else (s.ptpReceived port f bs).emit (.mgmtFrame (otherPort port) (withFcs (forwardedBytes bs residence)))
      else ((s.answerArp port f bs).answerNs port f bs).emit (.mgmtFrame (otherPort port) frame)) := by
  refine congrArg Host.Outcome.next (if_neg ?_)
  rw [run, right]
  decide

/-- MGMT_FRAME_RECEIVED of a frame that is handled: to its bench, consumed, or on to the other port (R295 to R297, R318). -/
theorem mgmtFrame_handled {frame : List Byte} (residence : Nat) (run : s.framesRun = true) (right : mgmtFcsOk frame = true) :
    let bs := frame.take (frame.length - 4)
    let f := frameHead bs
    let m := s.bench.mgmt[port]
    (m.benchFrame f = true →
      exec (.mgmtFrameReceived port frame residence) s =
        .next (s.datagram port { mac := BitVec.ofNat 48 f.src, v6 := f.ipVer == 6, ip := BitVec.ofNat 128 f.srcIp, port := BitVec.ofNat 16 f.sport }
          (bytesAt bs f.pay (min f.len (bs.length - f.pay))))) ∧
    (m.benchFrame f = false → f.isPtp bs = true → m.addressed f = true →
      ∃ t, exec (.mgmtFrameReceived port frame residence) s = .next t ∧ t.out = s.out ∧ t = { s with time := t.time } ∧ s.sameMemory t) ∧
    (m.benchFrame f = false → f.isPtp bs = true → m.addressed f = false →
      ∃ t, exec (.mgmtFrameReceived port frame residence) s = .next t ∧
        t.out = s.out ++ [.mgmtFrame (otherPort port) (withFcs (forwardedBytes bs residence))] ∧
        t = { s with time := t.time, out := t.out } ∧ s.sameMemory t) ∧
    (m.benchFrame f = false → f.isPtp bs = false →
      ∃ t o, exec (.mgmtFrameReceived port frame residence) s = .next t ∧
        t.out = s.out ++ o ++ [.mgmtFrame (otherPort port) frame] ∧ t = { s with out := t.out } ∧ s.sameMemory t) := by
  intro bs f m
  have row := exec_mgmtFrameReceived (s := s) (port := port) residence run right
  dsimp only at row
  obtain ⟨x, received⟩ := s.ptpReceived_time port f bs
  refine ⟨fun bench => ?_, fun other ptp own => ?_, fun other ptp passing => ?_, fun other plain => ?_⟩
  · rw [row, if_pos bench]
  · rw [row, if_neg (Bool.eq_false_iff.mp other), if_pos ptp, if_pos own, received]
    exact ⟨_, rfl, rfl, rfl, fun _ => rfl⟩
  · rw [row, if_neg (Bool.eq_false_iff.mp other), if_pos ptp, if_neg (Bool.eq_false_iff.mp passing), received]
    exact ⟨_, rfl, rfl, rfl, fun _ => rfl⟩
  · obtain ⟨arp, answered⟩ := s.answerArp_out port f bs
    obtain ⟨ns, advertised⟩ := (s.emits arp).answerNs_out port f bs
    rw [row, if_neg (Bool.eq_false_iff.mp other), if_neg (Bool.eq_false_iff.mp plain), answered, advertised]
    refine ⟨_, arp ++ ns, rfl, ?_, rfl, fun _ => rfl⟩
    rw [State.emit_out, State.emits_out, State.emits_out, List.append_assoc s.out]

/-! ### Delay_Req (R298) -/

/-- The module once a Delay_Req has left for the running interval. -/
def State.requested (s : State) (p : PortId) (y : SyncSeen) : State :=
  let t := s.emit (.mgmtFrame p (s.dreqFrame p y (s.dreqMessage p)))
  { t with time := { t.time with lastDreq := some s.dreqInstant, dreqSeq := t.time.dreqSeq + 1 } }

/-- The port of Delay_Req (R298). -/
abbrev State.dreqPortId (s : State) : PortId := if s.time.cfg.dreqPort then 1 else 0

theorem exec_delayReq {y : SyncSeen} (sync : s.time.lastSync[s.dreqPortId] = some y) :
    exec .delayReq s = .next (
      if s.framesRun && s.time.cfg.dreqEn && s.time.lastDreq != some s.dreqInstant then
        (s.requested s.dreqPortId y).capture { at16 := s.time16, source := 3, port := s.dreqPortId == 1, dir := true
                                               msg := s.dreqMessage s.dreqPortId, len := 44 }
      else s) := by
  change execDelayReq s = _
  unfold execDelayReq
  extract_lets p due
  have sync' : s.time.lastSync[p] = some y := sync
  rw [sync']
  rfl

/-- DELAY_REQ (R298): one frame an interval, over the transport of the last captured Sync. -/
theorem delayReq_sends {y : SyncSeen} (sync : s.time.lastSync[s.dreqPortId] = some y) (run : s.framesRun = true)
    (enabled : s.time.cfg.dreqEn = true) (fresh : s.time.lastDreq ≠ some s.dreqInstant) :
    ∃ t, exec .delayReq s = .next t ∧
      t.out = s.out ++ [.mgmtFrame s.dreqPortId (s.dreqFrame s.dreqPortId y (s.dreqMessage s.dreqPortId))] ∧
      t.time.lastDreq = some s.dreqInstant ∧ t.time.dreqSeq = s.time.dreqSeq + 1 ∧
      t = { s with time := t.time, out := t.out } ∧ s.sameMemory t := by
  have due : (s.framesRun && s.time.cfg.dreqEn && s.time.lastDreq != some s.dreqInstant) = true := by
    rw [run, enabled, Bool.and_self, Bool.true_and]
    exact bne_iff_ne.mpr fresh
  obtain ⟨q, d, x, captured⟩ := (s.requested s.dreqPortId y).capture_only
    { at16 := s.time16, source := 3, port := s.dreqPortId == 1, dir := true, msg := s.dreqMessage s.dreqPortId, len := 44 }
  rw [exec_delayReq sync, if_pos due, captured]
  exact ⟨_, rfl, rfl, rfl, rfl, rfl, fun _ => rfl⟩

/-- Nothing is sent while Delay_Req is off, or a second time in an interval (R298). -/
theorem delayReq_idle {y : SyncSeen} (sync : s.time.lastSync[s.dreqPortId] = some y)
    (idle : s.time.cfg.dreqEn = false ∨ s.time.lastDreq = some s.dreqInstant) : exec .delayReq s = .next s := by
  have early : ¬(s.framesRun && s.time.cfg.dreqEn && s.time.lastDreq != some s.dreqInstant) = true := by
    rcases idle with off | sent
    · simp [off]
    · simp [sent]
  rw [exec_delayReq sync, if_neg early]

/-- Settles O10: each row's branches, with what they can touch. -/
theorem managementPortEvents : Obligations.ManagementPortEvents := by
  unfold Obligations.ManagementPortEvents
  exact ⟨fun s port alive => ⟨mgmtBlockLock_completes alive port, mgmtBlockLockLoss_completes alive port⟩,
    fun s port frame residence => ⟨mgmtFrame_dropped residence, mgmtFrame_handled residence⟩,
    fun s y sync => ⟨delayReq_sends sync, delayReq_idle sync⟩⟩

end Sys2Proof.Machine
end

section
/-! What happens when time passes (R280; log entries 2, 24 and 78): starts are reached, beam jobs end and the bridges complete what they
hold, and none of it touches the Timekeeper. -/

namespace Sys2Proof.Machine

variable {s t u : State}

/-! ### The mode follows the sub-arrays (Table 16-9) -/

/-- Only what a change of mode touches has changed. -/
def State.ModeOnly (s t : State) : Prop :=
  t = { s with bell := t.bell, tally := t.tally, lane := t.lane, bench := t.bench, out := t.out }

theorem State.ModeOnly.trans (h : s.ModeOnly t) (k : t.ModeOnly u) : s.ModeOnly u := by
  unfold State.ModeOnly at *
  rw [k, h]

theorem State.SaysOnly.modeOnly (said : s.SaysOnly t) : s.ModeOnly t := by
  unfold State.ModeOnly
  rw [said.1]

theorem State.setMode_modeOnly (s : State) (m : BitVec 4) : s.ModeOnly (s.setMode m) := by
  unfold State.setMode
  split
  · rfl
  · extract_lets old changed released unlooped
    have one : s.ModeOnly changed := rfl
    have two : changed.ModeOnly released := by
      unfold released
      split <;> rfl
    have three : released.ModeOnly unlooped := by
      unfold unlooped
      split <;> rfl
    refine ((one.trans two).trans three).trans (State.SaysOnly.modeOnly (.foldl _ (fun u b => ?_) _ _))
    split
    · exact u.setIrq_says ..
    · exact .refl u

theorem State.followMode_modeOnly (s : State) : s.ModeOnly s.followMode := by
  unfold State.followMode
  split
  · exact s.setMode_modeOnly _
  · rfl

/-! ### Starts (Table 13-9) -/

/-- A sub-array whose start has come enters OBSERVE. -/
def State.reachStart (s : State) (i : SubId) : State :=
  match s.parser[i].start with
  | some ks =>
    if s.saState i = saAlign ∧ s.obs[i].epoch.timeOf ks ≤ s.time16 then
      ((s.onObs i fun x => { x with state := saObserve }).onParser i fun p => { p with lastOk := s.now }).followMode
    else s
  | none => s

theorem State.reachStarts_eq (s : State) : s.reachStarts = (allFin 4).foldl (fun (u : State) i => u.reachStart i) s := rfl

/-- Only sub-arrays, their parsers and what the mode touches have changed. -/
def State.StartOnly (s t : State) : Prop :=
  t = { s with obs := t.obs, parser := t.parser, bell := t.bell, tally := t.tally, lane := t.lane, bench := t.bench, out := t.out }

theorem State.StartOnly.trans (h : s.StartOnly t) (k : t.StartOnly u) : s.StartOnly u := by
  unfold State.StartOnly at *
  rw [k, h]

theorem State.ModeOnly.startOnly (h : s.ModeOnly t) : s.StartOnly t := by
  unfold State.StartOnly
  rw [h]

theorem State.reachStart_startOnly (s : State) (i : SubId) : s.StartOnly (s.reachStart i) := by
  unfold State.reachStart
  split
  · split
    · refine State.StartOnly.trans ?_ (State.followMode_modeOnly _).startOnly
      rfl
    · rfl
  · rfl

theorem State.reachStarts_startOnly (s : State) : s.StartOnly s.reachStarts :=
  foldl_keeps s.StartOnly _ (fun u i kept => kept.trans (u.reachStart_startOnly i)) _ _ rfl

/-- A sub-array in ALIGN whose start instant has come. -/
def State.startDue (s : State) (i : SubId) : Prop :=
  ∃ ks, s.parser[i].start = some ks ∧ s.saState i = saAlign ∧ s.obs[i].epoch.timeOf ks ≤ s.time16

theorem State.reachStart_of_due {i : SubId} (due : s.startDue i) :
    ∃ u : State, u.ModeOnly (s.reachStart i) ∧ u.saState i = saObserve ∧ u.time = s.time ∧
      ∀ j, j ≠ i → u.obs[j] = s.obs[j] ∧ u.parser[j] = s.parser[j] := by
  obtain ⟨ks, start, align, reached⟩ := due
  unfold State.reachStart
  rw [start]
  dsimp only
  rw [if_pos ⟨align, reached⟩]
  refine ⟨_, State.followMode_modeOnly _, ?_, rfl, fun j other => ⟨State.onObs_obs_ne _ _ _ _ other, vmod_ne _ _ other⟩⟩
  rw [State.saState, State.onParser_obs, State.onObs_obs]

theorem State.reachStart_of_not_due {i : SubId} (idle : ¬s.startDue i) : s.reachStart i = s := by
  unfold State.reachStart
  split
  · next ks start => exact if_neg fun due => idle ⟨ks, start, due⟩
  · rfl

/-- What a sub-array in ALIGN waits for stays, or it has come to OBSERVE. -/
theorem State.reachStart_waits (s : State) (i j : SubId) :
    (s.startDue j → (s.reachStart i).startDue j ∨ (s.reachStart i).saState j = saObserve) ∧
      (s.saState j ≠ saAlign → (s.reachStart i).saState j = s.saState j) ∧
      (s.startDue i → (s.reachStart i).saState i = saObserve) := by
  by_cases due : s.startDue i
  · obtain ⟨u, mode, observes, time, others⟩ := State.reachStart_of_due due
    have obs : (s.reachStart i).obs = u.obs := by rw [mode]
    have parser : (s.reachStart i).parser = u.parser := by rw [mode]
    have time' : (s.reachStart i).time = s.time := by rw [mode]; exact time
    have own : (s.reachStart i).saState i = saObserve := by rw [State.saState, obs]; exact observes
    refine ⟨fun waiting => ?_, fun apart => ?_, fun _ => own⟩
    · by_cases same : j = i
      · rw [same]
        exact .inr own
      · obtain ⟨ks, start, align, reached⟩ := waiting
        obtain ⟨obsKept, parserKept⟩ := others j same
        refine .inl ⟨ks, ?_, ?_, ?_⟩
        · rw [parser, parserKept, start]
        · rw [State.saState, obs, obsKept]
          exact align
        · rw [obs, obsKept, State.time16, time']
          exact reached
    · by_cases same : j = i
      · obtain ⟨-, -, align, -⟩ := due
        exact absurd (same ▸ align) apart
      · rw [State.saState, obs, (others j same).1, ← State.saState]
  · rw [State.reachStart_of_not_due due]
    exact ⟨.inl, fun _ => rfl, fun reached => absurd reached due⟩

/-- A fold of starts leaves every sub-array that is not in ALIGN. -/
theorem State.foldl_reachStart_kept (l : List SubId) {j : SubId} (apart : s.saState j ≠ saAlign) :
    (l.foldl (fun (u : State) i => u.reachStart i) s).saState j = s.saState j := by
  refine foldl_keeps (fun u : State => u.saState j = s.saState j) _ (fun u i kept => ?_) _ _ rfl
  rw [(u.reachStart_waits i j).2.1 (by rw [kept]; exact apart), kept]

/-- A sub-array whose start instant has come is in OBSERVE once its turn has passed. -/
theorem State.foldl_reachStart_observes {l : List SubId} {j : SubId} (listed : j ∈ l) (due : s.startDue j) :
    (l.foldl (fun (u : State) i => u.reachStart i) s).saState j = saObserve := by
  induction l generalizing s with
  | nil => exact absurd listed List.not_mem_nil
  | cons i l ih =>
    obtain ⟨waits, -, -⟩ := s.reachStart_waits i j
    have observed (come : (s.reachStart i).saState j = saObserve) :
        ((i :: l).foldl (fun (u : State) i => u.reachStart i) s).saState j = saObserve := by
      have kept := State.foldl_reachStart_kept (s := s.reachStart i) l (j := j) (by rw [come]; decide)
      rwa [come] at kept
    rcases List.mem_cons.mp listed with rfl | later
    · exact observed ((s.reachStart_waits j j).2.2 due)
    · rcases waits due with still | come
      · exact ih later still
      · exact observed come

theorem State.reachStarts_kept {j : SubId} (apart : s.saState j ≠ saAlign) : s.reachStarts.saState j = s.saState j := by
  rw [State.reachStarts_eq, State.foldl_reachStart_kept _ apart]

theorem State.reachStarts_observes {j : SubId} (due : s.startDue j) : s.reachStarts.saState j = saObserve := by
  rw [State.reachStarts_eq]
  exact State.foldl_reachStart_observes (List.mem_finRange j) due

/-! ### Beam jobs that end (R220) -/

/-- Real time, the Timekeeper and the movers of data stay as they are. -/
structure State.KeepsTime (s t : State) : Prop where
  now : t.now = s.now
  time : t.time = s.time
  move : t.move = s.move

theorem State.KeepsTime.refl (s : State) : s.KeepsTime s := ⟨rfl, rfl, rfl⟩

theorem State.KeepsTime.trans (h : s.KeepsTime t) (k : t.KeepsTime u) : s.KeepsTime u :=
  ⟨k.now.trans h.now, k.time.trans h.time, k.move.trans h.move⟩

theorem State.KeepsTime.foldl {β : Type} {f : State → β → State} (each : ∀ u b, State.KeepsTime u (f u b)) (l : List β) (s : State) :
    s.KeepsTime (l.foldl f s) :=
  foldl_keeps s.KeepsTime f (fun u b kept => kept.trans (each u b)) l s (.refl s)

theorem State.KeepsTime.raise (s : State) (i : SourceId) (detail : Word) (sub : Option SubId) :
    s.KeepsTime (s.raise i detail sub) := ⟨s.raise_now .., s.raise_time .., s.raise_move ..⟩

theorem State.SlotOnly.keepsTime (h : s.SlotOnly t) : s.KeepsTime t := ⟨by rw [h], by rw [h], by rw [h]⟩

theorem State.StartOnly.keepsTime (h : s.StartOnly t) : s.KeepsTime t := ⟨by rw [h], by rw [h], by rw [h]⟩

section
variable (s : State) (t : TileId) (i : SubId)

theorem State.KeepsTime.onTile (f : Tile → Tile) : s.KeepsTime (s.onTile t f) := ⟨rfl, rfl, rfl⟩
theorem State.KeepsTime.onTileReg (f : LoomTile → LoomTile) : s.KeepsTime (s.onTileReg t f) := ⟨rfl, rfl, rfl⟩
theorem State.KeepsTime.onLoom (f : LoomSub → LoomSub) : s.KeepsTime (s.onLoom i f) := ⟨rfl, rfl, rfl⟩
theorem State.KeepsTime.onLoomStat (f : LoomStat → LoomStat) : s.KeepsTime (s.onLoomStat i f) := ⟨rfl, rfl, rfl⟩
theorem State.KeepsTime.onLedgStat (f : LedgStat → LedgStat) : s.KeepsTime (s.onLedgStat i f) := ⟨rfl, rfl, rfl⟩
theorem State.KeepsTime.onBeam (f : BeamSub → BeamSub) : s.KeepsTime (s.onBeam i f) := ⟨rfl, rfl, rfl⟩
theorem State.KeepsTime.onBeamStat (f : LoomBeamStat → LoomBeamStat) : s.KeepsTime (s.onBeamStat i f) := ⟨rfl, rfl, rfl⟩
theorem State.KeepsTime.requeue (j : Job) : s.KeepsTime (s.requeue j) := ⟨rfl, rfl, rfl⟩
theorem State.KeepsTime.requeueBeam (j : BeamJob) : s.KeepsTime (s.requeueBeam j) := ⟨rfl, rfl, rfl⟩
theorem State.KeepsTime.askIsland (k : IslandId) (on : Bool) : s.KeepsTime (s.askIsland k on) := ⟨rfl, rfl, rfl⟩
theorem State.KeepsTime.showLoom : s.KeepsTime (s.showLoom i) := ⟨rfl, rfl, rfl⟩
theorem State.KeepsTime.commitBeam (n : Fin 2) (j : BeamJob) (lo hi : Nat) : s.KeepsTime (s.commitBeam i n j lo hi) :=
  ⟨rfl, rfl, rfl⟩

theorem State.haltBeam_keepsTime : s.KeepsTime (s.haltBeam t).1 := by
  unfold State.haltBeam
  split
  · exact .refl s
  · extract_lets upTo u
    have committed : s.KeepsTime u := (State.KeepsTime.onTile ..).trans (.commitBeam ..)
    split
    · dsimp only
      exact (committed.trans (.onBeamStat ..)).trans (.onTileReg ..)
    · exact committed

theorem State.returnJobs_keepsTime : s.KeepsTime (s.returnJobs t) := by
  unfold State.returnJobs
  extract_lets x r beams jobs dumps
  have one : r.1.KeepsTime beams := by
    unfold beams
    split
    · exact .requeueBeam ..
    · exact .refl _
  have two : beams.KeepsTime jobs := by
    unfold jobs
    split
    · exact .requeue ..
    · exact .refl _
  have three : jobs.KeepsTime dumps := by
    unfold dumps
    split
    · exact (State.KeepsTime.requeue ..).trans (.onLedgStat ..)
    · exact .refl _
  exact ((((s.haltBeam_keepsTime t).trans one).trans two).trans three).trans (.onTile ..)

theorem State.announceFail_keepsTime : s.KeepsTime (s.announceFail t) := (State.KeepsTime.onTileReg ..).trans (.raise ..)

theorem State.retire_keepsTime : s.KeepsTime (s.retire t) := by
  unfold State.retire
  extract_lets announced
  have one : s.KeepsTime announced := by
    unfold announced
    split
    · exact .refl s
    · exact s.announceFail_keepsTime t
  exact (one.trans (.askIsland ..)).trans (.onTile ..)

theorem State.takeSpare_keepsTime (n : Nat) : s.KeepsTime (s.takeSpare n) := by
  unfold State.takeSpare
  split
  · exact .refl s
  · split
    · exact (State.KeepsTime.onTileReg ..).trans (.raise ..)
    · exact .refl s

theorem State.showAll_keepsTime : s.KeepsTime s.showAll := by
  have tiles : s.KeepsTime s.showTiles := by
    unfold State.showTiles
    exact (State.KeepsTime.foldl (fun u k => .onTileReg ..) _ s).trans (.foldl (fun u i => .onLoom ..) _ _)
  exact tiles.trans (.foldl (fun u i => .showLoom ..) _ _)

theorem State.retireNow_keepsTime : s.KeepsTime (s.retireNow t) := by
  have retired := s.retire_keepsTime t
  unfold State.retireNow
  dsimp only
  split
  · exact (retired.trans (State.takeSpare_keepsTime ..)).trans (State.showAll_keepsTime _)
  · exact retired.trans (State.showAll_keepsTime _)

end

theorem State.failTile_keepsTime (s : State) (t : TileId) (cause : BitVec 3) : s.KeepsTime (s.failTile t cause) := by
  unfold State.failTile
  extract_lets returned caused announced
  have kept : s.KeepsTime announced :=
    ((s.returnJobs_keepsTime t).trans (.onTile ..)).trans (caused.announceFail_keepsTime t)
  have retired (v : State) (same : announced.KeepsTime v) : s.KeepsTime (v.retireNow t) :=
    (kept.trans same).trans (v.retireNow_keepsTime t)
  split
  · extract_lets seen
    have told : announced.KeepsTime seen := .onLoomStat ..
    split
    · exact (kept.trans told).trans (.onTileReg ..)
    · exact retired _ (told.trans (.onTileReg ..))
  · exact retired _ (.onTileReg ..)

theorem State.checkTile_keepsTime (s : State) (i : SubId) (t : TileId) : s.KeepsTime (s.checkTile i t) := by
  unfold State.checkTile
  extract_lets x repeats counted noted
  have told : s.KeepsTime noted := ((State.KeepsTime.onTile ..).trans (.onLoomStat ..)).trans (.raise ..)
  split
  · exact told.trans (noted.failTile_keepsTime ..)
  · exact (told.trans (noted.returnJobs_keepsTime t)).trans (.onTile ..)

/-- A beam job that ends touches the tiles, the beams, the Loom, the Cellar and what a failure of its tile tells (R218 to R222). -/
theorem State.endBeam_keepsTime (s : State) (t : TileId) : s.KeepsTime (s.endBeam t) := by
  have halted := s.haltBeam_keepsTime t
  have settled (u : State) (i : SubId) (kept : s.KeepsTime u) : s.KeepsTime (u.settled i) :=
    kept.trans (u.settled_slotOnly i).keepsTime
  unfold State.endBeam
  generalize s.haltBeam t = halt at *
  split
  · exact .refl s
  · next run flying =>
    split
    · exact .refl s
    · dsimp only
      split
      · exact settled _ _ halted
      · next u j =>
        refine settled _ _ ?_
        have checked := halted.trans (u.checkTile_keepsTime run.job.sub t)
        split
        · unfold State.loseBeam
          exact (checked.trans (.onBeam ..)).trans (.raise ..)
        · exact checked.trans (.requeueBeam ..)

theorem State.endBeams_keepsTime (s : State) : s.KeepsTime s.endBeams := .foldl (fun u t => u.endBeam_keepsTime t) _ s

/-- With no beam job in flight, none ends. -/
theorem State.endBeams_idle (idle : ∀ k, (s.tile k).beam = none) : s.endBeams = s := by
  refine foldl_keeps (fun u : State => u = s) _ ?_ _ _ rfl
  rintro _ k rfl
  unfold State.endBeam
  rw [idle]

end Sys2Proof.Machine
end

section
/-! The bridges when time passes (R365; log entry 78): what they complete and grant leaves the Timekeeper, and with nothing that waits
behind them their queues are empty afterwards. -/

namespace Sys2Proof.Machine

variable {s t u : State}

/-- Real time and the Timekeeper stay as they are. -/
structure State.SameTime (s t : State) : Prop where
  now : t.now = s.now
  time : t.time = s.time

theorem State.SameTime.refl (s : State) : s.SameTime s := ⟨rfl, rfl⟩

theorem State.SameTime.trans (h : s.SameTime t) (k : t.SameTime u) : s.SameTime u := ⟨k.now.trans h.now, k.time.trans h.time⟩

theorem State.SameTime.foldl {β : Type} {f : State → β → State} (each : ∀ u b, State.SameTime u (f u b)) (l : List β) (s : State) :
    s.SameTime (l.foldl f s) :=
  foldl_keeps s.SameTime f (fun u b kept => kept.trans (each u b)) l s (.refl s)

theorem State.KeepsTime.sameTime (h : s.KeepsTime t) : s.SameTime t := ⟨h.now, h.time⟩

theorem State.SameTime.onExch (s : State) (f : Exchange → Exchange) : s.SameTime (s.onExch f) := ⟨rfl, rfl⟩
theorem State.SameTime.onExchStat (s : State) (f : ExchStat → ExchStat) : s.SameTime (s.onExchStat f) := ⟨rfl, rfl⟩
theorem State.SameTime.emit (s : State) (o : Output) : s.SameTime (s.emit o) := ⟨rfl, rfl⟩

/-! ### Memories behind the Exchange -/

theorem State.granuleWrite_sameTime (s : State) (g off : Nat) (data : List Byte) : s.SameTime (s.granuleWrite g off data).1 := by
  unfold State.granuleWrite
  dsimp only
  split <;> exact ⟨rfl, rfl⟩

theorem State.granuleStrobed_sameTime (s : State) (g : Nat) (bs : List (Option Byte)) : s.SameTime (s.granuleStrobed g bs).1 := by
  unfold State.granuleStrobed
  split
  · exact .refl s
  · split
    · exact s.granuleWrite_sameTime ..
    · dsimp only
      split <;> exact ⟨rfl, rfl⟩

theorem State.granStrobed_sameTime (s : State) (a : Nat) (data : List (Option Byte)) : s.SameTime (s.granStrobed a data).1 := by
  unfold State.granStrobed
  refine foldl_keeps (fun r : State × Bool => s.SameTime r.1) _ ?_ _ (s, true) (.refl s)
  intro r e kept
  exact kept.trans (r.1.granuleStrobed_sameTime ..)

theorem State.freeBytes_sameTime (s : State) (n : Nat) : s.SameTime (s.freeBytes n).1 := ⟨rfl, rfl⟩

theorem State.targetRead_sameTime (s : State) (k a n : Nat) : s.SameTime (s.targetRead k a n).1 := by
  obtain ⟨x, touched⟩ := s.granRead_gran a n
  unfold State.targetRead
  -- A variable in the Granary's place: reducing the model's own read would unfold the subtraction of `granBase`.
  generalize s.granRead a n = r at *
  split
  · exact .refl s
  · split
    · exact s.freeBytes_sameTime n
    · split
      · split
        · exact .refl s
        · split
          · next v bs => exact ⟨by rw [show v = _ from touched], by rw [show v = _ from touched]⟩
          · next v => exact ⟨by rw [show v = _ from touched], by rw [show v = _ from touched]⟩
      · exact .refl s

theorem State.targetWrite_sameTime (s : State) (k a : Nat) (data : List (Option Byte)) : s.SameTime (s.targetWrite k a data).1 := by
  -- A variable in the place of the strobed write, for the same reason as in `State.targetRead_sameTime`.
  obtain ⟨F, hF⟩ : ∃ F : State → Nat → List (Option Byte) → State × Bool, F = State.granStrobed := ⟨_, rfl⟩
  have strobed : s.SameTime (F s a data).1 := by
    rw [hF]
    exact s.granStrobed_sameTime a data
  unfold State.targetWrite
  rw [← hF]
  split
  · exact .refl s
  · split
    · split
      · exact .refl s
      · exact strobed
    · exact ⟨rfl, rfl⟩

/-! ### Bursts (R360 to R364) -/

theorem State.countBurst_sameTime (s : State) (m : MasterId) (a n : Nat) (granted : Bool) (code : BitVec 2) :
    s.SameTime (s.countBurst m a n granted code) := by
  unfold State.countBurst
  dsimp only
  split
  · exact .onExch ..
  · exact (State.SameTime.onExch ..).trans (.onExchStat ..)

theorem State.took_sameTime (s : State) (k : Nat) (m : MasterId) : s.SameTime (s.took k m) := by
  unfold State.took
  split
  · exact .onExch ..
  · exact .refl s

theorem State.endBridged_sameTime (s : State) (b : Burst) (code : BitVec 2) : s.SameTime (s.endBridged b code) := by
  unfold State.endBridged
  dsimp only
  split
  · exact (s.countBurst_sameTime ..).trans (.emit ..)
  · exact ((s.freeBytes_sameTime _).trans (State.countBurst_sameTime ..)).trans (.emit ..)

theorem State.drainBridge_sameTime (s : State) (b : Fin 2) : s.SameTime (s.drainBridge b) :=
  (State.SameTime.onExch s _).trans (.foldl (fun v w => v.endBridged_sameTime w respComplete) _ _)

theorem State.drainFor_sameTime (s : State) (m : MasterId) (target : Nat) : s.SameTime (s.drainFor m target) := by
  refine .foldl (fun v b => ?_) _ s
  split
  · exact v.drainBridge_sameTime b
  · exact .refl v

theorem State.busRead_sameTime (s : State) (m : MasterId) (a n : Nat) : s.SameTime (s.busRead m a n).1 := by
  unfold State.busRead
  split
  · dsimp only
    exact s.countBurst_sameTime ..
  · exact (((s.drainFor_sameTime ..).trans (State.took_sameTime ..)).trans (State.targetRead_sameTime ..)).trans
      (State.countBurst_sameTime ..)

theorem State.busWrite_sameTime (s : State) (m : MasterId) (a : Nat) (data : List (Option Byte)) :
    s.SameTime (s.busWrite m a data).1 := by
  unfold State.busWrite
  split
  · dsimp only
    exact s.countBurst_sameTime ..
  · exact (((s.drainFor_sameTime ..).trans (State.took_sameTime ..)).trans (State.targetWrite_sameTime ..)).trans
      (State.countBurst_sameTime ..)

theorem State.serveBurst_sameTime (s : State) (b : Burst) : s.SameTime (s.serveBurst b) := by
  unfold State.serveBurst
  split
  · exact (s.took_sameTime ..).trans (.onExch ..)
  · split
    · exact .foldl (fun v e => (v.busWrite_sameTime ..).trans (.emit ..)) _ s
    · exact .foldl (fun v e => (v.busRead_sameTime ..).trans (.emit ..)) _ s

/-! ### Bursts that waited (R361, R364, R367) -/

theorem State.refuseLock_sameTime (s : State) (b : Burst) : s.SameTime (s.refuseLock b) :=
  (s.countBurst_sameTime ..).trans (.emit ..)

theorem State.showLock_sameTime (s : State) : s.SameTime s.showLock := ⟨rfl, rfl⟩

theorem State.freeLock_sameTime (s : State) (m : MasterId) : s.SameTime (s.freeLock m) :=
  (State.SameTime.onExch s _).trans (State.showLock_sameTime _)

theorem State.countHold_sameTime (s : State) (h : HeldBurst) : s.SameTime (s.countHold h) := ⟨rfl, rfl⟩

theorem State.holdBurst_sameTime (s : State) (b : Burst) : s.SameTime (s.holdBurst b) := .onExch ..

theorem State.grantBurst_sameTime (s : State) (b : Burst) : s.SameTime (s.grantBurst b) := by
  unfold State.grantBurst
  dsimp only
  split
  · exact (State.SameTime.onExch ..).trans (State.refuseLock_sameTime ..)
  · split
    · split
      · split
        · exact s.serveBurst_sameTime b
        · exact (s.freeLock_sameTime _).trans (State.refuseLock_sameTime ..)
      · exact ((State.SameTime.onExch ..).trans (State.showLock_sameTime _)).trans (State.serveBurst_sameTime ..)
      · exact s.serveBurst_sameTime b
    · split
      · exact (s.serveBurst_sameTime b).trans (State.freeLock_sameTime ..)
      · exact s.serveBurst_sameTime b

theorem State.settleHeld_sameTime (rest : List HeldBurst) (s : State) (before : List HeldBurst) :
    s.SameTime (s.settleHeld before rest) := by
  induction rest generalizing s before with
  | nil => exact .onExch ..
  | cons h rest ih =>
    rw [State.settleHeld]
    split
    · exact ih s _
    · exact (s.countHold_sameTime h).trans (ih (s.countHold h) _)

theorem State.releaseHeldBursts_sameTime (n : Nat) (s : State) : s.SameTime (State.releaseHeldBursts n s) := by
  induction n generalizing s with
  | zero => exact .refl s
  | succ n ih =>
    rw [State.releaseHeldBursts]
    split
    · exact State.settleHeld_sameTime ..
    · next h _ =>
      exact (((s.countHold_sameTime h).trans (.onExch ..)).trans (State.grantBurst_sameTime _ h.burst)).trans (ih _)

theorem State.feedUp_sameTime (n : Nat) (s : State) : s.SameTime (State.feedUp n s) := by
  induction n generalizing s with
  | zero => exact .refl s
  | succ n ih =>
    rw [State.feedUp]
    split
    · split
      · exact .refl s
      · exact (((State.SameTime.onExch s _).trans (State.holdBurst_sameTime ..)).trans (State.releaseHeldBursts_sameTime ..)).trans (ih _)
    · exact .refl s

theorem State.proceed_sameTime (s : State) : s.SameTime s.proceed :=
  (State.releaseHeldBursts_sameTime ..).trans (State.feedUp_sameTime ..)

/-- What the bridges complete and grant leaves the Timekeeper. -/
theorem State.serveBridges_sameTime (s : State) : s.SameTime s.serveBridges := by
  unfold State.serveBridges
  split
  · exact .refl s
  · exact (State.SameTime.foldl (fun v b => v.drainBridge_sameTime b) _ s).trans (State.proceed_sameTime _)

/-! ### Empty queues -/

/-- The queues that hold requests back stay as they are. -/
structure State.SameWaits (s t : State) : Prop where
  down : t.move.exch.down = s.move.exch.down
  held : t.move.exch.held = s.move.exch.held
  upWait : t.move.exch.upWait = s.move.exch.upWait

theorem State.SameWaits.trans (h : s.SameWaits t) (k : t.SameWaits u) : s.SameWaits u :=
  ⟨k.down.trans h.down, k.held.trans h.held, k.upWait.trans h.upWait⟩

theorem State.countBurst_sameWaits (s : State) (m : MasterId) (a n : Nat) (granted : Bool) (code : BitVec 2) :
    s.SameWaits (s.countBurst m a n granted code) := by
  unfold State.countBurst
  dsimp only
  split <;> exact ⟨rfl, rfl, rfl⟩

theorem State.freeBytes_sameWaits (s : State) (n : Nat) : s.SameWaits (s.freeBytes n).1 := ⟨rfl, rfl, rfl⟩

theorem State.emit_sameWaits (s : State) (o : Output) : s.SameWaits (s.emit o) := ⟨rfl, rfl, rfl⟩

theorem State.endBridged_sameWaits (s : State) (b : Burst) (code : BitVec 2) : s.SameWaits (s.endBridged b code) := by
  unfold State.endBridged
  dsimp only
  split
  · exact (s.countBurst_sameWaits ..).trans (State.emit_sameWaits ..)
  · exact ((s.freeBytes_sameWaits b.len).trans (State.countBurst_sameWaits ..)).trans (State.emit_sameWaits ..)

/-- A bridge that completes its queue empties it and no other. -/
theorem State.drainBridge_waits (s : State) (b : Fin 2) : let t := s.drainBridge b
    t.move.exch.down = vmod s.move.exch.down b (fun _ => []) ∧ t.move.exch.held = s.move.exch.held ∧
      t.move.exch.upWait = s.move.exch.upWait := by
  have drained : (s.onDown b fun _ => []).SameWaits (s.drainBridge b) :=
    foldl_keeps (s.onDown b fun _ => []).SameWaits _ (fun v w kept => kept.trans (v.endBridged_sameWaits w respComplete)) _ _
      ⟨rfl, rfl, rfl⟩
  exact ⟨drained.down, drained.held, drained.upWait⟩

theorem State.serveBridges_idle (empty : ∀ b : Fin 2, s.move.exch.down[b] = []) : s.serveBridges = s := by
  refine if_pos (List.all_eq_true.mpr fun b _ => ?_)
  rw [empty b]
  rfl

/-- Nothing proceeds where nothing waits. -/
theorem State.proceed_idle (up : s.move.exch.upWait = []) (held : s.move.exch.held = []) : s.proceed = s := by
  have released : State.releaseHeldBursts s.move.exch.held.length s = s := by rw [held]; rfl
  change State.feedUp (State.releaseHeldBursts s.move.exch.held.length s).move.exch.upWait.length
    (State.releaseHeldBursts s.move.exch.held.length s) = s
  rw [released, up]
  rfl

/-- With nothing that waits behind the bridges, their queues are empty once time has passed. -/
theorem State.serveBridges_empties (up : s.move.exch.upWait = []) (held : s.move.exch.held = []) (b : Fin 2) :
    s.serveBridges.move.exch.down[b] = [] := by
  unfold State.serveBridges
  split
  · next empty =>
    have own := List.all_eq_true.mp empty b (List.mem_finRange b)
    exact List.isEmpty_iff.mp own
  · change (((s.drainBridge 0).drainBridge 1).proceed).move.exch.down[b] = []
    obtain ⟨down, heldKept, upKept⟩ := s.drainBridge_waits 0
    obtain ⟨down', heldKept', upKept'⟩ := (s.drainBridge 0).drainBridge_waits 1
    rw [State.proceed_idle (by rw [upKept', upKept, up]) (by rw [heldKept', heldKept, held]), down', down]
    match b with
    | 0 => simp
    | 1 => simp

end Sys2Proof.Machine
end

section
/-! The Timekeeper's own rows: ticks (R280, R281), the end of a slew, free run (R282), firings of timers (R291), pulses per second (R292)
and captured edges (R294). -/

namespace Sys2Proof.Machine

variable {s t u : State}

/-! ### Ticks (R280) -/

/-- Real time and the time go on by `n` ticks. -/
def State.ticking (s : State) (n : Nat) : State := { s with now := s.now + 4 * n, time := s.time.ticked n }

theorem State.tick_of_alive (alive : s.bell.alive = true) (n : Nat) :
    s.tick n = ((s.ticking n).reachStarts.endBeams).serveBridges := by
  unfold State.tick State.ticking
  exact if_pos alive

theorem State.tick_of_dead (dead : s.bell.alive = false) (n : Nat) : s.tick n = { s with now := s.now + 4 * n } := by
  unfold State.tick
  exact if_neg (by rw [dead]; exact Bool.false_ne_true)

/-- Starts and the ends of beam jobs leave the Timekeeper and the movers of data. -/
theorem State.endBeams_ticking (s : State) (n : Nat) : (s.ticking n).KeepsTime (s.ticking n).reachStarts.endBeams :=
  (s.ticking n).reachStarts_startOnly.keepsTime.trans (State.endBeams_keepsTime _)

theorem State.tick_sameTime (alive : s.bell.alive = true) (n : Nat) : (s.ticking n).SameTime (s.tick n) := by
  rw [State.tick_of_alive alive]
  exact (s.endBeams_ticking n).sameTime.trans (State.serveBridges_sameTime _)

theorem exec_tick (s : State) (n : Nat) : exec (.tick n) s =
    .next (if (s.served (s.tick n)).balerDue then (s.served (s.tick n)).endBaler.serve else s.served (s.tick n)) := rfl

/-- A tick that ends no lock ends the Baler's job where its end has come. -/
theorem exec_tick_of_kept {n : Nat} (kept : ∀ l ∈ s.move.exch.locks, l ∈ (s.tick n).move.exch.locks) :
    exec (.tick n) s = .next (if (s.tick n).balerDue then (s.tick n).endBaler.serve else s.tick n) := by
  rw [exec_tick, State.served_of_kept kept]

theorem State.balerDue_of_idle (idle : t.move.baleRun = none) : t.balerDue = false := by
  unfold State.balerDue
  rw [idle]

theorem State.balerDue_of_later (later : ∀ x, t.move.baleRun = some x → t.now < x.endsAt) : t.balerDue = false := by
  unfold State.balerDue
  split
  · next x running => exact decide_eq_false (Nat.not_le.mpr (later x running))
  · rfl

/-- Before the always-on island is powered only real time passes (log entry 2). -/
theorem exec_tick_of_dead (dead : s.bell.alive = false) (idle : s.move.baleRun = none) (n : Nat) :
    exec (.tick n) s = .next { s with now := s.now + 4 * n } := by
  have ticked := State.tick_of_dead dead n
  have quiet : (s.tick n).balerDue = false := State.balerDue_of_idle (by rw [ticked]; exact idle)
  rw [exec_tick_of_kept (by rw [ticked]; exact fun _ held => held), quiet, ← ticked]
  rfl

/-- With no beam job in flight and no request at a bridge, ticks only bring starts. -/
theorem State.tick_of_idle (alive : s.bell.alive = true) (still : ∀ k, (s.tile k).beam = none)
    (empty : ∀ b : Fin 2, s.move.exch.down[b] = []) (n : Nat) : s.tick n = (s.ticking n).reachStarts := by
  have started := (s.ticking n).reachStarts_startOnly
  have beams : (s.ticking n).reachStarts.endBeams = (s.ticking n).reachStarts :=
    State.endBeams_idle fun k => by
      rw [started]
      exact still k
  rw [State.tick_of_alive alive, beams]
  refine State.serveBridges_idle fun b => ?_
  rw [started]
  exact empty b

/-- Ticks that find nothing at work move the sub-arrays whose start has come, and leave memory (R280, Table 13-9). -/
theorem exec_tick_of_idle (alive : s.bell.alive = true) (still : ∀ k, (s.tile k).beam = none)
    (empty : ∀ b : Fin 2, s.move.exch.down[b] = []) (n : Nat)
    (coding : ∀ x, s.move.baleRun = some x → s.now + 4 * n < x.endsAt) :
    ∃ t, exec (.tick n) s = .next t ∧ t = s.tick n ∧
      (∀ i ks, s.parser[i].start = some ks → s.saState i = saAlign → s.obs[i].epoch.timeOf ks ≤ t.time16 →
        t.saState i = saObserve) ∧
      (∀ i, s.saState i ≠ saAlign → t.saState i = s.saState i) ∧ s.sameMemory t := by
  have ticked := State.tick_of_idle alive still empty n
  have started := (s.ticking n).reachStarts_startOnly
  have kept := started.keepsTime
  have quiet : (s.tick n).balerDue = false := by
    refine State.balerDue_of_later fun x running => ?_
    rw [ticked, kept.move] at running
    rw [ticked, kept.now]
    exact coding x running
  refine ⟨s.tick n, ?_, rfl, fun i ks start align reached => ?_, fun i apart => ?_, ?_⟩
  · rw [exec_tick_of_kept, quiet]
    · rfl
    · rw [ticked, kept.move]
      exact fun _ held => held
  · have reached' : (s.ticking n).obs[i].epoch.timeOf ks ≤ (s.ticking n).time16 := by
      rw [ticked, State.time16, kept.time] at reached
      exact reached
    rw [ticked]
    exact State.reachStarts_observes ⟨ks, start, align, reached'⟩
  · rw [ticked]
    exact State.reachStarts_kept apart
  · refine State.sameMemory_of_mem ?_
    rw [ticked, started]
    rfl

/-- With nothing that waits behind the bridges, their queues are empty after a tick (R365; log entry 78). -/
theorem State.tick_empties (alive : s.bell.alive = true) (up : s.move.exch.upWait = []) (held : s.move.exch.held = []) (n : Nat)
    (b : Fin 2) : (s.tick n).move.exch.down[b] = [] := by
  have kept := (s.endBeams_ticking n).move
  rw [State.tick_of_alive alive]
  exact State.serveBridges_empties (by rw [kept]; exact up) (by rw [kept]; exact held) b

/-! ### Slews and free run (R281, R282) -/

theorem exec_slewEnd (passed : s.time.slewLeft = 0) :
    exec .slewEnd s = .next { s with time := { s.time with slewInc := 0, stat := { s.time.stat with slewing := false } } } :=
  congrArg Host.Outcome.next (if_pos passed)

theorem timeFreeRun_completes (set : s.time.stat.state = 1) (old : s.freshInc = false) (counted : s.inReset = false) :
    ∃ t, exec .timeFreeRun s = .next t ∧ t.time = { s.time with stat := { s.time.stat with state := 2, freeRunSeen := true } } ∧
      (t.source srcTimeFreeRun).reg.events = (s.source srcTimeFreeRun).reg.events + 1 ∧
      t = { s with time := t.time, tally := t.tally, bench := t.bench, out := t.out } ∧ s.sameMemory t := by
  refine ⟨s.enterFreeRun, congrArg Host.Outcome.next (if_pos ⟨set, by rw [old]; rfl⟩), s.enterFreeRun_time, ?_, ?_,
    State.sameMemory_of_mem s.enterFreeRun_mem⟩
  · rw [State.enterFreeRun]
    exact State.raise_source_events (s.onTimeStat _) srcTimeFreeRun 0 none counted
  · rw [State.enterFreeRun, (State.raise_only ..).1]
    rfl

/-! ### Timers (R291) -/

theorem exec_timerFire {t : TimerId} (runs : s.running = true) (armed : s.time.timers[t].armed t = true)
    (due : s.time.timers[t].next ≤ s.time16) : exec (.timerFire t) s = .next (s.fire t 0 s.time.timers[t].next) :=
  congrArg Host.Outcome.next (if_pos ⟨runs, armed, due⟩)

section
variable (x : Timer)

theorem timerAfter_fired : (x.after 0).reg.fired = x.reg.fired + 1 := rfl

theorem timerAfter_next : (x.after 0).next = x.next + x.reg.periodNs.toNat * 2 ^ 16 := by
  change x.next + (0 + 1) * x.period16 = _
  rw [Nat.zero_add, Nat.one_mul, Timer.period16]

theorem timerAfter_action : (x.after 0).reg.action = if x.reg.periodNs = 0 ∨ x.reg.count = 1 then taOff else x.reg.action := by
  have last : x.reg.count ≠ 0 ∧ (if x.reg.count = 0 then 0 else x.reg.count - 1) = 0 ↔ x.reg.count = 1 := by
    split <;> bv_omega
  change (if (decide (x.reg.periodNs = 0) || (decide (x.reg.count ≠ 0) &&
    decide ((if x.reg.count = 0 then 0 else x.reg.count - 1) = 0))) = true then taOff else x.reg.action) = _
  refine if_congr ?_ rfl rfl
  rw [Bool.or_eq_true, Bool.and_eq_true, decide_eq_true_eq, decide_eq_true_eq, decide_eq_true_eq, last]

theorem timerAfter_count (counts : x.reg.count ≠ 0) : (x.after 0).reg.count = x.reg.count - 1 := if_neg counts

end

theorem State.onTimer_timer (s : State) (t : TimerId) (f : Timer → Timer) : (s.onTimer t f).time.timers[t] = f s.time.timers[t] := by
  unfold State.onTimer
  exact (vmod_getElem ..).trans (if_pos rfl)

/-- A pulse timer that fires sends its pulse and goes on to its next instant. -/
theorem State.fire_pulse {t : TimerId} (pulse : s.time.timers[t].reg.action = taPulse) (at' : Nat) :
    s.fire t 0 at' = (s.onTimer t fun y => y.after 0).emit
      (.pulse ⟨s.time.timers[t].reg.target.toNat % 4, Nat.mod_lt _ (by decide)⟩ at' s.time.timers[t].reg.width.toNat) := by
  unfold State.fire State.timerAct
  dsimp only
  rw [if_pos pulse]
  exact if_neg Bool.false_ne_true

theorem timerFire_pulse {t : TimerId} (runs : s.running = true) (armed : s.time.timers[t].armed t = true)
    (due : s.time.timers[t].next ≤ s.time16) :
    let x := s.time.timers[t]
    x.reg.action = taPulse →
      ∃ u, exec (.timerFire t) s = .next u ∧
        u.out = s.out ++ [.pulse ⟨x.reg.target.toNat % 4, Nat.mod_lt _ (by decide)⟩ x.next x.reg.width.toNat] ∧
        u.time.timers[t].reg.fired = x.reg.fired + 1 ∧ u.time.timers[t].next = x.next + x.reg.periodNs.toNat * 2 ^ 16 ∧
        (x.reg.periodNs = 0 ∨ x.reg.count = 1 → u.time.timers[t].reg.action = taOff) ∧
        (x.reg.periodNs ≠ 0 → x.reg.count ≠ 1 → u.time.timers[t].reg.action = taPulse) ∧
        (x.reg.count ≠ 0 → u.time.timers[t].reg.count = x.reg.count - 1) ∧
        u = { s with time := u.time, out := u.out } ∧ s.sameMemory u := by
  intro x pulse
  refine ⟨_, (exec_timerFire runs armed due).trans (congrArg _ (State.fire_pulse pulse _)), rfl, ?_⟩
  have fired := s.onTimer_timer t fun y => y.after 0
  rw [State.emit_time, fired, timerAfter_action]
  exact ⟨timerAfter_fired _, timerAfter_next _, fun last => if_pos last,
    fun periodic more => (if_neg (not_or.mpr ⟨periodic, more⟩)).trans pulse, timerAfter_count _, rfl, fun _ => rfl⟩

/-! ### Pulses per second and edges (R292, R294) -/

theorem ppsOut_completes (runs : s.running = true) (fresh : s.time.lastPps ≠ some (secOf s.time16)) :
    ∃ t, exec .ppsOut s = .next t ∧ t.time = { s.time with lastPps := some (secOf s.time16) } ∧
      t.out = (if s.time.cfg.ppsOutEn then s.out ++ [.pps (secOf s.time16) s.time.cfg.ppsOutWidthUs.toNat] else s.out) ∧
      t = { s with time := t.time, out := t.out } ∧ s.sameMemory t := by
  refine ⟨_, congrArg Host.Outcome.next (if_pos ⟨runs, fresh⟩), ?_⟩
  split
  · exact ⟨rfl, rfl, rfl, fun _ => rfl⟩
  · exact ⟨rfl, rfl, rfl, fun _ => rfl⟩

/-- The queue of an edge source. -/
def edgeQueue (src : Fin 3) : Fin 4 := ⟨src.val, by omega⟩

theorem capRoom_edgeQueue (src : Fin 3) : capRoom (edgeQueue src) = 16 := by
  match src with
  | 0 => rfl
  | 1 => rfl
  | 2 => rfl

/-- The capture of an edge so many quarters of a nanosecond after the present tick. -/
def State.edgeCaptured (s : State) (src : Fin 3) (q : Fin 16) : Capture :=
  { at16 := (s.time16 / 2 ^ 14 + q.val + 2 ^ 50 * 1000000000 - s.time.cfg.comp src) % (2 ^ 50 * 1000000000) * 2 ^ 14
    source := edgeQueue src }

/-- The edge is the last of its source. -/
def State.edgeSeen (s : State) (src : Fin 3) (q : Fin 16) : State :=
  { s with time := { s.time with lastEdge := vset s.time.lastEdge src (some (4 * s.now + q.val)) } }

/-- An edge stamped and queued. -/
def State.edged (s : State) (src : Fin 3) (q : Fin 16) : State := (s.edgeSeen src q).capture (s.edgeCaptured src q)

theorem exec_edgeCapture_early (src : Fin 3) (q : Fin 16) (runs : s.running = true)
    (early : s.earlyEdge src (4 * s.now + q.val) = true) :
    exec (.edgeCapture src q) s = .next (s.onTimeStat fun x => { x with edgesIgnored := x.edgesIgnored + 1 }) :=
  congrArg Host.Outcome.next ((if_neg (by rw [runs]; exact Bool.false_ne_true)).trans (if_pos early))

theorem exec_edgeCapture (src : Fin 3) (q : Fin 16) (runs : s.running = true)
    (apart : s.earlyEdge src (4 * s.now + q.val) = false) :
    exec (.edgeCapture src q) s = .next (if src = 2 then (s.edged src q).pulseLine 21 else s.edged src q) :=
  congrArg Host.Outcome.next
    ((if_neg (by rw [runs]; exact Bool.false_ne_true)).trans (if_neg (by rw [apart]; exact Bool.false_ne_true)))

theorem State.edged_only (s : State) (src : Fin 3) (q : Fin 16) :
    (s.edged src q).time.lastEdge[src] = some (4 * s.now + q.val) ∧ s.edged src q = { s with time := (s.edged src q).time } := by
  obtain ⟨queues, dropped, stat, captured⟩ := (s.edgeSeen src q).capture_only (s.edgeCaptured src q)
  unfold State.edged
  rw [captured]
  exact ⟨(vset_getElem ..).trans (if_pos rfl), rfl⟩

theorem State.edged_of_room {src : Fin 3} (room : s.time.captures[edgeQueue src].length < 16) (q : Fin 16) :
    (s.edged src q).time.captures[edgeQueue src] = s.time.captures[edgeQueue src] ++ [s.edgeCaptured src q] := by
  have joined := ((s.edgeSeen src q).capture_spec (s.edgeCaptured src q)).1 (by rw [← capRoom_edgeQueue src] at room; exact room)
  unfold State.edged
  rw [joined]
  exact (vset_getElem ..).trans (if_pos rfl)

theorem State.edged_of_full {src : Fin 3} (full : 16 ≤ s.time.captures[edgeQueue src].length) (q : Fin 16) :
    (s.edged src q).time.captures = s.time.captures ∧ (s.edged src q).time.stat.capDrops = s.time.stat.capDrops + 1 ∧
      (s.edged src q).time.stat.capOvfSeen = true := by
  have dropped := ((s.edgeSeen src q).capture_spec (s.edgeCaptured src q)).2 (by rw [← capRoom_edgeQueue src] at full; exact full)
  unfold State.edged
  rw [dropped]
  exact ⟨rfl, rfl, rfl⟩

/-- A pulse on an event line reaches the channels of the Drayman only (R372). -/
theorem State.pulseLine_time (s : State) (line : Fin 32) : (s.pulseLine line).time = s.time := by
  refine foldl_keeps (fun u : State => u.time = s.time) _ (fun u c kept => ?_) _ _ rfl
  dsimp only
  split
  · exact kept
  · exact kept

/-- Settles O47: a tick is the passing of time, then starts, ends of beam jobs and the bridges, none of which touches the Timekeeper;
the other rows are read off what each does with its timer, second or edge. -/
theorem timekeeperEvents : Obligations.TimekeeperEvents := by
  unfold Obligations.TimekeeperEvents
  refine ⟨fun s n => ⟨fun dead idle => exec_tick_of_dead dead idle n, fun alive => ?time, fun alive free => ?baler,
      fun alive still empty coding => exec_tick_of_idle alive still empty n coding,
      fun alive b up held => State.tick_empties alive up held n b, exec_slewEnd, timeFreeRun_completes⟩,
    fun s t runs armed due => ⟨exec_timerFire runs armed due, timerFire_pulse runs armed due⟩,
    fun s runs => ⟨ppsOut_completes runs, fun src q => ⟨exec_edgeCapture_early src q runs, fun apart other => ?edge,
      fun apart trigger => ?trigger⟩⟩⟩
  case time =>
    have kept := State.tick_sameTime alive n
    exact ⟨kept.now, kept.time⟩
  case baler =>
    have ended := exec_tick_of_kept (s := s) (n := n) (by rw [free]; exact fun _ held => absurd held List.not_mem_nil)
    constructor
    · intro quiet
      rw [ended, quiet]
      rfl
    · intro due
      rw [ended, due]
      rfl
  case edge =>
    obtain ⟨seen, only⟩ := s.edged_only src q
    refine ⟨s.edged src q, ?_, seen, fun room => ⟨_, State.edged_of_room room q, rfl, rfl⟩, fun full => State.edged_of_full full q,
      only, State.sameMemory_of_mem (by rw [only])⟩
    rw [exec_edgeCapture src q runs apart, if_neg other]
  case trigger =>
    refine ⟨(s.edged src q).pulseLine 21, ?_, ?_, fun room => ?_⟩
    · rw [exec_edgeCapture src q runs apart, if_pos trigger]
    · rw [State.pulseLine_time]
      exact (s.edged_only src q).1
    · rw [State.pulseLine_time]
      refine (congrArg List.length (State.edged_of_room room q)).trans ?_
      rw [List.length_append]
      rfl

end Sys2Proof.Machine
end

section
/-! Beats (R287 to R289) and the health page they write (R330). -/

namespace Sys2Proof.Machine

variable {s t u : State}

/-! ### A beat that slips (R288, R289) -/

/-- Freezes move where a slip touches a sub-array. -/
theorem State.slipFreeze_sieve (s : State) (i : SubId) (b : Nat) : ∃ x, s.slipFreeze i b = { s with sieve := x } := ⟨_, rfl⟩

/-- The freezes of the active sub-arrays wait for the beat that runs next. -/
def State.slipFreezes (s : State) (b : Nat) : State :=
  (allFin 4).foldl (fun (u : State) i => if u.active i then u.slipFreeze i b else u) s

theorem State.slipFreezes_sieve (s : State) (b : Nat) : ∃ x, s.slipFreezes b = { s with sieve := x } := by
  refine foldl_keeps (fun u : State => ∃ x, u = { s with sieve := x }) _ (fun u i kept => ?_) _ _ ⟨s.sieve, rfl⟩
  obtain ⟨x, rfl⟩ := kept
  split
  · obtain ⟨y, moved⟩ := State.slipFreeze_sieve { s with sieve := x } i b
    exact ⟨y, moved⟩
  · exact ⟨x, rfl⟩

/-- The skipped beats are counted before they are reported. -/
def State.slipCounted (s : State) (skipped : Nat) : State :=
  s.onTimeStat fun x => { x with slips := x.slips + 1, skippedBeats := x.skippedBeats + BitVec.ofNat 32 skipped, slipSeen := true }

theorem State.slipBeat_eq (s : State) (j b : Nat) :
    s.slipBeat j b =
      ((({ s with time := { s.time with nextBeat := some (beatFrom b) } } : State).slipFreezes (beatFrom b).2).slipCounted
        ((beatFrom b).1 - j)).raise srcBeatSlip (BitVec.ofNat 32 (beatFrom b).1) := rfl

/-- A slip counts the skipped beats, reports itself and moves the freezes; nothing else changes. -/
theorem State.slipBeat_spec (j b : Nat) (counted : s.inReset = false) :
    let t := s.slipBeat j b
    t.time.nextBeat = some (beatFrom b) ∧ t.time.stat.slips = s.time.stat.slips + 1 ∧
      t.time.stat.skippedBeats = s.time.stat.skippedBeats + BitVec.ofNat 32 ((beatFrom b).1 - j) ∧
      (t.source srcBeatSlip).reg.events = (s.source srcBeatSlip).reg.events + 1 ∧
      t = { s with time := t.time, sieve := t.sieve, tally := t.tally, bench := t.bench, out := t.out } ∧ s.sameMemory t := by
  intro t
  obtain ⟨x, frozen⟩ := State.slipFreezes_sieve { s with time := { s.time with nextBeat := some (beatFrom b) } } (beatFrom b).2
  have slipped : t = _ := s.slipBeat_eq j b
  rw [frozen] at slipped
  have time : t.time = _ := (congrArg State.time slipped).trans (State.raise_time ..)
  refine ⟨by rw [time]; rfl, by rw [time]; rfl, by rw [time]; rfl, ?_, ?_, ?_⟩
  · rw [slipped]
    exact State.raise_source_events _ srcBeatSlip _ none counted
  · rw [slipped, (State.raise_only ..).1]
    rfl
  · refine State.sameMemory_of_mem ?_
    rw [slipped, State.raise_mem]
    rfl

/-! ### BEAT (R287) -/

/-- A beat whose instant has come runs, or slips where it would start more than 64 ms late. -/
theorem exec_beat (r : BeatReadings) {j b : Nat} (next : s.time.nextBeat = some (j, b)) (runs : s.foremanRuns = true) (come : b ≤ s.time16) :
    exec (.beat r) s = .next (if j * ms16 + 64 * ms16 < b then
      if s.time16 < (beatFrom b).2 then s.slipBeat j b else (s.slipBeat j b).runBeat (beatFrom b).1 (beatFrom b).2 r
      else s.runBeat j b r) := by
  change execBeat r s = _
  have due : ¬(!s.foremanRuns || decide (s.time16 < b)) = true := by
    rw [runs, decide_eq_false (Nat.not_lt.mpr come)]
    exact Bool.false_ne_true
  unfold execBeat
  rw [next]
  exact congrArg _ (if_neg due)

/-! ### The health page (R330) -/

theorem nsOf_lt (t : Nat) : nsOf t < 2 ^ 30 := by
  unfold nsOf sec16
  omega

/-- The states of the sub-arrays stand side by side, four bits each. -/
theorem saState_nibble (s : State) (r : BeatReadings) (i : SubId) :
    ((s.refreshHealth r).bench.health.saState.toNat / 16 ^ i.val) % 16 = (s.saState i).toNat := by
  have packed : (s.refreshHealth r).bench.health.saState = BitVec.ofNat 16
      (0 + (s.saState 0).toNat * 16 ^ 0 + (s.saState 1).toNat * 16 ^ 1 + (s.saState 2).toNat * 16 ^ 2 + (s.saState 3).toNat * 16 ^ 3) := rfl
  have first := (s.saState 0).isLt
  have second := (s.saState 1).isLt
  have third := (s.saState 2).isLt
  have fourth := (s.saState 3).isLt
  rw [packed, BitVec.toNat_ofNat]
  match i with
  | 0 => simp only [Fin.val_zero]; omega
  | 1 => simp only [Fin.val_one]; omega
  | 2 => simp only [Fin.val_two]; omega
  | 3 => change _ / 16 ^ 3 % 16 = _; omega

theorem State.refreshHealth_ns (s : State) (r : BeatReadings) : (s.refreshHealth r).bench.health.ns.toNat = nsOf s.time16 := by
  change (BitVec.ofNat 30 (nsOf s.time16)).toNat = _
  rw [BitVec.toNat_ofNat, Nat.mod_eq_of_lt (nsOf_lt _)]

/-- Settles O49: the branches of a beat, and the health page word by word. -/
theorem beatsRunOrSlip : Obligations.BeatsRunOrSlip := by
  unfold Obligations.BeatsRunOrSlip
  refine ⟨fun s r j b next runs come => ⟨fun near => ?runs, fun far early counted => ?slips, fun far late => ?slipsAndRuns⟩,
    fun s r => ⟨rfl, rfl, rfl, rfl, rfl, rfl, rfl, rfl, rfl, BitVec.toNat_ofNat .., s.refreshHealth_ns r, saState_nibble s r, rfl,
      fun _ => rfl⟩⟩
  case runs => rw [exec_beat r next runs come, if_neg (Nat.not_lt.mpr near)]
  case slips =>
    refine ⟨s.slipBeat j b, ?_, State.slipBeat_spec j b counted⟩
    rw [exec_beat r next runs come, if_pos far, if_pos early]
  case slipsAndRuns => rw [exec_beat r next runs come, if_pos far, if_neg (Nat.not_lt.mpr late)]

end Sys2Proof.Machine
end

section
/-! The Baler's coding undone (R379 to R381): packed codes are read back one by one, the decoder's dictionary follows the encoder's
one entry behind, and the planes of a block are put back in place. -/

namespace Sys2Proof.Machine

/-! ### Packed codes -/

/-- The number that packed codes make, the first code lowest. -/
def codesValue : List (Nat × Nat) → Nat
  | [] => 0
  | c :: cs => c.1 + 2 ^ c.2 * codesValue cs

/-- The bits that packed codes take. -/
def codesBits : List (Nat × Nat) → Nat
  | [] => 0
  | c :: cs => c.2 + codesBits cs

/-- Each code fits its width. -/
def CodesFit (cs : List (Nat × Nat)) : Prop := ∀ c ∈ cs, c.1 < 2 ^ c.2

theorem codesValue_lt {cs : List (Nat × Nat)} (fit : CodesFit cs) : codesValue cs < 2 ^ codesBits cs := by
  induction cs with
  | nil => exact Nat.one_pos
  | cons c cs ih =>
    have head := fit c (List.mem_cons_self ..)
    have tail := ih fun e he => fit e (List.mem_cons_of_mem _ he)
    calc c.1 + 2 ^ c.2 * codesValue cs < 2 ^ c.2 + 2 ^ c.2 * codesValue cs := by omega
      _ = 2 ^ c.2 * (codesValue cs + 1) := by ring
      _ ≤ 2 ^ c.2 * 2 ^ codesBits cs := Nat.mul_le_mul_left _ tail
      _ = 2 ^ (c.2 + codesBits cs) := (pow_add ..).symm

theorem packCodes_fold (cs : List (Nat × Nat)) (v n : Nat) :
    cs.foldl (fun (a : Nat × Nat) c => (a.1 + c.1 * 2 ^ a.2, a.2 + c.2)) (v, n) = (v + 2 ^ n * codesValue cs, n + codesBits cs) := by
  induction cs generalizing v n with
  | nil => simp [codesValue, codesBits]
  | cons c cs ih =>
    rw [List.foldl_cons, ih, codesValue, codesBits]
    refine Prod.ext ?_ ?_ <;> dsimp only
    · rw [pow_add]; ring
    · omega

theorem packCodes_eq (cs : List (Nat × Nat)) : packCodes cs = leBytes ((codesBits cs + 7) / 8) (codesValue cs) := by
  simp [packCodes, packCodes_fold]

theorem length_packCodes (cs : List (Nat × Nat)) : (packCodes cs).length = (codesBits cs + 7) / 8 := by
  rw [packCodes_eq, length_leBytes]

/-- Packed codes read as their number. -/
theorem leNat_packCodes {cs : List (Nat × Nat)} (fit : CodesFit cs) : leNat (packCodes cs) = codesValue cs := by
  rw [packCodes_eq, leNat_leBytes]
  refine Nat.mod_eq_of_lt ((codesValue_lt fit).trans_le (Nat.pow_le_pow_right Nat.two_pos ?_))
  omega

/-! ### The width of a code -/

theorem codeWidth_of_byte {m : Nat} (least : 9 ≤ m) : codeWidth m 258 = 9 := by
  have : bitlen 258 = 9 := by decide
  rw [codeWidth, this]
  omega

/-- A code up to the number of entries fits the width it is read in, as long as the dictionary does not outgrow the codes. -/
theorem lt_codeWidth {m h k : Nat} (known : k ≤ h) (room : k < 2 ^ m) : k < 2 ^ codeWidth m h := by
  unfold codeWidth
  rcases Nat.le_total m (bitlen h) with le | le
  · rwa [Nat.min_eq_left le]
  · rw [Nat.min_eq_right le]
    unfold bitlen
    split
    · omega
    · exact known.trans_lt Nat.lt_log2_self

/-! ### The codes of a block with their widths -/

/-- The number of codes known after one more code, but for the first one, while the dictionary has room. -/
def nextHave (m h : Nat) : Nat := if h < 2 ^ m then h + 1 else h

/-- Codes with the widths of a decoder that knows `h` codes and learns one with each. -/
def codesFrom (m : Nat) : Nat → List Nat → List (Nat × Nat)
  | _, [] => []
  | h, k :: ks => (k, codeWidth m h) :: codesFrom m (nextHave m h) ks

theorem codeWidth_pos {m h : Nat} (codes : 0 < m) (some' : 0 < h) : 0 < codeWidth m h := by
  unfold codeWidth bitlen
  split <;> omega

theorem length_le_codesBits {m : Nat} (codes : 0 < m) (ks : List Nat) {h : Nat} (some' : 0 < h) :
    (codesFrom m h ks).length ≤ codesBits (codesFrom m h ks) := by
  induction ks generalizing h with
  | nil => exact Nat.le_refl 0
  | cons k ks ih =>
    have width := codeWidth_pos codes some'
    have later := ih (h := nextHave m h) (by unfold nextHave; split <;> omega)
    rw [codesFrom, codesBits, List.length_cons]
    omega

theorem codesFrom_eq_map {m : Nat} (_room : 258 ≤ 2 ^ m) (ks : List Nat) (j : Nat) :
    (List.range ks.length).map (fun i => (ks.getD i 0, codeWidth m (min (2 ^ m) (258 + (j + i))))) =
      codesFrom m (min (2 ^ m) (258 + j)) ks := by
  induction ks generalizing j with
  | nil => rfl
  | cons k ks ih =>
    have step : nextHave m (min (2 ^ m) (258 + j)) = min (2 ^ m) (258 + (j + 1)) := by unfold nextHave; split <;> omega
    rw [List.length_cons, List.range_succ_eq_map, List.map_cons, List.map_map, codesFrom, step, ← ih (j + 1)]
    refine congrArg₂ _ rfl (List.map_congr_left fun i _ => ?_)
    simp [Function.comp, Nat.add_assoc, Nat.add_comm 1]

/-- The codes of a block: CLEAR, the first match, and the others and END with one entry learned from each match (R380). -/
theorem baleCodes_eq {m : Nat} (least : 9 ≤ m) {raw : List Byte} {k : Nat} {ks : List Nat}
    (matches' : baleMatches m raw none [] 258 ++ [257] = k :: ks) :
    baleCodes m raw = (256, 9) :: (k, 9) :: codesFrom m 258 ks := by
  have room : 512 ≤ 2 ^ m := (by decide : 512 = 2 ^ 9) ▸ Nat.pow_le_pow_right Nat.two_pos least
  have whole : min (2 ^ m) 258 = 258 := by omega
  unfold baleCodes
  dsimp only
  rw [matches', List.length_cons, List.range_succ_eq_map, List.map_cons, List.map_map, codeWidth_of_byte least]
  refine congrArg _ (congrArg₂ _ ?_ ?_)
  · simp [whole, codeWidth_of_byte least]
  · have from' := codesFrom_eq_map (m := m) (by omega) ks 0
    rw [whole] at from'
    rw [← from']
    refine List.map_congr_left fun i _ => ?_
    simp [Function.comp]

/-! ### The two dictionaries (R380) -/

/-- The bytes of a code, the dictionary's entries from 258 on in reverse. -/
def codeBytes (es : List (List Byte)) (k : Nat) : List Byte :=
  if k < 256 then [BitVec.ofNat 8 k] else es.getD (es.length - 1 - (k - 258)) []

theorem Unbale.entry_eq (u : Unbale) (k : Nat) : u.entry k = codeBytes u.entries k := rfl

/-- A code that a dictionary of some entries knows. -/
def Known (es : List (List Byte)) (k : Nat) : Prop := k < 256 ∨ 258 ≤ k ∧ k < 258 + es.length

theorem Known.cons {es : List (List Byte)} {k : Nat} (known : Known es k) (e : List Byte) : Known (e :: es) k := by
  simp only [Known, List.length_cons] at *
  omega

/-- An older code reads as before. -/
theorem codeBytes_cons {es : List (List Byte)} {k : Nat} (known : Known es k) (e : List Byte) :
    codeBytes (e :: es) k = codeBytes es k := by
  unfold codeBytes
  split
  · rfl
  · have at' : (e :: es).length - 1 - (k - 258) = es.length - 1 - (k - 258) + 1 := by
      simp only [Known, List.length_cons] at *
      omega
    rw [at', List.getD_cons_succ]

/-- The newest code reads as the newest entry. -/
theorem codeBytes_newest (e : List Byte) (es : List (List Byte)) : codeBytes (e :: es) (258 + es.length) = e := by
  have at' : (e :: es).length - 1 - (258 + es.length - 258) = 0 := by simp
  rw [codeBytes, if_neg (by omega), at', List.getD_cons_zero]

theorem codeBytes_byte (es : List (List Byte)) (b : Byte) : codeBytes es b.toNat = [b] := by
  rw [codeBytes, if_pos b.isLt, BitVec.ofNat_toNat, BitVec.setWidth_eq]

theorem known_byte (es : List (List Byte)) (b : Byte) : Known es b.toNat := .inl b.isLt

/-- The encoder's dictionary stands for some entries: each extension is a later code that reads as the match and its byte. -/
def BaleDict.Means (d : BaleDict) (es : List (List Byte)) : Prop :=
  ∀ e ∈ d, Known es e.1.1 ∧ Known es e.2 ∧ codeBytes es e.2 = codeBytes es e.1.1 ++ [e.1.2]

/-- A dictionary that has `next` codes takes an entry while it has room. -/
def learn {α : Type} (m next : Nat) (x : α) (xs : List α) : List α := if next < 2 ^ m then x :: xs else xs

theorem learn_length (m : Nat) (x : List Byte) (es : List (List Byte)) :
    258 + (learn m (258 + es.length) x es).length = nextHave m (258 + es.length) := by
  unfold learn nextHave
  split <;> rfl

/-- A byte that extends the match to none in the dictionary ends it: its code is emitted, and the extension learned (R380). -/
theorem baleMatches_fresh {m : Nat} {b : Byte} {bs : List Byte} {c : Nat} {d : BaleDict} {next : Nat}
    (fresh : d.find? (fun e => e.1 == (c, b)) = none) : baleMatches m (b :: bs) (some c) d next =
      c :: baleMatches m bs (some b.toNat) (learn m next ((c, b), next) d) (nextHave m next) := by
  simp only [baleMatches, fresh, learn, nextHave]
  split <;> rfl

/-- An extension of a known match is learned. -/
theorem BaleDict.Means.learn {d : BaleDict} {es : List (List Byte)} (means : d.Means es) {c : Nat} (known : Known es c) (m : Nat)
    (b : Byte) : BaleDict.Means (learn m (258 + es.length) ((c, b), 258 + es.length) d)
      (learn m (258 + es.length) (codeBytes es c ++ [b]) es) := by
  unfold Machine.learn
  split
  swap
  · exact means
  intro e he
  rcases List.mem_cons.mp he with rfl | old
  · refine ⟨known.cons _, .inr ?_, ?_⟩
    · simp
    · rw [codeBytes_newest, codeBytes_cons known]
  · obtain ⟨knownMatch, knownCode, reads⟩ := means e old
    exact ⟨knownMatch.cons _, knownCode.cons _, by rw [codeBytes_cons knownCode, codeBytes_cons knownMatch, reads]⟩

/-- The decoder is about to read the code `c` of an encoder whose entries are `es`. At the first code neither has entries; from then
on the decoder lacks the last entry, which is its own last match and the first byte of the encoder's, unless the dictionary was full
before. -/
structure Unbale.Awaits (m : Nat) (u : Unbale) (es : List (List Byte)) (c : Nat) : Prop where
  known : Known es c
  reads : codeBytes es c ≠ []
  room  : 258 + es.length ≤ 2 ^ m
  lag   : (u.first = true ∧ u.entries = [] ∧ es = [] ∧ c < 256) ∨
    (u.first = false ∧ u.prev ≠ [] ∧ es = (u.prev ++ (codeBytes es c).take 1) :: u.entries) ∨
    (u.first = false ∧ es = u.entries ∧ 258 + es.length = 2 ^ m)

/-- The decoder once it has read the code. -/
def Unbale.took (u : Unbale) (m : Nat) (es : List (List Byte)) (c : Nat) : Unbale :=
  ⟨u.pos + codeWidth m (258 + u.entries.length), es, false, codeBytes es c, (codeBytes es c).reverse ++ u.out⟩

theorem Known.ne_control {es : List (List Byte)} {k : Nat} (known : Known es k) : k ≠ 256 ∧ k ≠ 257 := by
  unfold Known at known
  omega

variable {m bits total n : Nat} {u : Unbale} {es : List (List Byte)} {c : Nat}

/-- An awaited code fits its width. -/
theorem Unbale.Awaits.fits (h : u.Awaits m es c) : c < 2 ^ codeWidth m (258 + u.entries.length) := by
  have known := h.known
  have room := h.room
  unfold Known at known
  refine lt_codeWidth ?_ (by omega)
  rcases h.lag with ⟨-, -, -, byte⟩ | ⟨-, -, entries⟩ | ⟨-, entries, -⟩
  · omega
  · rw [entries, List.length_cons] at known
    omega
  · rw [entries] at known
    omega

/-- The last entry that the decoder lacks is its last match and that match's first byte, where that entry is the code read (R380). -/
theorem codeBytes_of_newest (entries : es = (u.prev ++ (codeBytes es c).take 1) :: u.entries)
    (prev : u.prev ≠ []) (newest : c = 258 + u.entries.length) : codeBytes es c = u.prev ++ u.prev.take 1 := by
  have reads := codeBytes_newest (u.prev ++ (codeBytes es c).take 1) u.entries
  rw [← entries, ← newest] at reads
  obtain ⟨b, bs, cons⟩ := List.exists_cons_of_ne_nil prev
  have head : (codeBytes es c).take 1 = u.prev.take 1 := by rw [reads, cons]; rfl
  rw [reads, head]

/-- An awaited code is read as the encoder's match, and the decoder then has the encoder's entries. -/
theorem unbaleLoop_match (h : u.Awaits m es c) (read : bits / 2 ^ u.pos % 2 ^ codeWidth m (258 + u.entries.length) = c)
    (inside : u.pos + codeWidth m (258 + u.entries.length) ≤ total) :
    unbaleLoop m bits total (n + 1) u = unbaleLoop m bits total n (u.took m es c) := by
  obtain ⟨notClear, notEnd⟩ := h.known.ne_control
  rw [unbaleLoop]
  dsimp only
  rw [read, if_neg (Nat.not_lt.mpr inside), if_neg notClear, if_neg notEnd]
  rcases h.lag with ⟨first, none', nil, byte⟩ | ⟨later, prev, entries⟩ | ⟨later, entries, full⟩
  · subst nil
    have reads : codeBytes [] c = [BitVec.ofNat 8 c] := if_pos byte
    rw [if_pos first, if_neg (by omega)]
    simp [Unbale.took, reads, none']
  · have length : es.length = u.entries.length + 1 := by rw [entries]; rfl
    have known := h.known
    have room := h.room
    have reads : (if c < 258 + u.entries.length then u.entry c else u.prev ++ u.prev.take 1) = codeBytes es c := by
      split
      · next old =>
        rw [Unbale.entry_eq, entries, codeBytes_cons]
        unfold Known at *
        omega
      · next new =>
        unfold Known at known
        exact (codeBytes_of_newest entries prev (by omega)).symm
    unfold Known at known
    rw [later, if_neg Bool.false_ne_true, if_neg (by omega), reads, if_pos (by omega), ← entries]
    rfl
  · have known := h.known
    unfold Known at known
    have old : c < 258 + es.length := by omega
    rw [← entries, later, if_neg Bool.false_ne_true, if_neg (Nat.not_lt.mpr old.le), if_neg (Nat.not_lt.mpr full.ge), if_pos old,
      Unbale.entry_eq, ← entries]
    rw [Unbale.took, ← entries]

/-- END closes the block. -/
theorem unbaleLoop_end (read : bits / 2 ^ u.pos % 2 ^ codeWidth m (258 + u.entries.length) = 257)
    (inside : u.pos + codeWidth m (258 + u.entries.length) ≤ total) :
    unbaleLoop m bits total (n + 1) u = some (u.pos + codeWidth m (258 + u.entries.length), u.out.reverse) := by
  rw [unbaleLoop]
  dsimp only
  rw [read, if_neg (Nat.not_lt.mpr inside), if_neg (by decide), if_pos rfl]

/-! ### A block decoded (R380, R381) -/

/-- Nothing is left of the bits that a read code takes. -/
theorem codesValue_cons_read {k w : Nat} (fit : k < 2 ^ w) (cs : List (Nat × Nat)) {pos : Nat}
    (rest : bits / 2 ^ pos = codesValue ((k, w) :: cs)) :
    bits / 2 ^ pos % 2 ^ w = k ∧ bits / 2 ^ (pos + w) = codesValue cs := by
  rw [pow_add, ← Nat.div_div_eq_div_mul, rest, codesValue]
  exact ⟨by rw [Nat.add_mul_mod_self_left, Nat.mod_eq_of_lt fit], by
    rw [Nat.add_mul_div_left _ _ (Nat.two_pow_pos w), Nat.div_eq_of_lt fit, Nat.zero_add]⟩

/-- The decoder after a match awaits the encoder's next one, which begins with the byte that ended the match; the match and the byte
are a new entry while the dictionary has room. -/
theorem Unbale.Awaits.next (h : u.Awaits m es c) (b : Byte) :
    (u.took m es c).Awaits m (learn m (258 + es.length) (codeBytes es c ++ [b]) es) b.toNat where
  known := known_byte _ b
  reads := by rw [codeBytes_byte]; exact List.cons_ne_nil _ _
  room := by
    have := h.room
    rw [learn_length, nextHave]
    split <;> omega
  lag := by
    have room := h.room
    refine .inr ?_
    unfold learn
    split
    · exact .inl ⟨rfl, h.reads, by rw [codeBytes_byte]; rfl⟩
    · exact .inr ⟨rfl, rfl, by omega⟩


/-- An extension of the encoder's match is awaited as well. -/
theorem Unbale.Awaits.extend (h : u.Awaits m es c) {b : Byte} {k : Nat} (known : Known es k)
    (reads : codeBytes es k = codeBytes es c ++ [b]) : u.Awaits m es k where
  known := known
  reads := by rw [reads]; exact List.append_ne_nil_of_right_ne_nil _ (List.cons_ne_nil _ _)
  room := h.room
  lag := by
    obtain ⟨x, xs, cons⟩ := List.exists_cons_of_ne_nil h.reads
    have head : (codeBytes es k).take 1 = (codeBytes es c).take 1 := by rw [reads, cons]; rfl
    rcases h.lag with ⟨first, none', nil, -⟩ | later | full
    · subst nil
      exact .inl ⟨first, none', rfl, known.elim id fun late => absurd late.2 (Nat.not_lt.mpr late.1)⟩
    · exact .inr (.inl (by rw [head]; exact later))
    · exact .inr (.inr full)

/-- From the code of a match on, the codes fit their widths, and the decoder gives the match and the bytes after it. -/
theorem unbaleLoop_matches (bs : List Byte) : ∀ {u : Unbale} {es : List (List Byte)} {c : Nat} {d : BaleDict} {k : Nat} {ks : List Nat},
    u.Awaits m es c → d.Means es → (9 ≤ m) → baleMatches m bs (some c) d (258 + es.length) ++ [257] = k :: ks →
    let codes := (k, codeWidth m (258 + u.entries.length)) :: codesFrom m (258 + es.length) ks
    CodesFit codes ∧ ∀ {bits total n : Nat}, bits / 2 ^ u.pos = codesValue codes → u.pos + codesBits codes ≤ total → codes.length ≤ n →
      unbaleLoop m bits total n u = some (u.pos + codesBits codes, u.out.reverse ++ codeBytes es c ++ bs) := by
  induction bs with
  | nil =>
    intro u es c d k ks awaits means least matches'
    obtain ⟨rfl, rfl⟩ : c = k ∧ [257] = ks := by simpa [baleMatches] using matches'
    have endFits : 257 < 2 ^ codeWidth m (258 + es.length) :=
      lt_codeWidth (by omega) (calc 257 < 2 ^ 9 := by decide
        _ ≤ 2 ^ m := Nat.pow_le_pow_right Nat.two_pos least)
    refine ⟨by simp [CodesFit, codesFrom, awaits.fits, endFits], fun {bits total n} rest inside fuel => ?_⟩
    obtain ⟨n, rfl⟩ : ∃ j, n = j + 1 + 1 := ⟨n - 2, by simp [codesFrom] at fuel; omega⟩
    obtain ⟨read, after⟩ := codesValue_cons_read awaits.fits _ rest
    obtain ⟨readEnd, -⟩ := codesValue_cons_read endFits _ after
    simp only [codesFrom, codesBits] at inside
    rw [unbaleLoop_match awaits read (by omega), unbaleLoop_end readEnd (by simp only [Unbale.took]; omega)]
    simp [Unbale.took, codesFrom, codesBits, Nat.add_assoc]
  | cons b bs ih =>
    intro u es c d k ks awaits means least matches'
    cases found : d.find? fun e => e.1 == (c, b) with
    | some e =>
      rw [baleMatches, found] at matches'
      obtain ⟨-, known, reads⟩ := means e (List.mem_of_find?_eq_some found)
      have key : e.1 = (c, b) := by simpa using List.find?_some found
      rw [key] at reads
      obtain ⟨fits, decodes⟩ := ih (awaits.extend known reads) means least matches'
      refine ⟨fits, fun {bits total n} rest inside fuel => ?_⟩
      rw [decodes rest inside fuel, reads]
      simp
    | none =>
      rw [baleMatches_fresh found] at matches'
      obtain ⟨rfl, later⟩ := List.cons.inj matches'
      obtain ⟨k', ks', cons⟩ := List.exists_cons_of_ne_nil (List.append_ne_nil_of_right_ne_nil
        (baleMatches m bs (some b.toNat) (learn m (258 + es.length) ((c, b), 258 + es.length) d) (nextHave m (258 + es.length)))
        (List.cons_ne_nil 257 []))
      obtain rfl : k' :: ks' = ks := cons.symm.trans later
      rw [← learn_length m (codeBytes es c ++ [b])] at cons
      obtain ⟨fits, decodes⟩ := ih (awaits.next b) (means.learn awaits.known m b) least cons
      rw [learn_length] at fits decodes
      have split' : codesFrom m (258 + es.length) (k' :: ks') =
        (k', codeWidth m (258 + es.length)) :: codesFrom m (nextHave m (258 + es.length)) ks' := rfl
      rw [split']
      refine ⟨List.forall_mem_cons.mpr ⟨awaits.fits, fits⟩, fun {bits total n} rest inside fuel => ?_⟩
      obtain ⟨n, rfl⟩ : ∃ j, n = j + 1 := ⟨n - 1, by simp at fuel; omega⟩
      obtain ⟨read, after⟩ := codesValue_cons_read awaits.fits _ rest
      rw [codesBits, ← Nat.add_assoc] at inside ⊢
      rw [unbaleLoop_match awaits read (by omega), decodes after inside (by simpa using fuel), codeBytes_byte]
      simp [Unbale.took]

/-- A block's content is read back (R380, R381). -/
theorem baleDecode_baleEncode {m : Nat} (least : 9 ≤ m) {raw : List Byte} (some' : raw ≠ []) :
    baleDecode m raw.length (baleEncode m raw) = some raw := by
  obtain ⟨b, bs, rfl⟩ := List.exists_cons_of_ne_nil some'
  have room : 258 ≤ 2 ^ m := le_trans (by decide : 258 ≤ 2 ^ 9) (Nat.pow_le_pow_right Nat.two_pos least)
  obtain ⟨k, ks, matches'⟩ := List.exists_cons_of_ne_nil (List.append_ne_nil_of_right_ne_nil
    (baleMatches m bs (some b.toNat) [] 258) (List.cons_ne_nil 257 []))
  have awaits : Unbale.Awaits m ⟨9, [], true, [], []⟩ [] b.toNat :=
    ⟨known_byte _ b, by rw [codeBytes_byte]; exact List.cons_ne_nil _ _, room, .inl ⟨rfl, rfl, rfl, b.isLt⟩⟩
  obtain ⟨fits, decodes⟩ := unbaleLoop_matches bs awaits (d := []) (by simp [BaleDict.Means]) least matches'
  simp only [List.length_nil, codeWidth_of_byte least] at fits decodes
  have codes : baleCodes m (b :: bs) = (256, 9) :: (k, 9) :: codesFrom m 258 ks := baleCodes_eq least matches'
  have allFit : CodesFit ((256, 9) :: (k, 9) :: codesFrom m 258 ks) := List.forall_mem_cons.mpr ⟨by decide, fits⟩
  unfold baleDecode baleEncode
  dsimp only
  rw [codes, leNat_packCodes allFit, length_packCodes]
  generalize tail : (k, 9) :: codesFrom m 258 ks = cs at *
  obtain ⟨clear, rest⟩ := codesValue_cons_read (by decide : 256 < 2 ^ 9) cs (pos := 0)
    (by rw [pow_zero, Nat.div_one] : codesValue ((256, 9) :: cs) / 2 ^ 0 = _)
  rw [pow_zero, Nat.div_one] at clear
  rw [Nat.zero_add] at rest
  have length : cs.length ≤ codesBits cs := by
    rw [← tail, codesBits, List.length_cons]
    have := length_le_codesBits (by omega : 0 < m) ks (by decide : 0 < 258)
    omega
  have bits : codesBits ((256, 9) :: cs) = 9 + codesBits cs := rfl
  rw [if_neg (by rw [not_or, not_lt]; exact ⟨by omega, not_not.mpr clear⟩),
    decodes rest (by omega) (by omega), bits]
  simp only [List.reverse_nil, List.nil_append, codeBytes_byte]
  rw [if_pos]
  · rfl
  · exact ⟨trivial, by rw [← bits]; exact Nat.div_eq_of_lt (codesValue_lt allFit), rfl⟩

/-! ### Planes (R379) -/

/-- The values of a function of row and column, row after row. -/
def rowsOf {α : Type} (rows cols : Nat) (f : Nat → Nat → α) : List α := (List.range rows).flatMap fun r => (List.range cols).map (f r)

variable {α : Type} {rows cols : Nat}

theorem rowsOf_succ (f : Nat → Nat → α) : rowsOf (rows + 1) cols f = rowsOf rows cols f ++ (List.range cols).map (f rows) := by
  simp [rowsOf, List.range_succ]

@[simp] theorem length_rowsOf (f : Nat → Nat → α) : (rowsOf rows cols f).length = rows * cols := by
  simp [rowsOf, List.length_flatMap]

theorem getD_rowsOf (f : Nat → Nat → α) (d : α) {r c : Nat} (row : r < rows) (col : c < cols) :
    (rowsOf rows cols f).getD (r * cols + c) d = f r c := by
  induction rows with
  | zero => exact absurd row (Nat.not_lt_zero r)
  | succ rows ih =>
    rw [rowsOf_succ]
    rcases Nat.lt_succ_iff_lt_or_eq.mp row with before | rfl
    · have inside : r * cols + c < (rowsOf rows cols f).length := by
        rw [length_rowsOf]
        calc r * cols + c < (r + 1) * cols := by rw [Nat.succ_mul]; omega
          _ ≤ rows * cols := Nat.mul_le_mul_right _ before
      rw [List.getD_append _ _ _ _ inside, ih before]
    · rw [List.getD_append_right _ _ _ _ (by rw [length_rowsOf]; omega), length_rowsOf, Nat.add_sub_cancel_left]
      simp [List.getD, col]

/-- Row after row in the order of one list is that list. -/
theorem rowsOf_flat (F : Nat → α) : rowsOf rows cols (fun r c => F (r * cols + c)) = (List.range (rows * cols)).map F := by
  induction rows with
  | zero => simp [rowsOf]
  | succ rows ih => rw [rowsOf_succ, ih, Nat.succ_mul, List.range_add, List.map_append, List.map_map]; rfl

theorem rowsOf_congr {f g : Nat → Nat → α} (same : ∀ r < rows, ∀ c < cols, f r c = g r c) : rowsOf rows cols f = rowsOf rows cols g := by
  refine List.flatMap_congr fun r hr => List.map_congr_left fun c hc => ?_
  exact same r (List.mem_range.mp hr) c (List.mem_range.mp hc)

theorem map_range_getD (xs : List α) (d : α) {n : Nat} (inside : n ≤ xs.length) :
    (List.range n).map (fun k => xs.getD k d) = xs.take n := by
  refine List.ext_getElem (by simp [inside]) fun k h1 h2 => ?_
  have : k < xs.length := by simp at h1; omega
  simp [this]

theorem planes_eq (w : Nat) (raw : List Byte) :
    planes w raw = rowsOf w (raw.length / w) (fun p k => raw.getD (k * w + p) 0) ++ raw.drop (raw.length / w * w) := rfl

theorem length_planes (w : Nat) (raw : List Byte) : (planes w raw).length = raw.length := by
  have whole := Nat.div_mul_le_self raw.length w
  rw [planes_eq, List.length_append, length_rowsOf, List.length_drop, Nat.mul_comm w]
  omega

/-- The planes of a block put back are the block. -/
theorem unplanes_planes (w : Nat) (raw : List Byte) : unplanes w (planes w raw) = raw := by
  have whole := Nat.div_mul_le_self raw.length w
  have back : unplanes w (planes w raw) =
      rowsOf (raw.length / w) w (fun k p => (planes w raw).getD (p * (raw.length / w) + k) 0) ++
        (planes w raw).drop (raw.length / w * w) := by
    unfold unplanes
    rw [length_planes]
    rfl
  have entry : ∀ k < raw.length / w, ∀ p < w,
      (planes w raw).getD (p * (raw.length / w) + k) 0 = raw.getD (k * w + p) 0 := by
    intro k hk p hp
    have inside : p * (raw.length / w) + k < w * (raw.length / w) :=
      calc p * (raw.length / w) + k < (p + 1) * (raw.length / w) := by rw [Nat.succ_mul]; omega
        _ ≤ w * (raw.length / w) := Nat.mul_le_mul_right _ hp
    rw [planes_eq, List.getD_append _ _ _ _ (by rw [length_rowsOf]; exact inside),
      getD_rowsOf (fun p k => raw.getD (k * w + p) 0) _ hp hk]
  have rest : (planes w raw).drop (raw.length / w * w) = raw.drop (raw.length / w * w) := by
    rw [planes_eq]
    exact List.drop_left' (by rw [length_rowsOf, Nat.mul_comm])
  rw [back, rest, rowsOf_congr entry, rowsOf_flat (fun n => raw.getD n 0), map_range_getD _ _ whole, List.take_append_drop]

/-- Settles O24: the decoder reads code for code what the encoder matched, and plane for plane what was laid out. -/
theorem balerRoundTrip : Obligations.BalerRoundTrip :=
  ⟨fun _ _ least _ some' _ => baleDecode_baleEncode least some', fun w raw _ => ⟨unplanes_planes w raw, length_planes w raw⟩⟩

end Sys2Proof.Machine
end

section
/-! The step itself and the module right after reset (R420, R426, log entry 2), and the I2C sideband (R449). -/

namespace Sys2Proof.Machine

variable {s : State}

/-- Settles O1: a step is the front command's own meaning on the rest of the queue, by definition. -/
theorem stepRunsFrontCommand : Obligations.StepRunsFrontCommand :=
  ⟨fun _ _ => rfl, fun s empty => by rw [step, empty]⟩

/-- At reset every lane, source, sub-array and island reads as its own cold value. -/
theorem reset_laneOf (l : LaneId) : (State.reset.laneOf l).st = lsOff := by revert l; decide +kernel
theorem reset_source (i : SourceId) : (State.reset.source i).reg.state = 0 := by revert i; decide +kernel
theorem reset_islandOn (i : IslandId) : State.reset.islandOn i = false := by revert i; decide +kernel
theorem reset_saState (i : SubId) : State.reset.saState i = saFree := by revert i; decide +kernel
theorem reset_benchOf (b : BenchId) : (State.reset.benchOf b).stat.isOpen = false ∧ State.reset.holdsAny b = false := by
  revert b; decide +kernel

/-- Settles O60: the reset state, part by part. -/
theorem resetState : Obligations.ResetState :=
  ⟨rfl, rfl, rfl, rfl, rfl, rfl, reset_saState, reset_benchOf, reset_laneOf, reset_islandOn, rfl, reset_source, rfl⟩

theorem ushiftRight_six_toNat (x : Byte) : ((x >>> 6).setWidth 2 : BitVec 2).toNat = x.toNat / 64 := by
  have := x.isLt
  simp [Nat.shiftRight_eq_div_pow]
  omega

/-- A byte that names page 0, 1 or 2 sets the pointer (R449). -/
theorem exec_i2cWrite_pointer (alive : s.bell.alive = true) {x : Byte} (page : x >>> 6 ≠ 3) : exec (.i2cWrite [x]) s =
    .next (({ s with side := { s.side with page := (x >>> 6).setWidth 2, word := x.toNat % 64 } } : State).emit (.i2cAck true)) := by
  simp only [exec, execI2cWrite, alive, Bool.not_true, Bool.false_eq_true, if_false, if_neg page]

theorem exec_i2cWrite_page3 (alive : s.bell.alive = true) {x : Byte} (page : x >>> 6 = 3) :
    exec (.i2cWrite [x]) s = .next (s.emit (.i2cAck false)) := by
  simp only [exec, execI2cWrite, alive, Bool.not_true, Bool.false_eq_true, if_false, if_pos page]

theorem exec_i2cWrite_longer (alive : s.bell.alive = true) {bs : List Byte} (other : bs.length ≠ 1) :
    exec (.i2cWrite bs) s = .next (s.emit (.i2cAck false)) := by
  match bs, other with
  | [], _ => simp [exec, execI2cWrite, alive]
  | [_], other => exact absurd rfl other
  | _ :: _ :: _, _ => simp [exec, execI2cWrite, alive]

theorem exec_i2cRead (alive : s.bell.alive = true) (n : Nat) : exec (.i2cRead n) s =
    .next (({ s with side := { s.side with word := s.side.word + n / 4 } } : State).emit
      (.i2cBytes (bytesAt (wordsBytes (s.pageWords.drop s.side.word)) 0 n))) := by
  simp [exec, execI2cRead, alive]

/-- Settles O57: each write and read answers as its row says. -/
theorem sidebandReadsAndWrites : Obligations.SidebandReadsAndWrites := by
  intro s alive
  exact ⟨fun x page => ⟨_, exec_i2cWrite_pointer alive page, ushiftRight_six_toNat x, rfl, rfl, rfl, fun _ => rfl⟩,
    fun _ => exec_i2cWrite_page3 alive, fun _ => exec_i2cWrite_longer alive,
    fun n => ⟨_, exec_i2cRead alive n, rfl, rfl, rfl, fun _ => rfl⟩⟩

end Sys2Proof.Machine
end

section
/-! The Tally (R386 to R402): what an event, a clear and a grace timer's expiry leave of a source, and the rows and commands that act
on sources. -/

namespace Sys2Proof.Machine

variable {s : State} {i j : SourceId} {b : BenchId} {p : Packet}

/-! ### A source judged (R388 to R390) -/

/-- A source judged by its newest event: SEVERE at its threshold, else ACTIVE. -/
theorem State.judge_source (s : State) (i : SourceId) (y : TallySource) : (s.judge i y).source i =
    if y.cfg.enable && severeNow y.cfg y.stamps s.monoMs then y.severe s.monoMs else { y with reg := { y.reg with state := 1 } } := by
  unfold State.judge
  split
  · rw [(State.tallyIrqs_says ..).source, State.onSource_source]
  · rw [State.onSource_source]

theorem State.judge_source_ne (s : State) (y : TallySource) (other : j ≠ i) : (s.judge i y).source j = s.source j := by
  unfold State.judge
  split
  · rw [(State.tallyIrqs_says ..).source, State.onSource_source_ne _ _ _ _ other]
  · rw [State.onSource_source_ne _ _ _ _ other]

/-- A source below its threshold only becomes ACTIVE. -/
theorem State.judge_active (y : TallySource) (below : (y.cfg.enable && severeNow y.cfg y.stamps s.monoMs) = false) :
    s.judge i y = s.onSource i fun _ => { y with reg := { y.reg with state := 1 } } := by
  rw [State.judge, if_neg (by rw [below]; exact Bool.false_ne_true)]

/-! ### An event (R388) -/

/-- A source's record with a newest event in it. -/
def State.withEvent (s : State) (i : SourceId) (detail : Word) (sub : Option SubId) : TallySource :=
  let x := s.source i
  { x with
    stamps := (s.monoMs :: x.stamps).take 255, sub := sub, window := x.cfg.windowMs
    reg := { x.reg with
      events := x.reg.events + 1, lastDetail := detail, lastSecLo := BitVec.ofNat 32 (secOf s.time16)
      lastSecHi := BitVec.ofNat 16 (secOf s.time16 / 2 ^ 32), lastNs := BitVec.ofNat 30 (nsOf s.time16) } }

theorem State.raise_eq (s : State) (i : SourceId) (detail : Word) (sub : Option SubId) (counted : s.inReset = false) :
    s.raise i detail sub =
      if 2 ≤ (s.source i).reg.state.toNat then s.onSource i fun _ => s.withEvent i detail sub else s.judge i (s.withEvent i detail sub) := by
  rw [State.raise, counted, if_neg Bool.false_ne_true]
  rfl

/-- An event leaves a record of itself in its source, of which only the state and the timer follow what was before. -/
theorem State.raise_source (s : State) (i : SourceId) (detail : Word) (sub : Option SubId) (counted : s.inReset = false) :
    ∃ state seen grace, (s.raise i detail sub).source i =
      { s.withEvent i detail sub with grace := grace, reg := { (s.withEvent i detail sub).reg with state := state, severeSeen := seen } } := by
  rw [State.raise_eq s i detail sub counted]
  split
  · exact ⟨_, _, _, s.onSource_source i _⟩
  · rw [State.judge_source]
    split <;> exact ⟨_, _, _, rfl⟩

theorem State.raise_source_ne (s : State) (detail : Word) (sub : Option SubId) (other : j ≠ i) :
    (s.raise i detail sub).source j = s.source j := by
  by_cases counted : s.inReset = false
  · rw [State.raise_eq s i detail sub counted]
    split
    · exact State.onSource_source_ne _ _ _ _ other
    · exact State.judge_source_ne _ _ other
  · rw [State.raise, if_pos (by simpa using counted)]

theorem State.raise_onlyTally (s : State) (i : SourceId) (detail : Word) (sub : Option SubId) :
    s.onlyTally (s.raise i detail sub) := (State.raise_only ..).1

/-- A source already SEVERE or ESCALATED keeps its state and its timer. -/
theorem State.raise_severe (detail : Word) (sub : Option SubId) (counted : s.inReset = false)
    (severe : 2 ≤ (s.source i).reg.state.toNat) : (s.raise i detail sub).source i = s.withEvent i detail sub := by
  rw [State.raise_eq s i detail sub counted, if_pos severe, State.onSource_source]

/-- A source below SEVERE is judged by the event. -/
theorem State.raise_judged (detail : Word) (sub : Option SubId) (counted : s.inReset = false)
    (below : (s.source i).reg.state.toNat < 2) : s.raise i detail sub = s.judge i (s.withEvent i detail sub) := by
  rw [State.raise_eq s i detail sub counted, if_neg (Nat.not_le.mpr below)]

/-! ### A clear (R391) -/

theorem State.clearTo_again {r : Bool} {again : List Nat}
    (stamps : (s.source i).stamps.filter (fun k => k == s.monoMs) = again) (some' : again ≠ []) :
    s.clearTo i r = s.judge i { (s.source i).quieted r with stamps := again } := by
  unfold State.clearTo
  dsimp only
  rw [stamps]
  split
  · exact absurd rfl some'
  · rfl

theorem State.clearTo_quiet {r : Bool} (none' : (s.source i).stamps.filter (fun k => k == s.monoMs) = []) :
    s.clearTo i r = s.onSource i fun x => x.quieted r := by
  unfold State.clearTo
  dsimp only
  rw [none']
  simp only [State.onSource, vmod]
  rfl

theorem State.clearTo_source_ne (s : State) (r : Bool) (other : j ≠ i) : (s.clearTo i r).source j = s.source j := by
  unfold State.clearTo
  dsimp only
  split
  · exact State.onSource_source_ne _ _ _ _ other
  · exact State.judge_source_ne _ _ other

/-- Stamps of one millisecond all lie in a window that ends with it. -/
theorem inWindow_same {w : BitVec 16} (open' : w ≠ 0) {stamps : List Nat} {m : Nat} (same : ∀ k ∈ stamps, k = m) :
    inWindow w stamps m = stamps.length := by
  have positive : 0 < w.toNat := Nat.pos_of_ne_zero fun zero => open' (BitVec.eq_of_toNat_eq zero)
  rw [inWindow, List.filter_eq_self.mpr]
  intro k hk
  rw [same k hk]
  simpa using positive

theorem satInc_toNat {n : Nat} (c : BitVec n) : (satInc c).toNat = min (c.toNat + 1) (2 ^ n - 1) := by
  have := c.isLt
  rw [satInc, BitVec.toNat_ofNat, Nat.mod_eq_of_lt (by omega), Nat.min_comm]

/-! ### The rows -/

theorem exec_quietPeriod (severe : 2 ≤ (s.source i).reg.state.toNat)
    (quiet : (s.source i).stamps.headD 0 + (s.source i).cfg.quietMs.toNat ≤ s.monoMs) :
    exec (.quietPeriod i) s = .next (s.onSource i fun x => x.quieted true) :=
  congrArg _ (if_pos ⟨severe, quiet⟩)

theorem exec_autoClear (severe : 2 ≤ (s.source i).reg.state.toNat) (auto : (s.source i).cfg.autoClear = true) {d : Word}
    (newest : d = (s.source i).reg.lastDetail) : exec (.autoClear i d) s = .next (s.clearTo i true) :=
  congrArg _ (if_pos ⟨severe, auto, newest⟩)

theorem exec_foremanWdog (core : Fin 4) (runs : s.running = true) :
    exec (.foremanWdog core) s = .next (s.raise srcForemanWdog (BitVec.ofNat 32 core.val)) := congrArg _ (if_pos runs)

theorem exec_tallyEvent {d : Word} {sub : Option SubId} (runs : s.running = true) (assigned : assignedSource i.val = true) :
    exec (.tallyEvent i d sub) s = .next (s.raise i d sub) := congrArg _ (if_pos (by rw [runs, assigned]; rfl))

/-- Settles O50: an event's record is `State.withEvent`, judged where the source is below SEVERE. -/
theorem tallyEventsCountAndClear : Obligations.TallyEventsCountAndClear := by
  refine ⟨fun s i d sub runs assigned counted => ?event, fun s i => ⟨fun severe quiet => ?quiet, fun d severe auto newest apart => ?auto,
    fun core runs counted => ?wdog⟩⟩
  case event =>
    obtain ⟨state, seen, grace, record⟩ := s.raise_source i d sub counted
    refine ⟨_, exec_tallyEvent runs assigned, by rw [record]; rfl, by rw [record]; rfl, by rw [record]; rfl, by rw [record]; rfl,
      by rw [record]; rfl, fun severe => ?_, fun below enable threshold => ?_, fun below quiet => ?_,
      fun j other => State.raise_source_ne s d sub other, State.raise_onlyTally .., State.sameMemory_of_mem (s.raise_mem ..)⟩
    · rw [State.raise_severe d sub counted severe]
      exact ⟨rfl, rfl⟩
    · have reached : ((s.withEvent i d sub).cfg.enable && severeNow (s.withEvent i d sub).cfg (s.withEvent i d sub).stamps s.monoMs) = true := by
        rw [Bool.and_eq_true]
        exact ⟨enable, threshold⟩
      rw [State.raise_judged d sub counted below, State.judge_source, if_pos reached]
      exact ⟨rfl, rfl⟩
    · have missed : ((s.withEvent i d sub).cfg.enable && severeNow (s.withEvent i d sub).cfg (s.withEvent i d sub).stamps s.monoMs) = false := by
        rw [Bool.and_eq_false_iff]
        exact quiet
      rw [State.raise_judged d sub counted below, State.judge_active _ missed, State.onSource_source]
      exact ⟨rfl, rfl, rfl⟩
  case quiet =>
    exact ⟨_, exec_quietPeriod severe quiet, s.onSource_source i _, by rw [State.onSource_source]; rfl,
      fun j other => State.onSource_source_ne _ _ _ _ other, rfl, fun _ => rfl⟩
  case auto =>
    have none' : (s.source i).stamps.filter (fun k => k == s.monoMs) = [] := by simpa using apart
    refine ⟨_, (exec_autoClear severe auto newest).trans (by rw [State.clearTo_quiet none']), s.onSource_source i _,
      fun j other => State.onSource_source_ne _ _ _ _ other, rfl, fun _ => rfl⟩
  case wdog =>
    obtain ⟨state, seen, grace, record⟩ := s.raise_source srcForemanWdog (BitVec.ofNat 32 core.val) none counted
    exact ⟨_, exec_foremanWdog core runs, by rw [record]; rfl, by rw [record]; rfl, State.raise_onlyTally ..,
      State.sameMemory_of_mem (s.raise_mem ..)⟩

/-! ### The commands -/

theorem tallyGet_completes (ready : s.ready b) (sized : p.sized 3) (lease : (s.handed b).holdsAny b = true)
    (reserved : p.stray 2 0xFFFF0000 = false) (fits : 8 * p.bits 2 8 8 ≤ 1021) :
    let u := s.handed b
    exec (.tallyGet b p) s = .next (State.replied b 0x80 p
      (u, Reply.ok ((((allFin 256).drop (p.bits 2 0 8)).take (p.bits 2 8 8)).flatMap fun i => u.talySrcWords i))) :=
  exec_of_hand rfl ready sized (by decide)
    (State.answer_tests (beq_iff_eq.mpr sized.1) lease rfl (by rw [sized.2.1, reserved, decide_eq_true fits]; rfl))

theorem tallyClear_completes (ready : s.ready b) (sized : p.sized 3) (lease : (s.handed b).holdsObsWork b = true)
    (reserved : p.stray 2 0xFFFFFE00 = false) (named : (p.bit 2 8 || assignedSource p.source.val) = true) :
    let u := s.handed b
    exec (.tallyClear b p) s = .next (State.replied b 0x81 p
      (if p.bit 2 8 then u.clearSources else u.clearSource p.source, Reply.ok)) :=
  exec_of_hand rfl ready sized (by decide)
    (State.answer_tests (beq_iff_eq.mpr sized.1) lease rfl (by rw [sized.2.1, reserved, named]; rfl))

theorem tallyConfig_completes {c : TalyCfg} (ready : s.ready b) (sized : p.sized 7) (lease : (s.handed b).holdsObsWork b = true)
    (reserved2 : p.stray 2 0xFFFFFF00 = false) (reserved3 : p.stray 3 0xFF00FC00 = false) (reserved5 : p.stray 5 0xE0F80000 = false)
    (zero : p.w 6 = 0) (entry : c = talyEntry fun k => p.w (3 + k)) (own : c.source.toNat = p.source.val) (good : c.bad = false) :
    exec (.tallyConfig b p) s =
      .next (State.replied b 0x82 p ((s.handed b).onSource p.source fun x => { x with cfg := c }, Reply.ok)) := by
  subst entry
  have named : (⟨(talyEntry fun k => p.w (3 + k)).source.toNat, (talyEntry fun k => p.w (3 + k)).source.isLt⟩ : SourceId) = p.source :=
    Fin.ext own
  refine (exec_of_hand rfl ready sized (by decide) (State.answer_tests (beq_iff_eq.mpr sized.1) lease rfl
    (by rw [sized.2.1, reserved2, reserved3, reserved5, zero, good, beq_iff_eq.mpr own]; rfl))).trans ?_
  unfold State.setEntry
  rw [named]
  rfl

/-- Settles O6: the commands pass their tests, and a clear leaves a quiet source, or one judged by what is stamped in its own
millisecond. -/
theorem tallyCommandsComplete : Obligations.TallyCommandsComplete := by
  refine ⟨fun s b p ready => ⟨tallyGet_completes ready, fun sized lease reserved single assigned => ?single,
    fun sized lease reserved all' => ?all, fun c => tallyConfig_completes ready⟩, fun s i r => ⟨State.clearTo_quiet, ?again,
      fun j other => s.clearTo_source_ne r other⟩, fun x r => ⟨rfl, rfl, rfl, rfl, rfl, rfl, rfl, rfl, rfl, fun m => ?shown, ?kept, ?counted⟩⟩
  case single =>
    rw [tallyClear_completes ready sized lease reserved (by rw [assigned, Bool.or_true]), if_neg (by rw [single]; exact Bool.false_ne_true)]
    rfl
  case all =>
    rw [tallyClear_completes ready sized lease reserved (by rw [all', Bool.true_or]), if_pos all']
    rfl
  case again =>
    intro some' window
    have same : ∀ k ∈ (s.source i).stamps.filter (fun k => k == s.monoMs), k = s.monoMs := fun k hk =>
      beq_iff_eq.mp (List.mem_filter.mp hk).2
    rw [State.clearTo_again rfl some', State.judge_source]
    have judged : ((s.source i).cfg.enable && severeNow (s.source i).cfg ((s.source i).stamps.filter fun k => k == s.monoMs) s.monoMs) =
        decide ((s.source i).cfg.enable = true ∧
          (s.source i).cfg.threshold.toNat ≤ ((s.source i).stamps.filter fun k => k == s.monoMs).length) := by
      rw [severeNow, inWindow_same window same]
      simp
    simp only [TallySource.quieted, judged, decide_eq_true_eq]
    split <;> exact ⟨rfl, rfl, rfl, rfl⟩
  case shown => rfl
  case kept =>
    rintro rfl
    rfl
  case counted =>
    rintro rfl
    exact satInc_toNat _

/-! ### A grace timer's expiry (R394, R396) -/

theorem exec_graceExpiry {g : Nat} (grace : (s.source i).grace = some g) (late : g ≤ s.monoMs) (runs : s.running = true)
    (severe : 2 ≤ (s.source i).reg.state.toNat) : exec (.graceExpiry i) s = .next (s.served (s.expire i)) := by
  have expired : (s.source i).expired s.monoMs = true := by
    rw [TallySource.expired, grace]
    exact decide_eq_true ⟨severe, late⟩
  change Host.Outcome.next (s.served (s.graceExpiry i)) = _
  rw [State.graceExpiry, if_pos ⟨expired, runs⟩]

/-- A row that leaves the Exchange takes no command. -/
theorem State.served_of_move {s t : State} (same : t.move = s.move) : s.served t = t :=
  State.served_of_kept (by rw [same]; exact fun _ h => h)

theorem ladderOf_head {fallback : BitVec 3} (i : SourceId) (least : 2 ≤ fallback.toNat) (most : fallback.toNat ≤ 4) :
    (ladderOf i fallback)[0]? = some .trap := by
  obtain two | three | four : fallback.toNat = 2 ∨ fallback.toNat = 3 ∨ fallback.toNat = 4 := by omega
  · simp [ladderOf, two]
  · simp [ladderOf, three]
  · simp [ladderOf, four]

/-- The step after TRAP of a CHIP_RESET ladder is a reset. -/
theorem ladderOf_second (i : SourceId) : (ladderOf i 4)[1]? = some .blockReset ∨ (ladderOf i 4)[1]? = some .chipReset := by
  by_cases block : hasBlockReset i.val = true
  · exact .inl (by simp [ladderOf, block])
  · exact .inr (by simp [ladderOf, block])

theorem TallySource.escalate_cfg (x : TallySource) : x.escalate.cfg = x.cfg := by unfold TallySource.escalate; split <;> rfl

theorem TallySource.escalate_of_escalated {x : TallySource} (escalated : x.reg.state = 3) : x.escalate = x := by
  rw [TallySource.escalate, if_neg (by rw [escalated]; decide)]

/-- The first expiry of a ladder that begins with TRAP enters the Foreman's fault handler (R394). -/
theorem State.expire_trap (least : 2 ≤ (s.source i).cfg.fallback.toNat) (most : (s.source i).cfg.fallback.toNat ≤ 4)
    (severe : (s.source i).reg.state = 2) (first : (s.source i).reg.step = 0) :
    s.expire i = ((s.onSource i TallySource.escalate).stepAll [i]).emit (.trap i (s.source i).reg.lastDetail) := by
  have next : ((s.onSource i TallySource.escalate).source i).nextLadder i = some .trap := by
    rw [State.onSource_source, TallySource.nextLadder, TallySource.escalate_cfg]
    have step : (s.source i).escalate.reg.step = 0 := by rw [TallySource.escalate, if_pos severe]; exact first
    rw [step]
    exact ladderOf_head i least most
  have some' : ¬((s.source i).cfg.fallback = 0 ∨ 4 < (s.source i).cfg.fallback.toNat) := by
    rintro (zero | high)
    · rw [zero] at least
      exact absurd least (by decide)
    · omega
  unfold State.expire
  rw [if_neg some']
  dsimp only
  rw [next]

/-- In HOLD a reset waits (R396). -/
theorem State.expire_held (fallback : (s.source i).cfg.fallback = 4) (escalated : (s.source i).reg.state = 3)
    (second : (s.source i).reg.step = 1) (hold : s.mode = modeHold) :
    s.expire i = (s.onSource i TallySource.escalate).onSource i fun y => { y with grace := none, reg := { y.reg with held := true } } := by
  have next : ((s.onSource i TallySource.escalate).source i).nextLadder i = (ladderOf i 4)[1]? := by
    rw [State.onSource_source, TallySource.escalate_of_escalated escalated, TallySource.nextLadder, fallback, second]
    rfl
  have mode : (s.onSource i TallySource.escalate).mode = modeHold := hold
  unfold State.expire
  rw [if_neg (by rw [fallback]; decide)]
  dsimp only
  rcases ladderOf_second i with block | chip
  · rw [next, block]
    exact if_pos mode
  · rw [next, chip]
    exact if_pos mode

/-- Settles O51: the three branches of an expiry. -/
theorem graceExpiryEscalates : Obligations.GraceExpiryEscalates := by
  intro s i g x grace late runs severe
  have row := exec_graceExpiry grace late runs severe
  refine ⟨fun wait => ?wait, fun least most state first => ?trap, fun chip escalated second hold => ?hold⟩
  case wait =>
    have stops : s.expire i = s.onSource i fun y => { y with grace := none } := if_pos (.inl wait)
    rw [row, stops, State.served_of_move (by rfl)]
  case trap =>
    rw [State.expire_trap least most state first, State.served_of_move (by rfl)] at row
    refine ⟨_, row, ?_⟩
    have stepped : (((s.onSource i TallySource.escalate).stepAll [i]).emit (.trap i x.reg.lastDetail)).source i =
        x.escalate.stepped i s.monoMs := by
      change ((s.onSource i TallySource.escalate).onSource i fun x => x.stepped i _).source i = _
      rw [State.onSource_source, State.onSource_source]
      rfl
    have escalate : x.escalate = { x with reg := { x.reg with state := 3, escalatedSeen := true, escalations := satInc x.reg.escalations } } :=
      if_pos state
    rw [stepped, escalate]
    refine ⟨rfl, rfl, ?_, rfl, fun j other => ?_, rfl, fun _ => rfl⟩
    · change BitVec.ofNat 2 (x.reg.step.toNat + 1) = 1
      rw [first]
      rfl
    · exact (State.onSource_source_ne _ _ _ _ other).trans (State.onSource_source_ne _ _ _ _ other)
  case hold =>
    rw [State.expire_held chip escalated second hold, State.served_of_move (by rfl)] at row
    refine ⟨_, row, ?_⟩
    rw [State.onSource_source, State.onSource_source, TallySource.escalate_of_escalated escalated]
    exact ⟨escalated, rfl, rfl, hold, rfl, fun _ => rfl⟩

end Sys2Proof.Machine
end

section
/-! TILE_RETIRE (R176) of a tile on which a TILE_RESTORE waits without its self-test. -/

namespace Sys2Proof.Machine

/-- A TILE_RETIRE that takes effect at once also ends the TILE_RESTORE that waits on the tile. -/
theorem exec_tileRetire_atOnce {s : State} {b : BenchId} {p : Packet} {k : TileId} (ready : s.ready b) (sized : p.sized 3)
    (tile : p.tile = some k) (zero : p.stray 2 0xFFFFFFC0 = false) (lease : (s.handed b).tileLease b p.tile = true)
    (path : (s.handed b).dataPath = true) (now : ((s.handed b).askRetire k).2 = 0) :
    exec (.tileRetire b p) s =
      .next (State.replied b 0x91 p (((s.handed b).askRetire k).1.failRestore k, Reply.plain stOk)) := by
  refine exec_of_hand rfl ready sized (by decide)
    ((State.answer_tests (beq_iff_eq.mpr sized.1) lease path (by rw [sized.2.1, zero, tile]; rfl)).trans ?_)
  simp [tile, now]

namespace RestoreWithoutTest

/-- The module in PROVISION, its benches serving, bench 0 the holder of WORKSHOP and of every OBSERVATION lease, bench 1 waiting
for the answer to a TILE_RESTORE under tag 5, and tile 41 naming that command while it runs no self-test. -/
def waiting : State :=
  let s := State.reset
  (({ s with
    bell := { s.bell with alive := true, stat := { s.bell.stat with mode := modeProvision } }
    bench := { s.bench with serving := true, obsHolder := Vector.replicate 4 (some 0), workHolder := some 0 } } : State).onBench 1
      fun x => { x with executing := some (0x92, 5) }).onTile 41 fun x => { x with asked := some (1, 5) }

/-- TILE_RETIRE of tile 41, under tag 7. -/
def packet : Packet := ⟨0, 7, [41], .nothing⟩

theorem waiting_ready : waiting.ready 0 := ⟨by decide +kernel, by decide +kernel⟩

theorem packet_sized : packet.sized 3 := by unfold Packet.sized; decide +kernel

/-- The module with tile 41 retired, before any reply. -/
def retired : State := ((waiting.handed 0).askRetire 41).1

/-- TILE_RETIRE answers the TILE_RESTORE that waits on the tile. -/
theorem exec_retire : exec (.tileRetire 0 packet) waiting = .next (State.replied 0 0x91 packet (retired.failRestore 41, Reply.plain stOk)) :=
  exec_tileRetire_atOnce waiting_ready packet_sized (by decide +kernel) (by decide +kernel) (by decide +kernel) (by decide +kernel)
    (by decide +kernel)

/-- Bench 1 has the FAULTED that ends its TILE_RESTORE. -/
theorem restore_answered :
    ((State.replied 0 0x91 packet (retired.failRestore 41, Reply.plain stOk)).benchOf 1).replies = [[0x92400003, 5, 0]] := by
  decide +kernel

/-- Without `failRestore` bench 1 has no reply. -/
theorem restore_unanswered :
    ((State.replied 0 0x91 packet (retired, Reply.plain stOk)).benchOf 1).replies = [] := by decide +kernel

end RestoreWithoutTest

open RestoreWithoutTest

/-- Refutes O7: the TILE_RETIRE clause leaves out a TILE_RESTORE that waits on the tile while its state is not TESTING. The model
answers that command FAULTED when the tile retires at once, which the clause's module does not. -/
theorem not_modeAndTileCommandsComplete : ¬ Obligations.ModeAndTileCommandsComplete := by
  unfold Obligations.ModeAndTileCommandsComplete
  intro complete
  obtain ⟨-, tiles⟩ := complete waiting 0 packet waiting_ready packet_sized
  obtain ⟨retires, -⟩ := tiles 41 (by decide +kernel) (by decide +kernel) (by decide +kernel) (by decide +kernel)
  obtain ⟨v, n, asked, claimed⟩ := retires (by decide +kernel) (by decide +kernel) (by decide +kernel)
  have atOnce : ((waiting.handed 0).askRetire 41).2 = 0 := by decide +kernel
  have isRetired : retired = v := by rw [retired, asked]
  rw [asked] at atOnce
  have isOk : n = 0 := atOnce
  rw [isOk, if_pos rfl, ← isRetired, exec_retire] at claimed
  have same := congrArg (fun t => (t.benchOf 1).replies) (Host.Outcome.next.inj claimed)
  rw [restore_answered, restore_unanswered] at same
  exact absurd same (by decide)

end Sys2Proof.Machine
end

section
/-! LEASE, RELEASE and HEARTBEAT (R325 to R327, Table 12-8): when each acts, and who holds what after a grant. -/

namespace Sys2Proof.Machine

variable {s : State} {b : BenchId} {p : Packet}

/-! ### The commands -/

theorem lease_completes (ready : s.ready b) (sized : p.sized 3) (zero : p.stray 2 0xFC00FFC8 = false) (cls : classOk p = true)
    (least : 1 ≤ p.bits 2 16 10) (most : p.bits 2 16 10 ≤ 600)
    (free : ∀ c, (s.handed b).leaseHolder (p.bits 2 0 3) (p.sub 2 4) = some c → c = b)
    (key : (s.handed b).keyMay b (p.bits 2 0 3) = true) (boot : (s.handed b).start.recovery = false ∨ p.bits 2 0 3 = 5) :
    exec (.lease b p) s = .next (State.replied b 0x02 p
      ((((s.handed b).setHolder b (p.bits 2 0 3) (p.sub 2 4) true).onBench b fun x =>
        { x with timeoutS := BitVec.ofNat 16 (p.bits 2 16 10) }).renew b, Reply.ok)) := by
  have allowed : (!(s.handed b).keyMay b (p.bits 2 0 3) || ((s.handed b).start.recovery && p.bits 2 0 3 != 5)) = false := by
    rcases boot with boot | boot
    · simp [key, boot]
    · rw [key, boot]; simp
  refine exec_of_hand rfl ready sized (by decide) (State.answer_acts fun e he => ?_)
  rcases List.mem_append.mp he with he | he
  · exact tests_pass (beq_iff_eq.mpr sized.1) rfl rfl (by rw [sized.2.1, zero, cls, decide_eq_true ⟨least, most⟩]; rfl) e he
  · rcases List.mem_pair.mp he with rfl | rfl
    · cases holder : (s.handed b).leaseHolder (p.bits 2 0 3) (p.sub 2 4) with
      | none => rfl
      | some c => exact bne_eq_false_iff_eq.mpr (free c holder)
    · exact allowed

theorem release_completes (ready : s.ready b) (sized : p.sized 3) (zero : p.stray 2 0xFFFFFEC8 = false) (one : p.bit 2 8 = false)
    (cls : classOk p = true) :
    exec (.release b p) s =
      .next (State.replied b 0x03 p ((s.handed b).dropLease b (p.bits 2 0 3) (p.sub 2 4), Reply.ok)) :=
  exec_of_hand rfl ready sized (by decide)
    ((State.answer_tests (beq_iff_eq.mpr sized.1) rfl rfl (by rw [sized.2.1, zero, one, cls]; rfl)).trans (by rw [one]; rfl))

theorem releaseAll_completes (ready : s.ready b) (sized : p.sized 3) (all : p.w 2 = 0x100) :
    exec (.release b p) s = .next (State.replied b 0x03 p ((s.handed b).dropLeases b, Reply.ok)) := by
  have bit : p.bit 2 8 = true := by rw [Packet.bit, all]; decide
  have zero : p.stray 2 0xFFFFFEC8 = false := by rw [Packet.stray, all]; decide
  exact exec_of_hand rfl ready sized (by decide)
    ((State.answer_tests (beq_iff_eq.mpr sized.1) rfl rfl (by rw [sized.2.1, zero, bit, all]; rfl)).trans (by rw [bit]; rfl))

theorem heartbeat_completes (ready : s.ready b) (sized : p.sized 2) :
    exec (.heartbeat b p) s =
      .next (State.replied b 0x04 p ((s.handed b).renew b, Reply.ok ((s.handed b).leaseWords.take 1))) :=
  exec_of_hand rfl ready sized (by decide)
    (State.answer_tests (beq_iff_eq.mpr sized.1) rfl rfl (by rw [sized.2.1]; rfl))

/-! ### Holders after a grant or an end -/

variable {c : BenchId} {i j : SubId} {k m : Nat} {on : Bool}

/-- A grant or an end changes the holder of its class, for OBSERVATION of its sub-array, and of no other; MONITOR has no one
holder. -/
theorem State.leaseHolder_setHolder (least : 1 ≤ k) (most : k ≤ 5) (m : Nat) :
    (s.setHolder b k i on).leaseHolder m j =
      if m = k ∧ k ≠ 2 ∧ (k = 1 → j = i) then (if on then some b else none) else s.leaseHolder m j := by
  have classes : k = 1 ∨ k = 2 ∨ k = 3 ∨ k = 4 ∨ k = 5 := by omega
  unfold State.leaseHolder
  rcases classes with rfl | rfl | rfl | rfl | rfl <;> split <;>
    simp_all [State.setHolder, State.onBench, Fin.ext_iff, eq_comm]

/-- MONITOR is the bench's own. -/
theorem State.monitor_setHolder (least : 1 ≤ k) (most : k ≤ 5) :
    ((s.setHolder b k i on).benchOf c).monitor = if k = 2 ∧ c = b then on else (s.benchOf c).monitor := by
  have classes : k = 1 ∨ k = 2 ∨ k = 3 ∨ k = 4 ∨ k = 5 := by omega
  rcases classes with rfl | rfl | rfl | rfl | rfl
  case inr.inl =>
    by_cases same : c = b
    · subst same; simp [State.setHolder]
    · simp [State.setHolder, State.onBench_benchOf_ne _ _ _ _ same, same]
  all_goals simp [State.setHolder, State.benchOf]

/-- The bench itself holds a class as the grant or the end says. -/
theorem State.holdsClass_setHolder (least : 1 ≤ k) (most : k ≤ 5) : (s.setHolder b k i on).holdsClass b k i = on := by
  unfold State.holdsClass
  split
  · next monitor => rw [State.monitor_setHolder least most, if_pos ⟨monitor, rfl⟩]
  · next exclusive =>
    rw [State.leaseHolder_setHolder least most, if_pos ⟨rfl, exclusive, fun _ => rfl⟩]
    cases on <;> simp

theorem State.holdsClass_setHolder_other (least : 1 ≤ k) (most : k ≤ 5) (exclusive : k ≠ 2) (other : c ≠ b) :
    (s.setHolder b k i on).holdsClass c k i = false := by
  rw [State.holdsClass, if_neg exclusive, State.leaseHolder_setHolder least most, if_pos ⟨rfl, exclusive, fun _ => rfl⟩]
  cases on <;> simp [Ne.symm other]

theorem State.holdsClass_setHolder_class (least : 1 ≤ k) (most : k ≤ 5) (other : m ≠ k) :
    (s.setHolder b k i on).holdsClass c m j = s.holdsClass c m j := by
  unfold State.holdsClass
  split
  · next monitor => rw [State.monitor_setHolder least most, if_neg fun h => other (monitor.trans h.1.symm)]
  · rw [State.leaseHolder_setHolder least most, if_neg fun h => other h.1]

theorem State.holdsClass_setHolder_sub (other : j ≠ i) : (s.setHolder b 1 i on).holdsClass c 1 j = s.holdsClass c 1 j := by
  unfold State.holdsClass
  rw [State.leaseHolder_setHolder (by decide) (by decide)]
  simp [other]

/-- Who holds what is no byte of memory. -/
theorem State.setHolder_mem : (s.setHolder b k i on).mem = s.mem := by
  unfold State.setHolder; dsimp only; split <;> rfl

/-- Settles O3: each command passes its tests, and a grant changes one holder, class by class. -/
theorem leaseCommandsComplete : Obligations.LeaseCommandsComplete := by
  unfold Obligations.LeaseCommandsComplete
  refine ⟨fun s b p ready => ⟨?_, ?_, ?_, ?_⟩, fun s b c i j k least most => ⟨?_, ?_, ?_, ?_, ?_⟩⟩
  · exact fun sized zero cls lo hi free key boot => lease_completes ready sized zero cls lo hi free key boot
  · exact fun sized zero one cls => release_completes ready sized zero one cls
  · exact fun sized all => releaseAll_completes ready sized all
  · exact fun sized => heartbeat_completes ready sized
  · exact State.holdsClass_setHolder least most
  · exact fun exclusive other => State.holdsClass_setHolder_other least most exclusive other
  · exact fun m _ _ other => State.holdsClass_setHolder_class least most other
  · rintro rfl other
    exact State.holdsClass_setHolder_sub other
  · exact State.sameMemory_of_mem (State.setHolder_mem)

end Sys2Proof.Machine
end

section
/-! What the end of leases and the close of a session leave (R323, R327, R344): the bench holds nothing, the other benches keep
what they have, and beyond the leases, the aborted transaction and a mode that is left nothing changes. -/

namespace Sys2Proof.Machine

variable {s t u : State} {b : BenchId} {i : SubId} {k : Nat}

/-! ### A sequence that begins touches the Bellows and the Granary -/

/-- Nothing changed but the Bellows and the Granary. -/
def State.PowerOnly (s t : State) : Prop := t = { s with bell := t.bell, gran := t.gran }

theorem State.PowerOnly.refl (s : State) : s.PowerOnly s := rfl

theorem State.PowerOnly.trans (h : s.PowerOnly t) (k : t.PowerOnly u) : s.PowerOnly u := by
  unfold State.PowerOnly at *; rw [k, h]

theorem State.performStep_power (s : State) (x : SeqStep) : s.PowerOnly (s.performStep x) := by
  unfold State.performStep
  dsimp only
  split
  case h_3 | h_4 =>
    split
    · split
      · exact .refl s
      · rfl
    · exact .refl s
  all_goals rfl

theorem State.beginSeq_power (s : State) (id : Fin 6) (after : AfterSeq) : s.PowerOnly (s.beginSeq id after) := by
  have begun (q : Option SeqRun) : s.PowerOnly { s with bell := { s.bell with running := q } } := rfl
  unfold State.beginSeq
  dsimp only
  split
  · exact (begun _).trans (State.performStep_power _ _)
  · exact begun _

theorem State.workLost_power (s : State) : s.PowerOnly s.workLost := by
  unfold State.workLost
  split
  · exact s.beginSeq_power _ _
  · exact .refl s

/-! ### Leases of one bench end -/

/-- Nothing changed but leases that bench `b` gave up, its transaction, and what the module does without them. -/
structure State.Drops (b : BenchId) (s t : State) : Prop where
  frame : t = { s with bench := t.bench, bell := t.bell, gran := t.gran, mem := t.mem }
  board : t.bench = { s.bench with
    benches := t.bench.benches, obsHolder := t.bench.obsHolder, timeHolder := t.bench.timeHolder
    storeHolder := t.bench.storeHolder, workHolder := t.bench.workHolder }
  own : t.benchOf b = { s.benchOf b with txn := (t.benchOf b).txn, monitor := (t.benchOf b).monitor }
  others : ∀ c, c ≠ b → t.benchOf c = s.benchOf c
  less : ∀ c m j, t.holdsClass c m j = true → s.holdsClass c m j = true

theorem State.Drops.refl (b : BenchId) (s : State) : s.Drops b s := ⟨rfl, rfl, rfl, fun _ _ => rfl, fun _ _ _ h => h⟩

theorem State.Drops.trans (h : State.Drops b s t) (k : State.Drops b t u) : State.Drops b s u where
  frame := by rw [k.frame, h.frame]
  board := by rw [k.board, h.board]
  own := by rw [k.own, h.own]
  others c other := (k.others c other).trans (h.others c other)
  less c m j held := h.less c m j (k.less c m j held)

/-- A class that the bench lacks it still lacks. -/
theorem State.Drops.lacks (h : State.Drops b s t) {c : BenchId} {m : Nat} {j : SubId} (lacks : s.holdsClass c m j = false) :
    t.holdsClass c m j = false :=
  Bool.eq_false_iff.mpr fun held => Bool.false_ne_true (lacks.symm.trans (h.less c m j held))

theorem State.PowerOnly.drops (h : s.PowerOnly t) : State.Drops b s t := by
  unfold State.PowerOnly at h
  rw [h]
  exact ⟨rfl, rfl, rfl, fun _ _ => rfl, fun _ _ _ held => held⟩

/-- A transaction's end frees its staging space and nothing else (R344). -/
theorem State.dropTxn_drops (s : State) (b : BenchId) : State.Drops b s (s.dropTxn b) := by
  unfold State.dropTxn
  split
  · next x open' =>
    refine ⟨rfl, rfl, ?_, fun c other => State.onBench_benchOf_ne _ _ _ _ other, fun c m j held => ?_⟩
    · rw [State.onBench_benchOf]; rfl
    · unfold State.holdsClass at held ⊢
      split
      · next monitor =>
        rw [if_pos monitor] at held
        by_cases same : c = b
        · subst same; rwa [State.onBench_benchOf] at held
        · rwa [State.onBench_benchOf_ne _ _ _ _ same] at held
      · next exclusive => rwa [if_neg exclusive] at held
  · exact .refl b s

theorem State.checkTxn_drops (s : State) (b : BenchId) : State.Drops b s (s.checkTxn b) := by
  unfold State.checkTxn
  split
  · split
    · exact .refl b s
    · exact s.dropTxn_drops b
  · exact .refl b s

/-- A lease that is given up. -/
theorem State.setHolder_drops (least : 1 ≤ k) (most : k ≤ 5) : State.Drops b s (s.setHolder b k i false) := by
  refine ⟨?_, ?_, ?_, fun c other => ?_, fun c m j held => ?_⟩
  · unfold State.setHolder; dsimp only; split <;> rfl
  · unfold State.setHolder; dsimp only; split <;> rfl
  · unfold State.setHolder
    dsimp only
    split
    · rfl
    · rw [State.onBench_benchOf]
    all_goals rfl
  · unfold State.setHolder
    dsimp only
    split
    · rfl
    · rw [State.onBench_benchOf_ne _ _ _ _ other]
    all_goals rfl
  · unfold State.holdsClass at held ⊢
    rw [State.monitor_setHolder least most, State.leaseHolder_setHolder least most] at held
    split
    · next monitor =>
      rw [if_pos monitor] at held
      split at held
      · exact absurd held Bool.false_ne_true
      · exact held
    · next exclusive =>
      rw [if_neg exclusive] at held
      split at held
      · exact absurd held (by simp)
      · exact held

/-- A class outside Table 12-8 is held by no bench. -/
theorem State.holdsClass_bounds {c : BenchId} {m : Nat} {j : SubId} (held : s.holdsClass c m j = true) : 1 ≤ m ∧ m ≤ 5 := by
  unfold State.holdsClass at held
  split at held
  · omega
  · unfold State.leaseHolder at held
    split at held
    case h_5 => exact absurd held (by simp)
    all_goals omega

theorem State.dropLease_drops (s : State) (b : BenchId) (k : Nat) (i : SubId) : State.Drops b s (s.dropLease b k i) := by
  unfold State.dropLease
  split
  · next held =>
    obtain ⟨least, most⟩ := State.holdsClass_bounds held
    have given : State.Drops b s ((s.setHolder b k i false).checkTxn b) :=
      (State.setHolder_drops least most).trans (State.checkTxn_drops _ b)
    dsimp only
    split
    · exact given.trans (State.workLost_power _).drops
    · exact given
  · exact .refl b s

/-- RELEASE of a class leaves the bench without it (R327). -/
theorem State.dropLease_lacks (s : State) (b : BenchId) (k : Nat) (i : SubId) : (s.dropLease b k i).holdsClass b k i = false := by
  unfold State.dropLease
  split
  · next held =>
    obtain ⟨least, most⟩ := State.holdsClass_bounds held
    have given : ((s.setHolder b k i false).checkTxn b).holdsClass b k i = false :=
      (State.checkTxn_drops _ b).lacks (State.holdsClass_setHolder least most)
    dsimp only
    split
    · exact State.Drops.lacks (b := b) (State.workLost_power _).drops given
    · exact given
  · next lacks => exact Bool.eq_false_iff.mpr lacks

/-- After leases have been dropped one after another the bench lacks each of them. -/
theorem State.foldl_dropLease {α : Type} (cls : α → Nat) (sub : α → SubId) (l : List α) (s : State) :
    State.Drops b s (l.foldl (fun (u : State) x => u.dropLease b (cls x) (sub x)) s) ∧
      ∀ x ∈ l, (l.foldl (fun (u : State) x => u.dropLease b (cls x) (sub x)) s).holdsClass b (cls x) (sub x) = false := by
  induction l generalizing s with
  | nil => exact ⟨.refl b s, fun x hx => absurd hx List.not_mem_nil⟩
  | cons y l ih =>
    obtain ⟨drops, lacks⟩ := ih (s.dropLease b (cls y) (sub y))
    refine ⟨(s.dropLease_drops b _ _).trans drops, fun x hx => ?_⟩
    rcases List.mem_cons.mp hx with rfl | hx
    · exact drops.lacks (s.dropLease_lacks b _ _)
    · exact lacks x hx

theorem State.dropLeases_drops (s : State) (b : BenchId) : State.Drops b s (s.dropLeases b) :=
  (State.foldl_dropLease (fun _ => 1) id (allFin 4) s).1.trans (State.foldl_dropLease id (fun _ => 0) [2, 3, 4, 5] _).1

/-- A bench that holds no class holds no lease. -/
theorem State.holdsAny_of_classes {b : BenchId} (sub : ∀ i, s.holdsClass b 1 i = false) (rest : ∀ k ∈ [2, 3, 4, 5], s.holdsClass b k 0 = false) :
    s.holdsAny b = false := by
  have obs (i : SubId) : s.holdsObs b i = false := sub i
  have monitor : (s.benchOf b).monitor = false := rest 2 (by decide)
  have time : s.holdsTime b = false := rest 3 (by decide)
  have store : s.holdsStore b = false := rest 4 (by decide)
  have work : s.holdsWork b = false := rest 5 (by decide)
  simp [State.holdsAny, State.holdsAnyObs, obs, monitor, time, store, work]

/-- RELEASE of all, a lapse and a close leave the bench without any lease (R326, R327). -/
theorem State.dropLeases_holdsAny (s : State) (b : BenchId) : (s.dropLeases b).holdsAny b = false := by
  obtain ⟨-, noSub⟩ := State.foldl_dropLease (b := b) (fun _ => 1) id (allFin 4) s
  obtain ⟨drops, noClass⟩ := State.foldl_dropLease (b := b) id (fun _ => 0) [2, 3, 4, 5]
    ((allFin 4).foldl (fun (u : State) i => u.dropLease b 1 i) s)
  unfold State.dropLeases
  exact State.holdsAny_of_classes (fun i => drops.lacks (noSub i (List.mem_finRange i))) noClass

/-! ### The close of a session (R323) -/

/-- The bench of a closed session: nothing queued, nothing answered, nothing executing. -/
def Bench.closed (x : Bench) : Bench :=
  { x with
    post := [], replies := [], held := [], stored := [], executing := none, lastSeq := 0, ownSeq := 0, peer := none
    notifyAt := none, warned := false
    stat := { x.stat with isOpen := false, keySlot := 0, sessionId := 0, postTail := 0, postHead := 0, replyHead := 0, replyTail := 0 } }

@[simp] theorem Bench.closed_txn (x : Bench) : x.closed.txn = x.txn := rfl
@[simp] theorem Bench.closed_monitor (x : Bench) : x.closed.monitor = x.monitor := rfl

/-- The module once the leases of a bench have ended and its transaction is aborted, before its session is closed. -/
def State.stripped (s : State) (b : BenchId) : State := (s.dropLeases b).dropTxn b

theorem State.closeSession_eq (s : State) (b : BenchId) :
    s.closeSession b = ((s.stripped b).muteBench b).onBench b Bench.closed := rfl

theorem State.stripped_drops (s : State) (b : BenchId) : State.Drops b s (s.stripped b) :=
  (s.dropLeases_drops b).trans (State.dropTxn_drops _ b)

/-- After a transaction's end none is open. -/
theorem State.dropTxn_txn (s : State) (b : BenchId) : ((s.dropTxn b).benchOf b).txn = none := by
  unfold State.dropTxn
  split
  · rw [State.onBench_benchOf]
  · next none' => exact none'

/-- What a bench holds is kept where its leases are. -/
theorem State.holdsAny_of_drops {c : BenchId} (h : State.Drops b s t) (lacks : s.holdsAny c = false) : t.holdsAny c = false := by
  simp only [State.holdsAny, State.holdsAnyObs, Bool.or_eq_false_iff, List.any_eq_false] at lacks
  obtain ⟨⟨⟨⟨obs, monitor⟩, time⟩, store⟩, work⟩ := lacks
  refine State.holdsAny_of_classes (fun i => h.lacks (Bool.eq_false_iff.mpr (obs i (List.mem_finRange i)))) fun k hk => h.lacks ?_
  simp only [List.mem_cons, List.not_mem_nil, or_false] at hk
  rcases hk with rfl | rfl | rfl | rfl
  · exact monitor
  · exact time
  · exact store
  · exact work

theorem State.muteBench_benchOf (s : State) (b c : BenchId) : (s.muteBench b).benchOf c = s.benchOf c := rfl

@[simp] theorem State.closeSession_benchOf (s : State) (b : BenchId) :
    (s.closeSession b).benchOf b = ((s.stripped b).benchOf b).closed := by
  rw [State.closeSession_eq, State.onBench_benchOf, State.muteBench_benchOf]

theorem State.closeSession_benchOf_ne {c : BenchId} (s : State) (other : c ≠ b) : (s.closeSession b).benchOf c = s.benchOf c := by
  rw [State.closeSession_eq, State.onBench_benchOf_ne _ _ _ _ other, State.muteBench_benchOf, (s.stripped_drops b).others c other]

theorem State.closeSession_txn (s : State) (b : BenchId) : ((s.closeSession b).benchOf b).txn = none := by
  rw [State.closeSession_benchOf, Bench.closed_txn, State.stripped, State.dropTxn_txn]

/-- What the close changes besides is no lease. -/
theorem State.onBench_muteBench_holdsAny (s : State) (b c : BenchId) :
    ((s.muteBench b).onBench b Bench.closed).holdsAny c = s.holdsAny c := by
  have monitor : (((s.muteBench b).onBench b Bench.closed).benchOf c).monitor = (s.benchOf c).monitor := by
    by_cases same : c = b
    · rw [same, State.onBench_benchOf, Bench.closed_monitor, State.muteBench_benchOf]
    · rw [State.onBench_benchOf_ne _ _ _ _ same, State.muteBench_benchOf]
  unfold State.holdsAny
  rw [monitor]
  rfl

theorem State.closeSession_holdsAny (s : State) (b : BenchId) : (s.closeSession b).holdsAny b = false := by
  rw [State.closeSession_eq, State.onBench_muteBench_holdsAny, State.stripped]
  exact State.holdsAny_of_drops (State.dropTxn_drops _ b) (s.dropLeases_holdsAny b)

/-- What another bench lacks it still lacks once a session has closed. -/
theorem State.closeSession_lacks {c : BenchId} (s : State) (b : BenchId) (lacks : s.holdsAny c = false) :
    (s.closeSession b).holdsAny c = false := by
  rw [State.closeSession_eq, State.onBench_muteBench_holdsAny]
  exact State.holdsAny_of_drops (s.stripped_drops b) lacks

theorem State.onBench_muteBench_board (s : State) (b : BenchId) :
    ((s.muteBench b).onBench b Bench.closed).bench.funcs = s.bench.funcs ∧
      ((s.muteBench b).onBench b Bench.closed).bench.perstHigh = s.bench.perstHigh := ⟨rfl, rfl⟩

/-- The close of a session changes benches and leases, and of the functions and of PERST_N nothing. -/
theorem State.closeSession_board (s : State) (b : BenchId) :
    (s.closeSession b).bench.funcs = s.bench.funcs ∧ (s.closeSession b).bench.perstHigh = s.bench.perstHigh := by
  obtain ⟨funcs, perst⟩ := (s.stripped b).onBench_muteBench_board b
  have board := (s.stripped_drops b).board
  rw [State.closeSession_eq, funcs, perst, board]
  exact ⟨rfl, rfl⟩

/-- The start's state is not the session's. -/
theorem State.onBench_muteBench_start (s : State) (b : BenchId) : ((s.muteBench b).onBench b Bench.closed).start = s.start := rfl

theorem State.closeSession_start (s : State) (b : BenchId) : (s.closeSession b).start = s.start := by
  rw [State.closeSession_eq, State.onBench_muteBench_start, (s.stripped_drops b).frame]

end Sys2Proof.Machine
end

section
/-! HELLO (R324): the session it opens, and why its SESSION_ID has not been used. -/

namespace Sys2Proof.Machine

variable {s : State} {b : BenchId} {p : Packet} {slot : Fin 8}

/-! ### The session -/

/-- The SESSION_ID that a session opened now gets. -/
def State.nextId (s : State) : Word := freshId s.bench.usedIds s.freeWord (s.bench.usedIds.length + 2)

/-- The bench of a session that has just been opened. -/
theorem State.openSession_benchOf (s : State) (b : BenchId) (slot : Fin 8) :
    (s.openSession b slot).benchOf b =
      { s.benchOf b with
        lastDgram := s.now
        notifyAt := if 2 ≤ b.val ∧ (s.benchOf b).stat.irqStatus &&& (s.benchOf b).stat.irqEnable ≠ 0 then some (s.now + 1000000000)
          else none
        stat := { (s.benchOf b).stat with
          isOpen := true, keySlot := BitVec.ofNat 3 (if b.val < 2 then 0 else slot.val), sessionId := s.nextId } } :=
  (State.onBench_benchOf s.drawn b _)

@[simp] theorem State.openSession_start (s : State) (b : BenchId) (slot : Fin 8) : (s.openSession b slot).start = s.start := rfl

/-! ### The commands -/

/-- The session that HELLO opens on a bench (R324). -/
def State.greeted (s : State) (b : BenchId) (slot : Fin 8) : State :=
  (if (s.benchOf b).stat.isOpen then s.closeSession b else s).openSession b slot

theorem State.greeted_start (s : State) (b : BenchId) (slot : Fin 8) : (s.greeted b slot).start = s.start := by
  unfold State.greeted
  rw [State.openSession_start]
  split
  · exact s.closeSession_start b
  · rfl

/-- HELLO on a PCI Express bench opens a session, closing the one before (R324). -/
theorem cmdHello_pcie (fn : b.val < 2) (sized : p.sized 2 1) :
    cmdHello b 0 p s = (s.greeted b 0, Reply.ok [((s.greeted b 0).benchOf b).stat.sessionId,
      BitVec.ofNat 32 (1024 + 65536 * b.val), (s.greeted b 0).start.fwVersion]) := by
  have notTaken : decide (2 ≤ b.val) = false := decide_eq_false (by omega)
  unfold cmdHello
  rw [State.answer_acts]
  · simp only [if_pos fn, State.greeted_start]
    rfl
  · intro e he
    rcases List.mem_append.mp he with he | he
    · exact tests_pass (beq_iff_eq.mpr sized.1) rfl rfl (by rw [sized.2.1]; rfl) e he
    · rw [List.mem_singleton.mp he, notTaken]
      rfl

/-- HELLO on a management port that has no session opens one as command 0 of it (R324). -/
theorem cmdHello_port (port : 2 ≤ b.val) (closed : (s.benchOf b).stat.isOpen = false) (sized : p.sized 2 1) :
    cmdHello b slot p s =
      ((s.openSession b slot).onBench b fun y =>
        { y with peer := (s.benchOf b).peer, lastSeq := (s.benchOf b).lastSeq, stat := { y.stat with postTail := 1, postHead := 1 } },
       Reply.ok [s.nextId, BitVec.ofNat 32 (1024 + 65536 * b.val), s.start.fwVersion]) := by
  unfold cmdHello
  rw [State.answer_acts]
  · simp only [closed, if_neg (show ¬ b.val < 2 by omega), State.onBench_benchOf, State.openSession_benchOf]
    rfl
  · intro e he
    rcases List.mem_append.mp he with he | he
    · exact tests_pass (beq_iff_eq.mpr sized.1) rfl rfl (by rw [sized.2.1]; rfl) e he
    · rw [List.mem_singleton.mp he, closed]
      simp

/-! ### A SESSION_ID is new -/

/-- A word that no session may take: zero, and the ones used. -/
abbrev takenId (used : List Word) (w : Word) : Prop := w = 0 ∨ used.contains w

/-- Where one of the words from a start on is not taken, the word found is not taken. -/
theorem freshId_free (used : List Word) (n : Nat) (w : Word) (k : Nat) (hk : k ≤ n) (free : ¬ takenId used (w + BitVec.ofNat 32 k)) :
    ¬ takenId used (freshId used w n) := by
  induction n generalizing w k with
  | zero =>
    have : k = 0 := by omega
    subst this
    simpa [freshId] using free
  | succ n ih =>
    unfold freshId
    split
    · next bad =>
      obtain ⟨j, rfl⟩ : ∃ j, k = j + 1 := by
        cases k with
        | zero => exact absurd bad (by simpa using free)
        | succ j => exact ⟨j, rfl⟩
      refine ih (w + 1) j (by omega) ?_
      rwa [show w + 1 + BitVec.ofNat 32 j = w + BitVec.ofNat 32 (j + 1) by
        rw [Nat.add_comm j 1, BitVec.ofNat_add]; exact BitVec.add_assoc _ _ _]
    · next good => exact good

/-- Of more successive words than are taken, one is not taken (the pigeonhole principle). -/
theorem exists_free (used : List Word) (w : Word) (room : used.length + 2 < 2 ^ 32) :
    ∃ k ≤ used.length + 2, ¬ takenId used (w + BitVec.ofNat 32 k) := by
  by_contra none
  push Not at none
  have maps : ∀ k ∈ Finset.range (used.length + 2), w + BitVec.ofNat 32 k ∈ (0 :: used).toFinset := by
    intro k hk
    have := none k (by have := Finset.mem_range.mp hk; omega)
    simpa [takenId] using this
  have distinct : Set.InjOn (fun k : Nat => w + BitVec.ofNat 32 k) (Finset.range (used.length + 2)) := by
    intro j hj k hk same
    have hj := Finset.mem_range.mp hj
    have hk := Finset.mem_range.mp hk
    have := congrArg BitVec.toNat (add_left_cancel same)
    simp only [BitVec.toNat_ofNat] at this
    rwa [Nat.mod_eq_of_lt (by omega), Nat.mod_eq_of_lt (by omega)] at this
  have few := Finset.card_le_card_of_injOn _ maps distinct
  have := (0 :: used).toFinset_card_le
  simp only [Finset.card_range, List.length_cons] at few this
  omega

theorem State.nextId_free (room : s.bench.usedIds.length + 2 < 2 ^ 32) : ¬ takenId s.bench.usedIds s.nextId := by
  obtain ⟨k, hk, free⟩ := exists_free s.bench.usedIds s.freeWord room
  exact freshId_free _ _ _ k hk free

/-- Settles O2: HELLO passes its tests and opens the session; among one word more than are taken one is free. -/
theorem helloOpensASession : Obligations.HelloOpensASession := by
  unfold Obligations.HelloOpensASession
  refine ⟨fun s b slot p ready fn sized => ⟨?_, ?_⟩, fun s b slot p serving port key closed sized => ?_,
    fun s b slot room => ?_⟩
  · refine exec_of_hand ?_ ready sized (by decide) (cmdHello_pcie fn sized)
    exact congrArg Host.Outcome.next (if_pos fn)
  · rw [State.openSession_benchOf]
  · let v : State := { s with bench := { s.bench with keySeq := vset s.bench.keySeq slot (s.bench.keySeq[slot] + 1) } }
    have row : exec (.hello b slot p) s = .next (v.openFrom b slot none (s.bench.keySeq[slot] + 1) p) := by
      refine congrArg Host.Outcome.next ((if_neg (by omega)).trans ?_)
      rw [State.helloRow, serving, key]
      rfl
    have greet := cmdHello_port (s := v) (slot := slot) port closed sized
    rw [State.openFrom, greet] at row
    refine ⟨_, _, row, ?_⟩
    simp only [State.onBench_benchOf, State.openSession_benchOf, if_neg (show ¬ b.val < 2 by omega)]
    refine ⟨trivial, ?_, trivial, trivial, trivial, ?_⟩
    · rw [BitVec.toNat_ofNat]; omega
    · exact vset_getElem .. |>.trans (if_pos rfl)
  · have fresh := State.nextId_free room
    rw [State.openSession_benchOf]
    exact ⟨fun zero => fresh (.inl zero), fun used => fresh (.inr (by simpa using used)), rfl⟩

end Sys2Proof.Machine
end

section
/-! NOTIFY repeats, an idle session closes, and the answers to bad packets and to a firmware fault (R313, R321, R323, R335, R336). -/

namespace Sys2Proof.Machine

variable {s : State} {b : BenchId} {p : Packet}

/-! ### NOTIFY -/

/-- What a bench datagram leaves of a bench: its own sequence number counts at most. -/
theorem State.sendDatagram_benchOf (s : State) (b : BenchId) (type cmd : Nat) (offset aux : Word) (payload : List Word) :
    ∃ n, (s.sendDatagram b type cmd offset aux payload).benchOf b = { s.benchOf b with ownSeq := n } := by
  unfold State.sendDatagram
  dsimp only
  split
  · exact ⟨_, State.onBench_benchOf s b _⟩
  · exact ⟨_, rfl⟩

/-- NOTIFY counts where a peer is known and repeats a second later (R321, R329). -/
theorem State.notify_benchOf (s : State) (b : BenchId) :
    ((s.notify b).benchOf b).notifyAt = some (s.now + 1000000000) ∧
      ((s.notify b).benchOf b).stat.notifySent =
        (s.benchOf b).stat.notifySent + (if (s.benchOf b).peer.isSome then 1 else 0) := by
  obtain ⟨n, sent⟩ := s.sendDatagram_benchOf b 0x07 0 0 (putAt (s.benchOf b).stat.irqStatus 0) []
  unfold State.notify
  rw [State.onBench_benchOf, sent]
  refine ⟨rfl, ?_⟩
  dsimp only
  split
  · rfl
  · exact (BitVec.add_zero _).symm

/-! ### A firmware fault (R336) -/

/-- A command that changes nothing leaves the module as it was, whatever its tests say. -/
theorem State.answer_unchanged (ts : List (Bool × BitVec 8)) {r : State × Reply} (same : r.1 = s) : (s.answer ts r).1 = s := by
  unfold State.answer
  split
  · rfl
  · exact same

/-- A fault of the firmware in a command that changes nothing is an event and an INTERNAL, whether the command acted or not. -/
theorem State.hand_internal_unchanged {op : BitVec 8} {run : State → State × Reply} {acted : Bool} (ready : s.ready b)
    (short : p.len ≤ 1024) (meets : p.meets = .firmware acted) (same : ∀ u, (run u).1 = u) :
    s.hand b op p (fun t => atOnce (run t)) =
      State.replied b op p ((s.handed b).raise srcCmdInternal 0, Reply.plain stInternal) := by
  rw [State.hand_internal ready short meets]
  have left : (atOnce (run (s.handed b))).1 = s.handed b := same _
  rw [left, ite_self]

/-! ### Bad packets (R313, R335) -/

/-- An opcode that Table 13-3 does not list is answered BAD_OPCODE and does nothing. -/
theorem State.runOp_unknown {op : BitVec 8} (unknown : knownOp op.toNat = false) :
    s.runOp b op p = (s, some (Reply.plain stBadOpcode)) := by
  have other (n : Nat) (known : knownOp n = true) : op.toNat ≠ n := fun e => by rw [← e, unknown] at known; cases known
  unfold State.runOp State.runLow State.runObs State.runHigh
  split
  · split
    case h_13 => rfl
    all_goals next e => exact absurd e (other _ rfl)
  · split
    · split
      case h_19 => rfl
      all_goals next e => exact absurd e (other _ rfl)
    · split
      case h_22 => rfl
      all_goals next e => exact absurd e (other _ rfl)

/-- An opcode that Table 13-3 does not list reaches nothing on the Exchange. -/
theorem busRanges_unknown {op : Nat} (unknown : knownOp op = false) : busRanges op p = [] := by
  have other (n : Nat) (known : knownOp n = true) : op ≠ n := fun e => by rw [← e, unknown] at known; cases known
  unfold busRanges
  split
  case h_7 => rfl
  all_goals exact absurd rfl (other _ rfl)

/-- A packet whose LENGTH is out of range waits for no lock. -/
theorem State.rawLocked_length {ws : List Word} (bad : fieldOf (ws.getD 0 0) 0 16 < 2 ∨ 1024 < fieldOf (ws.getD 0 0) 0 16) :
    s.rawLocked ws = false := by
  have out : (decide (2 ≤ fieldOf (ws.getD 0 0) 0 16) && decide (fieldOf (ws.getD 0 0) 0 16 ≤ 1024)) = false := by
    rcases bad with bad | bad
    · rw [decide_eq_false (by omega), Bool.false_and]
    · rw [decide_eq_false (p := _ ≤ 1024) (by omega), Bool.and_false]
  unfold State.rawLocked
  dsimp only
  rw [out, Bool.false_and]

/-- The opcode of word 0. -/
theorem opcode_toNat (w : Word) : ((w >>> 24).setWidth 8 : BitVec 8).toNat = fieldOf w 24 8 := by
  simp [fieldOf]

/-- A packet of an unknown opcode waits for no lock. -/
theorem State.rawLocked_unknown {ws : List Word} (unknown : knownOp (fieldOf (ws.getD 0 0) 24 8) = false) :
    s.rawLocked ws = false := by
  unfold State.rawLocked State.busLocked
  dsimp only
  rw [busRanges_unknown unknown, List.any_nil, Bool.and_false]

/-- Raw words that can be taken at once are taken and answered. -/
theorem State.handRaw_ready {ws : List Word} (ready : s.ready b) (unlocked : s.rawLocked ws = false) :
    s.handRaw b ws = ((s.posted b).carryRaw b ws).serve := by
  simp [State.handRaw, ready.1, ready.2, unlocked]

theorem badLength_answered {ws : List Word} (ready : s.ready b)
    (bad : fieldOf (ws.getD 0 0) 0 16 < 2 ∨ 1024 < fieldOf (ws.getD 0 0) 0 16) :
    s.handRaw b ws = (State.answered b ((ws.getD 0 0 >>> 24).setWidth 8) (ws.getD 1 0) false
      (s.handed b, some (Reply.plain stBadLength))).serve := by
  rw [State.handRaw_ready ready (State.rawLocked_length bad), State.carryRaw]
  dsimp only
  rw [if_pos bad, State.handed]

theorem badOpcode_answered {ws : List Word} (ready : s.ready b) (least : 2 ≤ fieldOf (ws.getD 0 0) 0 16)
    (most : fieldOf (ws.getD 0 0) 0 16 ≤ 1024) (whole : fieldOf (ws.getD 0 0) 0 16 = ws.length)
    (unknown : knownOp ((ws.getD 0 0 >>> 24).setWidth 8 : BitVec 8).toNat = false) :
    s.handRaw b ws = (State.answered b ((ws.getD 0 0 >>> 24).setWidth 8) (ws.getD 1 0) true
      (s.handed b, some (Reply.plain stBadOpcode))).serve := by
  rw [State.handRaw_ready ready (State.rawLocked_unknown (by rw [← opcode_toNat]; exact unknown)), State.carryRaw]
  dsimp only
  rw [if_neg (by omega), if_pos (.inr whole), whole, Nat.sub_self, State.runOp_unknown unknown]
  rfl

/-- Settles O12: each row from what it does, the close from what the end of its leases and its transaction leaves. -/
theorem sessionsCloseAndBadPackets : Obligations.SessionsCloseAndBadPackets := by
  unfold Obligations.SessionsCloseAndBadPackets
  refine ⟨fun s port at' due past enabled => ?_, fun s port opened lacks idle => ?_, fun s b => ?_,
    fun s b p acted ready short meets => ⟨?_, ?_⟩, fun s b ws ready => ⟨fun bad => ?_, fun least most whole unknown => ?_⟩⟩
  · obtain ⟨again, counted⟩ := s.notify_benchOf (portBench port)
    have said := s.notify_says (portBench port)
    refine ⟨s.notify (portBench port), ?_, again, counted, said.1, State.sameMemory_of_mem (by rw [said.1])⟩
    simp only [exec, execNotifyRepeat, due, if_pos (And.intro past enabled)]
  · refine congrArg Host.Outcome.next (if_pos ⟨opened, ?_, idle⟩)
    rw [lacks]; rfl
  · dsimp only
    rw [State.closeSession_txn, State.closeSession_benchOf]
    exact ⟨rfl, rfl, rfl, rfl, rfl, rfl, rfl, rfl, rfl, s.closeSession_holdsAny b⟩
  · exact congrArg Host.Outcome.next (State.hand_internal_unchanged ready short meets fun u => State.answer_unchanged _ rfl)
  · exact congrArg Host.Outcome.next (State.hand_internal_unchanged ready short meets fun u => State.answer_unchanged _ rfl)
  · exact congrArg Host.Outcome.next (badLength_answered ready bad)
  · exact congrArg Host.Outcome.next (badOpcode_answered ready least most whole unknown)

end Sys2Proof.Machine
end

section
/-! The address map (R358, Table 14-1), and what a burst to an address in no region does. -/

namespace Sys2Proof.Machine

variable {s : State} {m : MasterId} {a n : Nat}

/-! ### The map -/

/-- An address lies in a region of Table 14-1, or in the address-zero window as REMAP shows it (R358). -/
def State.Mapped (s : State) (a : Nat) : Prop :=
  (a < 0x800000 ∧ (s.move.exch.ctrl.remap = true ∨ a < 0x40000)) ∨ (0x10000000 ≤ a ∧ a ≤ 0x1003FFFF) ∨
  (0x20000000 ≤ a ∧ a ≤ 0x207FFFFF) ∨ (0x100000000 ≤ a ∧ a ≤ 0x100FFFFFF) ∨ (0x200000000 ≤ a ∧ a ≤ 0x20DFFFFFF) ∨
  (0x300000000 ≤ a ∧ a ≤ 0x301FFFFFF) ∨ (0x400000000 ≤ a ∧ a ≤ 0x400FFFFFF) ∨ (0xF00000000 ≤ a ∧ a ≤ 0xFFFFFFFFF) ∨
  (0x20000000000 ≤ a ∧ a ≤ 0x3EFFFFFFFFF)

/-- The address map of Table 14-1 with its bases as numbers. -/
theorem State.targetOf_numbers (s : State) (m : MasterId) (a : Nat) : s.targetOf m a =
    if a < 0x800000 then
      if s.move.exch.ctrl.remap then some (1, 0x20000000 + a) else if a < 0x40000 then some (0, a) else none
    else if 0x10000000 ≤ a ∧ a < 0x10040000 then some (0, a - 0x10000000)
    else if 0x20000000 ≤ a ∧ a < 0x20800000 then some (1, a)
    else if 0x100000000 ≤ a ∧ a < 0x101000000 then some (2, a)
    else if 0x200000000 ≤ a ∧ a < 0x20E000000 then some (3, a)
    else if 0x300000000 ≤ a ∧ a < 0x302000000 then some (4, a)
    else if 0x400000000 ≤ a ∧ a < 0x401000000 then some (5, a)
    else if 0xF00000000 ≤ a ∧ a < 0xF80000000 then if m.val = 7 then none else some (6, a)
    else if 0xF80000000 ≤ a ∧ a < 0x1000000000 then if m.val = 7 then none else some (7, a)
    else if 0x20000000000 ≤ a ∧ a < 0x3F000000000 then some (8 + (s.chanOf (pageOf ((a - 0x20000000000) / 64))).val / 8, a)
    else none := rfl

theorem State.targetOf_unmapped (out : ¬ s.Mapped a) : s.targetOf m a = none := by
  unfold State.Mapped at out
  simp only [not_or] at out
  obtain ⟨window, rom, sram, table, ledger, shelf, egress, bridges, granary⟩ := out
  rw [State.targetOf_numbers]
  by_cases low : a < 0x800000
  · rw [if_pos low, if_neg (fun remap => window ⟨low, .inl remap⟩), if_neg (fun small => window ⟨low, .inr small⟩)]
  · rw [if_neg low, if_neg (by omega), if_neg (by omega), if_neg (by omega), if_neg (by omega), if_neg (by omega), if_neg (by omega),
      if_neg (by omega), if_neg (by omega), if_neg (by omega)]

theorem State.targetOf_mapped (inside : s.Mapped a) (local' : m.val ≠ 7) : (s.targetOf m a).isSome = true := by
  rw [State.targetOf_numbers]
  by_cases low : a < 0x800000
  · have small (fixed : ¬ s.move.exch.ctrl.remap = true) : a < 0x40000 := by
      rcases inside with ⟨-, remap | small⟩ | rest
      · exact absurd remap fixed
      · exact small
      · omega
    rw [if_pos low]
    split
    · rfl
    · next fixed => rw [if_pos (small fixed)]; rfl
  · have region : (0x10000000 ≤ a ∧ a ≤ 0x1003FFFF) ∨ (0x20000000 ≤ a ∧ a ≤ 0x207FFFFF) ∨ (0x100000000 ≤ a ∧ a ≤ 0x100FFFFFF) ∨
        (0x200000000 ≤ a ∧ a ≤ 0x20DFFFFFF) ∨ (0x300000000 ≤ a ∧ a ≤ 0x301FFFFFF) ∨ (0x400000000 ≤ a ∧ a ≤ 0x400FFFFFF) ∨
        (0xF00000000 ≤ a ∧ a ≤ 0xFFFFFFFFF) ∨ (0x20000000000 ≤ a ∧ a ≤ 0x3EFFFFFFFFF) :=
      inside.resolve_left fun window => low window.1
    rw [if_neg low]
    repeat' split
    any_goals rfl
    all_goals omega

/-! ### Counting a burst -/

/-- What a burst's end counts lies in the Exchange. -/
theorem State.countBurst_eq (s : State) (m : MasterId) (a n : Nat) (granted : Bool) (code : BitVec 2) :
    s.countBurst m a n granted code = { s with move := (s.countBurst m a n granted code).move } := by
  unfold State.countBurst
  dsimp only
  split <;> rfl

/-- A refused access is counted by its response, and its address is kept (R362). -/
theorem State.countBurst_failed (s : State) (m : MasterId) (a n : Nat) (granted : Bool) {code : BitVec 2} (failed : code ≠ respComplete) :
    let x := (s.countBurst m a n granted code).move.exch.stat
    x.unmapped = (if code = respUnmapped then s.move.exch.stat.unmapped + 1 else s.move.exch.stat.unmapped) ∧
    x.targetFault = (if code = respFault then s.move.exch.stat.targetFault + 1 else s.move.exch.stat.targetFault) ∧
    x.lockRefused = (if code = respLock then s.move.exch.stat.lockRefused + 1 else s.move.exch.stat.lockRefused) ∧
    x.lastErrAddr = BitVec.ofNat 44 a := by
  unfold State.countBurst
  dsimp only
  rw [if_neg failed]
  exact ⟨rfl, rfl, rfl, rfl⟩

/-! ### Accesses to an address in no region -/

theorem State.busRead_unmapped (none' : s.targetOf m a = none) :
    s.busRead m a n = (s.countBurst m a 0 false respUnmapped, respUnmapped, []) := by
  unfold State.busRead; rw [none']

theorem State.busWrite_unmapped (none' : s.targetOf m a = none) (bs : List (Option Byte)) :
    s.busWrite m a bs = (s.countBurst m a 0 false respUnmapped, respUnmapped) := by
  unfold State.busWrite; rw [none']

/-- A range inside one KiB is one piece (R360). -/
theorem kibPieces_one (some' : 1 ≤ n) (inside : a % 1024 + n ≤ 1024) : kibPieces a n = [(a, n)] := by
  have count : (a + n + 1023) / 1024 - a / 1024 = 1 := by omega
  unfold kibPieces
  rw [if_neg (by omega), count]
  simp only [List.range_one, List.map_cons, List.map_nil, Nat.add_zero]
  rw [Nat.max_eq_left (by omega), Nat.min_eq_left (by omega), Nat.add_sub_cancel_left]

/-- A read of at most 1 KiB that reaches no bridge is one access and one response. -/
theorem State.serveBurst_read {u : Burst} (bridge : s.burstBridge u = none) (read : u.write = false) (some' : 1 ≤ u.len)
    (inside : u.addr.toNat % 1024 + u.len ≤ 1024) :
    s.serveBurst u =
      (s.busRead u.master u.addr.toNat u.len).1.emit (.response u.master (s.busRead u.master u.addr.toNat u.len).2.1
        (if (s.busRead u.master u.addr.toNat u.len).2.1 = respComplete then (s.busRead u.master u.addr.toNat u.len).2.2 else [])) := by
  unfold State.serveBurst
  rw [bridge, read, kibPieces_one some' inside]
  rfl

/-! ### A burst that nothing holds -/

/-- A burst without a lock, which nothing holds, is served at once, and no command that a lock held is taken (R362, R367). -/
theorem State.exec_burst_served {u : Burst} (plain : u.lock = .none) (up : u.master.val = 7 → s.upFull = false)
    (free : s.mustWait u = false) : exec (.exchangeBurst u) s = .next (s.serveBurst u) := by
  have served : s.burst u = s.serveBurst u := by
    unfold State.burst State.grantBurst
    have place : ¬ (u.master.val = 7 ∧ s.upFull = true) := fun h => Bool.false_ne_true ((up h.1).symm.trans h.2)
    simp [plain, place, free]
  change Host.Outcome.next (s.served (s.burst u)) = _
  rw [served, State.served_of_kept fun l hl => by rwa [(s.serveBurst_sameLocks u).1]]

/-- Settles O45: the map case by case of its regions; what has no target is counted and answered UNMAPPED. -/
theorem addressesOutsideRegionsAreUnmapped : Obligations.AddressesOutsideRegionsAreUnmapped := by
  unfold Obligations.AddressesOutsideRegionsAreUnmapped
  intro s m a mapped
  refine ⟨fun out => ⟨fun n => ?_, fun bs => ?_, ?_⟩, fun inside local' => State.targetOf_mapped inside local'⟩
  · obtain ⟨unmapped, -, -, address⟩ := s.countBurst_failed m a 0 false (code := respUnmapped) (by decide)
    exact ⟨_, State.busRead_unmapped (State.targetOf_unmapped out), s.countBurst_eq .., unmapped, address⟩
  · exact ⟨_, State.busWrite_unmapped (State.targetOf_unmapped out) bs, s.countBurst_eq ..⟩
  · rintro u rfl rfl read plain free up some' inside
    have none' : s.targetOf u.master u.addr.toNat = none := State.targetOf_unmapped out
    have bridge : s.burstBridge u = none := by unfold State.burstBridge; rw [none']; rfl
    refine ⟨_, State.exec_burst_served plain up free, ?_⟩
    rw [State.serveBurst_read bridge read some' inside, State.busRead_unmapped none', s.countBurst_eq]
    exact ⟨rfl, rfl⟩

end Sys2Proof.Machine
end

section
/-! A write burst into an internal memory (R362, R363): what it stores, what it leaves, and what it counts. -/

namespace Sys2Proof.Machine

variable {s t u : State} {m : MasterId} {a k : Nat} {bs : List Byte}

/-! ### What answers a burst and changes no memory -/

/-- Nothing changed but the Exchange's queues and counts, the free values drawn, and what left the module. -/
structure State.Answers (s t : State) : Prop where
  frame : t = { s with move := t.move, freeCount := t.freeCount, out := t.out }
  ctrl : t.move.exch.ctrl = s.move.exch.ctrl

theorem State.Answers.refl (s : State) : s.Answers s := ⟨rfl, rfl⟩

theorem State.Answers.trans (h : s.Answers t) (k : t.Answers u) : s.Answers u :=
  ⟨by rw [k.frame, h.frame], k.ctrl.trans h.ctrl⟩

theorem State.Answers.mem (h : s.Answers t) : t.mem = s.mem := by rw [h.frame]

theorem State.Answers.targetOf (h : s.Answers t) : t.targetOf m a = s.targetOf m a := by
  have gran : t.gran = s.gran := by rw [h.frame]
  have hash (p : Nat) : t.hashOf p = s.hashOf p := by
    unfold State.hashOf
    rw [gran]
  have chan (p : Nat) : t.chanOf p = s.chanOf p := Fin.ext (by change t.hashOf p % 32 = s.hashOf p % 32; rw [hash])
  unfold State.targetOf
  simp only [h.ctrl, chan]

theorem State.countBurst_answers (s : State) (m : MasterId) (a n : Nat) (granted : Bool) (code : BitVec 2) :
    s.Answers (s.countBurst m a n granted code) := by
  unfold State.countBurst
  dsimp only
  split <;> exact ⟨rfl, rfl⟩

theorem State.took_answers (s : State) (k : Nat) (m : MasterId) : s.Answers (s.took k m) := by
  unfold State.took
  split <;> exact ⟨rfl, rfl⟩

theorem State.endBridged_answers (s : State) (v : Burst) (code : BitVec 2) : s.Answers (s.endBridged v code) := by
  have emitted (w : State) (o : Output) : w.Answers (w.emit o) := ⟨rfl, rfl⟩
  have drawn : s.Answers (s.freeBytes v.len).1 := ⟨rfl, rfl⟩
  unfold State.endBridged
  dsimp only
  split
  · exact (s.countBurst_answers ..).trans (emitted _ _)
  · exact (drawn.trans (State.countBurst_answers ..)).trans (emitted _ _)

theorem State.drainBridge_answers (s : State) (b : Fin 2) : s.Answers (s.drainBridge b) :=
  foldl_keeps s.Answers _ (fun v w kept => kept.trans (v.endBridged_answers w _)) _ _ ⟨rfl, rfl⟩

/-! ### The writes that a port's next access comes after (R364) -/

/-- No bridge's queue holds a write of a port. -/
def State.noWrites (s : State) (m : MasterId) : Prop :=
  ∀ b : Fin 2, ((s.move.exch.down[b]).any fun v => v.master == m && v.write) = false

/-- One bridge of `drainFor`. -/
def State.drainOwn (s : State) (m : MasterId) (k : Nat) (b : Fin 2) : State :=
  if bridgeOf k = some b ∨ (s.move.exch.down[b]).any (fun v => v.master == m && v.write) then s.drainBridge b else s

theorem State.drainFor_eq (s : State) (m : MasterId) (k : Nat) : s.drainFor m k = (s.drainOwn m k 0).drainOwn m k 1 := rfl

theorem State.drainOwn_answers (s : State) (m : MasterId) (k : Nat) (b : Fin 2) : s.Answers (s.drainOwn m k b) := by
  unfold State.drainOwn
  split
  · exact s.drainBridge_answers b
  · exact .refl s

theorem State.drainFor_answers (s : State) (m : MasterId) (k : Nat) : s.Answers (s.drainFor m k) :=
  (s.drainOwn_answers m k 0).trans (State.drainOwn_answers _ m k 1)

theorem State.drainOwn_down (s : State) (m : MasterId) (k : Nat) (b : Fin 2) :
    (((s.drainOwn m k b).move.exch.down[b]).any fun v => v.master == m && v.write) = false ∧
      ∀ c : Fin 2, c ≠ b → (s.drainOwn m k b).move.exch.down[c] = s.move.exch.down[c] := by
  by_cases drains : bridgeOf k = some b ∨ (s.move.exch.down[b]).any (fun v => v.master == m && v.write)
  · obtain ⟨down, -, -⟩ := s.drainBridge_waits b
    rw [State.drainOwn, if_pos drains]
    simp only [down]
    exact ⟨by simp, fun c other => vmod_ne _ _ other⟩
  · rw [State.drainOwn, if_neg drains]
    exact ⟨Bool.eq_false_iff.mpr fun some' => drains (.inr some'), fun c _ => rfl⟩

theorem State.drainFor_noWrites (s : State) (m : MasterId) (k : Nat) : (s.drainFor m k).noWrites m := by
  obtain ⟨first, -⟩ := s.drainOwn_down m k 0
  obtain ⟨second, kept⟩ := (s.drainOwn m k 0).drainOwn_down m k 1
  intro b
  rw [State.drainFor_eq]
  match b with
  | 0 => rwa [kept 0 (by decide)]
  | 1 => exact second

/-- An access to a target behind no bridge, whose port has no write in a queue, comes after nothing. -/
theorem State.drainFor_idle (bridge : bridgeOf k = none) (none' : s.noWrites m) : s.drainFor m k = s := by
  have idle (b : Fin 2) : s.drainOwn m k b = s := by
    unfold State.drainOwn
    rw [bridge, none' b]
    simp
  rw [State.drainFor_eq, idle 0, idle 1]

/-! ### The strobes of a whole write -/

/-- A fold that adds each byte to an open run leaves one run, from its offset on. -/
theorem foldl_run {f : List (Nat × List Byte) × Nat × Option (Nat × List Byte) → Option Byte →
      List (Nat × List Byte) × Nat × Option (Nat × List Byte)}
    (adds : ∀ n o run v, f ([], n, some (o, run)) (some v) = ([], n + 1, some (o, run ++ [v])))
    (bs : List Byte) (n o : Nat) (run : List Byte) :
    (bs.map some).foldl f ([], n, some (o, run)) = ([], n + bs.length, some (o, run ++ bs)) := by
  induction bs generalizing run n with
  | nil => simp
  | cons b bs ih =>
    rw [List.map_cons, List.foldl_cons, adds, ih, List.append_assoc, List.singleton_append, List.length_cons, Nat.add_assoc,
      Nat.add_comm 1]

/-- The runs of a fold, with the one that is still open. -/
def closeRun (r : List (Nat × List Byte) × Nat × Option (Nat × List Byte)) : List (Nat × List Byte) :=
  match r.2.2 with
  | some e => r.1 ++ [e]
  | none => r.1

/-- `strobed` opens a run at the first byte that is strobed on, adds the next ones to it, and ends with the open one. -/
theorem strobed_fold : ∃ f, (∀ data, strobed data = closeRun (data.foldl f ([], 0, none))) ∧
    (∀ v, f ([], 0, none) (some v) = ([], 1, some (0, [v]))) ∧
    ∀ n o run v, f ([], n, some (o, run)) (some v) = ([], n + 1, some (o, run ++ [v])) := by
  refine ⟨_, fun data => rfl, ?_, ?_⟩
  · intro v; rfl
  · intro n o run v; rfl

/-- A write of which every byte is strobed on is one run. -/
theorem strobed_whole (bs : List Byte) : strobed (bs.map some) = if bs = [] then [] else [(0, bs)] := by
  cases bs with
  | nil => rfl
  | cons b bs =>
    obtain ⟨f, fold, opens, adds⟩ := strobed_fold
    rw [fold, List.map_cons, List.foldl_cons, opens, foldl_run adds]
    rfl

/-- A memory after a whole write. -/
theorem strobed_store (mem : Memory) (a : Nat) (bs : List Byte) :
    (strobed (bs.map some)).foldl (fun m e => m.store (a + e.1) e.2) mem = mem.store a bs := by
  rw [strobed_whole]
  split
  · next empty => rw [empty]; rfl
  · rfl

/-! ### Internal memories -/

theorem State.targetWrite_internal (low : 1 ≤ k) (high : k ≤ 4) (s : State) (a : Nat) (bs : List Byte) :
    s.targetWrite k a (bs.map some) = ({ s with mem := s.mem.store a bs }, respComplete) := by
  unfold State.targetWrite
  rw [if_neg (by omega), if_neg (by omega), strobed_store]

theorem State.targetRead_internal (low : 1 ≤ k) (high : k ≤ 4) (s : State) (a n : Nat) :
    s.targetRead k a n = (s, respComplete, s.mem.load a n) := by
  unfold State.targetRead
  rw [if_neg (by omega), if_neg (by omega), if_neg (by omega)]

theorem bridgeOf_internal (high : k ≤ 4) : bridgeOf k = none := by
  unfold bridgeOf
  rw [if_neg (by omega), if_neg (by omega)]

/-- A write burst into an internal memory stores its bytes and completes. -/
theorem State.busWrite_internal (target : s.targetOf m a = some (k, a)) (low : 1 ≤ k) (high : k ≤ 4) :
    s.busWrite m a (bs.map some) =
      ((({ (s.drainFor m k).took k m with mem := s.mem.store a bs } : State).countBurst m a bs.length true respComplete), respComplete) := by
  have mem : ((s.drainFor m k).took k m).mem = s.mem := ((s.drainFor_answers m k).trans (State.took_answers ..)).mem
  unfold State.busWrite
  rw [target]
  simp only [State.targetWrite_internal low high, mem]
  congr 2
  rw [List.filter_eq_self.mpr (by simp), List.length_map]

/-- A read burst of an internal memory brings its bytes. -/
theorem State.busRead_internal {c : Nat} (target : s.targetOf m a = some (k, c)) (low : 1 ≤ k) (high : k ≤ 4) (none' : s.noWrites m)
    (n : Nat) : s.busRead m a n = ((s.took k m).countBurst m a n true respComplete, respComplete, s.mem.load c n) := by
  have mem : (s.took k m).mem = s.mem := (State.took_answers ..).mem
  unfold State.busRead
  rw [target]
  simp only [State.drainFor_idle (bridgeOf_internal high) none', State.targetRead_internal low high, mem, if_true]

/-- What a burst's end counts leaves the bridges' queues. -/
theorem State.countBurst_noWrites (none' : s.noWrites m) (a n : Nat) : (s.countBurst m a n true respComplete).noWrites m := by
  have waits := s.countBurst_sameWaits m a n true respComplete
  unfold State.noWrites
  rw [waits.down]
  exact none'

/-- A completed burst is counted at its port (R362). -/
theorem State.countBurst_ports (s : State) (m : MasterId) (a n : Nat) :
    ((s.countBurst m a n true respComplete).move.exch.ports[m]).bursts = s.move.exch.ports[m].bursts + 1 ∧
      ((s.countBurst m a n true respComplete).move.exch.ports[m]).bytes = s.move.exch.ports[m].bytes + BitVec.ofNat 64 n := by
  unfold State.countBurst
  simp [State.onExch]

theorem State.took_ports (s : State) (k : Nat) (m : MasterId) : (s.took k m).move.exch.ports = s.move.exch.ports := by
  unfold State.took
  split <;> rfl

theorem State.took_down (s : State) (k : Nat) (m : MasterId) : (s.took k m).move.exch.down = s.move.exch.down := by
  unfold State.took
  split <;> rfl

/-- Settles O22: the write stores its bytes and nothing else; the read after it comes after no write of its port. -/
theorem busWritesAreVisible : Obligations.BusWritesAreVisible := by
  unfold Obligations.BusWritesAreVisible
  intro s m k a bs wf target low high
  have drained := (s.drainFor_answers m k).trans (State.took_answers _ k m)
  obtain ⟨w, hw⟩ : ∃ w : State, w = { (s.drainFor m k).took k m with mem := s.mem.store a bs } := ⟨_, rfl⟩
  have written : s.busWrite m a (bs.map some) = (w.countBurst m a bs.length true respComplete, respComplete) := by
    rw [hw]; exact State.busWrite_internal target low high
  have stored : (w.countBurst m a bs.length true respComplete).mem = s.mem.store a bs := by
    rw [(w.countBurst_answers ..).mem, hw]
  have wTarget : w.targetOf m a = some (k, a) := by
    have same : w.targetOf m a = ((s.drainFor m k).took k m).targetOf m a := by rw [hw]; rfl
    rw [same, drained.targetOf, target]
  have none' : w.noWrites m := by
    unfold State.noWrites
    rw [hw]
    simp only [State.took_down]
    exact s.drainFor_noWrites m k
  dsimp only
  rw [written]
  refine ⟨rfl, ?_, fun j out => ?_, ?_, fun own => ?_⟩
  · rw [stored, Memory.load_store wf]
  · rw [stored, Memory.byte_store_out out]
  · rw [State.busRead_internal (by rw [(w.countBurst_answers ..).targetOf, wTarget]) low high (State.countBurst_noWrites none' _ _),
      stored, Memory.load_store wf]
  · have idle : s.noWrites m := fun b => by
      rw [List.any_eq_false]
      intro v hv
      have := own b v hv
      simp_all
    have ports : w.move.exch.ports = s.move.exch.ports := by
      rw [hw, State.drainFor_idle (bridgeOf_internal high) idle]
      exact State.took_ports ..
    rw [← ports]
    exact w.countBurst_ports m a _

end Sys2Proof.Machine
end

section
/-! What the Exchange's own work touches (R358 to R369): its queues, locks and counts, the Granary and the memories that bursts
reach, the free values drawn, and the responses that leave the module. -/

namespace Sys2Proof.Machine

variable {s t u : State}

/-- Nothing changed but what bursts change: the Exchange, memory and the Granary's channels, what left the module, and free
values; and of the Exchange neither its settings nor its count of broken locks. -/
structure State.Bus (s t : State) : Prop where
  frame : t = { s with move := t.move, gran := t.gran, mem := t.mem, freeCount := t.freeCount, out := t.out }
  exch : t.move = { s.move with exch := t.move.exch }
  masks : t.gran.masks = s.gran.masks
  ctrl : t.move.exch.ctrl = s.move.exch.ctrl
  lockBreaks : t.move.exch.stat.lockBreaks = s.move.exch.stat.lockBreaks
  breakSeen : t.move.exch.stat.breakSeen = s.move.exch.stat.breakSeen
  wf : Memory.wf s.mem = true → Memory.wf t.mem = true
  out : s.out <+: t.out
  free : s.freeCount ≤ t.freeCount

theorem State.Bus.refl (s : State) : s.Bus s := ⟨rfl, rfl, rfl, rfl, rfl, rfl, id, List.prefix_rfl, Nat.le_refl _⟩

theorem State.Bus.trans (h : s.Bus t) (k : t.Bus u) : s.Bus u where
  frame := by rw [k.frame, h.frame]
  exch := by rw [k.exch, h.exch]
  masks := k.masks.trans h.masks
  ctrl := k.ctrl.trans h.ctrl
  lockBreaks := k.lockBreaks.trans h.lockBreaks
  breakSeen := k.breakSeen.trans h.breakSeen
  wf wf := k.wf (h.wf wf)
  out := h.out.trans k.out
  free := h.free.trans k.free

theorem State.Bus.foldl {α : Type} {f : State → α → State} (step : ∀ (v : State) x, v.Bus (f v x)) (l : List α) (s : State) :
    s.Bus (l.foldl f s) :=
  foldl_keeps s.Bus f (fun v x kept => kept.trans (step v x)) l s (.refl s)

theorem State.Bus.now (h : s.Bus t) : t.now = s.now := by rw [h.frame]

/-- The address map is not the bursts'. -/
theorem State.Bus.targetOf (h : s.Bus t) (m : MasterId) (a : Nat) : t.targetOf m a = s.targetOf m a := by
  have hash (p : Nat) : t.hashOf p = s.hashOf p := by
    unfold State.hashOf
    rw [h.masks]
  have chan (p : Nat) : t.chanOf p = s.chanOf p := Fin.ext (by change t.hashOf p % 32 = s.hashOf p % 32; rw [hash])
  unfold State.targetOf
  simp only [h.ctrl, chan]

/-- A change of the Exchange that leaves its settings and its count of broken locks. -/
theorem State.Bus.onExch (s : State) {f : Exchange → Exchange} (ctrl : (f s.move.exch).ctrl = s.move.exch.ctrl)
    (stat : (f s.move.exch).stat = s.move.exch.stat) : s.Bus (s.onExch f) :=
  ⟨rfl, rfl, rfl, ctrl, congrArg ExchStat.lockBreaks stat, congrArg ExchStat.breakSeen stat, id, List.prefix_rfl, Nat.le_refl _⟩

theorem State.Bus.emit (s : State) (o : Output) : s.Bus (s.emit o) :=
  ⟨rfl, rfl, rfl, rfl, rfl, rfl, id, List.prefix_append _ _, Nat.le_refl _⟩

theorem State.freeBytes_bus (s : State) (n : Nat) : s.Bus (s.freeBytes n).1 :=
  ⟨rfl, rfl, rfl, rfl, rfl, rfl, id, List.prefix_rfl, Nat.le_add_right _ _⟩

/-! ### Granules -/

/-- A change of channels alone. -/
theorem State.Bus.onChan (s : State) (c : ChanId) (f : GranChan → GranChan) : s.Bus (s.onChan c f) :=
  ⟨rfl, rfl, rfl, rfl, rfl, rfl, id, List.prefix_rfl, Nat.le_refl _⟩

/-- A change of bytes alone that keeps the memory canonical. -/
theorem State.Bus.onMem (s : State) {mem : Memory} (wf : Memory.wf s.mem = true → Memory.wf mem = true) : s.Bus { s with mem := mem } :=
  ⟨rfl, rfl, rfl, rfl, rfl, rfl, wf, List.prefix_rfl, Nat.le_refl _⟩

theorem State.reach_bus (s : State) (c : ChanId) : s.Bus (s.reach c) := .onChan ..

theorem State.reject_bus (s : State) (c : ChanId) : s.Bus (s.reject c) := .onChan ..

theorem State.granuleRead_bus (s : State) (g : Nat) : s.Bus (s.granuleRead g).1 := by
  unfold State.granuleRead
  dsimp only
  split
  · exact s.reject_bus _
  · exact (s.reach_bus _).trans (.onChan ..)

theorem State.granuleWrite_bus (s : State) (g off : Nat) (data : List Byte) : s.Bus (s.granuleWrite g off data).1 := by
  unfold State.granuleWrite
  dsimp only
  split
  · exact s.reject_bus _
  · exact ((s.reach_bus _).trans (.onChan ..)).trans (.onMem _ Memory.wf_store)

/-- Strobed bytes keep the canonical form. -/
theorem strobed_wf (bs : List (Option Byte × Nat)) (a : Nat) (m : Memory) (wf : Memory.wf m = true) :
    Memory.wf (bs.foldl (fun (m : Memory) e => match e.1 with
      | some b => m.store (a + e.2) [b]
      | none => m) m) = true := by
  refine foldl_keeps (fun m : Memory => Memory.wf m = true) _ (fun m e wf => ?_) _ _ wf
  split
  · exact Memory.wf_store wf
  · exact wf

theorem State.granuleStrobed_bus (s : State) (g : Nat) (bs : List (Option Byte)) : s.Bus (s.granuleStrobed g bs).1 := by
  unfold State.granuleStrobed
  split
  · exact .refl s
  · split
    · exact s.granuleWrite_bus ..
    · dsimp only
      split
      · exact s.reject_bus _
      · exact ((s.reach_bus _).trans (.onChan ..)).trans (.onMem _ fun wf => strobed_wf _ _ _ wf)

theorem State.granRead_bus (s : State) (a n : Nat) : s.Bus (s.granRead a n).1 := by
  unfold State.granRead
  refine foldl_keeps (fun r : State × Option (List Byte) => s.Bus r.1) _ (fun r e kept => ?_) _ _ (.refl s)
  exact kept.trans (r.1.granuleRead_bus _)

theorem State.granWrite_bus (s : State) (a : Nat) (data : List Byte) : s.Bus (s.granWrite a data).1 := by
  unfold State.granWrite
  refine foldl_keeps (fun r : State × Bool => s.Bus r.1) _ (fun r e kept => ?_) _ _ (.refl s)
  exact kept.trans (r.1.granuleWrite_bus ..)

theorem State.granStrobed_bus (s : State) (a : Nat) (data : List (Option Byte)) : s.Bus (s.granStrobed a data).1 := by
  unfold State.granStrobed
  refine foldl_keeps (fun r : State × Bool => s.Bus r.1) _ (fun r e kept => ?_) _ _ (.refl s)
  exact kept.trans (r.1.granuleStrobed_bus ..)

/-! ### Targets -/

theorem State.targetRead_bus (s : State) (k a n : Nat) : s.Bus (s.targetRead k a n).1 := by
  -- A variable in the place of the Granary's read, so that no check evaluates it.
  obtain ⟨F, hF⟩ : ∃ F : State → Nat → Nat → State × Option (List Byte), F = State.granRead := ⟨_, rfl⟩
  have read : s.Bus (F s a n).1 := by rw [hF]; exact s.granRead_bus a n
  unfold State.targetRead
  rw [← hF]
  split
  · exact .refl s
  · split
    · exact s.freeBytes_bus n
    · split
      · split
        · exact .refl s
        · split
          · next u bs answer => rw [answer] at read; exact read
          · next u answer => rw [answer] at read; exact read
      · exact .refl s

theorem State.targetWrite_bus (s : State) (k a : Nat) (data : List (Option Byte)) : s.Bus (s.targetWrite k a data).1 := by
  obtain ⟨F, hF⟩ : ∃ F : State → Nat → List (Option Byte) → State × Bool, F = State.granStrobed := ⟨_, rfl⟩
  have written : s.Bus (F s a data).1 := by rw [hF]; exact s.granStrobed_bus a data
  unfold State.targetWrite
  rw [← hF]
  split
  · exact .refl s
  · split
    · split
      · exact .refl s
      · exact written
    · exact .onMem s fun wf => foldl_keeps (fun m : Memory => Memory.wf m = true) _ (fun m e wf => Memory.wf_store wf) _ _ wf

/-! ### Bursts -/

theorem State.countBurst_bus (s : State) (m : MasterId) (a n : Nat) (granted : Bool) (code : BitVec 2) :
    s.Bus (s.countBurst m a n granted code) := by
  unfold State.countBurst
  dsimp only
  split <;> exact ⟨rfl, rfl, rfl, rfl, rfl, rfl, id, List.prefix_rfl, Nat.le_refl _⟩

theorem State.took_bus (s : State) (k : Nat) (m : MasterId) : s.Bus (s.took k m) := by
  unfold State.took
  split
  · exact .onExch s rfl rfl
  · exact .refl s

theorem State.endBridged_bus (s : State) (v : Burst) (code : BitVec 2) : s.Bus (s.endBridged v code) := by
  unfold State.endBridged
  dsimp only
  split
  · exact (s.countBurst_bus ..).trans (.emit ..)
  · exact ((s.freeBytes_bus v.len).trans (State.countBurst_bus ..)).trans (.emit ..)

theorem State.drainBridge_bus (s : State) (b : Fin 2) : s.Bus (s.drainBridge b) :=
  (State.Bus.onExch s rfl rfl).trans (.foldl (fun v w => v.endBridged_bus w respComplete) _ _)

theorem State.drainFor_bus (s : State) (m : MasterId) (k : Nat) : s.Bus (s.drainFor m k) := by
  refine .foldl (fun v b => ?_) _ s
  split
  · exact v.drainBridge_bus b
  · exact .refl v

theorem State.busRead_bus (s : State) (m : MasterId) (a n : Nat) : s.Bus (s.busRead m a n).1 := by
  unfold State.busRead
  split
  · dsimp only
    exact s.countBurst_bus ..
  · exact (((s.drainFor_bus ..).trans (State.took_bus ..)).trans (State.targetRead_bus ..)).trans (State.countBurst_bus ..)

theorem State.busWrite_bus (s : State) (m : MasterId) (a : Nat) (data : List (Option Byte)) : s.Bus (s.busWrite m a data).1 := by
  unfold State.busWrite
  split
  · dsimp only
    exact s.countBurst_bus ..
  · exact (((s.drainFor_bus ..).trans (State.took_bus ..)).trans (State.targetWrite_bus ..)).trans (State.countBurst_bus ..)

theorem State.serveBurst_bus (s : State) (v : Burst) : s.Bus (s.serveBurst v) := by
  unfold State.serveBurst
  split
  · exact (s.took_bus ..).trans (.onExch _ rfl rfl)
  · split
    · exact .foldl (fun w e => (w.busWrite_bus ..).trans (.emit ..)) _ s
    · exact .foldl (fun w e => (w.busRead_bus ..).trans (.emit ..)) _ s

/-! ### Locks and held bursts -/

theorem State.showLock_bus (s : State) : s.Bus s.showLock :=
  ⟨rfl, rfl, rfl, rfl, rfl, rfl, id, List.prefix_rfl, Nat.le_refl _⟩

theorem State.freeLock_bus (s : State) (m : MasterId) : s.Bus (s.freeLock m) :=
  (State.Bus.onExch s rfl rfl).trans (State.showLock_bus _)

theorem State.refuseLock_bus (s : State) (v : Burst) : s.Bus (s.refuseLock v) := (s.countBurst_bus ..).trans (.emit ..)

theorem State.countHold_bus (s : State) (h : HeldBurst) : s.Bus (s.countHold h) :=
  ⟨rfl, rfl, rfl, rfl, rfl, rfl, id, List.prefix_rfl, Nat.le_refl _⟩

theorem State.holdBurst_bus (s : State) (v : Burst) : s.Bus (s.holdBurst v) := .onExch s rfl rfl

theorem State.grantBurst_bus (s : State) (v : Burst) : s.Bus (s.grantBurst v) := by
  unfold State.grantBurst
  dsimp only
  split
  · exact (State.Bus.onExch s rfl rfl).trans (State.refuseLock_bus ..)
  · split
    · split
      · split
        · exact s.serveBurst_bus v
        · exact (s.freeLock_bus _).trans (State.refuseLock_bus ..)
      · exact ((State.Bus.onExch s rfl rfl).trans (State.showLock_bus _)).trans (State.serveBurst_bus ..)
      · exact s.serveBurst_bus v
    · split
      · exact (s.serveBurst_bus v).trans (State.freeLock_bus ..)
      · exact s.serveBurst_bus v

theorem State.settleHeld_bus (rest : List HeldBurst) (s : State) (before : List HeldBurst) : s.Bus (s.settleHeld before rest) := by
  induction rest generalizing s before with
  | nil => exact .onExch s rfl rfl
  | cons h rest ih =>
    rw [State.settleHeld]
    split
    · exact ih s _
    · exact (s.countHold_bus h).trans (ih (s.countHold h) _)

/-- The state in which a held burst is granted: it waits no longer. -/
def State.unheld (s : State) (h : HeldBurst) : State := (s.countHold h).onExch fun x => { x with held := x.held.erase h }

theorem State.unheld_bus (s : State) (h : HeldBurst) : s.Bus (s.unheld h) := (s.countHold_bus h).trans (.onExch _ rfl rfl)

theorem State.releaseHeldBursts_bus (n : Nat) (s : State) : s.Bus (State.releaseHeldBursts n s) := by
  induction n generalizing s with
  | zero => exact .refl s
  | succ n ih =>
    rw [State.releaseHeldBursts]
    split
    · exact State.settleHeld_bus ..
    · next h _ => exact ((s.unheld_bus h).trans (State.grantBurst_bus _ h.burst)).trans (ih _)

/-- The state in which the first request that waits for the upstream queue has entered it. -/
def State.fed (s : State) (v : Burst) (rest : List Burst) : State := (s.onExch fun x => { x with upWait := rest }).holdBurst v

theorem State.fed_bus (s : State) (v : Burst) (rest : List Burst) : s.Bus (s.fed v rest) :=
  (State.Bus.onExch s rfl rfl).trans (State.holdBurst_bus ..)

theorem State.feedUp_bus (n : Nat) (s : State) : s.Bus (State.feedUp n s) := by
  induction n generalizing s with
  | zero => exact .refl s
  | succ n ih =>
    rw [State.feedUp]
    split
    · split
      · exact .refl s
      · next v rest _ _ => exact ((s.fed_bus v rest).trans (State.releaseHeldBursts_bus ..)).trans (ih _)
    · exact .refl s

theorem State.proceed_bus (s : State) : s.Bus s.proceed := (State.releaseHeldBursts_bus ..).trans (State.feedUp_bus ..)

theorem State.serveBridges_bus (s : State) : s.Bus s.serveBridges := by
  unfold State.serveBridges
  split
  · exact .refl s
  · exact (State.Bus.foldl (fun v b => v.drainBridge_bus b) _ s).trans (State.proceed_bus _)

theorem State.dropLock_bus (s : State) (m : MasterId) : s.Bus (s.dropLock m) := (s.freeLock_bus m).trans (State.proceed_bus _)

theorem State.bridgeTimeout_bus (s : State) (v : Burst) : s.Bus (s.bridgeTimeout v) := by
  unfold State.bridgeTimeout
  split
  · dsimp only
    split
    · exact ((State.Bus.onExch s rfl rfl).trans (State.endBridged_bus ..)).trans (State.proceed_bus _)
    · exact (State.Bus.onExch s rfl rfl).trans (State.endBridged_bus ..)
  · exact .refl s

theorem State.burst_bus (s : State) (v : Burst) : s.Bus (s.burst v) := by
  unfold State.burst
  dsimp only
  split
  · exact (State.Bus.onExch s rfl rfl).trans (State.refuseLock_bus ..)
  · split
    · split
      · exact (s.dropLock_bus _).trans (State.refuseLock_bus ..)
      · exact s.refuseLock_bus v
    · split
      · exact .onExch s rfl rfl
      · split
        · exact s.holdBurst_bus v
        · split
          · exact (s.grantBurst_bus v).trans (State.proceed_bus _)
          · exact s.grantBurst_bus v

end Sys2Proof.Machine
end

section
/-! What proceeds once a lock has ended or a bridge has a place (R361, R364, R365, R367): every held burst that nothing holds any
more is granted, and what each grant leaves of the locks and of the breaks that wait. -/

namespace Sys2Proof.Machine

variable {s t u : State} {m : MasterId}

/-! ### Queues at the masters -/

/-- The held bursts and the requests for the upstream queue stay as they are. -/
structure State.SameHeld (s t : State) : Prop where
  held : t.move.exch.held = s.move.exch.held
  upWait : t.move.exch.upWait = s.move.exch.upWait

theorem State.SameHeld.refl (s : State) : s.SameHeld s := ⟨rfl, rfl⟩

theorem State.SameHeld.trans (h : s.SameHeld t) (k : t.SameHeld u) : s.SameHeld u :=
  ⟨k.held.trans h.held, k.upWait.trans h.upWait⟩

theorem State.SameHeld.of_waits (h : s.SameWaits t) : s.SameHeld t := ⟨h.held, h.upWait⟩

theorem State.SameHeld.of_move (h : t.move = s.move) : s.SameHeld t := by constructor <;> rw [h]

theorem State.SameHeld.emit (s : State) (o : Output) : s.SameHeld (s.emit o) := ⟨rfl, rfl⟩

theorem State.SameHeld.onExch (s : State) {f : Exchange → Exchange} (held : (f s.move.exch).held = s.move.exch.held)
    (upWait : (f s.move.exch).upWait = s.move.exch.upWait) : s.SameHeld (s.onExch f) := ⟨held, upWait⟩

theorem State.SameHeld.foldl {α : Type} {f : State → α → State} (step : ∀ (v : State) x, v.SameHeld (f v x)) (l : List α)
    (s : State) : s.SameHeld (l.foldl f s) :=
  foldl_keeps s.SameHeld f (fun v x kept => kept.trans (step v x)) l s (.refl s)

theorem State.took_held (s : State) (k : Nat) (m : MasterId) : s.SameHeld (s.took k m) := by
  unfold State.took
  split <;> exact ⟨rfl, rfl⟩

theorem State.drainFor_held (s : State) (m : MasterId) (k : Nat) : s.SameHeld (s.drainFor m k) := by
  refine .foldl (fun v b => ?_) _ s
  split
  · obtain ⟨-, held, upWait⟩ := v.drainBridge_waits b
    exact ⟨held, upWait⟩
  · exact .refl v

theorem State.busRead_held (s : State) (m : MasterId) (a n : Nat) : s.SameHeld (s.busRead m a n).1 := by
  unfold State.busRead
  split
  · dsimp only
    exact .of_waits (s.countBurst_sameWaits ..)
  · exact (((s.drainFor_held ..).trans (State.took_held ..)).trans (.of_move (State.targetRead_move ..))).trans
      (.of_waits (State.countBurst_sameWaits ..))

theorem State.busWrite_held (s : State) (m : MasterId) (a : Nat) (data : List (Option Byte)) :
    s.SameHeld (s.busWrite m a data).1 := by
  unfold State.busWrite
  split
  · dsimp only
    exact .of_waits (s.countBurst_sameWaits ..)
  · exact (((s.drainFor_held ..).trans (State.took_held ..)).trans (.of_move (State.targetWrite_move ..))).trans
      (.of_waits (State.countBurst_sameWaits ..))

theorem State.serveBurst_held (s : State) (v : Burst) : s.SameHeld (s.serveBurst v) := by
  unfold State.serveBurst
  split
  · exact (s.took_held ..).trans ⟨rfl, rfl⟩
  · split
    · exact .foldl (fun w e => (w.busWrite_held ..).trans (.emit ..)) _ s
    · exact .foldl (fun w e => (w.busRead_held ..).trans (.emit ..)) _ s

theorem State.refuseLock_held (s : State) (v : Burst) : s.SameHeld (s.refuseLock v) :=
  (State.SameHeld.of_waits (s.countBurst_sameWaits ..)).trans ⟨rfl, rfl⟩

theorem State.showLock_held (s : State) : s.SameHeld s.showLock := ⟨rfl, rfl⟩

theorem State.freeLock_held (s : State) (m : MasterId) : s.SameHeld (s.freeLock m) := ⟨rfl, rfl⟩

theorem State.grantBurst_held (s : State) (v : Burst) : s.SameHeld (s.grantBurst v) := by
  unfold State.grantBurst
  dsimp only
  split
  · exact (State.SameHeld.onExch s rfl rfl).trans (State.refuseLock_held ..)
  · split
    · split
      · split
        · exact s.serveBurst_held v
        · exact (s.freeLock_held _).trans (State.refuseLock_held ..)
      · exact ((State.SameHeld.onExch s rfl rfl).trans (State.showLock_held _)).trans (State.serveBurst_held ..)
      · exact s.serveBurst_held v
    · split
      · exact (s.serveBurst_held v).trans (State.freeLock_held ..)
      · exact s.serveBurst_held v

/-! ### What one grant does to the locks -/

theorem State.refuseLock_sameLocks (s : State) (v : Burst) : s.sameLocks (s.refuseLock v) :=
  State.sameLocks_trans (s.countBurst_sameLocks ..) ⟨rfl, rfl, rfl⟩

/-- A refused access is answered LOCK_REFUSED (R367). -/
theorem State.refuseLock_out (s : State) (v : Burst) : (s.refuseLock v).out = s.out ++ [.response v.master respLock []] := by
  unfold State.refuseLock
  rw [State.emit_out, s.countBurst_eq]

theorem State.freeLock_locks (s : State) (m : MasterId) :
    (s.freeLock m).move.exch.locks = s.move.exch.locks.filter fun l => l.owner != m := rfl

/-- A burst that is granted takes at most one lock, and takes it now. -/
theorem State.grantBurst_locks (s : State) (v : Burst) :
    ∀ k ∈ (s.grantBurst v).move.exch.locks, k ∈ s.move.exch.locks ∨ k.since = s.now := by
  intro k hk
  unfold State.grantBurst at hk
  dsimp only at hk
  split at hk
  · exact .inl (by rwa [(State.refuseLock_sameLocks _ v).1] at hk)
  · split at hk
    · split at hk
      · split at hk
        · exact .inl (by rwa [(s.serveBurst_sameLocks v).1] at hk)
        · rw [(State.refuseLock_sameLocks _ v).1, State.freeLock_locks] at hk
          exact .inl (List.mem_filter.mp hk).1
      · rw [(State.serveBurst_sameLocks _ v).1] at hk
        rcases List.mem_append.mp hk with hk | hk
        · exact .inl hk
        · rw [List.mem_singleton.mp hk]
          exact .inr rfl
      · exact .inl (by rwa [(s.serveBurst_sameLocks v).1] at hk)
    · split at hk
      · rw [State.freeLock_locks, (s.serveBurst_sameLocks v).1] at hk
        exact .inl (List.mem_filter.mp hk).1
      · exact .inl (by rwa [(s.serveBurst_sameLocks v).1] at hk)

/-- A break still waits for its owner's next LOCK or UNLOCK access, or that access has been refused (R368). -/
def State.breakTold (s : State) (m : MasterId) : Prop :=
  s.move.exch.broken.contains m = true ∨ Output.response m respLock [] ∈ s.out

theorem State.grantBurst_breakTold (v : Burst) (told : s.breakTold m) : (s.grantBurst v).breakTold m := by
  rcases told with broken | answered
  · by_cases next' : v.lock ≠ .none ∧ s.move.exch.broken.contains v.master = true
    · have granted : s.grantBurst v =
          (s.onExch fun x => { x with broken := x.broken.filter fun k => k != v.master }).refuseLock v := if_pos next'
      rw [granted]
      by_cases own : m = v.master
      · exact .inr (by rw [State.refuseLock_out, own]; simp)
      · refine .inl ?_
        rw [(State.refuseLock_sameLocks _ v).2.2]
        simp only [State.onExch, List.contains_iff_mem] at broken ⊢
        exact List.mem_filter.mpr ⟨broken, bne_iff_ne.mpr own⟩
    · refine .inl (Eq.trans (congrArg (List.contains · m) ?_) broken)
      unfold State.grantBurst
      dsimp only
      rw [if_neg next']
      split
      · split
        · split
          · exact (s.serveBurst_sameLocks v).2.2
          · exact (State.refuseLock_sameLocks _ v).2.2
        · exact (State.serveBurst_sameLocks _ v).2.2
        · exact (s.serveBurst_sameLocks v).2.2
      · split
        · exact (s.serveBurst_sameLocks v).2.2
        · exact (s.serveBurst_sameLocks v).2.2
  · exact .inr ((s.grantBurst_bus v).out.subset answered)

/-! ### What every grant keeps, all of them keep -/

/-- What counting a wait, a change of the queues and a grant keep, the bursts that proceed keep. -/
theorem State.proceed_keeps (P : State → Prop) (counts : ∀ v h, P v → P (v.countHold h))
    (queues : ∀ v held upWait, P v → P (v.onExch fun x => { x with held := held, upWait := upWait }))
    (grants : ∀ v w, P v → P (v.grantBurst w)) (start : P s) : P s.proceed := by
  have settles (rest : List HeldBurst) : ∀ v before, P v → P (v.settleHeld before rest) := by
    induction rest with
    | nil => exact fun v before kept => queues v before v.move.exch.upWait kept
    | cons h rest ih =>
      intro v before kept
      rw [State.settleHeld]
      split
      · exact ih v _ kept
      · exact ih _ _ (counts v h kept)
  have releases (n : Nat) : ∀ v, P v → P (State.releaseHeldBursts n v) := by
    induction n with
    | zero => exact fun v kept => kept
    | succ n ih =>
      intro v kept
      rw [State.releaseHeldBursts]
      split
      · exact settles _ v _ kept
      · next h _ => exact ih _ (grants _ _ (queues _ (v.move.exch.held.erase h) v.move.exch.upWait (counts v h kept)))
  have feeds (n : Nat) : ∀ v, P v → P (State.feedUp n v) := by
    induction n with
    | zero => exact fun v kept => kept
    | succ n ih =>
      intro v kept
      rw [State.feedUp]
      split
      · split
        · exact kept
        · next w rest _ _ =>
          have entered := queues v (v.fed w rest).move.exch.held rest kept
          exact ih _ (releases _ _ entered)
      · exact kept
  exact feeds _ _ (releases _ _ start)

/-! ### Nothing that could go on is left -/

/-- The bursts behind which a burst of the same master must wait (R364), told by the bursts alone. -/
def State.orderBehind (s : State) (before : List Burst) (v : Burst) : Bool :=
  (before.any fun w => w.master == v.master && (w.write || (s.burstTargets w).any (s.burstTargets v).contains)) ||
    (allFin 2).any fun b => ((s.burstTargets v).any fun t => bridgeOf t != some b) &&
      (s.move.exch.down[b]).any fun w => w.master == v.master && w.write

theorem State.orderWait_eq (s : State) (before : List HeldBurst) (v : Burst) :
    s.orderWait before v = s.orderBehind (before.map fun h => h.burst) v := by
  unfold State.orderWait State.orderBehind
  rw [List.any_map]
  rfl

/-- Each of some bursts is held by a lock, by an order or by a bridge. -/
def State.stuck (s : State) : List Burst → List Burst → Prop
  | _, [] => True
  | before, v :: rest => (s.lockWait v || s.orderBehind before v || s.bridgeWait v) = true ∧ s.stuck (before ++ [v]) rest

theorem State.grantable_nil (s : State) (rest before : List HeldBurst) :
    s.grantable before rest = [] ↔ s.stuck (before.map fun h => h.burst) (rest.map fun h => h.burst) := by
  induction rest generalizing before with
  | nil => exact ⟨fun _ => trivial, fun _ => rfl⟩
  | cons h rest ih =>
    rw [State.grantable, List.append_eq_nil_iff, ih, State.orderWait_eq]
    rw [List.map_append]
    refine and_congr ?_ Iff.rfl
    cases s.lockWait h.burst <;> cases s.orderBehind (before.map fun h => h.burst) h.burst <;> cases s.bridgeWait h.burst <;> simp

/-- A fold that keeps the better of two takes its result from the list. -/
theorem foldl_choice {α : Type} (better : α → α → Bool) (l : List α) (a : α) :
    l.foldl (fun b x => if better b x then x else b) a ∈ a :: l := by
  induction l generalizing a with
  | nil => exact List.mem_singleton.mpr rfl
  | cons x l ih =>
    rw [List.foldl_cons]
    rcases List.mem_cons.mp (ih (if better a x then x else a)) with same | later
    · rw [same]
      split
      · exact List.mem_cons_of_mem _ List.mem_cons_self
      · exact List.mem_cons_self
    · exact List.mem_cons_of_mem _ (List.mem_cons_of_mem _ later)

theorem State.grantable_sub (s : State) (rest before : List HeldBurst) : ∀ h ∈ s.grantable before rest, h ∈ rest := by
  induction rest generalizing before with
  | nil => exact fun h hh => hh
  | cons k rest ih =>
    intro h hh
    rw [State.grantable] at hh
    rcases List.mem_append.mp hh with hh | hh
    · split at hh
      · exact List.mem_cons.mpr (.inl (List.mem_singleton.mp hh))
      · exact absurd hh List.not_mem_nil
    · exact List.mem_cons_of_mem _ (ih _ h hh)

/-- Nothing is granted next just where every held burst is stuck. -/
theorem State.nextGrant_none : s.nextGrant = none ↔ s.stuck [] (s.move.exch.held.map fun h => h.burst) := by
  rw [← List.map_nil (f := fun h : HeldBurst => h.burst), ← State.grantable_nil]
  unfold State.nextGrant
  cases s.grantable [] s.move.exch.held with
  | nil => exact ⟨fun _ => rfl, fun _ => rfl⟩
  | cons e l => exact iff_of_false (fun h => nomatch h) (fun h => nomatch h)

/-- What is granted next is held. -/
theorem State.nextGrant_mem {h : HeldBurst} (next' : s.nextGrant = some h) : h ∈ s.move.exch.held := by
  unfold State.nextGrant at next'
  dsimp only at next'
  split at next'
  · exact nomatch next'
  · next e l candidates =>
    have chosen := foldl_choice (fun b x : HeldBurst × Nat × Nat => decide (x.2.2 < b.2.2)) ((e :: l).filter fun x => x.2.1 == e.2.1) e
    simp only [decide_eq_true_eq] at chosen
    have among : ∀ x ∈ e :: ((e :: l).filter fun x => x.2.1 == e.2.1), x.1 ∈ s.move.exch.held := by
      intro x hx
      have hx : x ∈ e :: l := by
        rcases List.mem_cons.mp hx with rfl | hx
        · exact List.mem_cons_self
        · exact (List.mem_filter.mp hx).1
      rw [← candidates] at hx
      obtain ⟨k, hk, rfl⟩ := List.mem_map.mp hx
      exact s.grantable_sub _ _ k hk
    rw [candidates] at next'
    exact Option.some.inj next' ▸ among _ chosen

/-- Settling the causes of waits changes no burst, no lock and no bridge. -/
theorem State.settleHeld_eq (rest : List HeldBurst) (s : State) (before : List HeldBurst) :
    ∃ held ports, s.settleHeld before rest = s.onExch (fun x => { x with held := held, ports := ports }) ∧
      held.map (fun h => h.burst) = (before ++ rest).map fun h => h.burst := by
  induction rest generalizing s before with
  | nil => exact ⟨before, s.move.exch.ports, rfl, by rw [List.append_nil]⟩
  | cons h rest ih =>
    rw [State.settleHeld]
    split
    · obtain ⟨held, ports, settled, bursts⟩ := ih s (before ++ [h])
      exact ⟨held, ports, settled, by rw [bursts, List.append_assoc, List.singleton_append]⟩
    · obtain ⟨held, ports, settled, bursts⟩ := ih (s.countHold h) (before ++ [{ h with since := s.now, cause := s.holdCause before h.burst }])
      exact ⟨held, ports, settled, by rw [bursts]; simp⟩

/-- What is stuck depends on the locks, the bridges and the address map alone. -/
theorem State.stuck_onExch (s : State) (held : List HeldBurst) (ports : Vector ExchPort 8) (rest before : List Burst) :
    (s.onExch fun x => { x with held := held, ports := ports }).stuck before rest ↔ s.stuck before rest := by
  induction rest generalizing before with
  | nil => exact Iff.rfl
  | cons v rest ih => exact and_congr Iff.rfl (ih _)

theorem State.settleHeld_nextGrant (none' : s.nextGrant = none) : (s.settleHeld [] s.move.exch.held).nextGrant = none := by
  obtain ⟨held, ports, settled, bursts⟩ := State.settleHeld_eq s.move.exch.held s []
  rw [settled, State.nextGrant_none, State.stuck_onExch]
  change s.stuck [] (held.map fun h => h.burst)
  rw [bursts]
  exact State.nextGrant_none.mp none'

theorem State.nextGrant_of_empty (empty : s.move.exch.held = []) : s.nextGrant = none := by
  rw [State.nextGrant_none, empty]
  trivial

/-- With a pass for each held burst, nothing that could go on is left. -/
theorem State.releaseHeldBursts_nextGrant (n : Nat) (s : State) (enough : s.move.exch.held.length ≤ n) :
    (State.releaseHeldBursts n s).nextGrant = none := by
  induction n generalizing s with
  | zero => exact State.nextGrant_of_empty (List.eq_nil_of_length_eq_zero (Nat.le_zero.mp enough))
  | succ n ih =>
    rw [State.releaseHeldBursts]
    split
    · next none' => exact State.settleHeld_nextGrant none'
    · next h next' =>
      refine ih _ ?_
      rw [(State.grantBurst_held ..).held]
      have fewer : (s.move.exch.held.erase h).length = s.move.exch.held.length - 1 :=
        List.length_erase_of_mem (State.nextGrant_mem next')
      have := List.length_pos_of_mem (State.nextGrant_mem next')
      change (s.move.exch.held.erase h).length ≤ n
      omega

theorem State.feedUp_nextGrant (n : Nat) (s : State) (none' : s.nextGrant = none) : (State.feedUp n s).nextGrant = none := by
  induction n generalizing s with
  | zero => exact none'
  | succ n ih =>
    rw [State.feedUp]
    split
    · split
      · exact none'
      · exact ih _ (State.releaseHeldBursts_nextGrant _ _ (Nat.le_refl _))
    · exact none'

/-- Once what can proceed has proceeded, nothing is left that could be granted. -/
theorem State.proceed_nextGrant (s : State) : s.proceed.nextGrant = none :=
  State.feedUp_nextGrant _ _ (State.releaseHeldBursts_nextGrant _ _ (Nat.le_refl _))

end Sys2Proof.Machine
end

section
/-! Bursts, locks, bridges and resets of the Exchange (R362 to R369): what each row does, and what a broken lock leaves. -/

namespace Sys2Proof.Machine

variable {s t u : State} {m : MasterId} {v : Burst}

/-! ### A burst that waits, and one that is refused -/

/-- After a row that keeps every lock no command is taken. -/
theorem State.served_of_sameLocks (same : t.move.exch.locks = s.move.exch.locks) : s.served t = t :=
  State.served_of_kept fun l hl => by rwa [same]

/-- A burst that keeps every lock is all that its row does. -/
theorem State.exec_burst_sameLocks (does : s.burst v = t) (same : t.move.exch.locks = s.move.exch.locks) :
    exec (.exchangeBurst v) s = .next t := by
  change Host.Outcome.next (s.served (s.burst v)) = _
  rw [does, State.served_of_sameLocks same]

/-- A burst without a lock, which something holds, waits in order with its cause (R364, R365, R367). -/
theorem State.exec_burst_held (plain : v.lock = .none) (up : v.master.val = 7 → s.upFull = false) (held : s.mustWait v = true) :
    exec (.exchangeBurst v) s = .next (s.holdBurst v) := by
  have place : ¬ (v.master.val = 7 ∧ s.upFull = true) := fun h => Bool.false_ne_true ((up h.1).symm.trans h.2)
  have waits : s.burst v = s.holdBurst v := by
    unfold State.burst
    simp [plain, place, held]
  exact State.exec_burst_sameLocks waits rfl

/-- A request of the host link that finds the upstream queue full waits for it (R365). -/
theorem State.exec_burst_up (plain : v.lock = .none) (port : v.master.val = 7) (full : s.upFull = true) :
    exec (.exchangeBurst v) s = .next (s.onExch fun x => { x with upWait := x.upWait ++ [v] }) := by
  have waits : s.burst v = s.onExch fun x => { x with upWait := x.upWait ++ [v] } := by
    unfold State.burst
    simp [plain, port, full]
  exact State.exec_burst_sameLocks waits rfl

/-- A master none of whose locks was broken. -/
theorem not_broken (whole : s.move.exch.broken.contains m = false) : m ∉ s.move.exch.broken := by
  simpa using whole

/-- A LOCK access from a port or to a target that has no locks is refused (R367). -/
theorem State.exec_lock_refused {k : Nat} (lock : v.lock = .lock) (whole : s.move.exch.broken.contains v.master = false)
    (target : (s.targetOf v.master v.addr.toNat).map (fun e => e.1) = some k) (bad : 4 ≤ v.master.val ∨ lockable k = false)
    (own : s.lockOf v.master = none) : exec (.exchangeBurst v) s = .next (s.refuseLock v) := by
  obtain ⟨e, he, rfl⟩ := Option.map_eq_some_iff.mp target
  have refused : s.badLock v e.1 = true := by
    unfold State.badLock
    rcases bad with bad | bad <;> simp [bad]
  have answered : s.burst v = s.refuseLock v := by
    unfold State.burst
    simp [lock, not_broken whole, he, own, refused]
  exact State.exec_burst_sameLocks answered (s.refuseLock_sameLocks v).1

/-- After a break the owner's next LOCK or UNLOCK access is refused (R368). -/
theorem State.exec_broken_refused (broken : s.move.exch.broken.contains v.master = true) (locks : v.lock = .lock ∨ v.lock = .unlock) :
    exec (.exchangeBurst v) s =
      .next ((s.onExch fun x => { x with broken := x.broken.filter fun k => k != v.master }).refuseLock v) := by
  have locked : v.lock ≠ .none := by rcases locks with lock | lock <;> rw [lock] <;> decide
  have answered : s.burst v = (s.onExch fun x => { x with broken := x.broken.filter fun k => k != v.master }).refuseLock v :=
    if_pos ⟨locked, broken⟩
  exact State.exec_burst_sameLocks answered (State.refuseLock_sameLocks _ v).1

/-- A refusal changes no byte and nothing outside the Exchange but what leaves the module. -/
theorem State.refuseLock_frame (s : State) (v : Burst) :
    s.refuseLock v = { s with move := (s.refuseLock v).move, out := s.out ++ [.response v.master respLock []] } := by
  rw [← State.refuseLock_out]
  unfold State.refuseLock
  rw [s.countBurst_eq]
  rfl

theorem State.refuseLock_counts (s : State) (v : Burst) :
    (s.refuseLock v).move.exch.stat.lockRefused = s.move.exch.stat.lockRefused + 1 := by
  obtain ⟨-, -, refused, -⟩ := s.countBurst_failed v.master v.addr.toNat 0 false (code := respLock) (by decide)
  exact refused

/-! ### A LOCK access that takes its target -/

/-- What a burst reaches that is no Granary address. -/
theorem State.burstTargets_of_low {k c : Nat} (target : s.targetOf v.master v.addr.toNat = some (k, c)) (high : k ≤ 4) :
    s.burstTargets v = [k] := by
  unfold State.burstTargets
  dsimp only
  rw [if_neg, target]
  intro gran
  rw [State.targetOf_numbers] at target
  unfold granBase granEnd at gran
  rw [if_neg (by omega), if_neg (by omega), if_neg (by omega), if_neg (by omega), if_neg (by omega), if_neg (by omega),
    if_neg (by omega), if_neg (by omega), if_neg (by omega), if_pos gran] at target
  have := congrArg Prod.fst (Option.some.inj target)
  dsimp only at this
  omega

/-- A burst to an internal memory that need not wait comes after no write of its own port. -/
theorem State.noWrites_of_free {k c : Nat} (target : s.targetOf v.master v.addr.toNat = some (k, c)) (high : k ≤ 4)
    (free : s.mustWait v = false) : s.noWrites v.master := by
  intro b
  unfold State.mustWait State.orderWait at free
  simp only [Bool.or_eq_false_iff, List.any_eq_false, Bool.and_eq_true, not_and] at free
  obtain ⟨⟨-, -, own⟩, -⟩ := free
  have none' := own b (List.mem_finRange b)
  rw [State.burstTargets_of_low target high] at none'
  rw [Bool.eq_false_iff]
  exact none' (by simp [bridgeOf_internal high])

/-- The module with a lock granted now. -/
def State.locked (s : State) (m : MasterId) (k : Nat) : State :=
  (s.onExch fun x => { x with locks := x.locks ++ [⟨m, k, s.now⟩] }).showLock

theorem State.locked_bus (s : State) (m : MasterId) (k : Nat) : s.Bus (s.locked m k) :=
  (State.Bus.onExch s rfl rfl).trans (State.showLock_bus _)

/-- A LOCK access that nothing holds and that is not refused takes its target and is served. -/
theorem State.exec_lock_granted {k c : Nat} (lock : v.lock = .lock) (whole : s.move.exch.broken.contains v.master = false)
    (low : v.master.val < 4) (target : s.targetOf v.master v.addr.toNat = some (k, c)) (able : lockable k = true)
    (own : s.lockOf v.master = none) (free : s.mustWait v = false) :
    exec (.exchangeBurst v) s = .next ((s.locked v.master k).serveBurst v) := by
  have good : s.badLock v k = false := by
    unfold State.badLock
    rw [own, able, decide_eq_false (by omega)]
    rfl
  have port : ¬ v.master.val = 7 := by omega
  have granted : s.burst v = (s.locked v.master k).serveBurst v := by
    unfold State.burst State.grantBurst
    simp [lock, not_broken whole, target, good, port, free, own]
    rfl
  change Host.Outcome.next (s.served (s.burst v)) = _
  rw [granted, State.served_of_kept fun l hl => ?_]
  rw [(State.serveBurst_sameLocks _ v).1]
  exact List.mem_append_left _ hl

/-- A read within 1 KiB of an internal memory that a lock was granted for is answered COMPLETE and changes no byte. -/
theorem State.locked_serveBurst {k c : Nat} (target : s.targetOf v.master v.addr.toNat = some (k, c)) (low : 1 ≤ k) (high : k ≤ 4)
    (free : s.mustWait v = false) (read : v.write = false) (some' : 1 ≤ v.len) (inside : v.addr.toNat % 1024 + v.len ≤ 1024) :
    ((s.locked v.master k).serveBurst v).out = s.out ++ [.response v.master respComplete (s.mem.load c v.len)] ∧
      ((s.locked v.master k).serveBurst v).mem = s.mem := by
  have target' : (s.locked v.master k).targetOf v.master v.addr.toNat = some (k, c) := by rw [(s.locked_bus ..).targetOf, target]
  have bridge : (s.locked v.master k).burstBridge v = none := by
    unfold State.burstBridge
    rw [target']
    exact bridgeOf_internal high
  have none' : (s.locked v.master k).noWrites v.master := State.noWrites_of_free (s := s) target high free
  have answers := ((s.locked v.master k).took_answers k v.master).trans (State.countBurst_answers _ v.master v.addr.toNat v.len true respComplete)
  rw [State.serveBurst_read bridge read some' inside, State.busRead_internal target' low high none']
  refine ⟨?_, answers.mem⟩
  rw [State.emit_out, State.countBurst_eq]
  have took : ((s.locked v.master k).took k v.master).out = s.out := by unfold State.took; split <;> rfl
  exact congrArg (· ++ _) took

/-! ### An UNLOCK access -/

/-- With nothing held, the upstream queue has a place. -/
theorem State.upFull_of_empty (held : s.move.exch.held = []) : s.upFull = false := by
  unfold State.upFull
  rw [held]
  rfl

/-- An UNLOCK access of the lock's owner to its target ends the lock, and with nothing held nothing else goes on (R367). -/
theorem State.exec_unlock {k : Nat} {l : ExchLock} (unlock : v.lock = .unlock) (whole : s.move.exch.broken.contains v.master = false)
    (target : (s.targetOf v.master v.addr.toNat).map (fun e => e.1) = some k) (own : s.lockOf v.master = some l) (same : l.target = k)
    (free : s.mustWait v = false) (held : s.move.exch.held = []) (up : s.move.exch.upWait = []) :
    exec (.exchangeBurst v) s = .next ((s.serveBurst v).freeLock v.master).serve := by
  obtain ⟨e, he, rfl⟩ := Option.map_eq_some_iff.mp target
  have queues := (s.serveBurst_held v).trans (State.freeLock_held _ v.master)
  have idle : ((s.serveBurst v).freeLock v.master).proceed = (s.serveBurst v).freeLock v.master :=
    State.proceed_idle (by rw [queues.upWait, up]) (by rw [queues.held, held])
  have ended : s.burst v = (s.serveBurst v).freeLock v.master := by
    unfold State.burst State.grantBurst
    simp [unlock, not_broken whole, State.upFull_of_empty held, free, he, own, same, idle]
  change Host.Outcome.next (s.served (s.burst v)) = _
  have mine : l.owner = v.master := beq_iff_eq.mp (List.find?_some (p := fun l : ExchLock => l.owner == v.master) own)
  rw [ended, State.served_of_ended (List.mem_of_find?_eq_some own) ?_]
  rw [State.freeLock_locks]
  intro kept
  exact absurd mine (bne_iff_ne.mp (List.mem_filter.mp kept).2)

/-- A master whose lock has been taken off holds none. -/
theorem State.freeLock_lockOf (s : State) (m : MasterId) : (s.freeLock m).lockOf m = none := by
  unfold State.lockOf
  rw [State.freeLock_locks, List.find?_eq_none]
  intro l hl
  have other := bne_iff_ne.mp (List.mem_filter.mp hl).2
  simpa using other

/-! ### A bridge that times out (R362) -/

/-- A request that ends with a fault is answered so, counted, and brings no bytes. -/
theorem State.endBridged_fault (s : State) (v : Burst) :
    (s.endBridged v respFault).out = s.out ++ [.response v.master respFault []] ∧
      (s.endBridged v respFault).move.exch.stat.targetFault = s.move.exch.stat.targetFault + 1 ∧
      (s.endBridged v respFault).mem = s.mem := by
  have ended : s.endBridged v respFault =
      (s.countBurst v.master v.addr.toNat 0 true respFault).emit (.response v.master respFault []) := by
    have fault : (v.write = true ∨ respFault ≠ respComplete) := .inr (by decide)
    unfold State.endBridged
    simp only [if_pos fault]
    rfl
  obtain ⟨-, faults, -, -⟩ := s.countBurst_failed v.master v.addr.toNat 0 true (code := respFault) (by decide)
  rw [ended]
  exact ⟨by rw [State.emit_out, State.countBurst_eq], faults, (s.countBurst_answers ..).mem⟩

/-- The module after a request at a bridge has timed out. -/
def State.timedOut (s : State) (v : Burst) (b : Fin 2) : State :=
  (s.onDown b fun q => q.erase { v with lock := .none }).endBridged v respFault

theorem State.exec_bridgeTimeout {b : Fin 2} (bridge : s.burstBridge v = some b) (held : s.move.exch.held = [])
    (up : s.move.exch.upWait = []) : exec (.bridgeTimeout v) s = .next (s.timedOut v b) := by
  have waits := State.endBridged_sameWaits (s.onDown b fun q => q.erase { v with lock := .none }) v respFault
  have idle : (s.timedOut v b).proceed = s.timedOut v b :=
    State.proceed_idle (waits.upWait.trans up) (waits.held.trans held)
  have ended : s.bridgeTimeout v = s.timedOut v b := by
    unfold State.bridgeTimeout
    rw [bridge]
    change (if _ then (s.timedOut v b).proceed else s.timedOut v b) = s.timedOut v b
    rw [idle, ite_self]
  change Host.Outcome.next (s.served (s.bridgeTimeout v)) = _
  have locks : (s.timedOut v b).move.exch.locks = s.move.exch.locks := (State.endBridged_sameLocks _ v respFault).1
  rw [ended, State.served_of_sameLocks locks]

theorem State.timedOut_down (s : State) (v : Burst) (b : Fin 2) :
    (s.timedOut v b).move.exch.down[b] = s.move.exch.down[b].erase { v with lock := .none } := by
  have waits := State.endBridged_sameWaits (s.onDown b fun q => q.erase { v with lock := .none }) v respFault
  have down : (s.timedOut v b).move.exch.down = vmod s.move.exch.down b fun q => q.erase { v with lock := .none } := waits.down
  simp [down]

/-! ### A bridge's queue (R365) -/

/-- A burst to a bridge enters its queue and changes nothing else but the bridge's turn. -/
theorem State.serveBurst_bridge {b : Fin 2} (bridge : s.burstBridge v = some b) :
    s.serveBurst v = (s.took (6 + b.val) v.master).onDown b fun q => q ++ burstPieces v := by
  unfold State.serveBurst
  rw [bridge]

/-- A burst that need not wait finds its place in the queue. -/
theorem State.bridge_room {b : Fin 2} (bridge : s.burstBridge v = some b) (free : s.mustWait v = false) :
    s.move.exch.down[b] = [] ∨ s.move.exch.down[b].length + (burstPieces v).length ≤ 8 := by
  unfold State.mustWait State.bridgeWait at free
  simp only [bridge, Bool.or_eq_false_iff, Bool.and_eq_false_iff, Bool.not_eq_false', List.isEmpty_iff, decide_eq_false_iff_not,
    not_lt] at free
  exact free.2

/-! ### Reset of a master (R369) -/

/-- The requests of a master at the bridges are completed first. -/
def State.drainMaster (s : State) (m : MasterId) : State :=
  (allFin 2).foldl (fun (t : State) b => if (t.move.exch.down[b]).any fun v => v.master == m then t.drainBridge b else t) s

/-- What a reset takes from the queues and breaks of a master. -/
def State.forget (s : State) (m : MasterId) : State :=
  s.onExch fun x =>
    { x with upWait := x.upWait.filter (fun v => v.master != m), held := x.held.filter fun h => h.burst.master != m
             broken := x.broken.filter fun k => k != m }

/-- A reset is counted (R369). -/
def State.countReset (s : State) : State := s.onExchStat fun x => { x with masterResets := x.masterResets + 1, resetSeen := true }

theorem State.reset_resets (s : State) (m : MasterId) :
    (((s.forget m).freeLock m).countReset).move.exch.stat.masterResets = s.move.exch.stat.masterResets + 1 := rfl

theorem State.reset_lockOf (s : State) (m : MasterId) : (((s.forget m).freeLock m).countReset).lockOf m = none :=
  State.freeLock_lockOf (s.forget m) m

theorem State.reset_mem (s : State) (m : MasterId) : (((s.forget m).freeLock m).countReset).mem = s.mem := by
  have forgets : s.Answers (s.forget m) := ⟨rfl, rfl⟩
  have frees (v : State) : v.Answers (v.freeLock m) := ⟨rfl, rfl⟩
  have counts (v : State) : v.Answers v.countReset := ⟨rfl, rfl⟩
  exact ((forgets.trans (frees _)).trans (counts _)).mem

theorem State.reset_broken (s : State) (m : MasterId) :
    (((s.forget m).freeLock m).countReset).move.exch.broken.contains m = false := by
  change (s.move.exch.broken.filter fun k => k != m).contains m = false
  simp

theorem State.resetMaster_none (s : State) (m : MasterId) :
    s.resetMaster m none =
      ((((s.drainMaster m).forget m).dropLock m).countReset).raise srcExchMasterReset (BitVec.ofNat 32 m.val) := by
  simp only [State.resetMaster, State.drainMaster, State.forget, State.countReset]

/-- A bridge that completes its queue counts no reset. -/
theorem State.drainBridge_resets (s : State) (b : Fin 2) :
    (s.drainBridge b).move.exch.stat.masterResets = s.move.exch.stat.masterResets := by
  refine foldl_keeps (fun t : State => t.move.exch.stat.masterResets = s.move.exch.stat.masterResets) _ (fun t v kept => ?_) _ _ rfl
  have counts (w : State) (a n : Nat) (g : Bool) (code : BitVec 2) :
      (w.countBurst v.master a n g code).move.exch.stat.masterResets = w.move.exch.stat.masterResets := by
    unfold State.countBurst
    dsimp only
    split <;> rfl
  unfold State.endBridged
  dsimp only
  rw [State.emit_move, counts]
  split
  · exact kept
  · exact kept

theorem State.drainMaster_waits (s : State) (m : MasterId) :
    s.SameHeld (s.drainMaster m) ∧ (s.drainMaster m).move.exch.stat.masterResets = s.move.exch.stat.masterResets ∧
      (s.drainMaster m).mem = s.mem := by
  refine foldl_keeps (fun t : State => s.SameHeld t ∧ t.move.exch.stat.masterResets = s.move.exch.stat.masterResets ∧ t.mem = s.mem) _
    (fun t b kept => ?_) _ _ ⟨.refl s, rfl, rfl⟩
  obtain ⟨held, resets, mem⟩ := kept
  split
  · obtain ⟨-, held', upWait'⟩ := t.drainBridge_waits b
    exact ⟨held.trans ⟨held', upWait'⟩, (t.drainBridge_resets b).trans resets, (t.drainBridge_answers b).mem.trans mem⟩
  · exact ⟨held, resets, mem⟩

/-- The module after the reset of a master, with nothing held: its requests are drained, its lock is free. -/
theorem State.resetMaster_idle (held : s.move.exch.held = []) (up : s.move.exch.upWait = []) :
    s.resetMaster m none =
      ((((s.drainMaster m).forget m).freeLock m).countReset).raise srcExchMasterReset (BitVec.ofNat 32 m.val) := by
  obtain ⟨queues, -, -⟩ := s.drainMaster_waits m
  have idle : (((s.drainMaster m).forget m).freeLock m).proceed = ((s.drainMaster m).forget m).freeLock m := by
    refine State.proceed_idle ?_ ?_
    · change (s.drainMaster m).move.exch.upWait.filter _ = []
      rw [queues.upWait, up]
      rfl
    · change (s.drainMaster m).move.exch.held.filter _ = []
      rw [queues.held, held]
      rfl
  rw [State.resetMaster_none, State.dropLock, idle]

/-- Settles O43: a burst is served, held, queued, refused or answered as the tests of its arrival say. -/
theorem exchangeServesBursts : Obligations.ExchangeServesBursts := by
  unfold Obligations.ExchangeServesBursts
  refine ⟨fun s u plain up => ⟨fun free => ?_, fun b free bridge => ?_, fun waits => ?_⟩, fun s u plain port full => ?_,
    fun s u t a lock whole low target able own free read high some' inside => ?_,
    fun s u t l unlock whole target own same free held up => ?_, fun s u t lock whole target bad own => ?_,
    fun s u b bridge held up => ?_, fun s m other held up => ?_⟩
  · exact State.exec_burst_served plain up free
  · rw [State.serveBurst_bridge bridge]
    have took := s.took_answers (6 + b.val) u.master
    refine ⟨?_, ?_, State.sameMemory_of_mem took.mem, State.bridge_room bridge free⟩
    · simp [State.onDown, State.onExch, State.took_down]
    · change (s.took (6 + b.val) u.master).out = s.out
      unfold State.took
      split <;> rfl
  · exact ⟨_, State.exec_burst_held plain up waits, rfl, rfl, fun _ => rfl⟩
  · exact ⟨_, State.exec_burst_up plain port full, rfl, rfl, rfl, fun _ => rfl⟩
  · have served : 1 ≤ t := by
      unfold lockable at able
      by_contra zero
      have zero : t = 0 := by omega
      rw [zero] at able
      exact absurd able (by decide)
    obtain ⟨out, mem⟩ := State.locked_serveBurst target served high free read some' inside
    exact ⟨_, _, State.exec_lock_granted lock whole low target able own free, (State.serveBurst_sameLocks _ u).1, out,
      State.sameMemory_of_mem mem⟩
  · refine ⟨_, State.exec_unlock unlock whole target own same free held up, State.freeLock_lockOf _ _, ?_⟩
    rw [State.freeLock_locks, (s.serveBurst_sameLocks u).1]
  · refine ⟨_, State.exec_lock_refused lock whole target bad own, rfl, s.refuseLock_out u, s.refuseLock_counts u,
      State.sameMemory_of_mem ?_⟩
    rw [s.refuseLock_frame u]
  · obtain ⟨out, faults, mem⟩ := State.endBridged_fault (s.onDown b fun q => q.erase { u with lock := .none }) u
    exact ⟨_, State.exec_bridgeTimeout bridge held up, out, s.timedOut_down u b, faults, State.sameMemory_of_mem mem⟩
  · obtain ⟨-, resets, mem⟩ := s.drainMaster_waits m
    have reset : s.masterReset m none =
        ((((s.drainMaster m).forget m).freeLock m).countReset).raise srcExchMasterReset (BitVec.ofNat 32 m.val) :=
      (if_neg other).trans (State.resetMaster_idle held up)
    refine ⟨_, congrArg (fun t => Host.Outcome.next (s.served t)) reset, ?_, ?_, ?_, State.sameMemory_of_mem ?_⟩
    · have none' : ((((s.drainMaster m).forget m).freeLock m).countReset).lockOf m = none := State.reset_lockOf _ m
      unfold State.lockOf at none' ⊢
      rw [State.raise_move, none']
    · rw [State.raise_move]
      exact State.reset_broken (s.drainMaster m) m
    · rw [State.raise_move, State.reset_resets, resets]
    · rw [State.raise_mem, State.reset_mem, mem]

/-! ### A lock that has stood 64 µs (R368) -/

/-- The break of a lock is counted, and its owner will be told. -/
def State.broke (s : State) (m : MasterId) : State :=
  (s.onExch fun x => { x with broken := m :: x.broken.filter fun k => k != m }).onExchStat fun x =>
    { x with lockBreaks := x.lockBreaks + 1, breakSeen := true }

theorem State.breakLock_some {l : ExchLock} (old : s.move.exch.locks.find? (fun k => decide (k.since + 64000 ≤ s.now)) = some l) :
    s.breakLock = ((s.broke l.owner).dropLock l.owner).raise srcExchLockBreak (BitVec.ofNat 32 l.owner.val) := by
  unfold State.breakLock
  rw [old]
  rfl

/-- What holds of the locks once the break of a master's lock is under way: those of other masters from before, and new ones. -/
structure State.AfterBreak (s : State) (m : MasterId) (t : State) : Prop where
  bus : (s.broke m).Bus t
  locks : ∀ k ∈ t.move.exch.locks, (k ∈ s.move.exch.locks ∧ k.owner ≠ m) ∨ k.since = s.now
  told : t.breakTold m

theorem State.dropLock_afterBreak (s : State) (m : MasterId) : s.AfterBreak m ((s.broke m).dropLock m) := by
  unfold State.dropLock
  refine State.proceed_keeps (s.AfterBreak m) (fun v h kept => ?_) (fun v held upWait kept => ?_) (fun v w kept => ?_) ?_
  · exact ⟨kept.bus.trans (v.countHold_bus h), kept.locks, kept.told⟩
  · exact ⟨kept.bus.trans (.onExch v rfl rfl), kept.locks, kept.told⟩
  · refine ⟨kept.bus.trans (v.grantBurst_bus w), fun k hk => ?_, State.grantBurst_breakTold w kept.told⟩
    rcases v.grantBurst_locks w k hk with old | new
    · exact kept.locks k old
    · exact .inr (new.trans kept.bus.now)
  · refine ⟨State.freeLock_bus _ m, fun k hk => ?_, .inl ?_⟩
    · obtain ⟨old, other⟩ := List.mem_filter.mp hk
      exact .inl ⟨old, bne_iff_ne.mp other⟩
    · change (m :: s.move.exch.broken.filter fun k => k != m).contains m = true
      simp

/-- With nothing held, the break of a lock is all that happens. -/
theorem State.dropLock_idle (held : s.move.exch.held = []) (up : s.move.exch.upWait = []) :
    (s.broke m).dropLock m = (s.broke m).freeLock m := State.proceed_idle up held

/-- What the module tells changes nothing that bursts wait for. -/
theorem State.stuck_tell (s : State) (bench : BenchBlock) (tally : TallyBlock) (out : List Output) (rest before : List Burst) :
    ({ s with bench := bench, tally := tally, out := out } : State).stuck before rest ↔ s.stuck before rest := by
  induction rest generalizing before with
  | nil => exact Iff.rfl
  | cons v rest ih => exact and_congr Iff.rfl (ih _)

/-- What an event adds to the Tally changes nothing that the Exchange grants by. -/
theorem State.TallyOnly.nextGrant (only : s.TallyOnly t) (none' : s.nextGrant = none) : t.nextGrant = none := by
  rw [State.nextGrant_none] at none' ⊢
  rw [only.1, State.stuck_tell]
  exact none'

/-- Settles O44: the break takes the lock off, what it held proceeds, and what that grants is new. -/
theorem lockBreaks : Obligations.LockBreaks := by
  unfold Obligations.LockBreaks
  refine ⟨fun s l old counted => ?_, fun s young => ?_, fun s u broken locks => ?_⟩
  · obtain ⟨bus, locks, told⟩ := s.dropLock_afterBreak l.owner
    have due : l.since + 64000 ≤ s.now := of_decide_eq_true (List.find?_some (p := fun k : ExchLock => decide (k.since + 64000 ≤ s.now)) old)
    have gone : l ∉ ((s.broke l.owner).dropLock l.owner).move.exch.locks := by
      intro kept
      rcases locks l kept with ⟨-, other⟩ | new
      · exact other rfl
      · omega
    refine ⟨((s.broke l.owner).dropLock l.owner).raise srcExchLockBreak (BitVec.ofNat 32 l.owner.val), ?_, ?_, ?_, ?_, ?_,
      fun held up => ⟨?_, State.sameMemory_of_mem ?_⟩, ?_, ?_, ?_⟩
    · change Host.Outcome.next (s.served s.breakLock) = _
      rw [State.breakLock_some old, State.served_of_ended (List.mem_of_find?_eq_some old) ?_]
      rwa [State.raise_move]
    · rwa [State.raise_move]
    · rwa [State.raise_move]
    · exact (State.raise_only ..).nextGrant (State.proceed_nextGrant _)
    · rw [State.raise_move]
      exact told.imp_right fun answered => (State.raise_only ..).2.subset answered
    · rw [State.raise_move, State.dropLock_idle held up]
      change (l.owner :: s.move.exch.broken.filter fun k => k != l.owner).contains l.owner = true
      simp
    · rw [State.raise_mem, State.dropLock_idle held up]
      rfl
    · rw [State.raise_move, bus.lockBreaks]
      rfl
    · rw [State.raise_move, bus.breakSeen]
      rfl
    · have start : ((s.broke l.owner).dropLock l.owner).inReset = false := by rw [bus.frame]; exact counted
      rw [State.raise_source_events _ _ _ _ start, bus.frame]
      rfl
  · have none' : s.move.exch.locks.find? (fun k => decide (k.since + 64000 ≤ s.now)) = none := by
      rw [List.find?_eq_none]
      intro k hk
      have := young k hk
      simp only [decide_eq_true_eq]
      omega
    change Host.Outcome.next (s.served s.breakLock) = _
    have idle : s.breakLock = s := by unfold State.breakLock; rw [none']
    rw [idle, State.served_of_sameLocks rfl]
  · refine ⟨_, State.exec_broken_refused broken locks, State.refuseLock_out _ u, ?_, (State.refuseLock_sameLocks _ u).1, ?_, ?_⟩
    · rw [(State.refuseLock_sameLocks _ u).2.2]
      simp [State.onExch]
    · rw [State.refuseLock_frame]
      rfl
    · rw [State.refuseLock_frame]
      rfl

end Sys2Proof.Machine
end

section
/-! Interrupt bits of a PCI Express function (R308, R317) and what its host writes (R310, R311, R317). -/

namespace Sys2Proof.Machine

variable {s t u : State} {b c : BenchId} {f : FuncId}

/-! ### Benches and functions -/

theorem benchFunc_funcBench (f : FuncId) : benchFunc (funcBench f) = some f := dif_pos f.isLt

/-- Changes of a bench that agree on what it is are the same. -/
theorem State.onBench_congr {g h : Bench → Bench} (same : g (s.benchOf b) = h (s.benchOf b)) : s.onBench b g = s.onBench b h := by
  unfold State.onBench vmod
  change ({ s with bench := { s.bench with benches := vset s.bench.benches b (g (s.benchOf b)) } } : State) = _
  rw [same]
  rfl

/-- Nothing changed but the functions and what left the module. -/
structure State.FuncsOnly (s t : State) : Prop where
  frame : t = { s with bench := { s.bench with funcs := t.bench.funcs }, out := t.out }

theorem State.FuncsOnly.refl (s : State) : s.FuncsOnly s := ⟨rfl⟩

theorem State.FuncsOnly.trans (h : s.FuncsOnly t) (k : t.FuncsOnly u) : s.FuncsOnly u := ⟨by rw [k.frame, h.frame]⟩

theorem State.FuncsOnly.benchOf (h : s.FuncsOnly t) (c : BenchId) : t.benchOf c = s.benchOf c := by
  rw [h.frame]
  rfl

theorem State.sendMsix_funcs (s : State) (f : FuncId) (v : Fin 16) : s.FuncsOnly (s.sendMsix f v) := by
  unfold State.sendMsix
  dsimp only
  split <;> exact ⟨rfl⟩

theorem State.announce_funcs (s : State) (f : FuncId) (n : Fin 6) : s.FuncsOnly (s.announce (funcBench f) n) := by
  unfold State.announce
  rw [benchFunc_funcBench]
  exact s.sendMsix_funcs ..

theorem State.flushMsix_funcs (s : State) (f : FuncId) : s.FuncsOnly (s.flushMsix f) := by
  unfold State.flushMsix
  dsimp only
  split
  · exact .refl s
  · exact ⟨rfl⟩

/-! ### An interrupt bit -/

/-- The bench after one of its interrupt bits has been set. -/
def Bench.withIrq (x : Bench) (n : Fin 6) : Bench :=
  { x with stat := { x.stat with irqStatus := x.stat.irqStatus ||| (1 <<< n.val : BitVec 6) } }

/-- A word with one bit set. -/
theorem getLsbD_bit {w i : Nat} (n : Nat) (inside : i < w) : ((1 <<< n : Nat) : BitVec w).getLsbD i = decide (n = i) := by
  change (BitVec.ofNat w (1 <<< n)).getLsbD i = _
  rw [BitVec.getLsbD_ofNat, Nat.one_shiftLeft, Nat.testBit_two_pow, decide_eq_true inside, Bool.true_and]

/-- Setting a bit that is set changes nothing. -/
theorem or_bit_of_set {w : Nat} (x : BitVec w) (n : Nat) (set : x.getLsbD n = true) : x ||| ((1 <<< n : Nat) : BitVec w) = x := by
  apply BitVec.eq_of_getLsbD_eq
  intro i inside
  rw [BitVec.getLsbD_or, getLsbD_bit n inside]
  by_cases same : n = i
  · subst same; rw [set, Bool.true_or]
  · rw [decide_eq_false same, Bool.or_false]

theorem State.setIrq_set {n : Fin 6} (set : (s.benchOf b).stat.irqStatus.getLsbD n.val = true) : s.setIrq b n = s := if_pos set

theorem State.setIrq_quiet {n : Fin 6} (clear : (s.benchOf b).stat.irqStatus.getLsbD n.val = false)
    (off : (s.benchOf b).stat.irqEnable.getLsbD n.val = false) : s.setIrq b n = s.onBench b fun x => x.withIrq n := by
  unfold State.setIrq
  rw [clear, off]
  rfl

theorem State.setIrq_loud {n : Fin 6} (clear : (s.benchOf b).stat.irqStatus.getLsbD n.val = false)
    (on : (s.benchOf b).stat.irqEnable.getLsbD n.val = true) :
    s.setIrq b n = (s.onBench b fun x => x.withIrq n).announce b n := by
  unfold State.setIrq
  rw [clear, on]
  rfl

/-- A PCI Express bench after one of its interrupt bits has been set. -/
theorem State.setIrq_benchOf (s : State) (f : FuncId) (n : Fin 6) :
    (s.setIrq (funcBench f) n).benchOf (funcBench f) = (s.benchOf (funcBench f)).withIrq n := by
  cases set : (s.benchOf (funcBench f)).stat.irqStatus.getLsbD n.val with
  | true =>
    rw [State.setIrq_set set, Bench.withIrq, or_bit_of_set _ n.val set]
  | false =>
    cases on : (s.benchOf (funcBench f)).stat.irqEnable.getLsbD n.val with
    | false => rw [State.setIrq_quiet set on, State.onBench_benchOf]
    | true => rw [State.setIrq_loud set on, (State.announce_funcs _ f n).benchOf, State.onBench_benchOf]

/-! ### Protocol errors (R311) -/

/-- A protocol error is recorded with its code and its interrupt bit. -/
theorem State.protoError_benchOf (s : State) (f : FuncId) (code : BitVec 8) :
    (s.protoError (funcBench f) code).benchOf (funcBench f) =
      ({ s.benchOf (funcBench f) with
          protoSeen := true, stat := { (s.benchOf (funcBench f)).stat with protoCode := code } } : Bench).withIrq irqProto := by
  unfold State.protoError
  rw [State.setIrq_benchOf, State.onBench_benchOf]

/-! ### What the host writes -/

/-- A word that the host writes alone. -/
theorem State.barWrite_one (mapped : s.mapped = true) (k : Nat) (w : Word) : s.barWrite f false k [w] = s.bar0Write f k w := by
  unfold State.barWrite
  rw [mapped]
  rfl

/-- A register of 16 bits in a word. -/
theorem setWidth_word (v : BitVec 16) : (v.setWidth 32).setWidth 16 = v := by simp

/-- A register of 6 bits in a word. -/
theorem setWidth_bits (v : BitVec 6) : ((v.setWidth 32 : Word).setWidth 6) = v := by simp

theorem State.exec_postTail (mapped : s.mapped = true) (value : BitVec 16) (packets : List (List Word)) :
    exec (.postTailWrite f value packets) s = .next (s.postTo f value packets) := by
  refine congrArg Host.Outcome.next ((if_pos mapped).trans ?_)
  unfold State.bar0Write
  rw [if_pos rfl, setWidth_word]

theorem State.exec_replyHead (mapped : s.mapped = true) (value : BitVec 16) :
    exec (.replyHeadWrite f value) s = .next (s.freeReplies f value) := by
  refine congrArg Host.Outcome.next ((State.barWrite_one mapped _ _).trans ?_)
  unfold State.bar0Write
  rw [if_neg (by decide), if_pos rfl, setWidth_word]

theorem State.exec_irqStatus (mapped : s.mapped = true) (value : BitVec 6) :
    exec (.irqStatusClear f value) s = .next (s.clearIrq (funcBench f) value) := by
  refine congrArg Host.Outcome.next ((State.barWrite_one mapped _ _).trans ?_)
  unfold State.bar0Write
  rw [if_neg (by decide), if_neg (by decide), if_pos rfl, setWidth_bits]

theorem State.exec_irqEnable (mapped : s.mapped = true) (value : BitVec 6) :
    exec (.irqEnableWrite f value) s = .next (s.writeIrqEnable (funcBench f) value) := by
  refine congrArg Host.Outcome.next ((State.barWrite_one mapped _ _).trans ?_)
  unfold State.bar0Write
  rw [if_neg (by decide), if_neg (by decide), if_neg (by decide), if_pos rfl, setWidth_bits]

/-- The packets of a POST_TAIL write join the ring, and commands are taken (R311). -/
theorem State.postTo_joins {value : BitVec 16} {packets : List (List Word)}
    (before : (s.benchOf (funcBench f)).post.length ≤ (value - (s.benchOf (funcBench f)).stat.postHead).toNat)
    (room : (value - (s.benchOf (funcBench f)).stat.postHead).toNat ≤ 16)
    (whole : packets.length = (value - (s.benchOf (funcBench f)).stat.postHead).toNat - (s.benchOf (funcBench f)).post.length) :
    s.postTo f value packets =
      (s.onBench (funcBench f) fun y => { y with post := y.post ++ packets, stat := { y.stat with postTail := value } }).serve := by
  unfold State.postTo
  simp only [if_neg (show ¬ 16 < (value - (s.benchOf (funcBench f)).stat.postHead).toNat by omega), ← whole, List.take_length,
    Nat.sub_self, List.range_zero, List.foldl_nil, List.append_nil]
  refine congrArg State.serve (State.onBench_congr ?_)
  rw [List.take_of_length_le before]

/-- A write of IRQ_ENABLE leaves the bench with the enables written, and its bits as they were. -/
theorem State.writeIrqEnable_benchOf (s : State) (f : FuncId) (value : BitVec 6) :
    ((s.writeIrqEnable (funcBench f) value).benchOf (funcBench f)).stat =
      { (s.benchOf (funcBench f)).stat with irqEnable := value } := by
  have announced (g : State → Fin 6 → Bool) (v : State) :
      v.FuncsOnly ((allFin 6).foldl (fun u n => if g s n then u.announce (funcBench f) n else u) v) :=
    foldl_keeps v.FuncsOnly _ (fun u n kept => by
      split
      · exact kept.trans (u.announce_funcs f n)
      · exact kept) _ _ (.refl v)
  unfold State.writeIrqEnable
  dsimp only
  rw [(announced (fun s n => value.getLsbD n.val && !(s.benchOf (funcBench f)).stat.irqEnable.getLsbD n.val &&
    (s.benchOf (funcBench f)).stat.irqStatus.getLsbD n.val) _).benchOf, State.onBench_benchOf]

/-- Clearing interrupt bits clears the bits of the Pending Bit Array with them (log entry 7). -/
theorem State.clearIrq_func (s : State) (f : FuncId) (value : BitVec 6) :
    ((s.clearIrq (funcBench f) value).benchOf (funcBench f)).stat.irqStatus =
        (s.benchOf (funcBench f)).stat.irqStatus &&& ~~~value ∧
      (s.clearIrq (funcBench f) value).bench.funcs[f].pba = s.bench.funcs[f].pba &&& ~~~(value.setWidth 16) ∧
      s.clearIrq (funcBench f) value = { s with bench := (s.clearIrq (funcBench f) value).bench } := by
  unfold State.clearIrq
  simp only [benchFunc_funcBench]
  refine ⟨congrArg (fun x : Bench => x.stat.irqStatus) (State.onBench_benchOf s _ _), ?_, rfl⟩
  simp [State.onBench]

/-- What only says leaves memory. -/
theorem State.SaysOnly.sameMemory (said : s.SaysOnly t) : s.sameMemory t := State.sameMemory_of_mem (by rw [said.1])

/-- Settles O8: each register's write is what its row of the window does. -/
theorem hostWindowWrites : Obligations.HostWindowWrites := by
  unfold Obligations.HostWindowWrites
  intro s f mapped
  refine ⟨fun value packets before room whole => ?_, fun value packets beyond => ?_, fun value freed => ?_, fun value beyond => ?_,
    fun value => ?_, fun value => ?_⟩
  · rw [State.exec_postTail mapped, State.postTo_joins before room whole]
  · have said := s.protoError_says (funcBench f) 1
    refine ⟨_, (State.exec_postTail mapped value packets).trans (congrArg Host.Outcome.next (if_pos beyond)), ?_, ?_, ?_, ?_, said.1,
      said.sameMemory⟩
    all_goals rw [State.protoError_benchOf]
    case refine_4 =>
      change ((s.benchOf (funcBench f)).stat.irqStatus ||| ((1 <<< 5 : Nat) : BitVec 6)).getLsbD 5 = true
      rw [BitVec.getLsbD_or, getLsbD_bit 5 (by decide)]
      exact Bool.or_true _
    all_goals rfl
  · rw [State.exec_replyHead mapped]
    exact congrArg Host.Outcome.next (if_neg (by omega))
  · have said := s.protoError_says (funcBench f) 2
    refine ⟨_, (State.exec_replyHead mapped value).trans (congrArg Host.Outcome.next (if_pos beyond)), ?_, ?_, said.1, said.sameMemory⟩
    all_goals rw [State.protoError_benchOf]; rfl
  · have said := s.writeIrqEnable_says (funcBench f) value
    refine ⟨_, State.exec_irqEnable mapped value, ?_, ?_, said.1, said.sameMemory⟩
    all_goals rw [State.writeIrqEnable_benchOf]
  · obtain ⟨status, pending, frame⟩ := s.clearIrq_func f value
    exact ⟨_, State.exec_irqStatus mapped value, status, pending, frame, (s.clearIrq_says (funcBench f) value).sameMemory⟩

/-! ### MSI-X messages (R308, R317) -/

/-- The function may send the message of a vector: Bus Master Enable is set, the vector unmasked and the link up. -/
def State.maySend (s : State) (f : FuncId) (n : Nat) : Bool :=
  s.bench.funcs[f].busMaster && !s.bench.funcs[f].masked.getLsbD n && (s.benchOf (funcBench f)).stat.linkUp

theorem State.sendMsix_sent {v : Fin 16} (may : s.maySend f v.val = true) : s.sendMsix f v = s.emit (.msix f v) := if_pos may

theorem State.sendMsix_pends {v : Fin 16} (may : s.maySend f v.val = false) :
    (s.sendMsix f v).out = s.out ∧ (s.sendMsix f v).bench.funcs[f].pba.getLsbD v.val = true := by
  have pends : s.sendMsix f v = { s with bench := { s.bench with
      funcs := vset s.bench.funcs f { s.bench.funcs[f] with pba := s.bench.funcs[f].pba ||| ((1 <<< v.val : Nat) : BitVec 16) } } } :=
    if_neg (fun sent => Bool.false_ne_true (may.symm.trans sent))
  rw [pends]
  refine ⟨rfl, ?_⟩
  simp only [Fin.getElem_fin, vset_getElem, if_true, BitVec.getLsbD_or, getLsbD_bit v.val v.isLt]
  exact Bool.or_true _

/-- The vector of an interrupt bit. -/
def irqVector (n : Fin 6) : Fin 16 := ⟨n.val, by omega⟩

/-- A bit that is set while enabled announces itself by its function's message. -/
theorem State.setIrq_announces {n : Fin 6} (clear : (s.benchOf (funcBench f)).stat.irqStatus.getLsbD n.val = false)
    (on : (s.benchOf (funcBench f)).stat.irqEnable.getLsbD n.val = true) :
    s.setIrq (funcBench f) n = (s.onBench (funcBench f) fun x => x.withIrq n).sendMsix f (irqVector n) := by
  rw [State.setIrq_loud clear on]
  unfold State.announce
  rw [benchFunc_funcBench]
  rfl

/-- Whether a function may send does not depend on its interrupt bits. -/
theorem State.maySend_withIrq (s : State) (f : FuncId) (n : Fin 6) (v : Nat) :
    (s.onBench (funcBench f) fun x => x.withIrq n).maySend f v = s.maySend f v := by
  unfold State.maySend
  rw [State.onBench_benchOf]
  rfl

/-- The messages that a function may now send leave, and their pending bits with them. -/
theorem State.flushMsix_may (may : s.bench.funcs[f].busMaster = true) (up : (s.benchOf (funcBench f)).stat.linkUp = true) :
    (s.flushMsix f).out = s.out ++ ((allFin 16).filter fun v =>
        s.bench.funcs[f].pba.getLsbD v.val && !s.bench.funcs[f].masked.getLsbD v.val).map (fun v => Output.msix f v) ∧
      (s.flushMsix f).bench.funcs[f] = { s.bench.funcs[f] with pba := s.bench.funcs[f].pba &&& s.bench.funcs[f].masked } := by
  have sends : (!s.bench.funcs[f].busMaster || !(s.benchOf (funcBench f)).stat.linkUp) = false := by rw [may, up]; rfl
  unfold State.flushMsix
  dsimp only
  rw [sends]
  refine ⟨rfl, ?_⟩
  simp [State.emits]

end Sys2Proof.Machine
end

section
/-! Resets of PCI Express functions and their links (R306, R308, R323, R447). -/

namespace Sys2Proof.Machine

variable {s t u : State} {b c : BenchId} {f g : FuncId}

/-! ### What the Tally's interrupts spare -/

/-- A function, its bench and PERST_N stay as they are. -/
structure State.Spares (f : FuncId) (s t : State) : Prop where
  bench : t.benchOf (funcBench f) = s.benchOf (funcBench f)
  func : t.bench.funcs[f] = s.bench.funcs[f]
  perst : t.bench.perstHigh = s.bench.perstHigh

theorem State.Spares.refl (f : FuncId) (s : State) : State.Spares f s s := ⟨rfl, rfl, rfl⟩

theorem State.Spares.trans (h : State.Spares f s t) (k : State.Spares f t u) : State.Spares f s u :=
  ⟨k.bench.trans h.bench, k.func.trans h.func, k.perst.trans h.perst⟩

theorem State.Spares.of_bench (same : t.bench = s.bench) : State.Spares f s t := by
  refine ⟨?_, ?_, ?_⟩
  · unfold State.benchOf; rw [same]
  · rw [same]
  · rw [same]

theorem State.Spares.onBench (s : State) (h : Bench → Bench) (other : c ≠ funcBench f) : State.Spares f s (s.onBench c h) :=
  ⟨State.onBench_benchOf_ne s c _ h (Ne.symm other), rfl, rfl⟩

theorem State.Spares.sendMsix (s : State) (v : Fin 16) (other : g ≠ f) : State.Spares f s (s.sendMsix g v) := by
  unfold State.sendMsix
  dsimp only
  split
  · exact .of_bench rfl
  · refine ⟨rfl, ?_, rfl⟩
    have differ : ¬ g.val = f.val := fun same => other (Fin.ext same)
    simp [differ]

theorem State.Spares.sendDatagram (s : State) (type cmd : Nat) (offset aux : Word) (payload : List Word) (other : c ≠ funcBench f) :
    State.Spares f s (s.sendDatagram c type cmd offset aux payload) := by
  unfold State.sendDatagram
  dsimp only
  split
  · exact (State.Spares.onBench s _ other).trans (.of_bench rfl)
  · exact .refl f s

/-- The function of a bench is not that of another bench. -/
theorem benchFunc_ne (func : benchFunc c = some g) (other : c ≠ funcBench f) : g ≠ f := by
  rintro rfl
  refine other (Fin.ext ?_)
  unfold benchFunc at func
  split at func
  · have same := congrArg Fin.val (Option.some.inj func)
    exact same
  · exact nomatch func

/-- An interrupt bit of another bench. -/
theorem State.Spares.setIrq (s : State) (n : Fin 6) (other : c ≠ funcBench f) : State.Spares f s (s.setIrq c n) := by
  unfold State.setIrq
  split
  · exact .refl f s
  · have set := State.Spares.onBench s (fun x => x.withIrq n) other
    dsimp only
    split
    · refine set.trans ?_
      unfold State.announce
      split
      · next g func => exact .sendMsix _ _ (benchFunc_ne func other)
      · unfold State.notify
        exact (State.Spares.sendDatagram _ _ _ _ _ _ other).trans (.onBench _ _ other)
    · exact set

/-- A bench without a lease is named by no event (R390). -/
theorem State.named_of_none (none' : s.holdsAny b = false) (leases : BitVec 5) (sub : Option SubId) : s.named leases sub b = false := by
  simp only [State.holdsAny, Bool.or_eq_false_iff] at none'
  obtain ⟨⟨⟨⟨obs, monitor⟩, time⟩, store⟩, work⟩ := none'
  have each (i : SubId) : s.holdsObs b i = false := by
    have := List.any_eq_false.mp obs i (List.mem_finRange i)
    simpa using this
  unfold State.named
  cases sub with
  | none => rw [obs, monitor, time, store, work]; simp
  | some i => simp only [each, monitor, time, store, work]; simp

theorem State.Spares.tallyIrqs (none' : s.holdsAny (funcBench f) = false) (leases : BitVec 5) (sub : Option SubId) :
    State.Spares f s (s.tallyIrqs leases sub) := by
  refine foldl_keeps (State.Spares f s) _ (fun u c kept => ?_) _ _ (.refl f s)
  split
  · next named =>
    refine kept.trans (.setIrq u _ ?_)
    rintro rfl
    exact Bool.false_ne_true ((State.named_of_none none' leases sub).symm.trans named)
  · exact kept

/-- An event tells a bench without a lease nothing (R390). -/
theorem State.Spares.raise (none' : s.holdsAny (funcBench f) = false) (i : SourceId) (detail : Word) (sub : Option SubId) :
    State.Spares f s (s.raise i detail sub) := by
  have source (h : TallySource → TallySource) : State.Spares f s (s.onSource i h) := .of_bench rfl
  have still (h : TallySource → TallySource) : (s.onSource i h).holdsAny (funcBench f) = false := none'
  unfold State.raise
  split
  · exact .refl f s
  · dsimp only
    split
    · exact source _
    · unfold State.judge
      split
      · exact (source _).trans (.tallyIrqs (still _) _ _)
      · exact source _

/-! ### A master that is reset -/

/-- Up to the event of R369 the reset of a master is the Exchange's own. -/
theorem State.resetMaster_bus (s : State) (m : MasterId) : s.Bus ((((s.drainMaster m).forget m).dropLock m).countReset) := by
  have drains : s.Bus (s.drainMaster m) := .foldl (fun v b => by
    split
    · exact v.drainBridge_bus b
    · exact .refl v) _ s
  have forgets (v : State) : v.Bus (v.forget m) := .onExch v rfl rfl
  have counts (v : State) : v.Bus v.countReset := ⟨rfl, rfl, rfl, rfl, rfl, rfl, id, List.prefix_rfl, Nat.le_refl _⟩
  exact ((drains.trans (forgets _)).trans (State.dropLock_bus _ m)).trans (counts _)

theorem State.Bus.bench (h : s.Bus t) : t.bench = s.bench := by rw [h.frame]

theorem State.holdsAny_of_bench (same : t.bench = s.bench) : t.holdsAny b = s.holdsAny b := by
  unfold State.holdsAny State.holdsAnyObs State.holdsObs State.holdsTime State.holdsStore State.holdsWork State.benchOf
  rw [same]

/-- The reset of a master tells a bench without a lease nothing. -/
theorem State.Spares.resetMaster (none' : s.holdsAny (funcBench f) = false) (m : MasterId) :
    State.Spares f s (s.resetMaster m none) := by
  have bus := s.resetMaster_bus m
  have still := (State.holdsAny_of_bench bus.bench (b := funcBench f)).trans none'
  rw [State.resetMaster_none]
  exact (State.Spares.of_bench bus.bench).trans (.raise still _ _ _)

/-! ### A function that is reset -/

theorem Bench.closed_linkUp (x : Bench) : x.closed.stat.linkUp = x.stat.linkUp := rfl

/-- The link is not the session's. -/
theorem State.closeSession_linkUp (s : State) (b : BenchId) :
    ((s.closeSession b).benchOf b).stat.linkUp = (s.benchOf b).stat.linkUp := by
  rw [State.closeSession_benchOf, Bench.closed_linkUp, (s.stripped_drops b).own]

/-- A function takes the standard's values after reset. -/
def State.clearFunction (s : State) (f : FuncId) : State := { s with bench := { s.bench with funcs := vset s.bench.funcs f {} } }

theorem State.clearFunction_benchOf (s : State) (f : FuncId) (c : BenchId) : (s.clearFunction f).benchOf c = s.benchOf c := rfl

theorem State.clearFunction_holdsAny (s : State) (f : FuncId) (c : BenchId) : (s.clearFunction f).holdsAny c = s.holdsAny c := rfl

theorem State.clearFunction_func (s : State) (f : FuncId) : (s.clearFunction f).bench.funcs[f] = {} := by
  unfold State.clearFunction
  simp

theorem State.clearFunction_perst (s : State) (f : FuncId) : (s.clearFunction f).bench.perstHigh = s.bench.perstHigh := rfl

theorem State.resetFunction_eq (s : State) (f : FuncId) : s.resetFunction f = (s.closeSession (funcBench f)).clearFunction f := rfl

theorem State.resetFunction_perst (s : State) (f : FuncId) : (s.resetFunction f).bench.perstHigh = s.bench.perstHigh := by
  rw [State.resetFunction_eq, State.clearFunction_perst, (s.closeSession_board (funcBench f)).2]

theorem State.resetFunction_func (s : State) (f : FuncId) : (s.resetFunction f).bench.funcs[f] = {} := State.clearFunction_func _ f

/-- A bench whose function has been reset: its session is closed. -/
theorem State.resetFunction_closed (s : State) (f : FuncId) :
    ((s.resetFunction f).benchOf (funcBench f)).stat.isOpen = false ∧ ((s.resetFunction f).benchOf (funcBench f)).post = [] ∧
      ((s.resetFunction f).benchOf (funcBench f)).replies = [] ∧
      ((s.resetFunction f).benchOf (funcBench f)).stat.linkUp = (s.benchOf (funcBench f)).stat.linkUp := by
  rw [State.resetFunction_eq, State.clearFunction_benchOf, State.closeSession_linkUp, State.closeSession_benchOf]
  exact ⟨rfl, rfl, rfl, rfl⟩

theorem State.resetFunction_holdsAny (s : State) (f : FuncId) : (s.resetFunction f).holdsAny (funcBench f) = false := by
  rw [State.resetFunction_eq, State.clearFunction_holdsAny, State.closeSession_holdsAny]

/-- The reset of a function leaves the other function's bench as it is, and gives it no lease. -/
theorem State.resetFunction_other (s : State) (f : FuncId) (other : c ≠ funcBench f) :
    (s.resetFunction f).benchOf c = s.benchOf c ∧ (s.holdsAny c = false → (s.resetFunction f).holdsAny c = false) := by
  rw [State.resetFunction_eq, State.clearFunction_benchOf, State.clearFunction_holdsAny, State.closeSession_benchOf_ne s other]
  exact ⟨rfl, s.closeSession_lacks _⟩

/-! ### Links -/

theorem funcBench_injective : Function.Injective funcBench := by
  intro f g same
  have := congrArg Fin.val same
  exact Fin.ext this

theorem State.setLink_frame (s : State) (fs : List FuncId) (up : Bool) :
    s.setLink fs up = { s with bench := { s.bench with benches := (s.setLink fs up).bench.benches } } :=
  foldl_keeps (fun t : State => t = { s with bench := { s.bench with benches := t.bench.benches } }) _
    (fun t f kept => by rw [kept]; rfl) _ _ rfl

theorem State.setLink_cons (s : State) (g : FuncId) (fs : List FuncId) (up : Bool) :
    s.setLink (g :: fs) up = (s.onBench (funcBench g) fun x => { x with stat := { x.stat with linkUp := up } }).setLink fs up := rfl

/-- The link of a bench, and that its session stays as it is (R323). -/
theorem State.setLink_benchOf (s : State) (fs : List FuncId) (up : Bool) (f : FuncId) :
    (((s.setLink fs up).benchOf (funcBench f)).stat.linkUp = if f ∈ fs then up else (s.benchOf (funcBench f)).stat.linkUp) ∧
      ((s.setLink fs up).benchOf (funcBench f)).stat.isOpen = (s.benchOf (funcBench f)).stat.isOpen := by
  induction fs generalizing s with
  | nil => exact ⟨rfl, rfl⟩
  | cons g fs ih =>
    rw [State.setLink_cons]
    obtain ⟨link, opened⟩ := ih (s.onBench (funcBench g) fun x => { x with stat := { x.stat with linkUp := up } })
    rw [link, opened]
    by_cases same : f = g
    · subst same
      rw [State.onBench_benchOf]
      exact ⟨by simp, rfl⟩
    · have differ : funcBench f ≠ funcBench g := fun e => same (funcBench_injective e)
      rw [State.onBench_benchOf_ne _ _ _ _ differ]
      exact ⟨by simp [same], rfl⟩

/-- A function's link is one of those that share it. -/
theorem State.mem_linkOf (s : State) (f : FuncId) : f ∈ s.linkOf f := by
  unfold State.linkOf
  split
  · exact List.mem_singleton.mpr rfl
  · match f with
    | 0 => decide
    | 1 => decide

/-- Flushing the messages of functions changes no bench. -/
theorem State.foldl_flushMsix (fs : List FuncId) (s : State) : s.FuncsOnly (fs.foldl (fun (t : State) g => t.flushMsix g) s) :=
  foldl_keeps s.FuncsOnly _ (fun t g kept => kept.trans (t.flushMsix_funcs g)) _ _ (.refl s)

/-! ### The rows -/

/-- A function level reset closes the session and resets the bench mover (R323, R369). -/
theorem functionLevelReset_closes (mapped : s.mapped = true) :
    ∃ t : State, exec (.functionLevelReset f) s = .next t.serve ∧ (t.benchOf (funcBench f)).stat.isOpen = false ∧
      (t.benchOf (funcBench f)).post = [] ∧ (t.benchOf (funcBench f)).replies = [] ∧ t.bench.funcs[f] = {} := by
  obtain ⟨opened, post, replies, -⟩ := s.resetFunction_closed f
  have spares := State.Spares.resetMaster (s.resetFunction_holdsAny f) moverPort
  refine ⟨_, congrArg Host.Outcome.next (if_pos mapped), ?_⟩
  rw [spares.bench, spares.func]
  exact ⟨opened, post, replies, s.resetFunction_func f⟩

/-- The two functions in a hot reset, before the bench mover is reset with them. -/
def State.hotReset (s : State) : State :=
  (((({ s with bench := { s.bench with perstHigh := false } } : State).setLink [0, 1] false).resetFunction 0).resetFunction 1)

theorem State.hotReset_closed (s : State) :
    (s.hotReset.benchOf (funcBench 0)).stat.isOpen = false ∧ (s.hotReset.benchOf (funcBench 1)).stat.isOpen = false ∧
      (s.hotReset.benchOf (funcBench 0)).stat.linkUp = false ∧ (s.hotReset.benchOf (funcBench 1)).stat.linkUp = false ∧
      s.hotReset.bench.perstHigh = false ∧ s.hotReset.holdsAny (funcBench 0) = false ∧ s.hotReset.holdsAny (funcBench 1) = false := by
  unfold State.hotReset
  obtain ⟨v, hv⟩ : ∃ v : State, v = ({ s with bench := { s.bench with perstHigh := false } } : State).setLink [0, 1] false := ⟨_, rfl⟩
  have links (f : FuncId) : (v.benchOf (funcBench f)).stat.linkUp = false := by
    rw [hv, (State.setLink_benchOf _ _ _ f).1]
    match f with
    | 0 => rfl
    | 1 => rfl
  have perst : v.bench.perstHigh = false := by rw [hv, State.setLink_frame]
  obtain ⟨opened, -, -, link⟩ := v.resetFunction_closed 0
  obtain ⟨opened', -, -, link'⟩ := (v.resetFunction 0).resetFunction_closed 1
  obtain ⟨kept, lacks⟩ := (v.resetFunction 0).resetFunction_other 1 (c := funcBench 0) (by decide)
  obtain ⟨before, -⟩ := v.resetFunction_other 0 (c := funcBench 1) (by decide)
  rw [← hv, kept, opened, opened', link, link', before, links, links, State.resetFunction_perst, State.resetFunction_perst, perst,
    lacks (v.resetFunction_holdsAny 0), State.resetFunction_holdsAny]
  exact ⟨rfl, rfl, rfl, rfl, rfl, rfl, rfl⟩

/-- PERST_N low is a hot reset of both functions (R447). -/
theorem perstLow_closes (high : s.bench.perstHigh = true) (running : s.running = true) :
    ∃ t : State, exec (.perstN false) s = .next t.serve ∧ t.bench.perstHigh = false ∧ (t.benchOf 0).stat.isOpen = false ∧
      (t.benchOf 1).stat.isOpen = false ∧ (t.benchOf 0).stat.linkUp = false ∧ (t.benchOf 1).stat.linkUp = false := by
  have low : ¬ ((false || !s.bench.perstHigh || !s.running) = true) := by rw [high, running]; decide
  have row : exec (.perstN false) s = .next (s.hotReset.resetMaster moverPort none).serve := congrArg Host.Outcome.next (if_neg low)
  have closed := s.hotReset_closed
  -- Variables in the place of the two resets, so that no check evaluates them.
  obtain ⟨w, hw⟩ : ∃ w, w = s.hotReset := ⟨_, rfl⟩
  obtain ⟨t, ht⟩ : ∃ t, t = w.resetMaster moverPort none := ⟨_, rfl⟩
  rw [← hw] at row closed
  obtain ⟨opened, opened', link, link', perst, lacks, lacks'⟩ := closed
  have spares := State.Spares.resetMaster (f := 0) lacks moverPort
  have spares' := State.Spares.resetMaster (f := 1) lacks' moverPort
  rw [← ht] at row spares spares'
  have same : t.benchOf 0 = w.benchOf 0 := spares.bench
  have same' : t.benchOf 1 = w.benchOf 1 := spares'.bench
  refine ⟨t, row, spares.perst.trans perst, ?_⟩
  rw [same, same']
  exact ⟨opened, opened', link, link'⟩

/-- An interrupt bit that becomes set while enabled leaves at once or is held pending (R308, R317). -/
theorem setIrq_message (s : State) (f : FuncId) (n : Fin 6) (clear : (s.benchOf (funcBench f)).stat.irqStatus.getLsbD n.val = false)
    (on : (s.benchOf (funcBench f)).stat.irqEnable.getLsbD n.val = true) :
    (s.maySend f n.val = true → (s.setIrq (funcBench f) n).out = s.out ++ [.msix f (irqVector n)]) ∧
      (s.maySend f n.val = false → (s.setIrq (funcBench f) n).out = s.out ∧
        (s.setIrq (funcBench f) n).bench.funcs[f].pba.getLsbD n.val = true) := by
  rw [State.setIrq_announces clear on, ← s.maySend_withIrq f n]
  exact ⟨fun may => by rw [State.sendMsix_sent (v := irqVector n) may]; rfl, fun may => State.sendMsix_pends (v := irqVector n) may⟩

/-- Settles O9: an interrupt bit, a reset or a link event changes benches and functions as its row says, and the Exchange's part of a
reset tells a closed bench nothing. -/
theorem interruptsFunctionsAndLinks : Obligations.InterruptsFunctionsAndLinks := by
  unfold Obligations.InterruptsFunctionsAndLinks
  refine ⟨fun s f n => ⟨State.setIrq_set, fun clear => ⟨?_, fun off => ?_, fun on => ⟨fun may => ?_, fun mayNot => ?_⟩⟩,
      (s.setIrq_says _ n).1⟩,
    fun s f => ⟨functionLevelReset_closes, rfl, perstLow_closes, ?_, fun mapped island => ?_, fun mapped up => ?_,
      fun v mapped may up => ?_⟩⟩
  · rw [State.setIrq_benchOf]
    rfl
  · rw [State.setIrq_quiet clear off]
    rfl
  · refine (setIrq_message s f n clear on).1 ?_
    obtain ⟨master, open', link⟩ := may
    unfold State.maySend
    rw [master, open', link]
    rfl
  · refine (setIrq_message s f n clear on).2 ?_
    unfold State.maySend
    rcases mayNot with master | masked | link
    · rw [master]; rfl
    · rw [masked]; simp
    · rw [link]; simp
  · obtain ⟨link, opened⟩ := s.setLink_benchOf (s.linkOf f) false f
    have frame : s.setLink (s.linkOf f) false = { s with bench := (s.setLink (s.linkOf f) false).bench } := by
      rw [State.setLink_frame]
    exact ⟨_, rfl, link.trans (if_pos (s.mem_linkOf f)), opened, frame, State.sameMemory_of_mem (by rw [frame])⟩
  · have flushed := State.foldl_flushMsix (s.linkOf f) (s.setLink (s.linkOf f) true)
    obtain ⟨link, -⟩ := s.setLink_benchOf (s.linkOf f) true f
    refine ⟨_, congrArg Host.Outcome.next (if_pos ⟨mapped, island⟩), ?_, ?_, State.sameMemory_of_mem ?_⟩
    · rw [flushed.benchOf, link, if_pos (s.mem_linkOf f)]
    · rw [flushed.frame, State.setLink_frame]
    · rw [flushed.frame, State.setLink_frame]
  · obtain ⟨out, func⟩ := State.flushMsix_may (f := f) (s := { s with bench := { s.bench with
      funcs := vmod s.bench.funcs f fun y => { y with busMaster := true } } }) (by simp) up
    have flushed := State.flushMsix_funcs { s with bench := { s.bench with
      funcs := vmod s.bench.funcs f fun y => { y with busMaster := true } } } f
    refine ⟨_, congrArg Host.Outcome.next (if_pos mapped), ?_, ?_, ?_, ?_, State.sameMemory_of_mem ?_⟩
    · rw [func]; simp
    · rw [out]; simp
    · rw [func]; simp
    · rw [flushed.frame]
    · rw [flushed.frame]
  · obtain ⟨out, func⟩ := State.flushMsix_may (f := f) (s := { s with bench := { s.bench with
      funcs := vmod s.bench.funcs f fun y => { y with masked := y.masked &&& ~~~((1 <<< v.val : Nat) : BitVec 16) } } }) (by simpa using may) up
    have flushed := State.flushMsix_funcs { s with bench := { s.bench with
      funcs := vmod s.bench.funcs f fun y => { y with masked := y.masked &&& ~~~((1 <<< v.val : Nat) : BitVec 16) } } } f
    have unmasked : (s.bench.funcs[f].masked &&& ~~~((1 <<< v.val : Nat) : BitVec 16)).getLsbD v.val = false := by
      rw [BitVec.getLsbD_and, BitVec.getLsbD_not, getLsbD_bit v.val v.isLt]
      simp
    refine ⟨_, congrArg Host.Outcome.next (if_pos mapped), ?_, fun pends => ?_, ?_, ?_, State.sameMemory_of_mem ?_⟩
    · rw [func]; simpa using unmasked
    · rw [out]
      refine List.mem_append_right _ (List.mem_map.mpr ⟨v, List.mem_filter.mpr ⟨List.mem_finRange v, ?_⟩, rfl⟩)
      simp only [Fin.getElem_fin, vmod_getElem, if_true] at pends unmasked ⊢
      rw [pends, unmasked]
      rfl
    · rw [func]
      simp only [Fin.getElem_fin, vmod_getElem, if_true, BitVec.getLsbD_and]
      simp only [Fin.getElem_fin, BitVec.getLsbD_and] at unmasked
      rw [unmasked, Bool.and_false]
    · rw [flushed.frame]
    · rw [flushed.frame]

end Sys2Proof.Machine
end

section
/-! Bench datagrams (R318 to R321): which are taken with which effect, and how the dropped ones are counted. -/

namespace Sys2Proof.Machine

variable {s : State} {port : PortId} {peer : Peer} {bytes : List Byte} {slot : Fin 8}

theorem benchPort_portBench (port : PortId) : benchPort (portBench port) = some port := by
  unfold benchPort
  rw [if_neg (by simp [portBench])]
  rfl

/-- A datagram to a session's peer: the module's next SEQ, and one datagram out of the port. -/
theorem State.sendDatagram_out (s : State) (port : PortId) (known : (s.benchOf (portBench port)).peer = some peer) (type cmd : Nat)
    (offset aux : Word) (payload : List Word) :
    ∃ bs, s.sendDatagram (portBench port) type cmd offset aux payload =
      (s.onBench (portBench port) fun y => { y with ownSeq := y.ownSeq + 1 }).emit (.datagram port peer bs) := by
  unfold State.sendDatagram
  dsimp only
  rw [benchPort_portBench, known]
  exact ⟨_, rfl⟩

/-! ### A datagram that is taken -/

/-- A datagram of an open session passes every test of R320. -/
structure State.Passes (s : State) (port : PortId) (bytes : List Byte) (slot : Fin 8) : Prop where
  serving : s.bench.serving = true
  header : headerOk (portBench port) bytes = true
  tag : s.tagOk (dgramOf bytes).slot bytes = true
  slot : (dgramOf bytes).slot = slot.val
  opens : (dgramOf bytes).opens = false
  isOpen : (s.benchOf (portBench port)).stat.isOpen = true
  session : (dgramOf bytes).session = (s.benchOf (portBench port)).stat.sessionId
  key : (dgramOf bytes).slot = (s.benchOf (portBench port)).stat.keySlot.toNat
  seq : (s.benchOf (portBench port)).lastSeq < (dgramOf bytes).seq

/-- The bench of an accepted datagram: its sender is the one to answer (R318). -/
def Bench.heard (x : Bench) (seq : Nat) (peer : Peer) (now : Nat) : Bench := { x with lastSeq := seq, peer := some peer, lastDgram := now }

/-- The module once a datagram of an open session has been accepted. -/
def State.heard (s : State) (port : PortId) (peer : Peer) (bytes : List Byte) (slot : Fin 8) : State :=
  (s.acceptSeq slot (dgramOf bytes).seq).onBench (portBench port) fun y => y.heard (dgramOf bytes).seq peer s.now

theorem State.heard_benchOf (s : State) (port : PortId) (peer : Peer) (bytes : List Byte) (slot : Fin 8) :
    (s.heard port peer bytes slot).benchOf (portBench port) =
      (s.benchOf (portBench port)).heard (dgramOf bytes).seq peer s.now :=
  State.onBench_benchOf (s.acceptSeq slot (dgramOf bytes).seq) _ _

/-- The slot of an accepted datagram under its number. -/
theorem State.Passes.ofNat (h : s.Passes port bytes slot) : Fin.ofNat 8 (dgramOf bytes).slot = slot := by
  rw [h.slot]
  exact Fin.ext (Nat.mod_eq_of_lt slot.isLt)

/-- A datagram that passes is accepted, and its type says what it does. -/
theorem State.Passes.datagram (h : s.Passes port bytes slot) :
    s.datagram port peer bytes =
      (match (dgramOf bytes).type with
        | 1 => (s.heard port peer bytes slot).takeCommand (portBench port) (dgramOf bytes)
        | 3 => (s.heard port peer bytes slot).takeBulkPut (portBench port) (dgramOf bytes)
        | _ => (s.heard port peer bytes slot).takeBulkGet (portBench port) (dgramOf bytes)) := by
  unfold State.datagram
  simp only [h.serving, h.header, h.tag, h.opens, h.isOpen, h.session, h.key.symm, h.ofNat, decide_eq_true h.seq]
  simp only [State.heard, Bench.heard]
  simp <;> rfl

/-! ### What each type does -/

/-- The command that is due joins the queue and is taken (R321). -/
theorem State.takeCommand_next {b : BenchId} {d : Dgram} (due : d.cmd = (s.benchOf b).stat.postTail)
    (new : ∀ e ∈ (s.benchOf b).held, e.1 ≠ d.cmd) :
    s.takeCommand b d = (s.onBench b fun y => { y with held := y.held ++ [(d.cmd, d.payload)] }).serve := by
  have ahead : (d.cmd - (s.benchOf b).stat.postTail).toNat < 16 := by rw [due, BitVec.sub_self]; decide
  have none' : ((s.benchOf b).held.any fun e => e.1 == d.cmd) = false := by
    rw [List.any_eq_false]
    intro e he
    simpa using new e he
  unfold State.takeCommand
  dsimp only
  rw [if_pos ahead, none']
  rfl

/-- The words of a BULK_PUT enter the Bulk window and are acknowledged (R321). -/
theorem State.takeBulkPut_ack (s : State) (port : PortId) (known : (s.benchOf (portBench port)).peer = some peer) (d : Dgram) :
    ∃ bs, s.takeBulkPut (portBench port) d =
      (s.onBench (portBench port) fun y =>
        { y with bulk := SMap.setRange 0 y.bulk d.offset d.payload, ownSeq := y.ownSeq + 1 }).emit (.datagram port peer bs) := by
  unfold State.takeBulkPut
  obtain ⟨bs, sent⟩ := State.sendDatagram_out (s.onBench (portBench port) fun x =>
    { x with bulk := SMap.setRange 0 x.bulk d.offset d.payload }) port (by rw [State.onBench_benchOf]; exact known) 0x04 0
    (BitVec.ofNat 32 d.offset) (BitVec.ofNat 32 d.payload.length) []
  refine ⟨bs, sent.trans (congrArg (State.emit · _) ?_)⟩
  unfold State.onBench vmod
  simp [vset]

/-- A datagram whose tag does not verify counts in AUTH_FAIL (R320). -/
theorem State.datagram_badTag (serving : s.bench.serving = true) (header : headerOk (portBench port) bytes = true)
    (tag : s.tagOk (dgramOf bytes).slot bytes = false) :
    s.datagram port peer bytes = s.onBench (portBench port) fun y =>
      { y with authSeen := true, stat := { y.stat with authFail := y.stat.authFail + 1 } } := by
  unfold State.datagram
  simp only [serving, header, tag]
  simp

/-- Settles O11: a datagram that passes is accepted and does what its type says; each dropped one meets its test first. -/
theorem datagramsAreTakenOrDropped : Obligations.DatagramsAreTakenOrDropped := by
  unfold Obligations.DatagramsAreTakenOrDropped
  refine ⟨fun s port peer bytes slot serving header tag slotIs opens isOpen session key seq => ?_,
    fun s port peer bytes serving => ⟨fun header => ?_, fun header tag => ?_, fun header tag opens isOpen session key old => ?_⟩⟩
  · have passes : s.Passes port bytes slot := ⟨serving, header, tag, slotIs, opens, isOpen, session, key, seq⟩
    have taken := passes.datagram (peer := peer)
    have heard := s.heard_benchOf port peer bytes slot
    have known : ((s.heard port peer bytes slot).benchOf (portBench port)).peer = some peer := by rw [heard]; rfl
    refine ⟨fun type due new => ?_, fun type => ?_, fun type => ?_⟩
    · rw [type] at taken
      refine congrArg Host.Outcome.next (taken.trans (State.takeCommand_next ?_ ?_))
      · rw [heard]; exact due
      · rw [heard]; exact new
    · rw [type] at taken
      obtain ⟨bs, put⟩ := State.takeBulkPut_ack (s.heard port peer bytes slot) port known (dgramOf bytes)
      refine ⟨_, bs, congrArg Host.Outcome.next (taken.trans put), ?_, ?_, ?_, ?_, rfl, rfl, fun _ => rfl⟩
      all_goals
        refine (congrArg _ (State.onBench_benchOf (s.heard port peer bytes slot) (portBench port) _)).trans ?_
        rw [heard]
        rfl
    · rw [type] at taken
      obtain ⟨bs, got⟩ := State.sendDatagram_out (s.heard port peer bytes slot) port known 0x06 0
        (BitVec.ofNat 32 (dgramOf bytes).offset) 0
        (SMap.getRange 0 ((s.heard port peer bytes slot).benchOf (portBench port)).bulk (dgramOf bytes).offset (dgramOf bytes).aux)
      refine ⟨_, bs, congrArg Host.Outcome.next (taken.trans got), ?_, ?_, ?_, rfl, rfl, fun _ => rfl⟩
      all_goals
        refine (congrArg _ (State.onBench_benchOf (s.heard port peer bytes slot) (portBench port) _)).trans ?_
        rw [heard]
        rfl
  · refine congrArg Host.Outcome.next ?_
    unfold State.datagram
    simp only [serving, header]
    rfl
  · refine ⟨_, congrArg Host.Outcome.next (State.datagram_badTag serving header tag), ?_, ?_, ?_, rfl, fun _ => rfl⟩
    all_goals rw [State.onBench_benchOf]
  · refine congrArg Host.Outcome.next ?_
    unfold State.datagram
    simp only [serving, header, tag, opens, isOpen, session, key.symm, decide_eq_false (Nat.not_lt.mpr old)]
    simp

end Sys2Proof.Machine
end

section
/-! A Drayman channel (R370 to R376): what a change of one channel leaves, and the settled statement. -/

namespace Sys2Proof.Machine

variable {s : State} {c d : DrayId} {f : Dray → Dray}

@[simp] theorem State.onDray_dray : (s.onDray c f).dray c = f (s.dray c) := by
  simp [State.dray, State.onDray, vmod]

theorem State.onDray_dray_ne (other : d ≠ c) : (s.onDray c f).dray d = s.dray d := by
  have apart : c.val ≠ d.val := fun h => other (Fin.ext h.symm)
  simp [State.dray, State.onDray, vmod, vset, apart]

theorem vmod_self {α : Type} {n : Nat} (v : Vector α n) (i : Fin n) (g : α → α) (same : g v[i] = v[i]) : vmod v i g = v := by
  have same' : g v[i.val] = v[i.val] := same
  simp [vmod, vset, same']

theorem State.onDray_self (same : f (s.dray c) = s.dray c) : s.onDray c f = s := by
  unfold State.onDray
  rw [vmod_self _ _ _ same]

theorem State.onDray_moves : s.onDray c f = { s with move := (s.onDray c f).move } := rfl

theorem State.onDray_sameMemory : s.sameMemory (s.onDray c f) := fun _ => rfl

/-- A change of one channel: the other channels, everything but the Drayman, and the memory stay. -/
theorem State.onDray_spares :
    (∀ d, d ≠ c → (s.onDray c f).dray d = s.dray d) ∧ s.onDray c f = { s with move := (s.onDray c f).move } ∧
      s.sameMemory (s.onDray c f) :=
  ⟨fun _ => State.onDray_dray_ne, State.onDray_moves, State.onDray_sameMemory⟩

/-! ### Triggers -/

/-- What one trigger makes of a channel that is not IDLE. -/
def DrayChan.triggered (x : DrayChan) : DrayChan :=
  if x.state = dcIdle then x
  else if x.pending = 255 then { x with trigLost := x.trigLost + 1 } else { x with pending := x.pending + 1 }

theorem State.trigger_eq : s.trigger c = s.onDray c fun x => { x with reg := x.reg.triggered } := rfl

theorem State.trigger_idle (idle : (s.dray c).reg.state = dcIdle) : s.trigger c = s :=
  State.onDray_self (congrArg (fun r => { s.dray c with reg := r }) (if_pos idle))

theorem DrayChan.triggered_pending {x : DrayChan} (busy : x.state ≠ dcIdle) :
    x.triggered.pending = if x.pending = 255 then 255 else x.pending + 1 := by
  unfold DrayChan.triggered
  rw [if_neg busy]
  split
  · assumption
  · rfl

theorem DrayChan.triggered_lost {x : DrayChan} (busy : x.state ≠ dcIdle) :
    x.triggered.trigLost = if x.pending = 255 then x.trigLost + 1 else x.trigLost := by
  unfold DrayChan.triggered
  rw [if_neg busy]
  split <;> rfl

/-! ### Errors -/

theorem State.drayError_dray (code : BitVec 4) (a : Nat) :
    (s.drayError c code a).dray c =
      { s.dray c with reg := { (s.dray c).reg with
          state := dcError, errCode := code, errAddr := BitVec.ofNat 44 a, errSeen := true } } := by
  unfold State.drayError State.dray
  rw [State.raise_move]
  exact State.onDray_dray

theorem State.drayError_sameMemory (code : BitVec 4) (a : Nat) : s.sameMemory (s.drayError c code a) :=
  State.sameMemory_of_mem (by unfold State.drayError; rw [State.raise_mem]; rfl)

/-- A descriptor address that is no multiple of 32 is reached by no access. -/
theorem State.startRanges_misaligned (off : (s.dray c).reg.curDesc.toNat % 32 ≠ 0) : s.startRanges c = [] :=
  if_pos (.inl off)

theorem State.startDescriptor_misaligned (off : (s.dray c).reg.curDesc.toNat % 32 ≠ 0) :
    s.startDescriptor c = s.drayError c deInvalid (s.dray c).reg.curDesc.toNat :=
  if_pos off

theorem State.lockedOut_nothing (m : MasterId) : s.lockedOut m [] = false := by
  unfold State.lockedOut
  simp

/-- What DESCRIPTOR_COMPLETE makes of a channel (R373). -/
def Dray.completed (y : Dray) (d : Descriptor) : Dray :=
  let adv (circ : Bool) (log : Nat) (cur : BitVec 32) : BitVec 32 :=
    if circ then BitVec.ofNat 32 ((cur.toNat + d.length) % 2 ^ log) else cur
  { y with desc := []
           reg := { y.reg with
             srcCur := adv d.srcCirc d.srcLog y.reg.srcCur, dstCur := adv d.dstCirc d.dstLog y.reg.dstCur
             done := y.reg.done + 1, state := if d.chain then dcMoving else dcIdle
             curDesc := if d.chain then BitVec.ofNat 44 d.next else y.reg.curDesc } }

theorem exec_descriptorComplete_silent (moving : (s.dray c).reg.state = dcMoving) (begun : (s.dray c).desc ≠ [])
    (silent : (descriptorOf (s.dray c).desc).event = false) :
    exec (.descriptorComplete c) s = .next (s.onDray c fun y => y.completed (descriptorOf (s.dray c).desc)) :=
  congrArg Host.Outcome.next ((if_pos ⟨moving, begun⟩).trans (if_neg (by rw [silent]; decide)))

theorem exec_descriptorStart_triggered (waiting : (s.dray c).reg.state = dcWaiting) (asked : (s.dray c).reg.pending ≠ 0)
    (free : s.lockedOut drayPort (s.moveRanges c (descriptorOf (s.dray c).desc)) = false) :
    exec (.descriptorStart c) s = .next (s.beginMove c (descriptorOf (s.dray c).desc)) := by
  have still : ¬ ((s.dray c).reg.state = dcMoving ∧ (s.dray c).desc = []) := by
    rintro ⟨moving, -⟩
    exact absurd (waiting.symm.trans moving) (by decide)
  exact congrArg Host.Outcome.next
    ((if_neg still).trans ((if_pos ⟨waiting, asked⟩).trans (if_neg (by rw [free]; decide))))

theorem exec_descriptorStart_begins (moving : (s.dray c).reg.state = dcMoving) (fresh : (s.dray c).desc = []) :
    exec (.descriptorStart c) s =
      .next (if s.lockedOut drayPort (s.startRanges c) then s else s.startDescriptor c) :=
  congrArg Host.Outcome.next (if_pos ⟨moving, fresh⟩)

/-- Settles O46: each step changes its channel as R372 to R376 say, and nothing but it; a descriptor address that is no
multiple of 32 reaches nothing, so no lock holds it back. -/
theorem draymanChannelSteps : Obligations.DraymanChannelSteps := by
  unfold Obligations.DraymanChannelSteps
  intro s c
  dsimp only
  refine ⟨fun still => ?_, fun busy => ?_, ?_, fun l low line place busy => ?_, fun idle l => ?_,
    exec_descriptorStart_begins, fun moving fresh off => ?_, fun waiting asked free => ?_, fun moving begun silent => ?_⟩
  · exact ⟨_, congrArg Host.Outcome.next (if_pos still), by rw [State.onDray_dray], by rw [State.onDray_dray],
      by rw [State.onDray_dray], State.onDray_spares⟩
  · refine congrArg Host.Outcome.next (if_neg ?_)
    rintro (h | h) <;> rcases busy with k | k <;> exact absurd (h.symm.trans k) (by decide)
  · exact ⟨_, rfl, by rw [State.drayStop, State.onDray_dray], by rw [State.drayStop, State.onDray_dray],
      by rw [State.drayStop, State.onDray_dray], State.onDray_spares⟩
  · exact ⟨_, congrArg Host.Outcome.next (if_pos ⟨line, place, low⟩),
      by rw [State.trigger_eq, State.onDray_dray]; exact DrayChan.triggered_pending busy,
      by rw [State.trigger_eq, State.onDray_dray]; exact DrayChan.triggered_lost busy, State.onDray_spares⟩
  · have none' := State.trigger_idle idle
    cases l with
    | none => exact congrArg Host.Outcome.next (by unfold State.timerTrigger; rw [none']; exact ite_self s)
    | some l => exact congrArg Host.Outcome.next (by dsimp only; rw [none']; exact ite_self s)
  · refine ⟨_, exec_descriptorStart_begins moving fresh, ?_⟩
    rw [State.startRanges_misaligned off, State.lockedOut_nothing, if_neg (by decide), State.startDescriptor_misaligned off,
      State.drayError_dray]
    exact ⟨rfl, rfl, rfl, State.drayError_sameMemory _ _⟩
  · exact exec_descriptorStart_triggered waiting asked free
  · refine ⟨_, exec_descriptorComplete_silent moving begun silent, ?_⟩
    rw [State.onDray_dray]
    exact ⟨rfl, rfl, rfl, rfl, State.onDray_spares⟩

end Sys2Proof.Machine
end

section
/-! Table transactions (R342 to R345): TABLE_BEGIN, TABLE_COMMIT, TABLE_ABORT and TABLE_QUERY under their tests. -/

namespace Sys2Proof.Machine

variable {s v : State} {b : BenchId} {p : Packet} {x : Txn}

/-! ### Ranges cleared -/

/-- A cleared range reads zero, and every byte outside it as before. -/
theorem Memory.zero_reads (m : Memory) (a n : Nat) :
    (∀ k, a ≤ k → k < a + n → (m.zero a n).byte k = 0) ∧
      (∀ k, k < a ∨ a + n ≤ k → (m.zero a n).byte k = m.byte k) := by
  refine ⟨fun k low high => ?_, fun k out => ?_⟩
  · rw [Memory.byte_zero, if_pos ⟨low, high⟩]
  · rw [Memory.byte_zero, if_neg (by omega)]

theorem State.dropTxn_open (opened : (s.benchOf b).txn = some x) :
    s.dropTxn b = ({ s with mem := s.mem.zero x.addr x.room } : State).onBench b fun y => { y with txn := none } := by
  unfold State.dropTxn
  rw [opened]

/-! ### TABLE_BEGIN -/

/-- What TABLE_BEGIN tests, beside LENGTH: the class, the lease, no open transaction, and the words (R344). -/
structure State.Begins (s : State) (b : BenchId) (p : Packet) : Prop where
  least : 1 ≤ p.bits 2 0 8
  most : p.bits 2 0 8 ≤ 10
  lease : s.mayTable b (p.bits 2 0 8) (p.sub 2 8) = true
  closed : (s.benchOf b).txn = none
  reserved : p.stray 2 0xFFFFFC00 = false
  names : namesSub (p.bits 2 0 8) = true ∨ p.sub 2 8 = 0
  length : p.bits 2 0 8 = 8 ∨ (16 ≤ (p.w 3).toNat ∧ (p.w 3).toNat ≤ 16777216)

/-- A WEIGHT switch of the sub-array that the packet names is due (R226). -/
def State.switchDue (s : State) (p : Packet) : Prop :=
  p.bits 2 0 8 = 8 ∧ (s.beam[p.sub 2 8].stat.weightReady ∨ s.beam[p.sub 2 8].stat.switchPending)

theorem cmdTableBegin_acts (sized : p.sized 4) (begins : s.Begins b p) {r : State × Reply}
    (busy : s.switchDue p → r = (s, Reply.plain stBusy))
    (free : ¬ s.switchDue p → r = match s.settleTables.openTxn b (p.bits 2 0 8) (p.sub 2 8) (p.w 3).toNat with
      | some (t, a) => done t (words64 a)
      | none => (s, Reply.plain stNospace)) :
    cmdTableBegin b p s = r := by
  obtain ⟨least, most, lease, closed, reserved, names, length⟩ := begins
  have words : (!p.badFlags && !p.stray 2 0xFFFFFC00 && decide (1 ≤ p.bits 2 0 8 ∧ p.bits 2 0 8 ≤ 10) &&
      (namesSub (p.bits 2 0 8) || p.sub 2 8 == 0) &&
      (p.bits 2 0 8 == 8 || decide (16 ≤ (p.w 3).toNat ∧ (p.w 3).toNat ≤ 16777216))) = true := by
    rw [sized.2.1, reserved, decide_eq_true ⟨least, most⟩]
    simpa using ⟨names, length⟩
  refine (State.answer_tests (beq_iff_eq.mpr sized.1) (by rw [lease, Bool.or_true]) (by rw [closed]; rfl) words).trans ?_
  by_cases due : s.switchDue p
  · exact (if_pos due).trans (busy due).symm
  · refine (if_neg due).trans (Eq.trans ?_ (free due).symm)
    rfl

theorem exec_tableBegin_busy (ready : s.ready b) (sized : p.sized 4) (begins : (s.handed b).Begins b p)
    (due : (s.handed b).switchDue p) :
    exec (.tableBegin b p) s = .next (State.replied b 0x20 p (s.handed b, Reply.plain stBusy)) :=
  exec_of_hand rfl ready sized (by decide) (cmdTableBegin_acts sized begins (fun _ => rfl) fun no => absurd due no)

theorem exec_tableBegin_opens (ready : s.ready b) (sized : p.sized 4) (begins : (s.handed b).Begins b p)
    (free : ¬ (s.handed b).switchDue p) {t : State} {a : Nat}
    (opens : (s.handed b).settleTables.openTxn b (p.bits 2 0 8) (p.sub 2 8) (p.w 3).toNat = some (t, a)) :
    exec (.tableBegin b p) s = .next (State.replied b 0x20 p (t, Reply.ok (words64 a))) :=
  exec_of_hand rfl ready sized (by decide)
    (cmdTableBegin_acts sized begins (fun due => absurd due free) fun _ => by rw [opens]; rfl)

theorem exec_tableBegin_full (ready : s.ready b) (sized : p.sized 4) (begins : (s.handed b).Begins b p)
    (free : ¬ (s.handed b).switchDue p)
    (full : (s.handed b).settleTables.openTxn b (p.bits 2 0 8) (p.sub 2 8) (p.w 3).toNat = none) :
    exec (.tableBegin b p) s = .next (State.replied b 0x20 p (s.handed b, Reply.plain stNospace)) :=
  exec_of_hand rfl ready sized (by decide)
    (cmdTableBegin_acts sized begins (fun due => absurd due free) fun _ => by rw [full])

/-- The bytes a transaction reserves (R344): a WEIGHT table stages only its header and words 0 to 4. -/
def txnRoom (cls n : Nat) : Nat := up4K (if cls = 8 then min n 36 else n)

/-- The module with a transaction's range at `a` reserved and cleared. -/
def State.reserved (s : State) (b : BenchId) (cls : Nat) (i : SubId) (n a : Nat) : State :=
  ({ s with mem := s.mem.zero (storeBase + a) (txnRoom cls n) } : State).onBench b fun y =>
    { y with txn := some ⟨cls, some i, n, storeBase + a, txnRoom cls n, 0⟩ }

theorem State.openTxn_eq (cls : Nat) (i : SubId) (n : Nat) :
    s.openTxn b cls i n =
      (fitIn s.storeTaken (txnRoom cls n) storeBytes).map fun a => (s.reserved b cls i n a, storeBase + a) := rfl

/-! ### TABLE_COMMIT -/

/-- A staged table's header holds for its transaction (R342). -/
def Txn.headed (x : Txn) (bs : List Byte) : Prop :=
  bw (bytesWords bs) 0 = 0x5054424C ∧ fieldOf (bw (bytesWords bs) 1) 0 8 = x.cls ∧ fieldOf (bw (bytesWords bs) 1) 8 8 = 1 ∧
    (bw (bytesWords bs) 2).toNat = x.length ∧ x.length % 4 = 0 ∧ bw (bytesWords bs) 3 = crc32 (bs.drop 16)

/-- The committed table is listed and its transaction has ended; staging space that it does not keep is cleared. -/
def State.listsTable (v : State) (b : BenchId) (x : Txn) (crc : Word) (body : List Word) (t : State) (pending : Bool) : State :=
  let e := x.entry v crc body pending
  let w := (t.onBench b fun y => { y with txn := none }).listTable e
  { w with mem := if e.room = 0 then w.mem.zero x.addr x.room else w.mem }

/-- The rules of a class as an answer: the table is listed, or refused with its transaction open. -/
def State.judged (v : State) (b : BenchId) (x : Txn) (crc : Word) (body : List Word) : State × Reply :=
  match v.commitBody x body with
  | .done t pending => (v.listsTable b x crc body t pending, Reply.ok)
  | .busy => (v, Reply.plain stBusy)
  | .wrongMode => (v, Reply.plain stWrongMode)
  | .invalid off => (v, { status := stTableInvalid, detail := BitVec.ofNat 32 off })

/-- The test of a commit on a staged table's header. -/
def Txn.headerTest (x : Txn) (bs : List Byte) : Bool :=
  bw (bytesWords bs) 0 == 0x5054424C && fieldOf (bw (bytesWords bs) 1) 0 8 == x.cls &&
    fieldOf (bw (bytesWords bs) 1) 8 8 == 1 && (bw (bytesWords bs) 2).toNat == x.length && decide (x.length % 4 = 0) &&
    bw (bytesWords bs) 3 == crc32 (bs.drop 16)

theorem Txn.headerTest_iff (x : Txn) (bs : List Byte) : x.headerTest bs = true ↔ x.headed bs := by
  simp only [Txn.headerTest, Txn.headed, Bool.and_eq_true, beq_iff_eq, decide_eq_true_eq, and_assoc]

/-- The lease that a CURVE table needs at its commit (Table 13-7). -/
def State.curveLease (v : State) (b : BenchId) (x : Txn) (body : List Word) : Prop :=
  x.cls = 2 → (if fieldOf (bw body 0) 0 8 = 2 then v.holdsWork b else v.holdsAnyObs b) = true

theorem State.commit_headless (wrong : ¬ x.headed (s.settleTables.stagedBytes x)) :
    s.commit b x = (s.settleTables, { status := stTableInvalid, detail := 0xFFFFFFFF }) := by
  have test : x.headerTest (s.settleTables.stagedBytes x) = false :=
    Bool.eq_false_iff.mpr fun h => wrong ((x.headerTest_iff _).mp h)
  exact if_pos (show (!x.headerTest (s.settleTables.stagedBytes x)) = true by rw [test]; rfl)

theorem State.commit_headed (holds : x.headed (s.settleTables.stagedBytes x))
    (lease : s.settleTables.curveLease b x ((bytesWords (s.settleTables.stagedBytes x)).drop 4)) :
    s.commit b x = s.settleTables.judged b x (bw (bytesWords (s.settleTables.stagedBytes x)) 3)
      ((bytesWords (s.settleTables.stagedBytes x)).drop 4) := by
  have test := (x.headerTest_iff _).mpr holds
  refine (if_neg (show ¬ (!x.headerTest (s.settleTables.stagedBytes x)) = true by rw [test]; decide)).trans ?_
  refine (if_neg ?_).trans ?_
  · rintro ⟨curve, no⟩
    rw [lease curve] at no
    exact absurd no (by decide)
  · unfold State.judged
    generalize s.settleTables.commitBody x _ = c
    cases c with
    | busy => rfl
    | invalid off => rfl
    | wrongMode => rfl
    | done t pending =>
      dsimp only [State.listsTable]
      split <;> rfl

theorem exec_tableCommit (ready : s.ready b) (sized : p.sized 2) (opened : ((s.handed b).benchOf b).txn = some x)
    (lease : (s.handed b).mayTable b x.cls (x.sub.getD 0) = true) :
    exec (.tableCommit b p) s = .next (State.replied b 0x21 p ((s.handed b).commit b x)) := by
  refine exec_of_hand rfl ready sized (by decide) ?_
  unfold cmdTableCommit
  rw [opened]
  exact State.answer_tests (beq_iff_eq.mpr sized.1) lease rfl (by rw [sized.2.1]; rfl)

/-! ### TABLE_ABORT and TABLE_QUERY -/

theorem exec_tableAbort (ready : s.ready b) (sized : p.sized 2) (opened : ((s.handed b).benchOf b).txn = some x)
    (lease : (s.handed b).mayTable b x.cls (x.sub.getD 0) = true) :
    exec (.tableAbort b p) s = .next (State.replied b 0x22 p ((s.handed b).dropTxn b, Reply.ok)) := by
  refine exec_of_hand rfl ready sized (by decide) ?_
  unfold cmdTableAbort
  rw [opened]
  exact State.answer_tests (beq_iff_eq.mpr sized.1) lease rfl (by rw [sized.2.1]; rfl)

/-- With no transaction open there is nothing to commit or to abort. -/
theorem answer_wrongMode (u : State) (r : State × Reply) (sized : p.sized 2) :
    u.answer (tests (p.len == 2) true false true) r = (u, Reply.plain stWrongMode) := by
  rw [sized.1]
  rfl

theorem exec_tableAbort_closed (ready : s.ready b) (sized : p.sized 2) (closed : ((s.handed b).benchOf b).txn = none) :
    exec (.tableAbort b p) s = .next (State.replied b 0x22 p (s.handed b, Reply.plain stWrongMode)) := by
  refine exec_of_hand rfl ready sized (by decide) ?_
  unfold cmdTableAbort
  rw [closed]
  exact answer_wrongMode _ _ sized

theorem exec_tableCommit_closed (ready : s.ready b) (sized : p.sized 2) (closed : ((s.handed b).benchOf b).txn = none) :
    exec (.tableCommit b p) s = .next (State.replied b 0x21 p (s.handed b, Reply.plain stWrongMode)) := by
  refine exec_of_hand rfl ready sized (by decide) ?_
  unfold cmdTableCommit
  rw [closed]
  exact answer_wrongMode _ _ sized

theorem exec_tableQuery (ready : s.ready b) (sized : p.sized 3) (lease : (s.handed b).holdsAny b = true)
    (reserved : p.stray 2 0xFF000000 = false) (least : 1 ≤ p.bits 2 0 8) (most : p.bits 2 0 8 ≤ 10) :
    exec (.tableQuery b p) s =
      .next (State.replied b 0x23 p (s.handed b, (s.handed b).tableQuery (p.bits 2 0 8) (p.bits 2 8 16))) :=
  exec_of_hand rfl ready sized (by decide) (State.answer_tests (beq_iff_eq.mpr sized.1) lease rfl
    (by rw [sized.2.1, reserved, decide_eq_true ⟨least, most⟩]; rfl))

/-- Settles O14: under their tests the commands answer what the table store gives. -/
theorem tableStagingCompletes : Obligations.TableStagingCompletes := by
  unfold Obligations.TableStagingCompletes
  intro s b p ready
  dsimp only
  refine ⟨fun sized least most lease closed reserved names length => ?_, fun x sized opened lease => ⟨?_, ?_⟩,
    fun sized closed => ⟨exec_tableAbort_closed ready sized closed, exec_tableCommit_closed ready sized closed⟩,
    fun sized lease reserved least most => exec_tableQuery ready sized lease reserved least most⟩
  · have begins : (s.handed b).Begins b p := ⟨least, most, lease, closed, reserved, names, length⟩
    refine ⟨fun weight due => exec_tableBegin_busy ready sized begins ⟨weight, due⟩, fun calm => ?_⟩
    have free : ¬ (s.handed b).switchDue p := by
      rintro ⟨weight, due⟩
      obtain ⟨notReady, notPending⟩ := calm weight
      rw [notReady, notPending] at due
      simp at due
    refine ⟨fun a fits => ⟨?_, Memory.zero_reads _ _ _⟩, fun none' => ?_⟩
    · refine exec_tableBegin_opens ready sized begins free ?_
      rw [State.openTxn_eq]
      exact congrArg (Option.map _) fits
    · refine exec_tableBegin_full ready sized begins free ?_
      rw [State.openTxn_eq]
      exact congrArg (Option.map _) none'
  · rw [exec_tableAbort ready sized opened lease, State.dropTxn_open opened]
  · exact Memory.zero_reads _ _ _

/-! ### The rules of a TALLY and of a HASH table -/

/-- The entries of a TALLY body (R401). -/
def tallyEntries (body : List Word) : List TalyCfg :=
  (List.range (fieldOf (bw body 0) 0 9)).map fun k => talyEntry fun j => bw body (1 + 4 * k + j)

/-- In a list without repeats no place holds what an earlier place holds. -/
theorem nodup_take_ne {α β : Type} {es : List α} {key : α → β} {c : α} {k : Nat} (single : (es.map key).Nodup)
    (at' : es[k]? = some c) : ∀ o ∈ es.take k, key o ≠ key c := by
  intro o before same
  obtain ⟨j, early, rfl⟩ := List.mem_take_iff_getElem.mp before
  obtain ⟨bound, rfl⟩ := List.getElem?_eq_some_iff.mp at'
  have equal := (List.Nodup.getElem_inj_iff single (i := j) (j := k) (hi := by rw [List.length_map]; omega)
    (hj := by rw [List.length_map]; omega)).mp (by rw [List.getElem_map, List.getElem_map]; exact same)
  omega

theorem State.commitTally_waits {body : List Word} (least : 1 ≤ fieldOf (bw body 0) 0 9) (most : fieldOf (bw body 0) 0 9 ≤ 256)
    (length : body.length = 1 + 4 * fieldOf (bw body 0) 0 9) (ranges : ∀ c ∈ tallyEntries body, c.bad = false)
    (single : ((tallyEntries body).map fun c => c.source).Nodup) :
    v.commitTally body = .done { v with tally := { v.tally with queued := v.tally.queued ++ tallyEntries body } } true := by
  have size : ¬ (fieldOf (bw body 0) 0 9 = 0 ∨ 256 < fieldOf (bw body 0) 0 9 ∨ body.length ≠ 1 + 4 * fieldOf (bw body 0) 0 9) := by
    omega
  unfold State.commitTally
  dsimp only
  rw [if_neg size]
  split
  · next k found =>
    have fault := List.find?_some found
    exfalso
    revert fault
    split
    · next c at' =>
      rw [ranges c (List.mem_of_getElem? at')]
      have apart := nodup_take_ne single at'
      unfold tallyEntries at apart
      simpa using apart
    · exact fun no => absurd no (by decide)
  · rfl

theorem State.commitHash_takes {body : List Word} (length : body.length = 12)
    (masks : ∀ k, k < 11 → badMask k (fieldOf (bw body (k + 1)) 0 30) = false)
    (regions : ∀ r ∈ v.gran.regions, r.kind = 6) (mode : v.mode = modeProvision ∨ v.mode = modeWorkshop) :
    v.commitHash body = .done (v.useMasks (hashMasks body)).zeroGranary false := by
  have clean : ((List.range 11).find? fun k => badMask k ((hashMasks body).getD k 0)) = none := by
    rw [List.find?_eq_none]
    intro k low
    have low : k < 11 := List.mem_range.mp low
    have word : (hashMasks body).getD k 0 = fieldOf (bw body (k + 1)) 0 30 := by simp [hashMasks, low]
    rw [word, masks k low]
    decide
  have unused : (v.gran.regions.any fun r => r.kind != 6) = false := by
    rw [List.any_eq_false]
    intro r here
    rw [regions r here]
    decide
  unfold State.commitHash
  dsimp only
  rw [if_neg (not_not.mpr length), clean, unused]
  refine (if_neg (by decide)).trans (if_neg ?_)
  rintro ⟨noProvision, noWorkshop⟩
  exact mode.elim noProvision noWorkshop

theorem State.commitBody_tally {body : List Word} (cls : x.cls = 5) : v.commitBody x body = v.commitTally body := by
  unfold State.commitBody
  rw [cls]
  rfl

theorem State.commitBody_hash {body : List Word} (cls : x.cls = 10) : v.commitBody x body = v.commitHash body := by
  unfold State.commitBody
  rw [cls]
  rfl

theorem State.curveLease_of_ne {body : List Word} (other : x.cls ≠ 2) : v.curveLease b x body := fun curve => absurd curve other

theorem State.judged_done {t : State} {crc : Word} {body : List Word} {pending : Bool} (rules : v.commitBody x body = .done t pending) :
    v.judged b x crc body = (v.listsTable b x crc body t pending, Reply.ok) := by
  unfold State.judged
  rw [rules]

/-- Settles O15: the header is tested first, then the class's rules; R401's and R243's ranges make those of TALLY and HASH. -/
theorem tableCommitCompletes : Obligations.TableCommitCompletes := by
  unfold Obligations.TableCommitCompletes
  intro s b p x ready
  dsimp only
  intro sized opened lease
  rw [exec_tableCommit ready sized opened lease]
  refine ⟨fun wrong => ?_, fun holds curve => ?_, fun holds cls least most length ranges single => ?_,
    fun holds cls length masks regions mode => ?_⟩
  · rw [State.commit_headless wrong]
  · rw [State.commit_headed holds curve]
    rfl
  · have other : x.cls ≠ 2 := by omega
    have rules := (State.commitBody_tally (v := (s.handed b).settleTables) cls).trans (State.commitTally_waits least most length ranges single)
    rw [State.commit_headed holds (State.curveLease_of_ne other), State.judged_done rules]
    rfl
  · have other : x.cls ≠ 2 := by omega
    have rules := (State.commitBody_hash (v := (s.handed b).settleTables) cls).trans (State.commitHash_takes length masks regions mode)
    rw [State.commit_headed holds (State.curveLease_of_ne other), State.judged_done rules]
    rfl

/-! ### The four commands together -/

/-- What an opened transaction is: its range reads zero, and every byte outside it is as before. -/
theorem State.openTxn_opens {cls n a : Nat} {i : SubId} {t : State} (opens : v.openTxn b cls i n = some (t, a)) :
    ∃ y, (t.benchOf b).txn = some y ∧ y.addr = a ∧ y.cls = cls ∧ y.length = n ∧
      (∀ k, a ≤ k → k < a + y.room → t.mem.byte k = 0) ∧ (∀ k, k < a ∨ a + y.room ≤ k → t.mem.byte k = v.mem.byte k) := by
  rw [State.openTxn_eq, Option.map_eq_some_iff] at opens
  obtain ⟨r, -, made⟩ := opens
  obtain ⟨rfl, rfl⟩ := Prod.mk.inj made
  refine ⟨⟨cls, some i, n, storeBase + r, txnRoom cls n, 0⟩, ?_, rfl, rfl, rfl, ?_⟩
  · rw [State.reserved, State.onBench_benchOf]
  · exact Memory.zero_reads v.mem (storeBase + r) (txnRoom cls n)

/-- Settles O16: the four commands complete, and the store's bytes are cleared where a range is reserved or freed. -/
theorem tableTransactions : Obligations.TableTransactions := by
  unfold Obligations.TableTransactions
  intro s b p ready
  dsimp only
  refine ⟨fun t a sized least most lease closed reserved names length calm opens => ⟨?_, ?_⟩,
    fun x t pending sized opened lease magic cls version size whole crc curve rules => ?_,
    fun x sized opened lease => ⟨exec_tableAbort ready sized opened lease, State.dropTxn_txn _ _, ?_⟩,
    fun sized lease reserved least most => exec_tableQuery ready sized lease reserved least most⟩
  · refine exec_tableBegin_opens ready sized ⟨least, most, lease, closed, reserved, names, length⟩ ?_ opens
    rintro ⟨weight, due⟩
    obtain ⟨notReady, notPending⟩ := calm weight
    rw [notReady, notPending] at due
    simp at due
  · exact State.openTxn_opens opens
  · rw [exec_tableCommit ready sized opened lease,
      State.commit_headed ⟨magic, cls, version, size, whole, crc⟩ curve, State.judged_done rules]
    exact ⟨_, rfl⟩
  · rw [State.dropTxn_open opened]
    exact Memory.zero_reads _ _ _

end Sys2Proof.Machine
end

section
/-! What every operation of the module only adds to: the queue stays, what left the module stays left, free values are drawn
forwards, and the memory stays in canonical form (log entries 2 to 4). -/

namespace Sys2Proof.Machine

variable {s t u : State}

/-- The queue is as it was, more may have left the module, more free values may be drawn, and the memory keeps its form. -/
structure State.Adds (s t : State) : Prop where
  pending : t.pending = s.pending
  out : s.out <+: t.out
  free : s.freeCount ≤ t.freeCount
  wf : Memory.wf s.mem = true → Memory.wf t.mem = true

theorem State.Adds.refl (s : State) : s.Adds s := ⟨rfl, List.prefix_rfl, Nat.le_refl _, id⟩

theorem State.Adds.trans (h : s.Adds t) (k : t.Adds u) : s.Adds u :=
  ⟨k.pending.trans h.pending, h.out.trans k.out, h.free.trans k.free, fun wf => k.wf (h.wf wf)⟩

/-- A change of what none of the four speaks of. -/
theorem State.Adds.aside (pending : t.pending = s.pending) (out : t.out = s.out) (free : t.freeCount = s.freeCount)
    (mem : t.mem = s.mem) : s.Adds t :=
  ⟨pending, out ▸ List.prefix_rfl, free.symm.le, fun wf => mem ▸ wf⟩

theorem State.Adds.foldl {β : Type} {f : State → β → State} (each : ∀ u b, State.Adds u (f u b)) (l : List β) (s : State) :
    s.Adds (l.foldl f s) :=
  foldl_keeps s.Adds f (fun u b kept => kept.trans (each u b)) l s (.refl s)

theorem State.TallyOnly.adds (h : s.TallyOnly t) : s.Adds t :=
  ⟨by rw [h.1], h.2, by rw [h.1], fun wf => by rw [h.1]; exact wf⟩

theorem State.SaysOnly.adds (h : s.SaysOnly t) : s.Adds t := h.tally.adds

theorem State.Bus.adds (h : s.Bus t) : s.Adds t := ⟨by rw [h.frame], h.out, h.free, h.wf⟩

theorem State.Adds.onMem {m : Memory} (wf : Memory.wf s.mem = true → Memory.wf m = true) : s.Adds { s with mem := m } :=
  ⟨rfl, List.prefix_rfl, Nat.le_refl _, wf⟩

theorem State.setMode_adds (s : State) (m : BitVec 4) : s.Adds (s.setMode m) := by
  unfold State.setMode
  split
  · exact .refl s
  · extract_lets old changed released unlooped
    have one : s.Adds changed := .aside rfl rfl rfl rfl
    have two : changed.Adds released := by
      unfold released
      split <;> exact .aside rfl rfl rfl rfl
    have three : released.Adds unlooped := by
      unfold unlooped
      split <;> exact .aside rfl rfl rfl rfl
    refine ((one.trans two).trans three).trans (.foldl (fun u b => ?_) _ _)
    split
    · exact (u.setIrq_says ..).adds
    · exact .refl u

/-- Moved spans keep the memory's form. -/
theorem Memory.wf_move {m : Memory} {moves : List (Nat × Nat × Nat)} (wf : Memory.wf m = true) :
    Memory.wf (m.move moves) = true := by
  unfold Memory.move
  refine foldl_keeps (fun a => Memory.wf a = true) _ (fun a c h => SMap.wf_set h) _ _ ?_
  exact foldl_keeps (fun a => Memory.wf a = true) _ (fun a e h => Memory.wf_zero (Memory.wf_zero h)) _ _ wf

/-! ### Tiles, spares and plans (R165 to R176) -/

/-- Only the tiles, the Loom's records, the islands asked for, and what the Tally and the benches are told have changed. -/
def State.TilesOnly (s t : State) : Prop :=
  t = { s with tiles := t.tiles, loom := t.loom, bell := t.bell, tally := t.tally, bench := t.bench, out := t.out } ∧ s.out <+: t.out

theorem State.TilesOnly.refl (s : State) : s.TilesOnly s := ⟨rfl, List.prefix_rfl⟩

theorem State.TilesOnly.trans (h : s.TilesOnly t) (k : t.TilesOnly u) : s.TilesOnly u :=
  ⟨by rw [k.1, h.1], h.2.trans k.2⟩

theorem State.TilesOnly.foldl {β : Type} {f : State → β → State} (each : ∀ u b, State.TilesOnly u (f u b)) (l : List β) (s : State) :
    s.TilesOnly (l.foldl f s) :=
  foldl_keeps s.TilesOnly f (fun u b kept => kept.trans (each u b)) l s (.refl s)

theorem State.TallyOnly.tilesOnly (h : s.TallyOnly t) : s.TilesOnly t := ⟨by rw [h.1], h.2⟩

theorem State.TilesOnly.mem (h : s.TilesOnly t) : t.mem = s.mem := by rw [h.1]

theorem State.TilesOnly.raise (s : State) (i : SourceId) (detail : Word) (sub : Option SubId) :
    s.TilesOnly (s.raise i detail sub) := (s.raise_only ..).tilesOnly

section
variable (s : State) (t : TileId) (i : SubId)

theorem State.TilesOnly.onTile (f : Tile → Tile) : s.TilesOnly (s.onTile t f) := ⟨rfl, List.prefix_rfl⟩
theorem State.TilesOnly.onTileReg (f : LoomTile → LoomTile) : s.TilesOnly (s.onTileReg t f) := ⟨rfl, List.prefix_rfl⟩
theorem State.TilesOnly.onLoom (f : LoomSub → LoomSub) : s.TilesOnly (s.onLoom i f) := ⟨rfl, List.prefix_rfl⟩
theorem State.TilesOnly.askIsland (k : IslandId) (on : Bool) : s.TilesOnly (s.askIsland k on) := ⟨rfl, List.prefix_rfl⟩
theorem State.TilesOnly.showLoom : s.TilesOnly (s.showLoom i) := ⟨rfl, List.prefix_rfl⟩

theorem State.announceFail_tilesOnly : s.TilesOnly (s.announceFail t) := (State.TilesOnly.onTileReg ..).trans (.raise ..)

theorem State.retire_tilesOnly : s.TilesOnly (s.retire t) := by
  unfold State.retire
  extract_lets announced
  have one : s.TilesOnly announced := by
    unfold announced
    split
    · exact .refl s
    · exact s.announceFail_tilesOnly t
  exact (one.trans (.askIsland ..)).trans (.onTile ..)

theorem State.takeSpare_tilesOnly (n : Nat) : s.TilesOnly (s.takeSpare n) := by
  unfold State.takeSpare
  split
  · exact .refl s
  · split
    · exact (State.TilesOnly.onTileReg ..).trans (.raise ..)
    · exact .refl s

theorem State.showTiles_tilesOnly : s.TilesOnly s.showTiles := by
  unfold State.showTiles
  exact (State.TilesOnly.foldl (fun _ _ => .onTileReg ..) _ s).trans (.foldl (fun _ _ => .onLoom ..) _ _)

theorem State.showAll_tilesOnly : s.TilesOnly s.showAll :=
  s.showTiles_tilesOnly.trans (.foldl (fun _ _ => .showLoom ..) _ _)

theorem State.retireNow_tilesOnly : s.TilesOnly (s.retireNow t) := by
  have retired := s.retire_tilesOnly t
  unfold State.retireNow
  dsimp only
  split
  · exact (retired.trans (State.takeSpare_tilesOnly ..)).trans (State.showAll_tilesOnly _)
  · exact retired.trans (State.showAll_tilesOnly _)

theorem State.retireStray_tilesOnly : s.TilesOnly s.retireStray := by
  refine State.TilesOnly.foldl (fun u t => ?_) _ s
  extract_lets held joined
  have one : u.TilesOnly joined := by
    unfold joined
    split
    · exact .onTile ..
    · exact .refl u
  split
  · exact .refl u
  · split
    · exact one.trans (joined.retireNow_tilesOnly t)
    · split
      · exact (one.trans (.onTileReg ..)).trans (State.retireNow_tilesOnly _ t)
      · exact one

theorem State.dropPlan_tilesOnly : s.TilesOnly (s.dropPlan i) :=
  (((State.TilesOnly.onLoom ..).trans (State.showTiles_tilesOnly _)).trans (State.retireStray_tilesOnly _)).trans
    (State.showAll_tilesOnly _)

end

end Sys2Proof.Machine
end

section
/-! Definition, arming, start and stop of a sub-array (R347 to R351): what the records that follow leave, and the settled statement. -/

namespace Sys2Proof.Machine

variable {s t u : State}

/-! ### What follows a definition -/

/-- Records that follow the sub-arrays change: their states and epochs, their blocks and the Granary stay. -/
structure State.Follows (s t : State) : Prop where
  obs : t.obs = s.obs
  blocks : ∀ i : SubId, t.cellar[i].cfg.blockMask = s.cellar[i].cfg.blockMask
  gran : t.gran = s.gran

theorem State.Follows.refl (s : State) : s.Follows s := ⟨rfl, fun _ => rfl, rfl⟩

theorem State.Follows.trans (h : s.Follows t) (k : t.Follows u) : s.Follows u :=
  ⟨k.obs.trans h.obs, fun i => (k.blocks i).trans (h.blocks i), k.gran.trans h.gran⟩

theorem State.Follows.aside (obs : t.obs = s.obs) (cellar : t.cellar = s.cellar) (gran : t.gran = s.gran) : s.Follows t :=
  ⟨obs, fun i => by rw [cellar], gran⟩

theorem State.Follows.foldl {β : Type} {f : State → β → State} (each : ∀ u b, State.Follows u (f u b)) (l : List β) (s : State) :
    s.Follows (l.foldl f s) :=
  foldl_keeps s.Follows f (fun u b kept => kept.trans (each u b)) l s (.refl s)

theorem State.ModeOnly.follows (h : s.ModeOnly t) : s.Follows t := .aside (by rw [h]) (by rw [h]) (by rw [h])

theorem State.Follows.onCellar {i : SubId} {f : CellarSub → CellarSub} (keeps : ∀ x, (f x).cfg.blockMask = x.cfg.blockMask) :
    s.Follows (s.onCellar i f) := by
  refine ⟨rfl, fun j => ?_, rfl⟩
  by_cases same : j = i
  · subst same
    rw [State.onCellar_cellar, keeps]
  · rw [State.onCellar_cellar_ne _ _ _ _ same]

theorem State.TilesOnly.follows (h : s.TilesOnly t) : s.Follows t := .aside (by rw [h.1]) (by rw [h.1]) (by rw [h.1])

section
variable (s : State) (i : SubId)

theorem State.Follows.onLoom (f : LoomSub → LoomSub) : s.Follows (s.onLoom i f) := .aside rfl rfl rfl
theorem State.Follows.onLedger (f : LedgerSub → LedgerSub) : s.Follows (s.onLedger i f) := .aside rfl rfl rfl
theorem State.Follows.onSieve (f : SieveSub → SieveSub) : s.Follows (s.onSieve i f) := .aside rfl rfl rfl
theorem State.Follows.onMem (m : Memory) : s.Follows { s with mem := m } := .aside rfl rfl rfl
theorem State.Follows.freeFaulted : s.Follows (s.freeFaulted i) := .aside rfl rfl rfl
theorem State.Follows.forgetTables : s.Follows (s.forgetTables i) := .aside rfl rfl rfl

theorem State.writeShelf_follows (p : Bool × Nat × Nat) : s.Follows (s.writeShelf i p) := by
  refine State.Follows.trans ?_ (.onLoom ..)
  exact .onCellar fun _ => rfl

theorem State.giveShelf_follows (p : Bool × Nat × Nat) : s.Follows (s.giveShelf i p) := by
  unfold State.giveShelf
  dsimp only
  split
  · exact s.writeShelf_follows i p
  · exact .onCellar fun _ => rfl

theorem State.layAll_follows : s.Follows s.layAll := by
  have shelf : s.Follows s.layShelf := .foldl (fun u e => u.giveShelf_follows ..) _ s
  exact shelf.trans ((State.Follows.onMem ..).trans (.foldl (fun _ _ => .onLedger ..) _ _))

theorem State.moveCoefs_follows (moves : List (SubId × Nat)) : s.Follows (s.moveCoefs moves) :=
  State.Follows.trans (.foldl (fun _ _ => .onSieve ..) _ s) (.aside rfl rfl rfl)

end

/-! ### Release (R347) -/

theorem mem_putRegion {rs : List Region} {x r : Region} : r ∈ putRegion rs x ↔ r ∈ rs ∨ r = x := by
  unfold putRegion
  simp only [List.mem_append, List.mem_filter, List.mem_singleton]
  by_cases below : r.base < x.base <;> simp [below, or_comm]

/-- A frozen bay lies in a CAPTURE region. -/
theorem State.captureRegions_kind (s : State) (i : SubId) : ∀ r ∈ s.captureRegions i, r.kind = 5 := by
  unfold State.captureRegions
  dsimp only
  refine foldl_keeps (fun rs : List Region => ∀ r ∈ rs, r.kind = 5) _ (fun rs e kept => ?_) _ _ (by simp)
  have appended : ∀ r ∈ rs ++ [⟨5, i.val, s.cellar[i].cfg.base.toNat + e.2 * s.cellar[i].cfg.bayBytes.toNat,
      s.cellar[i].cfg.bayBytes.toNat⟩], r.kind = 5 := by
    intro r here
    rcases List.mem_append.mp here with old | new
    · exact kept r old
    · rw [List.mem_singleton.mp new]
  split
  · next last at' =>
    split
    · intro r here
      rcases List.mem_append.mp here with old | new
      · exact kept r (List.mem_of_mem_dropLast old)
      · rw [List.mem_singleton.mp new]
        exact kept last (List.mem_of_getLast? at')
    · exact appended
  · intro r here
    rw [List.mem_singleton.mp here]

/-- Of a sub-array whose regions are freed at most CAPTURE, SCRATCH and what is no sub-array's stay (R264). -/
theorem State.freedRegions_kind (s : State) (i : SubId) :
    ∀ r ∈ s.freedRegions i, r.sub = i.val → r.kind = 0 ∨ 5 ≤ r.kind := by
  unfold State.freedRegions
  have captured := s.captureRegions_kind i
  generalize s.captureRegions i = cs at captured
  have start : ∀ r ∈ s.gran.regions.filter fun (r : Region) => !(r.sub == i.val && decide (1 ≤ r.kind ∧ r.kind ≤ 4)),
      r.sub = i.val → r.kind = 0 ∨ 5 ≤ r.kind := by
    intro r here own
    have free := (List.mem_filter.mp here).2
    simp [own] at free
    omega
  generalize s.gran.regions.filter _ = rs at start
  induction cs generalizing rs with
  | nil => exact start
  | cons c cs ih =>
    refine ih (fun r here => captured r (List.mem_cons_of_mem _ here)) _ fun r here own => ?_
    rcases mem_putRegion.mp here with old | rfl
    · exact start r old own
    · exact .inr (captured r List.mem_cons_self).ge

/-- What a release leaves before the records follow. -/
theorem State.obsRelease_follows (s : State) (i : SubId) :
    ∃ v : State, s.Follows v ∧
      State.Follows ({ v with gran := { v.gran with regions := v.freedRegions i }, obs := vset v.obs i {}
                              cellar := vset v.cellar i {} } : State) (s.obsRelease i) := by
  obtain ⟨v, dropped⟩ : ∃ v, v = ((s.freeFaulted i).forgetTables i).dropPlan i := ⟨_, rfl⟩
  have before : s.Follows v := by
    rw [dropped]
    exact ((State.Follows.freeFaulted ..).trans (.forgetTables ..)).trans (State.dropPlan_tilesOnly ..).follows
  refine ⟨v, before, ?_⟩
  unfold State.obsRelease
  rw [← dropped]
  refine State.Follows.trans ?_ ((State.layAll_follows _).trans (State.showAll_tilesOnly _).follows)
  exact .aside rfl rfl rfl

theorem State.Follows.saState (h : s.Follows t) (i : SubId) : t.saState i = s.saState i := by
  unfold State.saState
  rw [h.obs]

theorem State.obsRelease_states (s : State) (i : SubId) :
    (s.obsRelease i).saState i = saFree ∧ (∀ r ∈ (s.obsRelease i).gran.regions, r.sub = i.val → r.kind = 0 ∨ 5 ≤ r.kind) ∧
      ∀ j, j ≠ i → (s.obsRelease i).saState j = s.saState j := by
  obtain ⟨v, before, after⟩ := s.obsRelease_follows i
  refine ⟨?_, ?_, fun j other => ?_⟩
  · rw [after.saState]
    exact congrArg ObsSub.state (by simp : (vset v.obs i {})[i] = {})
  · rw [after.gran]
    exact v.freedRegions_kind i
  · rw [after.saState, ← before.saState]
    exact congrArg ObsSub.state (vmod_ne v.obs (fun _ => {}) other)

/-! ### Definition (R347) -/

/-- What a definition's records are before those that follow them. -/
theorem State.writeDefine_follows (s : State) (d : ObsParams) (coef gain : Nat) (regions : List Region) (a b c e : Nat) :
    ∃ v : State, v.Follows (s.writeDefine d coef gain regions a b c e) ∧
      (v.obs[d.sub]).state = saDefined ∧
      (v.obs[d.sub]).epoch.period32 = d.periodNs % 2 ^ 16 * 2 ^ 32 + d.periodFrac % 2 ^ 32 ∧
      v.cellar[d.sub].cfg.blockMask = BitVec.ofNat 32 d.mask ∧ ∀ j : SubId, j ≠ d.sub → v.obs[j] = s.obs[j] := by
  unfold State.writeDefine
  extract_lets i gainFill front gran t0 t1 t2 t3 t4 t5 t6 t7 t8
  have obs : t8.obs = t1.obs := rfl
  have cellar : t8.cellar = t5.cellar := rfl
  refine ⟨t8, ?_, ?_, ?_, ?_, fun j other => ?_⟩
  · clear obs cellar
    clear_value t8
    have one : t8.Follows (((t8.freeFaulted i).forgetTables i).dropPlan i) :=
      ((State.Follows.freeFaulted ..).trans (.forgetTables ..)).trans (State.dropPlan_tilesOnly ..).follows
    have two := one.trans (State.layAll_follows _)
    generalize (((t8.freeFaulted i).forgetTables i).dropPlan i).layAll = laid at two
    refine two.trans (State.Follows.trans (t := laid.showBays i) ?_ ?_)
    · exact .onCellar fun _ => rfl
    · exact .aside rfl rfl rfl
  · rw [obs, State.onObs_obs]
  · rw [obs, State.onObs_obs]
    simp [TimeEpoch.period32]
  · rw [cellar, State.onCellar_cellar]
  · rw [obs, State.onObs_obs_ne _ _ _ _ other]

/-- A definition inside every limit, with room for its regions and no channel in FAULT, is made (R347). -/
theorem State.obsDefine_defines {d : ObsParams} (limits : s.badDefine d = false) (streams : s.tooManyStreams d = false)
    (beams : s.tooManyBeams d = false) (coefs : (s.placeCoefs d).isSome) (gains : (s.gainGroup d).isSome)
    (room : (s.placeRegions d).isSome) (sound : ∀ k : ChanId, (s.chan k).stat.state ≠ gsFault) :
    ∃ v, s.obsDefine d = (v, stOk) ∧ v.saState d.sub = saDefined ∧
      v.obs[d.sub].epoch.period32 = d.periodNs % 2 ^ 16 * 2 ^ 32 + d.periodFrac % 2 ^ 32 ∧
      v.cellar[d.sub].cfg.blockMask = BitVec.ofNat 32 d.mask ∧ ∀ j, j ≠ d.sub → v.saState j = s.saState j := by
  obtain ⟨cs, coefs⟩ := Option.isSome_iff_exists.mp coefs
  obtain ⟨g, gains⟩ := Option.isSome_iff_exists.mp gains
  obtain ⟨⟨rs, a, b, c, e⟩, room⟩ := Option.isSome_iff_exists.mp room
  have faultless : ((allFin 32).any fun k => (s.chan k).stat.state == gsFault) = false := by
    rw [List.any_eq_false]
    intro k _ fault
    exact sound k (beq_iff_eq.mp fault)
  have moved := s.moveCoefs_follows (cs.filter fun m => m.1 != d.sub)
  obtain ⟨w, written⟩ : ∃ w, w = (s.moveCoefs (cs.filter fun m => m.1 != d.sub)).writeDefine d
    (((cs.find? fun m => m.1 == d.sub).map fun m => m.2).getD 0) g rs a b c e := ⟨_, rfl⟩
  obtain ⟨v, after, state, period, blocks, others⟩ := (s.moveCoefs (cs.filter fun m => m.1 != d.sub)).writeDefine_follows d
    (((cs.find? fun m => m.1 == d.sub).map fun m => m.2).getD 0) g rs a b c e
  rw [← written] at after
  have made : s.obsDefine d = (w, stOk) := by
    unfold State.obsDefine
    simp only [limits, streams, beams, coefs, gains, room, faultless, written, Bool.or_self, Bool.false_eq_true, if_false]
  have kept (j : SubId) : w.obs[j] = v.obs[j] := by rw [after.obs]
  refine ⟨w, made, (congrArg ObsSub.state (kept _)).trans state, ?_, (after.blocks _).trans blocks, fun j other => ?_⟩
  · rw [kept]
    exact period
  · rw [after.saState, ← moved.saState]
    exact congrArg ObsSub.state (others j other)

/-! ### Arming and starting (R349, R350) -/

theorem State.arm_saState (s : State) (i : SubId) : (s.arm i).saState i = saAlign := by
  unfold State.arm
  extract_lets t0 t1 t2 t3
  have state : t1.saState i = saAlign := congrArg ObsSub.state (State.onObs_obs ..)
  have three : t1.Follows t3 := .aside rfl rfl rfl
  clear_value t3
  have shown : t3.Follows ((t3.applyBeamCurve i).showLedger i) := .aside rfl rfl rfl
  have all := ((three.trans shown).trans (State.showAll_tilesOnly _).follows).trans (State.followMode_modeOnly _).follows
  rw [all.saState, state]

theorem State.setStart_parser (s : State) (i : SubId) (ks : Nat) :
    (s.setStart i ks).parser[i].start = some ks ∧ (s.setStart i ks).parser[i].front = ks := by
  unfold State.setStart
  extract_lets sq t0 t1 t2
  have parser : t2.parser = t1.parser := rfl
  have both : t1.parser[i].start = some ks ∧ t1.parser[i].front = ks := by
    rw [State.onParser_parser]
    exact ⟨rfl, rfl⟩
  rw [← parser] at both
  clear_value t2
  split
  · exact both
  · exact both

/-! ### The commands -/

section
variable {b : BenchId} {p : Packet}

theorem exec_obsDefine_release (ready : s.ready b) (sized : p.sized 3 0x08) (release : p.flag 3 = true)
    (lease : (s.handed b).holdsObs b p.sub = true) (mode : (s.handed b).obsMode = true)
    (idle : (s.handed b).idleSub p.sub = true) :
    exec (.obsDefine b p) s = .next (State.replied b 0x30 p ((s.handed b).obsRelease p.sub, Reply.ok)) := by
  refine exec_of_hand rfl ready sized (by decide) ((State.answer_tests ?_ lease ?_ ?_).trans (if_pos release))
  · rw [release, sized.1]
    rfl
  · rw [mode, idle]
    rfl
  · rw [sized.2.1, release]
    rfl

theorem exec_obsDefine (ready : s.ready b) (sized : p.sized 12 0x08) (define' : p.flag 3 = false)
    (lease : (s.handed b).holdsObs b p.sub = true) (mode : (s.handed b).obsMode = true)
    (idle : (s.handed b).idleSub p.sub = true)
    (words : p.stray 4 0xFFFF0000 = false ∧ p.stray 5 0xFF800000 = false ∧ p.stray 6 0x0000F800 = false ∧
      p.stray 11 0xFFFF0000 = false ∧ p.badTime 7 = false) {v : State}
    (defines : (s.handed b).obsDefine (defineOf p) = (v, stOk)) :
    exec (.obsDefine b p) s = .next (State.replied b 0x30 p (v, Reply.plain stOk)) := by
  obtain ⟨w4, w5, w6, w11, time⟩ := words
  refine exec_of_hand rfl ready sized (by decide) ((State.answer_tests ?_ lease ?_ ?_).trans ?_)
  · rw [define', sized.1]
    rfl
  · rw [mode, idle]
    rfl
  · rw [sized.2.1, define', w4, w5, w6, w11, time]
    rfl
  · refine (if_neg (by rw [define']; decide)).trans ?_
    dsimp only
    rw [defines]

/-- OBS_CHECK answers the budgets, with the bench's staged plan where it is asked for (R348). -/
theorem exec_obsCheck {staged : Option Plan} (ready : s.ready b) (sized : p.sized 3 0x10)
    (lease : (s.handed b).holdsAny b = true) (defined' : (s.handed b).saState p.sub ≠ saFree)
    (reserved : p.stray 2 0xFFFFFFFC = false)
    (asked : (if p.flag 4 then (s.handed b).stagedPlan b p.sub else none) = staged)
    (given : p.flag 4 = true → staged.isSome) :
    let c := (s.handed b).budgets (staged.map fun q => (p.sub, q))
    exec (.obsCheck b p) s = .next (State.replied b 0x31 p
      (s.handed b, { status := if c.fails then stOverBudget else stOk, detail := BitVec.ofNat 32 c.detail, results := c.words })) := by
  subst asked
  refine exec_of_hand rfl ready sized (by decide) (State.answer_tests (beq_iff_eq.mpr sized.1) lease ?_ ?_)
  · exact bne_iff_ne.mpr defined'
  · rw [sized.2.1, reserved]
    cases flag : p.flag 4 with
    | false => rfl
    | true => exact (flag ▸ given flag : _)

theorem exec_obsArm (ready : s.ready b) (sized : p.sized 3) (lease : (s.handed b).holdsObs b p.sub = true)
    (mode : (s.handed b).obsMode = true) (state : (s.handed b).saState p.sub = saDefined)
    (time : (s.handed b).time.stat.state ≠ 0) (reserved : p.stray 2 0xFFFFFFFC = false)
    (tables : (s.handed b).armMissing p.sub = 0) (budgets : ((s.handed b).budgets none).fails = false)
    (sound : ∀ k : ChanId, ((s.handed b).chan k).stat.state ≠ gsFrozen ∧ ((s.handed b).chan k).stat.state ≠ gsFault) :
    exec (.obsArm b p) s = .next (State.replied b 0x32 p ((s.handed b).arm p.sub,
      { status := stOk, detail := BitVec.ofNat 32 ((s.handed b).budgets none).detail
        results := ((s.handed b).budgets none).words })) := by
  have faultless : ((allFin 32).any fun k => ((s.handed b).chan k).stat.state == gsFrozen ||
      ((s.handed b).chan k).stat.state == gsFault) = false := by
    rw [List.any_eq_false]
    intro k _ fault
    rw [Bool.or_eq_true, beq_iff_eq, beq_iff_eq] at fault
    exact fault.elim (sound k).1 (sound k).2
  refine exec_of_hand rfl ready sized (by decide) ((State.answer_tests (beq_iff_eq.mpr sized.1) lease ?_ ?_).trans ?_)
  · rw [mode, beq_iff_eq.mpr state, bne_iff_ne.mpr time]
    rfl
  · rw [sized.2.1, reserved]
    rfl
  · unfold State.obsArm
    simp only [tables, budgets, faultless, ne_eq, not_true_eq_false, Bool.false_eq_true, if_false]

theorem exec_obsStartAt (ready : s.ready b) (sized : p.sized 6) (lease : (s.handed b).holdsObs b p.sub = true)
    (state : (s.handed b).saState p.sub = saAlign) (reserved : p.stray 2 0xFFFFFFFC = false) (time : p.badTime 3 = false)
    (coming : (s.handed b).time16 ≤ p.time 3) (unset : (s.handed b).parser[p.sub].start = none) :
    exec (.obsStartAt b p) s = .next (State.replied b 0x33 p
      ((s.handed b).setStart p.sub ((s.handed b).startIndex p.sub (p.time 3)),
        { status := stAccepted, results := words64 ((s.handed b).startIndex p.sub (p.time 3)) })) := by
  refine exec_of_hand rfl ready sized (by decide)
    ((State.answer_tests (beq_iff_eq.mpr sized.1) lease (beq_iff_eq.mpr state) ?_).trans ?_)
  · rw [sized.2.1, reserved, time]
    rfl
  · have later : decide (p.time 3 < (s.handed b).time16) = false := decide_eq_false (by omega)
    unfold State.startAt
    simp only [state, later, unset, ne_eq, not_true_eq_false, if_false, Bool.and_false, Bool.false_eq_true,
      Option.isSome_none]

/-- OBS_STOP_AT stops a sub-array in ALIGN or OBSERVE (R351); in ALIGN the point is ignored. -/
theorem exec_obsStopAt (ready : s.ready b) (sized : p.sized 6 0x02) (lease : (s.handed b).holdsObs b p.sub = true)
    (active : (s.handed b).active p.sub = true) (reserved : p.stray 2 0xFFFFFFFC = false)
    (point : (s.handed b).saState p.sub = saAlign ∨ p.badPoint 3 = false) :
    exec (.obsStopAt b p) s = .next (State.replied b 0x34 p
      ((s.handed b).stopObs p.sub ((s.handed b).pointSpan p.sub (p.flag 1) (p.point 3)))) := by
  refine exec_of_hand rfl ready sized (by decide) (State.answer_tests (beq_iff_eq.mpr sized.1) lease active ?_)
  rw [sized.2.1, reserved]
  rcases point with align | good
  · rw [beq_iff_eq.mpr align]
    rfl
  · rw [good, Bool.not_false, Bool.or_true]
    rfl

theorem State.stopObs_align {i : SubId} {n : Nat} (align : s.saState i = saAlign) : s.stopObs i n = (s.leaveObs i, Reply.ok) :=
  if_pos align

theorem State.stopObs_observe {i : SubId} {n : Nat} (observe : s.saState i = saObserve) (running : s.obs[i].stopping = false)
    (ahead : (s.boundaryOf i n).2 = false) :
    s.stopObs i n = (s.onObs i fun x => { x with stopAt := some (s.boundaryOf i n).1 },
      { status := stAccepted, detail := BitVec.ofNat 32 (s.boundaryOf i n).1 }) := by
  unfold State.stopObs
  rw [if_neg (by rw [observe]; decide)]
  simp only [running, ahead, Bool.false_eq_true, if_false]

end

theorem State.idleSub_of {i : SubId} (idle : s.saState i = saFree ∨ s.saState i = saDefined) : s.idleSub i = true := by
  unfold State.idleSub
  rcases idle with free | defined' <;> simp [*]

/-- The PERIOD that a definition carries is the one its words 10 and 11 spell. -/
theorem defineOf_period (p : Packet) :
    (defineOf p).periodNs % 2 ^ 16 * 2 ^ 32 + (defineOf p).periodFrac % 2 ^ 32 = (p.w 10).toNat + p.bits 11 0 16 * 2 ^ 32 := by
  have low : (p.w 10).toNat < 2 ^ 32 := (p.w 10).isLt
  have high : p.bits 11 0 16 < 2 ^ 16 := Nat.mod_lt _ (by decide)
  change p.bits 11 0 16 % 2 ^ 16 * 2 ^ 32 + (p.w 10).toNat % 2 ^ 32 = _
  rw [Nat.mod_eq_of_lt low, Nat.mod_eq_of_lt high, Nat.add_comm]

/-- Settles O17: each command passes its tests and does what R347 to R351 say of its sub-array; the records that follow leave
the states of the sub-arrays alone. -/
theorem observationCommandsComplete : Obligations.ObservationCommandsComplete := by
  unfold Obligations.ObservationCommandsComplete
  refine ⟨fun s b p ready => ?_, fun s b p ready => ?_⟩
  · dsimp only
    intro lease mode idle
    have idle := State.idleSub_of idle
    refine ⟨fun sized release => ⟨exec_obsDefine_release ready sized release lease mode idle, State.obsRelease_states _ _⟩,
      fun sized define' w4 w5 w6 w11 time limits streams beams coefs gains room sound => ?_⟩
    obtain ⟨v, defines, state, period, blocks, others⟩ := State.obsDefine_defines limits streams beams coefs gains room sound
    refine ⟨v, defines, exec_obsDefine ready sized define' lease mode idle ⟨w4, w5, w6, w11, time⟩ defines, state,
      period.trans (defineOf_period p), blocks.trans ?_, others⟩
    exact BitVec.ofNat_toNat ..
  · dsimp only
    refine ⟨fun sized lease defined' reserved unasked => ?_, fun q sized lease defined' reserved asked staged => ?_,
      fun sized lease mode state time reserved tables budgets sound =>
        ⟨exec_obsArm ready sized lease mode state time reserved tables budgets sound, State.arm_saState _ _⟩,
      fun sized lease state reserved time coming unset =>
        ⟨exec_obsStartAt ready sized lease state reserved time coming unset, State.setStart_parser ..⟩,
      fun sized lease reserved align => ?_, fun sized lease reserved observe point running ahead => ?_⟩
    · exact exec_obsCheck (staged := none) ready sized lease defined' reserved (if_neg (by rw [unasked]; decide))
        fun no => absurd (unasked.symm.trans no) (by decide)
    · exact exec_obsCheck (staged := some q) ready sized lease defined' reserved ((if_pos asked).trans staged) fun _ => rfl
    · rw [exec_obsStopAt ready sized lease (by unfold State.active; rw [align]; rfl) reserved (.inl align),
        State.stopObs_align align]
    · rw [exec_obsStopAt ready sized lease (by unfold State.active; rw [observe]; rfl) reserved (.inr point),
        State.stopObs_observe observe running ahead]

end Sys2Proof.Machine
end

section
/-! SELFTEST (R357, Table 13-14): the tests it passes, what each target does, and the settled statement. -/

namespace Sys2Proof.Machine

variable {s : State} {b : BenchId} {p : Packet}

/-- The MASK of a SELFTEST is one that its target takes (Table 13-14). -/
def selftestMask (p : Packet) : Bool :=
  if p.bits 2 0 8 = 1 then !p.stray 4 0xFFFFFC00 else if p.bits 2 0 8 = 3 then p.w 4 == 0 else p.long 3 == 0

/-- What SELFTEST does for a target. -/
def State.selftest (s : State) (target mask : Nat) : State × Reply :=
  if target = 1 then s.testTiles mask
  else if target = 2 then s.testRepair
  else if target = 3 then s.testEngines mask
  else if target = 5 ∧ !s.noneActive then (s, Reply.plain stBusy)
  else s.testSram

theorem exec_selftest (ready : s.ready b) (sized : p.sized 5) (lease : (s.handed b).holdsWork b = true)
    (mode : (s.handed b).mode = modeWorkshop) (reserved : p.stray 2 0xFFFFFF00 = false) (least : 1 ≤ p.bits 2 0 8)
    (most : p.bits 2 0 8 ≤ 5) (mask : selftestMask p = true) :
    exec (.selftest b p) s = .next (State.replied b 0xF0 p ((s.handed b).selftest (p.bits 2 0 8) (p.long 3))) := by
  refine exec_of_hand rfl ready sized (by decide)
    (State.answer_tests (beq_iff_eq.mpr sized.1) lease (beq_iff_eq.mpr mode) ?_)
  rw [sized.2.1, reserved, decide_eq_true ⟨least, most⟩]
  exact mask

theorem selftestMask_zero (none' : p.long 3 = 0) (other : p.bits 2 0 8 ≠ 1 ∧ p.bits 2 0 8 ≠ 3) : selftestMask p = true := by
  unfold selftestMask
  rw [if_neg other.1, if_neg other.2, none']
  rfl

/-! ### Tiles (R180) -/

theorem State.testTile_tilesOnly (s : State) (t : TileId) (pass : Bool) : s.TilesOnly (s.testTile t pass) := by
  unfold State.testTile
  extract_lets u
  have one : s.TilesOnly u := .onTileReg ..
  split
  · exact one
  · exact (one.trans (.onTileReg ..)).trans (State.retireNow_tilesOnly _ t)

theorem State.testTiles_sameMemory (s : State) (mask : Nat) : s.sameMemory (s.testTiles mask).1 := by
  unfold State.testTiles
  extract_lets r bad t failed
  have drawn : r.1.mem = s.mem := rfl
  have tested : r.1.TilesOnly t := .foldl (fun u k => by
    split
    · exact u.testTile_tilesOnly ..
    · exact .refl u) _ _
  exact State.sameMemory_of_mem (tested.mem.trans drawn)

/-- Of the bits of a mask, those that another has too are no more. -/
theorem popCount_and_le (n a b : Nat) : popCount n (a &&& b) ≤ popCount n a := by
  refine (List.monotone_filter_right _ fun k both => ?_).length_le
  rw [Nat.testBit_and, Bool.and_eq_true] at both
  exact both.1

theorem State.testTiles_counts (s : State) (mask : Nat) :
    ∃ passed failed bad, (s.testTiles mask).2 = testReply passed failed [BitVec.ofNat 32 bad, BitVec.ofNat 32 (bad / 2 ^ 32)] ∧
      passed + failed = popCount 42 mask :=
  ⟨_, _, _, rfl, Nat.sub_add_cancel (popCount_and_le ..)⟩

/-- Settles O25: the command passes its tests and does what its target says; what is found to fail is drawn. -/
theorem selftestsComplete : Obligations.SelftestsComplete := by
  unfold Obligations.SelftestsComplete
  intro s b p ready
  dsimp only
  intro sized lease mode reserved
  have done' (least : 1 ≤ p.bits 2 0 8) (most : p.bits 2 0 8 ≤ 5) (mask : selftestMask p = true) :=
    exec_selftest ready sized lease mode reserved least most mask
  refine ⟨fun target high => ⟨?_, State.testTiles_sameMemory _ _, State.testTiles_counts ..⟩, fun target none' => ?_,
    fun target high => ⟨?_, fun _ => rfl⟩, fun target none' => ⟨?_, rfl⟩, fun target none' busy => ?_,
    fun target none' free => ?_⟩
  · rw [done' (by omega) (by omega) (by unfold selftestMask; rw [if_pos target, high]; rfl), target]
    rfl
  · rw [done' (by omega) (by omega) (selftestMask_zero none' (by omega)), target]
    rfl
  · rw [done' (by omega) (by omega) (by unfold selftestMask; rw [if_neg (by omega), if_pos target, high]; rfl), target]
    rfl
  · rw [done' (by omega) (by omega) (selftestMask_zero none' (by omega)), target]
    rfl
  · rw [done' (by omega) (by omega) (selftestMask_zero none' (by omega)), target]
    simp [State.selftest, busy]
  · rw [done' (by omega) (by omega) (selftestMask_zero none' (by omega)), target]
    simp [State.selftest, free]

end Sys2Proof.Machine
end

section
/-! STORE_WRITE, STORE_ACTIVATE and STORE_QUERY (R356, R437): what is programmed reads back, and the copy that booted is not touched. -/

namespace Sys2Proof.Machine

variable {s t : State} {b : BenchId} {p : Packet}

/-! ### A map written where it lists nothing -/

section
variable {α : Type} {d : α} {m : SMap α} {a k : Nat} {v : α}

/-- A map lists no key of a range. -/
def SMap.Lacks (m : SMap α) (lo hi : Nat) : Prop := ∀ e ∈ m, ¬ (lo ≤ e.1 ∧ e.1 < hi)

theorem SMap.get_of_unlisted (none' : ∀ e ∈ m, e.1 ≠ a) : SMap.get d m a = d := by
  induction m with
  | nil => rfl
  | cons e m ih =>
    have head := none' e List.mem_cons_self
    rw [SMap.get, if_neg (Ne.symm head), ih fun x here => none' x (List.mem_cons_of_mem _ here)]

/-- A filter by key keeps no key that it drops. -/
theorem SMap.lacks_clear (m : SMap α) (lo hi : Nat) : SMap.Lacks (SMap.clear m lo hi) lo hi := by
  intro e here
  have kept := (List.mem_filter.mp here).2
  simp only [Bool.not_eq_true', Bool.and_eq_false_iff, decide_eq_false_iff_not] at kept
  exact fun ⟨low, high⟩ => kept.elim (fun no => no low) fun no => no high

theorem SMap.Lacks.clear {lo hi : Nat} (h : SMap.Lacks m lo hi) (l u : Nat) : SMap.Lacks (SMap.clear m l u) lo hi :=
  fun e here => h e (List.mem_filter.mp here).1

variable [DecidableEq α]

/-- A key that was not listed reads as what is written there. -/
theorem SMap.get_set_unlisted (none' : ∀ e ∈ m, e.1 ≠ a) : SMap.get d (SMap.set d m a v) a = v := by
  induction m with
  | nil => by_cases default' : v = d <;> simp [SMap.set, SMap.get, default']
  | cons e m ih =>
    have head := none' e List.mem_cons_self
    have rest := fun x here => none' x (List.mem_cons_of_mem (a := x) e here)
    rw [SMap.set]
    split
    · split
      · next default' => rw [default', SMap.get_of_unlisted none']
      · exact if_pos rfl
    · rw [if_neg (Ne.symm head), SMap.get, if_neg (Ne.symm head), ih rest]

/-- A write lists at most its own key. -/
theorem SMap.mem_set {e : Nat × α} (here : e ∈ SMap.set d m a v) : e ∈ m ∨ e.1 = a := by
  induction m with
  | nil =>
    rw [SMap.set] at here
    split at here
    · exact absurd here List.not_mem_nil
    · exact .inr (congrArg Prod.fst (List.mem_singleton.mp here))
  | cons x m ih =>
    rw [SMap.set] at here
    split at here
    · split at here
      · exact .inl here
      · exact (List.mem_cons.mp here).elim (fun new => .inr (congrArg Prod.fst new)) .inl
    · split at here
      · split at here
        · exact .inl (List.mem_cons_of_mem _ here)
        · exact (List.mem_cons.mp here).elim (fun new => .inr (congrArg Prod.fst new))
            fun old => .inl (List.mem_cons_of_mem _ old)
      · rcases List.mem_cons.mp here with same | later
        · exact .inl (same ▸ List.mem_cons_self)
        · exact (ih later).imp_left (List.mem_cons_of_mem _)

/-- Values written into a range that lists nothing read back, in whatever form the map is. -/
theorem SMap.getRange_setRange_clear {vs : List α} (clear : SMap.Lacks m a (a + vs.length)) :
    SMap.getRange d (SMap.setRange d m a vs) a vs.length = vs := by
  induction vs generalizing m a with
  | nil => rfl
  | cons v vs ih =>
    rw [List.length_cons] at clear
    have after : SMap.Lacks (SMap.set d m a v) (a + 1) (a + 1 + vs.length) := by
      intro e here range
      rcases SMap.mem_set here with old | new
      · exact clear e old ⟨by omega, by omega⟩
      · omega
    have tail := ih after
    have head : SMap.get d (SMap.setRange d (SMap.set d m a v) (a + 1) vs) a = v := by
      rw [SMap.get_setRange_out (by omega)]
      exact SMap.get_set_unlisted fun e here same => clear e here ⟨by omega, by omega⟩
    unfold SMap.getRange at tail ⊢
    rw [SMap.setRange, List.length_cons, List.range_succ_eq_map, List.map_cons, List.map_map, Nat.add_zero a, head]
    refine congrArg (v :: ·) (Eq.trans (List.map_congr_left fun i _ => ?_) tail)
    rw [Function.comp_apply, Nat.succ_eq_add_one, Nat.add_right_comm, Nat.add_assoc]

end

/-! ### Programming (R437) -/

/-- The sectors that a range meets. -/
def sectorsOf (off n : Nat) : List Nat :=
  (List.range ((off + n + 65535) / 65536 - off / 65536)).map fun k => off / 65536 + k

theorem mem_sectorsOf {off n j : Nat} (low : off ≤ j) (high : j < off + n) : j / 65536 ∈ sectorsOf off n :=
  List.mem_map.mpr ⟨j / 65536 - off / 65536, List.mem_range.mpr (by omega), by omega⟩

/-- Sectors erased list nothing. -/
theorem erased_clear {α : Type} (m : SMap α) (ks : List Nat) {k : Nat} (here : k ∈ ks) :
    SMap.Lacks (ks.foldl (fun (m : SMap α) k => SMap.clear m (65536 * k) (65536 * k + 65536)) m) (65536 * k) (65536 * k + 65536) := by
  induction ks generalizing m with
  | nil => exact absurd here List.not_mem_nil
  | cons x ks ih =>
    rw [List.foldl_cons]
    rcases List.mem_cons.mp here with rfl | later
    · exact foldl_keeps (fun a : SMap α => SMap.Lacks a (65536 * k) (65536 * k + 65536)) _ (fun a _ h => h.clear _ _) ks _
        (SMap.lacks_clear _ _ _)
    · exact ih _ later

/-- Bytes programmed into a copy none of whose sectors has been erased since its header was invalidated read back. -/
theorem StoreCopy.program_bytes (c : StoreCopy) (fresh : c.erased = []) (off : Nat) (bs : List Byte) :
    (c.program off bs).bytes off bs.length = bs := by
  unfold StoreCopy.program StoreCopy.bytes
  dsimp only
  refine SMap.getRange_setRange_clear fun e here range => ?_
  rw [fresh] at here
  have sector := mem_sectorsOf range.1 range.2
  have all : (sectorsOf off bs.length).filter (fun k => !([] : List Nat).contains k) = sectorsOf off bs.length :=
    List.filter_eq_self.mpr fun _ _ => rfl
  have gone := erased_clear c.image (sectorsOf off bs.length) sector
  rw [← all] at gone
  exact gone e here (by omega)

/-! ### The copies -/

theorem State.onTarget_copyOf (s : State) (f : StoreCopy → StoreCopy) :
    (s.onTarget f).copyOf s.targetCopy = f (s.copyOf s.targetCopy) ∧
      (s.onTarget f).copyOf (!s.targetCopy) = s.copyOf (!s.targetCopy) := by
  unfold State.onTarget State.copyOf
  cases s.targetCopy <;> exact ⟨rfl, rfl⟩

/-- A copy whose header is invalidated, with nothing erased or written since. -/
def StoreCopy.invalidated (c : StoreCopy) : StoreCopy :=
  { c with factory := false, header := none, writing := true, erased := [], spoiled := [], written := [] }

theorem State.programStore_first (s : State) (off : Nat) (bs : List Byte) :
    s.programStore true off bs = s.onTarget fun c => { c.invalidated.program off bs with writing := true } := rfl

theorem State.copyValid_headless {c : Bool} (made : (s.copyOf c).factory = false) (headless : (s.copyOf c).header = none) :
    s.copyValid c = false := by
  unfold State.copyValid
  dsimp only
  rw [made, headless]
  rfl

theorem wordsBytes_length (ws : List Word) : (wordsBytes ws).length = 4 * ws.length := by
  induction ws with
  | nil => rfl
  | cons w ws ih =>
    rw [wordsBytes, List.flatMap_cons, List.length_append, ← wordsBytes, ih, List.length_cons]
    have four : (wordBytes w).length = 4 := rfl
    omega

/-! ### The commands -/

theorem exec_storeWrite (ready : s.ready b) (sized : p.sized 5) (lease : (s.handed b).storeLease b = true)
    (w2 : p.stray 2 0x7FFC0000 = false) (w3 : p.stray 3 0xFFF80000 = false) (aligned : (p.w 4).toNat % 4 = 0)
    (some' : 1 ≤ p.bits 3 0 19) (window : p.bits 2 0 18 + p.bits 3 0 19 ≤ 262144)
    (fits : (p.w 4).toNat + 4 * p.bits 3 0 19 ≤ copyBytes) :
    exec (.storeWrite b p) s = .next (State.replied b 0xA0 p ((s.handed b).programStore (p.bit 2 31) (p.w 4).toNat
      (wordsBytes (SMap.getRange 0 ((s.handed b).benchOf b).bulk (p.bits 2 0 18) (p.bits 3 0 19))), Reply.ok)) := by
  have range : 1 ≤ p.bits 3 0 19 ∧ p.bits 3 0 19 ≤ 262144 ∧ p.bits 2 0 18 + p.bits 3 0 19 ≤ 262144 := ⟨some', by omega, window⟩
  refine exec_of_hand rfl ready sized (by decide) ((State.answer_tests (beq_iff_eq.mpr sized.1) lease rfl ?_).trans ?_)
  · rw [sized.2.1, w2, w3, aligned, decide_eq_true range]
    rfl
  · exact (if_neg (by omega)).trans (if_neg (by rw [sized.2.2]; decide))

/-- The module with a copy activated (R437). -/
def State.activated (u t : State) : State :=
  let v := t.onTarget fun c => { c with header := some ⟨u.nextSeq, c.imageBytes⟩, area := u.unitArea, writing := false }
  { v with start := { v.start with restart := none } }

theorem exec_storeActivate (ready : s.ready b) (sized : p.sized 3) (lease : (s.handed b).storeLease b = true)
    (writing : ((s.handed b).copyOf (s.handed b).targetCopy).writing = true) (reserved : p.stray 2 0xFFFFFFFC = false)
    (stay : p.bits 2 0 2 = 0) (image : ((s.handed b).copyOf (s.handed b).targetCopy).imageOk = true)
    (signer : (s.handed b).signerOk ((s.handed b).copyOf (s.handed b).targetCopy) = true)
    (signature : ((s.handed b).copyOf (s.handed b).targetCopy).signatureOk = true)
    (sections : (s.handed b).badSection ((s.handed b).copyOf (s.handed b).targetCopy) = none)
    (keys : (s.handed b).provision ((s.handed b).copyOf (s.handed b).targetCopy) = some t) :
    exec (.storeActivate b p) s =
      .next (State.replied b 0xA1 p ((s.handed b).activated t, Reply.ok [(s.handed b).nextSeq])) := by
  refine exec_of_hand rfl ready sized (by decide) ((State.answer_tests (beq_iff_eq.mpr sized.1) lease writing ?_).trans ?_)
  · rw [sized.2.1, reserved, stay]
    rfl
  · rw [image, signer, signature, sections, keys, stay, sized.2.2]
    rfl

/-- An OWNER_KEY burns a slot and touches nothing else. -/
theorem State.provision_spares {c : StoreCopy} (keys : s.provision c = some t) :
    t.targetCopy = s.targetCopy ∧ (∀ x, t.copyOf x = s.copyOf x) ∧ t.mem = s.mem := by
  unfold State.provision at keys
  split at keys
  · exact Option.some.inj keys ▸ ⟨rfl, fun _ => rfl, rfl⟩
  · split at keys
    · exact Option.some.inj keys ▸ ⟨rfl, fun _ => rfl, rfl⟩
    · split at keys
      · exact absurd keys (by simp)
      · exact Option.some.inj keys ▸ ⟨rfl, fun _ => rfl, rfl⟩

theorem State.activated_copies {u : State} {c : StoreCopy} (keys : u.provision c = some t) :
    ((u.activated t).copyOf u.targetCopy).header = some ⟨u.nextSeq, (u.copyOf u.targetCopy).imageBytes⟩ ∧
      ((u.activated t).copyOf u.targetCopy).writing = false ∧ (u.activated t).start.restart = none ∧
      (u.activated t).copyOf (!u.targetCopy) = u.copyOf (!u.targetCopy) ∧ u.sameMemory (u.activated t) := by
  obtain ⟨target, copies, mem⟩ := State.provision_spares keys
  have made := t.onTarget_copyOf fun c => { c with header := some ⟨u.nextSeq, c.imageBytes⟩, area := u.unitArea, writing := false }
  rw [target, copies, copies] at made
  refine ⟨congrArg StoreCopy.header made.1, congrArg StoreCopy.writing made.1, rfl, made.2, State.sameMemory_of_mem mem⟩

/-- Settles O20: a write with FIRST erases every sector it reaches, so that its bytes read back whatever was there before; both
writing commands change the copy that did not boot and no other. -/
theorem storeCommandsComplete : Obligations.StoreCommandsComplete := by
  unfold Obligations.StoreCommandsComplete
  intro s b p ready
  dsimp only
  refine ⟨fun sized lease w2 w3 aligned some' window fits first => ?_,
    fun t sized lease writing reserved stay image signer signature sections keys =>
      ⟨_, exec_storeActivate ready sized lease writing reserved stay image signer signature sections keys,
        State.activated_copies keys⟩,
    fun sized lease => ?_⟩
  · have ran := exec_storeWrite ready sized lease w2 w3 aligned some' window fits
    rw [first, State.programStore_first] at ran
    obtain ⟨bs, bytes⟩ : ∃ bs, bs = wordsBytes (SMap.getRange 0 ((s.handed b).benchOf b).bulk (p.bits 2 0 18) (p.bits 3 0 19)) :=
      ⟨_, rfl⟩
    have size : 4 * p.bits 3 0 19 = bs.length := by
      rw [bytes, wordsBytes_length]
      simp [SMap.getRange]
    rw [← bytes] at ran ⊢
    have made := (s.handed b).onTarget_copyOf fun c => { c.invalidated.program (p.w 4).toNat bs with writing := true }
    refine ⟨_, ran, ?_, ?_, State.copyValid_headless ?_ ?_, made.2, State.sameMemory_of_mem rfl, ?_⟩
    · rw [made.1]; rfl
    · rw [made.1]
    · rw [made.1]; rfl
    · rw [made.1]; rfl
    · rw [made.1, size]
      exact StoreCopy.program_bytes _ rfl _ _
  · exact exec_of_hand rfl ready sized (by decide)
      (State.answer_tests (beq_iff_eq.mpr sized.1) lease rfl (by rw [sized.2.1]; rfl))

end Sys2Proof.Machine
end

section
/-! BULK_WRITE, BULK_READ, PEEK and POKE (R315, R354, R357): what their reads leave, their tests, and the settled statement. -/

namespace Sys2Proof.Machine

variable {s : State} {b : BenchId} {p : Packet} {op : BitVec 8}

/-! ### Commands that move data -/

/-- Such a command that no lock holds is handed over as any other. -/
theorem State.handBus_free {run : State → Ran} (free : s.busLocked op.toNat p = false) :
    s.handBus b op p run = s.hand b op p run :=
  if_neg (by rw [free, Bool.and_false]; decide)

/-- Such a command waits at its bench while a lock holds it (R367). -/
theorem State.handBus_locked {run : State → Ran} (ready : s.ready b) (locked : s.busLocked op.toNat p = true) :
    s.handBus b op p run = s.wait b (packetWords op p) :=
  if_pos (by rw [ready.1, ready.2, locked]; rfl)

/-- A command that moves data and is answered at once. -/
theorem exec_of_handBus {i : Instr} {cmd : State → State × Reply} {r : State × Reply}
    (row : exec i s = .next (s.handBus b op p fun t => atOnce (cmd t))) (ready : s.ready b)
    (free : s.busLocked op.toNat p = false) (short : p.len ≤ 1024) (meets : p.meets = .nothing) (acts : cmd (s.handed b) = r) :
    exec i s = .next (State.replied b op p r) := by
  rw [row, State.handBus_free free, State.hand_replied ready short meets acts]

theorem State.postRaw_mem (s : State) (b : BenchId) (ws : List Word) : (s.postRaw b ws).mem = s.mem := by
  unfold State.postRaw
  split
  · rw [(s.protoError_says b 1).1]
  · rfl

theorem State.holdRaw_mem (s : State) (b : BenchId) (ws : List Word) : (s.holdRaw b ws).mem = s.mem := by
  unfold State.holdRaw
  dsimp only
  split
  · rfl
  · rw [(s.protoError_says b 3).1]

theorem State.wait_mem (s : State) (b : BenchId) (ws : List Word) : (s.wait b ws).mem = s.mem := by
  unfold State.wait
  split
  · exact s.postRaw_mem b ws
  · exact State.holdRaw_mem ..

/-! ### Reads -/

theorem State.targetRead_mem (s : State) (k a n : Nat) : (s.targetRead k a n).1.mem = s.mem := by
  obtain ⟨F, hF⟩ : ∃ F : State → Nat → Nat → State × Option (List Byte), F = State.granRead := ⟨_, rfl⟩
  have read : (F s a n).1.mem = s.mem := by rw [hF]; exact s.granRead_mem a n
  unfold State.targetRead
  rw [← hF]
  split
  · rfl
  · split
    · rfl
    · split
      · split
        · rfl
        · split
          · next u bs answer => rw [answer] at read; exact read
          · next u answer => rw [answer] at read; exact read
      · rfl

/-- A read burst changes no byte of the module's memories. -/
theorem State.busRead_mem (s : State) (m : MasterId) (a n : Nat) : (s.busRead m a n).1.mem = s.mem := by
  unfold State.busRead
  split
  · rw [(s.countBurst_answers ..).mem]
  · dsimp only
    rw [(State.countBurst_answers ..).mem, State.targetRead_mem, (State.took_answers ..).mem, (s.drainFor_answers ..).mem]

/-- The address at a Granary target is the burst's own. -/
theorem State.targetOf_granary {m : MasterId} {a k c : Nat} (target : s.targetOf m a = some (k, c)) (granary : 8 ≤ k) : c = a := by
  rw [State.targetOf_numbers] at target
  revert target
  repeat' split
  all_goals
    intro target
    simp only [Option.some.injEq, Prod.mk.injEq, reduceCtorEq] at target <;> omega

/-- A word of the Granary is four bytes of one granule. -/
theorem granulesOf_word {a : Nat} (aligned : a % 4 = 0) :
    granulesOf a 4 = [((a - granBase) / 64, (a - granBase) % 64, 4)] := by
  have base : granBase % 4 = 0 := by decide
  obtain ⟨o, offset⟩ : ∃ o, o = a - granBase := ⟨_, rfl⟩
  have part : o % 4 = 0 := by omega
  have one : (o + 4 + 63) / 64 - o / 64 = 1 := by omega
  unfold granulesOf
  rw [← offset]
  dsimp only
  rw [one, List.range_one, List.map_singleton, Nat.add_zero, Nat.max_eq_left (by omega), Nat.min_eq_left (by omega),
    show o - 64 * (o / 64) = o % 64 by omega, show o + 4 - o = 4 by omega]

/-- A word inside a granule that the Granary reads has four bytes. -/
theorem State.granuleRead_word {g o : Nat} (low : o ≤ 60) {bs : List Byte}
    (answer : (match some ([] : List Byte), (s.granuleRead g).2 with
      | some bs, some d => some (bs ++ (d.drop o).take 4)
      | _, _ => none) = some bs) : bs.length = 4 := by
  obtain ⟨-, thawed, frozen⟩ := s.granuleRead_spec g
  by_cases state : (s.chan (s.chanOf (pageOf g))).stat.state = gsFrozen
  · rw [frozen state] at answer
    exact absurd answer (by simp)
  · rw [thawed state] at answer
    have bytes := Option.some.inj answer
    have size : (s.mem.load (granAddr g) 64).length = 64 := Memory.load_length
    rw [← bytes, List.nil_append, List.length_take, List.length_drop, size]
    omega

/-- A word that the Granary answers has four bytes. -/
theorem State.granRead_word {a : Nat} {u : State} {bs : List Byte} (aligned : a % 4 = 0)
    (answer : s.granRead a 4 = (u, some bs)) : bs.length = 4 := by
  have base : granBase % 4 = 0 := by decide
  have low : (a - granBase) % 64 ≤ 60 := by omega
  unfold State.granRead at answer
  rw [granulesOf_word aligned, List.foldl_cons, List.foldl_nil] at answer
  exact State.granuleRead_word low (congrArg Prod.snd answer)

/-- A word that answers COMPLETE has four bytes. -/
theorem State.busRead_word {m : MasterId} {a : Nat} (aligned : a % 4 = 0) (complete : (s.busRead m a 4).2.1 = respComplete) :
    (s.busRead m a 4).2.2.length = 4 := by
  revert complete
  unfold State.busRead
  split
  · intro no; cases no
  · next k c target =>
    dsimp only
    generalize (s.drainFor m k).took k m = v
    unfold State.targetRead
    split
    · exact fun _ => by simp
    · split
      · exact fun _ => by simp [State.freeBytes]
      · split
        · next granary =>
          rw [State.targetOf_granary target granary]
          split
          · intro no; cases no
          · split
            · next u bs answer => exact fun _ => State.granRead_word aligned answer
            · intro no; cases no
        · exact fun _ => Memory.load_length

theorem bytesWords_length {n : Nat} {bs : List Byte} (whole : bs.length = 4 * n) : (bytesWords bs).length = n := by
  induction n generalizing bs with
  | zero =>
    rw [List.length_eq_zero_iff.mp whole]
    rfl
  | succ n ih =>
    match bs, whole with
    | a :: b :: c :: d :: rest, whole =>
      rw [bytesWords, List.length_cons, ih (by simp only [List.length_cons] at whole; omega)]

theorem State.peekWords_mem (n : Nat) : ∀ (s : State) (a : Nat), (s.peekWords a n).1.mem = s.mem := by
  induction n with
  | zero => exact fun _ _ => rfl
  | succ n ih =>
    intro s a
    rw [State.peekWords]
    split
    · exact (ih _ _).trans (s.busRead_mem ..)
    · exact s.busRead_mem ..

/-- Words that all answer COMPLETE are as many as were asked for. -/
theorem State.peekWords_length (n : Nat) : ∀ (s : State) (a : Nat), a % 4 = 0 → (s.peekWords a n).2.2 = true →
    (s.peekWords a n).2.1.length = n := by
  induction n with
  | zero => exact fun _ _ _ _ => rfl
  | succ n ih =>
    intro s a aligned
    rw [State.peekWords]
    split
    · next complete =>
      intro rest
      have word := bytesWords_length (n := 1) (State.busRead_word aligned complete)
      rw [List.length_append, word, ih _ _ (by omega) rest, Nat.add_comm]
    · intro no; cases no

/-- Words that all answer COMPLETE have all been written. -/
theorem State.pokeWords_count (vs : List Word) : ∀ (s : State) (a : Nat), (s.pokeWords a vs).2.2 = true →
    (s.pokeWords a vs).2.1 = vs.length := by
  induction vs with
  | nil => exact fun _ _ _ => rfl
  | cons v vs ih =>
    intro s a
    rw [State.pokeWords]
    split
    · exact fun rest => congrArg (· + 1) (ih _ _ rest)
    · intro no; cases no

theorem State.copyIn_keeps (s : State) (m : MasterId) (a n : Nat) :
    (s.copyIn m a n).1.mem = s.mem ∧ s.Bus (s.copyIn m a n).1 := by
  unfold State.copyIn
  refine foldl_keeps (fun r : State × List Byte × Option Nat => r.1.mem = s.mem ∧ s.Bus r.1) _ (fun r e kept => ?_) _ _ ⟨rfl, .refl s⟩
  obtain ⟨mem, bus⟩ := kept
  dsimp only
  split
  · exact ⟨mem, bus⟩
  · split <;> exact ⟨(State.busRead_mem ..).trans mem, bus.trans (State.busRead_bus ..)⟩

/-! ### BULK_WRITE and BULK_READ (R315, R354) -/

theorem exec_bulkWrite (ready : s.ready b) (sized : p.sized 6) (params : bulkParams p = true) (free : s.busLocked 0x70 p = false)
    (area : (s.handed b).areaOf b (p.addr 4) (4 * p.bits 3 0 19) = .scratch) (lease : (s.handed b).holdsObsWork b = true)
    (path : (s.handed b).dataPath = true) :
    let c := (s.handed b).copyOut moverPort (p.addr 4)
      (wordsBytes (SMap.getRange 0 ((s.handed b).benchOf b).bulk (p.bits 2 0 18) (p.bits 3 0 19)))
    exec (.bulkWrite b p) s = .next (State.replied b 0x70 p (match c.2 with
      | some k => (c.1.undefine moverPort (p.addr 4 + k) (4 * p.bits 3 0 19 - k), copied (p.bits 3 0 19) (some (k / 4)))
      | none => (c.1, copied (p.bits 3 0 19) none))) := by
  refine exec_of_handBus rfl ready free (by rw [sized.1]; decide) sized.2.2 ?_
  unfold cmdBulkWrite
  dsimp only
  rw [area]
  refine (State.answer_tests (beq_iff_eq.mpr sized.1) lease path ?_).trans ?_
  · rw [params]
    rfl
  · rfl

theorem exec_bulkRead (ready : s.ready b) (sized : p.sized 6) (params : bulkParams p = true) (free : s.busLocked 0x70 p = false)
    (area : (s.handed b).areaOf b (p.addr 4) (4 * p.bits 3 0 19) = .scratch ∨
      (s.handed b).areaOf b (p.addr 4) (4 * p.bits 3 0 19) = .region)
    (lease : (s.handed b).holdsAny b = true) (path : (s.handed b).dataPath = true) :
    let c := (s.handed b).copyIn moverPort (p.addr 4) (4 * p.bits 3 0 19)
    exec (.bulkRead b p) s = .next (State.replied b 0x71 p
      ((c.1.freeWords (p.bits 3 0 19 - (bytesWords c.2.1).length)).1.onBench b fun x =>
        { x with bulk := SMap.setRange 0 x.bulk (p.bits 2 0 18)
                   (bytesWords c.2.1 ++ (c.1.freeWords (p.bits 3 0 19 - (bytesWords c.2.1).length)).2) },
        copied (p.bits 3 0 19) (c.2.2.map fun k => k / 4))) := by
  refine exec_of_handBus rfl ready free (by rw [sized.1]; decide) sized.2.2 ?_
  unfold cmdBulkRead
  dsimp only
  rcases area with area | area <;> rw [area] <;>
    exact State.answer_tests (beq_iff_eq.mpr sized.1) lease path (by rw [params]; rfl)

/-! ### PEEK and POKE (R357) -/

theorem exec_peek (ready : s.ready b) (lease : (s.handed b).holdsWork b = true) (mode : (s.handed b).mode = modeWorkshop)
    (flags : p.badFlags = false) (meets : p.meets = .nothing) (address : p.badAddr 2 = false) (aligned : p.addr 2 % 4 = 0)
    (len : p.len = 5) (free : s.busLocked 0xF1 p = false) (reserved : p.stray 4 0xFFFFFC00 = false) (least : 1 ≤ p.bits 4 0 10)
    (most : p.bits 4 0 10 ≤ 1021) :
    let r := (s.handed b).peekWords (p.addr 2) (p.bits 4 0 10)
    exec (.peek b p) s = .next (State.replied b 0xF1 p
      (r.1, if r.2.2 then Reply.ok r.2.1 else { status := stFaulted, detail := BitVec.ofNat 32 r.2.1.length })) :=
  exec_of_handBus rfl ready free (by rw [len]; decide) meets
    (State.answer_tests (beq_iff_eq.mpr len) lease (beq_iff_eq.mpr mode)
      (by rw [flags, address, aligned, reserved, decide_eq_true ⟨least, most⟩]; rfl))

theorem exec_poke (ready : s.ready b) (lease : (s.handed b).holdsWork b = true) (mode : (s.handed b).mode = modeWorkshop)
    (flags : p.badFlags = false) (meets : p.meets = .nothing) (address : p.badAddr 2 = false) (aligned : p.addr 2 % 4 = 0)
    (long : 4 ≤ p.len) (short : p.len ≤ 1024) (free : s.busLocked 0xF2 p = false) :
    let r := (s.handed b).pokeWords (p.addr 2) (p.params.drop 2)
    exec (.poke b p) s = .next (State.replied b 0xF2 p
      (r.1, if r.2.2 then Reply.ok else { status := stFaulted, detail := BitVec.ofNat 32 r.2.1 })) :=
  exec_of_handBus rfl ready free short meets
    (State.answer_tests (decide_eq_true long) lease (beq_iff_eq.mpr mode) (by rw [flags, address, aligned]; rfl))

/-- Settles O21: reads change no memory and a word that answers has four bytes; a command that a lock holds only waits. -/
theorem bulkPeekAndPokeComplete : Obligations.BulkPeekAndPokeComplete := by
  unfold Obligations.BulkPeekAndPokeComplete
  refine ⟨fun s b p ready => ?_, fun s b p ready => ?_, fun s b p ready => ?_⟩
  · dsimp only
    intro sized params free
    refine ⟨fun area lease path => ⟨fun whole => ?_, fun k failed => ?_⟩, fun area lease path whole length => ?_⟩
    · rw [exec_bulkWrite ready sized params free area lease path]
      rw [whole]
      rfl
    · rw [exec_bulkWrite ready sized params free area lease path]
      rw [failed]
      rfl
    · have ran := exec_bulkRead ready sized params free area lease path
      obtain ⟨mem, bus⟩ := (s.handed b).copyIn_keeps moverPort (p.addr 4) (4 * p.bits 3 0 19)
      dsimp only at ran
      generalize (s.handed b).copyIn moverPort (p.addr 4) (4 * p.bits 3 0 19) = c at *
      rw [whole, bytesWords_length length, Nat.sub_self] at ran
      refine ⟨_, ran, ?_, State.sameMemory_of_mem mem⟩
      rw [State.onBench_benchOf]
      change SMap.setRange 0 (c.1.benchOf b).bulk (p.bits 2 0 18) (bytesWords c.2.1 ++ []) = _
      rw [List.append_nil, State.benchOf, bus.bench]
      rfl
  · dsimp only
    intro lease mode flags meets address aligned
    refine ⟨fun len free reserved least most => ⟨exec_peek ready lease mode flags meets address aligned len free reserved least most,
      State.peekWords_length _ _ _ aligned, State.sameMemory_of_mem (State.peekWords_mem _ _ _)⟩,
      fun long short free => ⟨exec_poke ready lease mode flags meets address aligned long short free,
        State.pokeWords_count _ _ _⟩⟩
  · refine ⟨fun locked => ⟨?_, ?_⟩, fun locked => ?_, fun locked => ?_, fun ws => State.sameMemory_of_mem (s.wait_mem b ws)⟩
    · exact congrArg Host.Outcome.next (State.handBus_locked ready locked)
    · exact congrArg Host.Outcome.next (State.handBus_locked ready locked)
    · exact congrArg Host.Outcome.next (State.handBus_locked ready locked)
    · exact congrArg Host.Outcome.next (State.handBus_locked ready locked)

end Sys2Proof.Machine
end

section
/-! The Baler (R354, R377, R383, R384): BALE and UNBALE under their tests, what the end of a job's work means, and the settled
statement. -/

namespace Sys2Proof.Machine

variable {s t u : State} {b : BenchId} {p : Packet} {op : BitVec 8}

/-! ### The tests of a Baler command -/

/-- A command that moves data, by what it ran to: it is answered, or waits for its end. -/
theorem exec_of_baler {i : Instr} {cmd : State → State × Option Reply} {e : State × Option Reply}
    (row : exec i s = .next (s.handBus b op p fun t => cmd t)) (ready : s.ready b) (free : s.busLocked op.toNat p = false)
    (sized : p.sized 11) (ran : cmd (s.handed b) = e) :
    (∀ y, e.2 = some y → exec i s = .next (State.replied b op p (e.1, y))) ∧
      (e.2 = none → exec i s = .next (State.begun b op p e.1)) := by
  obtain ⟨t, answer⟩ := e
  have short : p.len ≤ 1024 := by rw [sized.1]; decide
  rw [row, State.handBus_free free, State.hand_ready ready short sized.2.2, ran]
  refine ⟨fun y given => ?_, fun waits => ?_⟩
  · obtain rfl : answer = some y := given
    rfl
  · obtain rfl : answer = none := waits
    rfl

/-- What a Baler command asks of its packet and its bench (R354, R377). -/
structure State.Bales (s : State) (b : BenchId) (p : Packet) : Prop where
  sized : p.sized 11
  dst : s.areaOf b (p.addr 6) (p.long 8) = .scratch
  lease : s.holdsObsWork b = true
  path : s.dataPath = true
  src : s.areaOf b (p.addr 2) (p.long 4) = .scratch ∨ s.areaOf b (p.addr 2) (p.long 4) = .region
  srcAddr : p.badAddr 2 = false
  dstAddr : p.badAddr 6 = false
  srcBytes : p.stray 5 0xFFFF0000 = false
  dstBytes : p.stray 9 0xFFFF0000 = false
  island : s.islandOn balerIsland = true

theorem State.holdsAny_of_obsWork (h : s.holdsObsWork b = true) : s.holdsAny b = true := by
  unfold State.holdsObsWork at h
  unfold State.holdsAny
  rcases Bool.or_eq_true_iff.mp h with obs | work
  · rw [obs]
    rfl
  · rw [work, Bool.or_true]

theorem State.baleTests_pass (h : s.Bales b p) : ∀ e ∈ s.baleTests b p true, e.1 = false := by
  have any := State.holdsAny_of_obsWork h.lease
  have params : (!p.badFlags && !p.badAddr 2 && !p.badAddr 6 && !p.stray 5 0xFFFF0000 && !p.stray 9 0xFFFF0000 && true) = true := by
    rw [h.sized.2.1, h.srcAddr, h.dstAddr, h.srcBytes, h.dstBytes]
    rfl
  unfold State.baleTests
  dsimp only
  rw [h.dst, params]
  refine tests_pass (beq_iff_eq.mpr h.sized.1) ?_ ?_ ?_
  · rcases h.src with src | src <;> rw [src] <;> exact Bool.and_eq_true_iff.mpr ⟨any, h.lease⟩
  · rcases h.src with src | src <;> rw [src] <;> exact h.path
  · rcases h.src with src | src <;> rw [src] <;> rfl

theorem State.balerAnswer_busy {act : State × Option Reply} (h : s.Bales b p) (busy : s.balerBusy b = true) :
    s.balerAnswer (s.baleTests b p true ++ [(s.balerBusy b, stBusy)]) act = (s, some (Reply.plain stBusy)) := by
  have none' : (s.baleTests b p true).find? (fun e => e.1) = none :=
    List.find?_eq_none.mpr fun e here => by rw [s.baleTests_pass h e here]; decide
  unfold State.balerAnswer
  rw [List.append_assoc, List.find?_append, none', busy]
  rfl

theorem State.balerAnswer_acts {act : State × Option Reply} (h : s.Bales b p) (idle : s.balerBusy b = false) :
    s.balerAnswer (s.baleTests b p true ++ [(s.balerBusy b, stBusy)]) act = act := by
  have none' : (s.baleTests b p true).find? (fun e => e.1) = none :=
    List.find?_eq_none.mpr fun e here => by rw [s.baleTests_pass h e here]; decide
  unfold State.balerAnswer
  rw [List.append_assoc, List.find?_append, none', idle, h.island]
  rfl

theorem cmdBale_busy {o : BaleOptions} (h : s.Bales b p) (options : baleOptions (p.w 10) = some o) (busy : s.balerBusy b = true) :
    cmdBale b p s = (s, some (Reply.plain stBusy)) := by
  unfold cmdBale
  dsimp only
  rw [options]
  exact s.balerAnswer_busy h busy

theorem cmdBale_acts {o : BaleOptions} (h : s.Bales b p) (options : baleOptions (p.w 10) = some o) (idle : s.balerBusy b = false) :
    cmdBale b p s = s.doBale b p o := by
  unfold cmdBale
  dsimp only
  rw [options]
  exact s.balerAnswer_acts h idle

theorem cmdUnbale_busy (h : s.Bales b p) (options : p.w 10 = 0) (busy : s.balerBusy b = true) :
    cmdUnbale b p s = (s, some (Reply.plain stBusy)) := by
  unfold cmdUnbale
  rw [beq_iff_eq.mpr options]
  exact s.balerAnswer_busy h busy

theorem cmdUnbale_acts (h : s.Bales b p) (options : p.w 10 = 0) (idle : s.balerBusy b = false) :
    cmdUnbale b p s = (s.unbaleJob (p.addr 2) (p.long 4) (p.addr 6) (p.long 8)).1.endBale b 2
      (s.unbaleJob (p.addr 2) (p.long 4) (p.addr 6) (p.long 8)).2
      (s.unbaleJob (p.addr 2) (p.long 4) (p.addr 6) (p.long 8)).2.raw := by
  unfold cmdUnbale
  rw [beq_iff_eq.mpr options]
  exact s.balerAnswer_acts h idle

/-- A job that ends otherwise than without space goes on with the module its work left. -/
theorem State.doBale_ends {o : BaleOptions} (meets : p.meets = .nothing)
    (room : (s.baleJob o (p.addr 2) (p.long 4) (p.addr 6) (p.long 8)).2 ≠ .nospace) :
    s.doBale b p o = (s.baleJob o (p.addr 2) (p.long 4) (p.addr 6) (p.long 8)).1.endBale b 1
      (s.baleJob o (p.addr 2) (p.long 4) (p.addr 6) (p.long 8)).2
      (s.baleJob o (p.addr 2) (p.long 4) (p.addr 6) (p.long 8)).2.stream := by
  unfold State.doBale
  rw [meets]
  dsimp only
  rw [if_neg room]

/-- A job without space leaves its destination undefined after the header's place (R383). -/
theorem State.doBale_nospace {o : BaleOptions} (meets : p.meets = .nothing)
    (full : (s.baleJob o (p.addr 2) (p.long 4) (p.addr 6) (p.long 8)).2 = .nospace) :
    s.doBale b p o = ((s.baleJob o (p.addr 2) (p.long 4) (p.addr 6) (p.long 8)).1.undefine balePort
      (p.addr 6 + min 32 (p.long 8)) (p.long 8 - min 32 (p.long 8))).endBale b 1 .nospace 0 := by
  unfold State.doBale
  rw [meets]
  dsimp only
  rw [if_pos full, full]
  rfl

/-! ### What the end of a job's work means (R354, Table 14-12) -/

section
variable (s b) (code : BitVec 2) (raw stream outBytes d : Nat)

theorem State.endBale_runs (bytes : 0 < raw) : (s.endBale b code (.ok raw stream) outBytes).2 = none := by
  unfold State.endBale
  dsimp only
  rw [if_neg (by omega)]

theorem State.endBale_empty : (s.endBale b code (.ok 0 stream) outBytes).2 = some (Reply.ok (words64 outBytes)) := rfl

theorem State.endBale_nospace :
    (s.endBale b code .nospace outBytes).2 = some (Reply.plain stNospace) ∧
      (s.endBale b code .nospace outBytes).1.move.bale.failedNospace = s.move.bale.failedNospace + 1 ∧
      s.endBale b code .nospace outBytes = s.endBale b code .nospace 0 := ⟨rfl, rfl, rfl⟩

theorem State.endBale_other :
    (s.endBale b code (.other d) outBytes).2 = some { status := stFaulted, detail := BitVec.ofNat 32 d } ∧
      (s.endBale b code (.other d) outBytes).1.move.bale.failedOther = s.move.bale.failedOther + 1 ∧
      s.endBale b code (.other d) outBytes = s.endBale b code (.other d) 0 := ⟨rfl, rfl, rfl⟩

/-- A job that begins runs half a nanosecond a byte from now on, for its bench (log entry 24). -/
theorem State.endBale_begins (bytes : 0 < raw) (idle : s.move.baleRun = none) :
    (s.endBale b code (.ok raw stream) outBytes).1 =
      { s with move := { s.move with
          bale := { s.move.bale with bench := BitVec.ofNat 2 b.val, state := code }
          baleRun := some ⟨b, s.now + (raw + 1) / 2, raw, stream, words64 outBytes, false⟩ } } := by
  unfold State.endBale
  dsimp only
  rw [if_neg (by omega)]
  have still : (s.onBale fun x => { x with bench := BitVec.ofNat 2 b.val }).move.baleRun = none := idle
  unfold State.runBaler State.endBaler
  rw [still]
  rfl

/-- What a failed check counts, before and after its event. -/
theorem State.endBale_check :
    s.endBale b code (.check d) outBytes =
      (((s.onBale fun x => { x with bench := BitVec.ofNat 2 b.val, failedCheck := x.failedCheck + 1, checkSeen := true }).raise
        srcBaleCheck (BitVec.ofNat 32 d)).onBale fun x => { x with lastDetail := BitVec.ofNat 32 d },
        some { status := stFaulted, detail := BitVec.ofNat 32 d }) := rfl

end

theorem State.endBale_checked (s : State) (b : BenchId) (code : BitVec 2) (d outBytes : Nat) :
    let t := (s.endBale b code (.check d) outBytes).1
    t.move.bale.failedCheck = s.move.bale.failedCheck + 1 ∧ t.move.bale.checkSeen = true ∧
      t.move.bale.lastDetail = BitVec.ofNat 32 d ∧ t.move.baleRun = s.move.baleRun ∧
      (s.inReset = false →
        (t.source srcBaleCheck).reg.events = (s.source srcBaleCheck).reg.events + 1 ∧
        (t.source srcBaleCheck).reg.lastDetail = BitVec.ofNat 32 d) := by
  rw [State.endBale_check]
  obtain ⟨v, counted⟩ : ∃ v : State, v = s.onBale fun x =>
    { x with bench := BitVec.ofNat 2 b.val, failedCheck := x.failedCheck + 1, checkSeen := true } := ⟨_, rfl⟩
  have bale : v.move.bale = { s.move.bale with
    bench := BitVec.ofNat 2 b.val, failedCheck := s.move.bale.failedCheck + 1, checkSeen := true } := by rw [counted]; rfl
  have run : v.move.baleRun = s.move.baleRun := by rw [counted]; rfl
  have tally : v.tally = s.tally := by rw [counted]; rfl
  have reset : v.inReset = s.inReset := by rw [counted]; rfl
  rw [← counted]
  have moved : (v.raise srcBaleCheck (BitVec.ofNat 32 d)).move = v.move := v.raise_move ..
  have source : (v.raise srcBaleCheck (BitVec.ofNat 32 d)).onBale (fun x => { x with lastDetail := BitVec.ofNat 32 d }) =
    { v.raise srcBaleCheck (BitVec.ofNat 32 d) with
      move := { v.move with bale := { v.move.bale with lastDetail := BitVec.ofNat 32 d } } } := by
    unfold State.onBale
    rw [moved]
  rw [source]
  dsimp only
  rw [bale]
  refine ⟨rfl, rfl, rfl, run, fun off => ?_⟩
  have same : v.source srcBaleCheck = s.source srcBaleCheck := by unfold State.source; rw [tally]
  obtain ⟨state, seen, grace, event⟩ := v.raise_source srcBaleCheck (BitVec.ofNat 32 d) none (reset.trans off)
  change ((v.raise srcBaleCheck (BitVec.ofNat 32 d)).source srcBaleCheck).reg.events = _ ∧
    ((v.raise srcBaleCheck (BitVec.ofNat 32 d)).source srcBaleCheck).reg.lastDetail = _
  rw [event, ← same]
  exact ⟨rfl, rfl⟩

/-! ### The end of a running job -/

theorem State.finishCommand_move (s : State) (b : BenchId) (r : Reply) : (s.finishCommand b r).move = s.move := by
  unfold State.finishCommand State.putReply
  split
  · extract_lets idx kept said
    have told : kept.SaysOnly said := by
      unfold said
      split
      · exact ⟨rfl, List.prefix_append ..⟩
      · exact kept.sendDatagram_says ..
    rw [(said.setIrq_says b irqReply).1, told.1]
    rfl
  · rfl

theorem State.endBaler_counts {x : BaleRun} (run : s.move.baleRun = some x) :
    s.endBaler.move = { s.move with
      baleRun := none
      bale := { s.move.bale with state := 0, jobs := s.move.bale.jobs + 1
                                 rawBytes := s.move.bale.rawBytes + BitVec.ofNat 64 x.raw
                                 streamBytes := s.move.bale.streamBytes + BitVec.ofNat 64 x.stream } } := by
  unfold State.endBaler
  rw [run]
  dsimp only
  split
  · rfl
  · rw [State.finishCommand_move]
    rfl

section
variable (ready : s.ready b) (free : s.busLocked 0xB0 p = false) (bales : (s.handed b).Bales b p)
include ready free bales

theorem exec_bale {o : BaleOptions} (options : baleOptions (p.w 10) = some o) (idle : (s.handed b).balerBusy b = false)
    {e : State × Option Reply} (ran : (s.handed b).doBale b p o = e) :
    (∀ y, e.2 = some y → exec (.bale b p) s = .next (State.replied b 0xB0 p (e.1, y))) ∧
      (e.2 = none → exec (.bale b p) s = .next (State.begun b 0xB0 p e.1)) :=
  exec_of_baler (op := 0xB0) rfl ready free bales.sized ((cmdBale_acts bales options idle).trans ran)

theorem exec_unbale (options : p.w 10 = 0) (idle : (s.handed b).balerBusy b = false) :
    let r := (s.handed b).unbaleJob (p.addr 2) (p.long 4) (p.addr 6) (p.long 8)
    let e := r.1.endBale b 2 r.2 r.2.raw
    (∀ y, e.2 = some y → exec (.unbale b p) s = .next (State.replied b 0xB1 p (e.1, y))) ∧
      (e.2 = none → exec (.unbale b p) s = .next (State.begun b 0xB1 p e.1)) :=
  exec_of_baler (op := 0xB1) rfl ready free bales.sized (cmdUnbale_acts bales options idle)

theorem exec_bale_busy {o : BaleOptions} (options : baleOptions (p.w 10) = some o) (busy : (s.handed b).balerBusy b = true) :
    exec (.bale b p) s = .next (State.replied b 0xB0 p (s.handed b, Reply.plain stBusy)) :=
  (exec_of_baler (op := 0xB0) rfl ready free bales.sized (cmdBale_busy bales options busy)).1 _ rfl

theorem exec_unbale_busy (options : p.w 10 = 0) (busy : (s.handed b).balerBusy b = true) :
    exec (.unbale b p) s = .next (State.replied b 0xB1 p (s.handed b, Reply.plain stBusy)) :=
  (exec_of_baler (op := 0xB1) rfl ready free bales.sized (cmdUnbale_busy bales options busy)).1 _ rfl

end

/-- Settles O23: under its tests a Baler command answers what the end of its job's work means, and a job's end counts it. -/
theorem balerJobsComplete : Obligations.BalerJobsComplete := by
  unfold Obligations.BalerJobsComplete
  refine ⟨fun s b p ready => ?_, fun s b code raw stream outBytes bytes idle => ?_,
    fun s b code d outBytes => ⟨rfl, s.endBale_checked b code d outBytes⟩, fun s x run due => ?_⟩
  · dsimp only
    intro sized dst lease path src srcAddr dstAddr srcBytes dstBytes island free
    have bales : (s.handed b).Bales b p := ⟨sized, dst, lease, path, src, srcAddr, dstAddr, srcBytes, dstBytes, island⟩
    have busy {x : BaleRun} (run : (s.handed b).move.baleRun = some x) (other : x.bench ≠ b) : (s.handed b).balerBusy b = true := by
      unfold State.balerBusy
      rw [run]
      exact bne_iff_ne.mpr other
    refine ⟨fun x o run other options => ?_, fun x run other options => ?_, fun idle => ⟨fun o options => ?_, fun options => ?_⟩⟩
    · exact exec_bale_busy ready free bales options (busy run other)
    · exact exec_unbale_busy ready free bales options (busy run other)
    · have ends := (s.handed b).doBale_ends (b := b) (o := o) sized.2.2
      have full := (s.handed b).doBale_nospace (b := b) (o := o) sized.2.2
      generalize (s.handed b).baleJob o (p.addr 2) (p.long 4) (p.addr 6) (p.long 8) = r at *
      obtain ⟨t, e⟩ := r
      dsimp only at ends full ⊢
      refine ⟨fun raw stream done' bytes => ?_, fun stream done' => ?_, fun none' => ⟨?_, ?_⟩, fun k failed => ?_⟩
      · subst done'
        exact (exec_bale ready free bales options idle (ends (by simp))).2 (State.endBale_runs _ _ _ _ _ _ bytes)
      · subst done'
        exact (exec_bale ready free bales options idle (ends (by simp))).1 _ (State.endBale_empty ..)
      · exact (exec_bale ready free bales options idle (full none')).1 _ (State.endBale_nospace ..).1
      · exact (State.endBale_nospace ..).2.1
      · subst failed
        exact (exec_bale ready free bales options idle (ends (by simp))).1 _ (State.endBale_other ..).1
    · have ran := exec_unbale ready free bales options idle
      generalize (s.handed b).unbaleJob (p.addr 2) (p.long 4) (p.addr 6) (p.long 8) = r at *
      obtain ⟨t, e⟩ := r
      dsimp only at ran ⊢
      refine ⟨fun raw stream done' bytes => ?_, fun none' => ?_, fun k failed => ?_⟩
      · subst done'
        exact ran.2 (State.endBale_runs _ _ _ _ _ _ bytes)
      · subst none'
        exact ⟨ran.1 _ (State.endBale_nospace ..).1, (State.endBale_nospace ..).2.1⟩
      · subst failed
        exact ⟨ran.1 _ (State.endBale_other ..).1, (State.endBale_other ..).2.1⟩
  · rw [State.endBale_begins _ _ _ _ _ _ bytes idle]
    exact ⟨rfl, rfl, rfl, rfl, State.sameMemory_of_mem rfl⟩
  · have counts := State.endBaler_counts run
    rw [counts]
    refine ⟨?_, rfl, rfl, rfl, rfl, rfl⟩
    unfold State.balerDue
    rw [run]
    exact decide_eq_true due

end Sys2Proof.Machine
end

section
/-! What a warm start keeps and what it clears (R432, Table 17-3). -/

namespace Sys2Proof.Machine

variable {s : State} {cause : BitVec 4}

/-! ### The benches of a module that starts -/

theorem State.keepBenches_holdsAny (s : State) (warm : Bool) (b : BenchId) :
    ((s.keepBenches (s.keepAlways {}) warm).holdsAny b = false) ∧ ((s.keepBenches (s.keepAlways {}) warm).benchOf b).stat.isOpen = false := by
  have bench : (s.keepBenches (s.keepAlways {}) warm).benchOf b = keepBench s.bench.benches[b] b warm := by
    simp [State.keepBenches, State.benchOf]
  refine ⟨?_, by rw [bench]; rfl⟩
  have none' : ∀ i : SubId, ({} : State).bench.obsHolder[i] = none := by decide
  have obs (i : SubId) : (s.keepBenches (s.keepAlways {}) warm).holdsObs b i = false := by
    change (({} : State).bench.obsHolder[i] == some b) = false
    rw [none']
    rfl
  have monitor : ((s.keepBenches (s.keepAlways {}) warm).benchOf b).monitor = false := by rw [bench]; rfl
  unfold State.holdsAny State.holdsAnyObs
  simp only [obs, monitor]
  rfl

/-! ### The parts of a warm start -/

theorem State.warmStartOf_source (i : SourceId) : (s.warmStartOf cause).source i = (s.source i).warm := by
  simp [State.warmStartOf, State.markStart, State.source]

theorem State.warmStartOf_tile (k : TileId) : (s.warmStartOf cause).tile k = (s.tile k).warm := by
  simp [State.warmStartOf, State.markStart, State.tile]

theorem Tile.warm_retired {x : Tile} (retired : x.reg.state = tsRetired) : x.warm.reg.state = tsRetired := by
  unfold Tile.warm
  rw [if_pos retired]

theorem warmTables_class (es : List TableEntry) : ∀ e ∈ warmTables es, e.cls = 2 ∨ e.cls = 4 ∨ e.cls = 5 ∨ e.cls = 10 := by
  intro e here
  obtain ⟨o, kept, rfl⟩ := List.mem_map.mp here
  have rule := (List.mem_filter.mp kept).2
  simp only [Bool.or_eq_true, Bool.and_eq_true, beq_iff_eq] at rule
  rcases rule with ((⟨two, -⟩ | four) | ⟨five, -⟩) | ten
  · exact .inl two
  · exact .inr (.inl four)
  · exact .inr (.inr (.inl five))
  · exact .inr (.inr (.inr ten))

/-- Settles O55: a warm start is built from the reset state and what Table 17-3 keeps. -/
theorem warmStartKeeps : Obligations.WarmStartKeeps := by
  unfold Obligations.WarmStartKeeps
  intro s cause
  dsimp only
  have idle (b : BenchId) := s.keepBenches_holdsAny true b
  refine ⟨fun a low high => ?_, fun a out => ?_, fun i => ?_, rfl, rfl, rfl, rfl, fun k retired => ?_, fun i => ?_, fun b => ?_,
    warmTables_class s.tables, rfl, rfl, rfl⟩
  · exact SMap.get_keep.trans (if_pos ⟨low, high⟩)
  · exact SMap.get_keep.trans (if_neg (by omega))
  · rw [State.warmStartOf_source]
    exact ⟨rfl, rfl, rfl, rfl⟩
  · rw [State.warmStartOf_tile]
    exact Tile.warm_retired retired
  · have free : ∀ j : SubId, ({} : State).obs[j].state = saFree := by decide
    exact free i
  · exact idle b

end Sys2Proof.Machine
end

section
/-! Starts, cold and warm (R415, R426, R427, Table 17-1): what POWER_UP, RESET_N and AUTO_RESTART begin. -/

namespace Sys2Proof.Machine

variable {s : State} {cause : BitVec 4}

/-! ### The first sequence of a start -/

/-- Where no table gives RAILS_UP, the vendor's begins with the 5 V rail (log entry 52). -/
theorem State.beginSeq_railsUp (none' : s.bell.seqs[(0 : Fin 6)] = []) :
    ∃ rails, s.beginSeq 0 .rollCall =
      { s with bell := { s.bell with running := some ⟨0, vendorSeq 0, 0, s.now, false, .rollCall⟩, rails := rails } } := by
  have steps : s.seqSteps 0 = vendorSeq 0 := by
    unfold State.seqSteps
    rw [none']
    rfl
  refine ⟨s.bell.rails ||| (1 <<< 10 : BitVec 12), ?_⟩
  unfold State.beginSeq
  rw [steps]
  rfl

/-- The module of a cold start before its first sequence. -/
def State.coldReset (s : State) (cause : BitVec 4) : State :=
  let c := s.clock.stat
  let t : State := s.keepBenches (s.keepAlways {}) false
  let t : State := { t with
    clock := { s.clock with
      stat := { state := c.state, selected := c.selected, everLocked := c.everLocked, rankA := c.rankA, rankB := c.rankB, rankC := c.rankC }
      holdAt := s.now }
    tally := { monoBase := if cause = 6 then s.tally.monoBase else s.now }
    gran := { t.gran with trained := s.gran.trained }
    start := { t.start with aonAt := s.start.aonAt }
    bell := {
      stat := { lastShutdown := s.bell.stat.lastShutdown, supply10mv := s.bell.stat.supply10mv, powerDw := s.bell.stat.powerDw
                bank10mv := s.bell.stat.bank10mv, isolated := s.bell.stat.isolated, classNow := s.bell.stat.classNow }
      events := s.bell.events, event := s.bell.event.map SupplyEvent.atStart
      islands := aonOnly, lastTest := s.bell.lastTest, rideAt := s.bell.rideAt, goodSince := s.bell.goodSince
      highAt := s.bell.highAt
      straps := s.bell.straps, alive := true } }
  t.markStart s.start.reg false cause

/-- What a cold start leaves: the record of the start, the supply as it is, and no shutdown. -/
theorem State.coldStartOf_begins (s : State) (cause : BitVec 4) :
    let t := s.coldStartOf cause
    t.start.reg.kind = false ∧ t.start.reg.step = 1 ∧ t.start.reg.cause = cause ∧
      t.start.reg.starts = s.start.reg.starts + 1 ∧ t.bell.stat.supply10mv = s.bell.stat.supply10mv ∧ t.bell.down = false := by
  have begun : s.coldStartOf cause = (s.coldReset cause).beginSeq 0 .rollCall := rfl
  obtain ⟨rails, made⟩ := State.beginSeq_railsUp (s := s.coldReset cause) rfl
  dsimp only
  rw [begun, made]
  exact ⟨rfl, rfl, rfl, rfl, rfl, rfl⟩

/-- A start that is not warm is cold. -/
theorem State.beginStart_cold (alive : s.bell.alive = true) (up : s.bell.falling = false)
    (cold : ¬ ((cause = 2 ∨ cause = 3 ∨ cause = 5) ∧ s.bell.stat.pwrGood ∧ s.reachedFour)) :
    s.beginStart cause = s.coldStartOf cause := by
  unfold State.beginStart
  rw [alive, up, if_neg (by decide), if_neg cold]

theorem State.beginStart_warm (alive : s.bell.alive = true) (up : s.bell.falling = false)
    (resets : cause = 2 ∨ cause = 3 ∨ cause = 5) (good : s.bell.stat.pwrGood = true) (four : s.reachedFour = true) :
    s.beginStart cause = s.warmStartOf cause := by
  unfold State.beginStart
  rw [alive, up, if_neg (by decide), if_pos ⟨resets, good, four⟩]

/-- The module that POWER_UP resets, before its first sequence. -/
def State.powerReset (s : State) (straps : Straps) (v : BitVec 16) : State :=
  let ref (rank : BitVec 2) : RefSource := { qstate := if rank = 0 then qsUnused else qsAbsent }
  let t : State := { s.keepAlways {} with
    now := 0
    clock := { stat := { rankA := straps.rankA, rankB := straps.rankB, rankC := straps.rankC }
               srcs := ⟨#[ref straps.rankA, ref straps.rankB, ref straps.rankC], rfl⟩ }
    bell := { straps := straps, alive := true, islands := aonOnly, stat := { supply10mv := v } } }
  t.markStart {} false 0

theorem State.keepAlways_holdsAny (s : State) (b : BenchId) : (s.keepAlways {}).holdsAny b = false := by
  have none' : ∀ b : BenchId, ({} : State).holdsAny b = false := by decide
  exact none' b

theorem aonOnly_on (i : IslandId) : (aonOnly[i].state == 2) = decide (i.val = 75) := by
  unfold aonOnly
  rw [Fin.getElem_fin, Vector.getElem_ofFn]
  split
  · next aon => rw [decide_eq_true aon]; rfl
  · next other => rw [decide_eq_false other]; rfl

/-- The input has a voltage that lies within 41.0 V to 59.0 V. -/
theorem State.noteInput_good {v : BitVec 16} (good : goodInput v = true) :
    (s.noteInput v).bell.goodSince = s.bell.goodSince := by
  unfold State.noteInput
  dsimp only
  rw [if_pos good]
  rfl

/-- Settles O54: each start is built from the reset state and what it keeps, and its first sequence touches rails alone. -/
theorem startsAreColdOrWarm : Obligations.StartsAreColdOrWarm := by
  unfold Obligations.StartsAreColdOrWarm
  refine ⟨fun s straps v => ?_, fun s us alive up => ⟨fun short => ?_, fun least most good four => ?_, fun cold => ?_⟩,
    fun s v alive down up mode still auto good since => ?_⟩
  · obtain ⟨rails, made⟩ := State.beginSeq_railsUp (s := s.powerReset straps v) rfl
    have ran : exec (.powerUp straps v) s = .next ((s.powerReset straps v).beginSeq 0 .rollCall) := rfl
    rw [made] at ran
    have free : ∀ i : SubId, ({} : State).obs[i].state = saFree := by decide
    exact ⟨_, ran, rfl, rfl, rfl, rfl, rfl, rfl, rfl, rfl, rfl, rfl, aonOnly_on, ⟨_, rfl, rfl, rfl⟩, rfl, rfl, rfl, rfl, rfl, rfl,
      free, s.keepAlways_holdsAny, fun _ => rfl⟩
  · exact congrArg Host.Outcome.next (if_pos short)
  · have ran : exec (.resetN us) s = .next (s.beginStart (if 1000000 ≤ us then 1 else 2)) :=
      congrArg Host.Outcome.next (if_neg (by omega))
    rw [if_neg (by omega), State.beginStart_warm alive up (.inl rfl) good four] at ran
    exact ⟨_, ran, rfl, rfl, rfl, rfl, rfl⟩
  · have ran : exec (.resetN us) s = .next (s.beginStart (if 1000000 ≤ us then 1 else 2)) :=
      congrArg Host.Outcome.next (if_neg (by omega))
    have notWarm : ¬ (((if 1000000 ≤ us then 1 else 2 : BitVec 4) = 2 ∨ (if 1000000 ≤ us then 1 else 2 : BitVec 4) = 3 ∨
        (if 1000000 ≤ us then 1 else 2 : BitVec 4) = 5) ∧ s.bell.stat.pwrGood ∧ s.reachedFour) := by
      rintro ⟨resets, good, four⟩
      split at resets
      · exact absurd resets (by decide)
      · rcases cold with long | ⟨-, bad | early⟩
        · omega
        · exact absurd (bad.symm.trans good) (by decide)
        · exact absurd (early.symm.trans four) (by decide)
    rw [State.beginStart_cold alive up notWarm] at ran
    obtain ⟨kind, step, cause, starts, -, -⟩ := s.coldStartOf_begins (if 1000000 ≤ us then 1 else 2)
    exact ⟨_, ran, kind, step, cause, starts⟩
  · have ran : exec (.autoRestart v) s = .next ((s.noteInput v).beginStart 6) := by
      refine congrArg Host.Outcome.next ?_
      rw [if_pos alive, if_pos ⟨alive, down, mode, by rw [still]; rfl, auto, good, by rw [State.noteInput_good good]; exact since⟩]
    rw [State.beginStart_cold (s := s.noteInput v) alive up (by rintro ⟨resets, -⟩; exact absurd resets (by decide))] at ran
    obtain ⟨kind, step, cause, -, supply, down⟩ := (s.noteInput v).coldStartOf_begins 6
    exact ⟨_, ran, kind, cause, step, supply, down⟩

end Sys2Proof.Machine
end

section
/-! The roll call goes on step by step (R427 to R432): each step begins the next, and the last one leaves the module in STANDBY. -/

namespace Sys2Proof.Machine

variable {s t : State} {r : StepReport} {n : Nat}

/-! ### Whether the benches serve, and the mode -/

theorem State.setIrq_serving (s : State) (b : BenchId) (k : Fin 6) : (s.setIrq b k).bench.serving = s.bench.serving := by
  unfold State.setIrq State.announce State.notify State.sendDatagram State.sendMsix
  dsimp only
  split
  · rfl
  · split
    · split
      · split <;> rfl
      · split <;> rfl
    · rfl

theorem State.setIrq_bell (s : State) (b : BenchId) (k : Fin 6) : (s.setIrq b k).bell = s.bell := by
  rw [(s.setIrq_says b k).1]

theorem State.setIrq_start (s : State) (b : BenchId) (k : Fin 6) : (s.setIrq b k).start = s.start := by
  rw [(s.setIrq_says b k).1]

/-- What a change of mode changes of the Bellows, and that the benches serve as before (R421). -/
theorem State.setMode_bell (s : State) (m : BitVec 4) :
    (s.setMode m).bell = { s.bell with stat := { s.bell.stat with
      mode := m, prevMode := if s.mode = m then s.bell.stat.prevMode else s.mode } } ∧
    (s.setMode m).bench.serving = s.bench.serving ∧ (s.setMode m).start = s.start := by
  unfold State.setMode
  split
  · next same => rw [← same]; exact ⟨rfl, rfl, rfl⟩
  · extract_lets old changed released unlooped
    have two : released.bell = changed.bell ∧ released.bench = changed.bench ∧ released.start = changed.start := by
      unfold released
      split <;> exact ⟨rfl, rfl, rfl⟩
    have three : unlooped.bell = released.bell ∧ unlooped.bench = released.bench ∧ unlooped.start = released.start := by
      unfold unlooped
      split <;> exact ⟨rfl, rfl, rfl⟩
    have four := foldl_keeps
      (fun x : State => x.bell = unlooped.bell ∧ x.bench.serving = unlooped.bench.serving ∧ x.start = unlooped.start)
      (fun (u : State) b => if (s.benchOf b).stat.isOpen then u.setIrq b irqMode else u) (fun u b kept => by
        split
        · rw [State.setIrq_bell, State.setIrq_serving, State.setIrq_start]
          exact kept
        · exact kept) (allFin 4) unlooped ⟨rfl, rfl, rfl⟩
    refine ⟨?_, ?_, ?_⟩
    · rw [four.1, three.1, two.1]; rfl
    · rw [four.2.1, three.2.1, two.2.1]; rfl
    · rw [four.2.2, three.2.2, two.2.2]; rfl

theorem State.setMode_mode (s : State) (m : BitVec 4) : (s.setMode m).mode = m := by
  unfold State.mode
  rw [(s.setMode_bell m).1]

/-! ### A step that begins -/

/-- The islands a step powers touch the Bellows alone. -/
theorem State.powerStep_bell (s : State) (n : Nat) : s.powerStep n = { s with bell := (s.powerStep n).bell } := by
  refine foldl_keeps (fun t : State => t = { s with bell := t.bell }) _ (fun t i kept => ?_) _ s rfl
  split
  · split
    · exact kept
    · rw [State.onIsland, kept]
  · exact kept

theorem State.startOctet_start (s : State) (o : OctetId) (warm : Bool) (scan : BitVec 4) :
    (s.startOctet o warm scan).start = s.start := by
  refine foldl_keeps (fun t : State => t.start = s.start) _ (fun t k kept => ?_) _ s rfl
  unfold State.startLane
  dsimp only
  split <;> exact kept

/-- The step that begins is the step in progress, at its beginning. -/
theorem State.enterStep_start (s : State) (n : Nat) :
    (s.enterStep n).start = { s.start with stepAt := s.now, waiting := false, reg := { s.start.reg with step := BitVec.ofNat 4 n } } := by
  unfold State.enterStep
  extract_lets _ _ marked powered
  have begun : powered.start = marked.start := by unfold powered; rw [State.powerStep_bell]
  split
  · exact begun
  · refine foldl_keeps (fun u : State => u.start = marked.start) _ (fun u o kept => ?_) _ powered begun
    split
    · exact (u.startOctet_start ..).trans kept
    · exact kept
  · have seq : (powered.beginSeq 5 .nothing).start = powered.start := by rw [powered.beginSeq_power 5 .nothing]
    exact seq.trans begun
  · exact begun

theorem State.enterStep_step (s : State) (n : Nat) : (s.enterStep n).start.reg.step = BitVec.ofNat 4 n := by
  rw [State.enterStep_start]

/-- A step past the fourth that begins touches no memory. -/
theorem State.enterStep_mem (s : State) {n : Nat} (after : n = 6) : (s.enterStep n).mem = s.mem := by
  subst after
  change (State.powerStep _ 6).mem = _
  rw [State.powerStep_bell]

/-! ### The steps -/

theorem Memory.byte_zero_two {m : Memory} {a b n k x : Nat} :
    ((m.zero a n).zero b k).byte x = if a ≤ x ∧ x < a + n ∨ b ≤ x ∧ x < b + k then 0 else m.byte x := by
  rw [Memory.byte_zero, Memory.byte_zero]
  split
  · next inB => rw [if_pos (.inr inB)]
  · next outB =>
    split
    · next inA => rw [if_pos (.inl inA)]
    · next outA => rw [if_neg (by rintro (inA | inB); exacts [outA inA, outB inB])]

section
variable (s : State) (r : StepReport)

theorem State.rollStep_five (now : s.start.reg.step = 5) : s.rollStep r = (s.clearSrams.endStep 5).enterStep 6 := by
  unfold State.rollStep; rw [now]; rfl

theorem State.rollStep_six (now : s.start.reg.step = 6) : s.rollStep r = ((s.engineStep r).endStep 6).enterStep 7 := by
  unfold State.rollStep; rw [now]; rfl

theorem State.rollStep_seven (now : s.start.reg.step = 7) : s.rollStep r = ((s.tileStep r).endStep 7).enterStep 8 := by
  unfold State.rollStep; rw [now]; rfl

theorem State.rollStep_eight (now : s.start.reg.step = 8) (ready : s.lanesReady = true) :
    s.rollStep r = (s.endStep 8).enterStep 9 := by
  unfold State.rollStep; rw [now]; exact if_pos ready

theorem State.rollStep_nine (now : s.start.reg.step = 9) (done : s.bell.running = none) :
    s.rollStep r = (s.endStep 9).finishRoll := by
  unfold State.rollStep; rw [now]; exact if_pos (by rw [done]; rfl)

end

theorem State.finishRoll_serves (s : State) :
    s.finishRoll.start.reg.step = 10 ∧ s.finishRoll.bench.serving = true ∧ s.finishRoll.mode = modeStandby := by
  unfold State.finishRoll
  extract_lets _ _ _ _ _ ready standby
  obtain ⟨-, serving, start⟩ := ready.setMode_bell modeStandby
  have mode := ready.setMode_mode modeStandby
  have done : standby.start.reg.step = 10 ∧ standby.bench.serving = true ∧ standby.mode = modeStandby :=
    ⟨congrArg (fun x : StartBlock => x.reg.step) start, serving, mode⟩
  split
  · unfold State.mode
    rw [State.setIrq_start, State.setIrq_serving, State.setIrq_bell, State.setIrq_start, State.setIrq_serving, State.setIrq_bell]
    exact done
  · exact done

/-- Settles O56: a step that ends begins the next, whatever it reports, and step 9 ends the roll call. -/
theorem rollCallSteps : Obligations.RollCallSteps := by
  unfold Obligations.RollCallSteps
  intro s r alive up rolling
  refine ⟨congrArg Host.Outcome.next (if_pos (by rw [alive, up, rolling]; rfl)), fun now => ?_, fun now => ?_, fun now => ?_,
    fun now ready => ?_, fun now done => ?_⟩
  · rw [State.rollStep_five s r now]
    have mem : ((s.clearSrams.endStep 5).enterStep 6).mem = (s.mem.zero ledgerBase 0xE000000).zero shelfBase 0x2000000 :=
      State.enterStep_mem _ rfl
    rw [mem]
    refine ⟨State.enterStep_step _ 6, fun a low high => ?_, fun a low high => ?_, fun a out off => ?_⟩
    · rw [Memory.byte_zero_two, if_pos (.inl ⟨low, high⟩)]
    · rw [Memory.byte_zero_two, if_pos (.inr ⟨low, high⟩)]
    · rw [Memory.byte_zero_two, if_neg (by omega)]
  · rw [State.rollStep_six s r now]; exact State.enterStep_step _ 7
  · rw [State.rollStep_seven s r now]; exact State.enterStep_step _ 8
  · rw [State.rollStep_eight s r now ready]; exact State.enterStep_step _ 9
  · rw [State.rollStep_nine s r now done]; exact State.finishRoll_serves _

end Sys2Proof.Machine
end

section
/-! What an operation keeps: the queue of commands, what has left the module and the free values drawn, the form of the memory
(log entries 2 to 4), and, where it is asked, every byte of memory, the islands, and the Bellows beside its islands, its rails
and the mode. -/

namespace Sys2Proof.Machine

variable {s t u : State} {m i p : Bool}

/-- The Bellows is as it was but for its islands and rails and the mode. -/
def BellowsBlock.Powers (x y : BellowsBlock) : Prop :=
  y = { x with islands := y.islands, rails := y.rails, stat := { x.stat with mode := y.stat.mode, prevMode := y.stat.prevMode } }

theorem BellowsBlock.Powers.trans {x y z : BellowsBlock} (h : x.Powers y) (k : y.Powers z) : x.Powers z := by
  unfold BellowsBlock.Powers at *
  rw [k, h]

/-- From the first state to the second nothing was lost (`Adds`); the memory is the same where `m` is set, the islands where `i`
is set, and the rest of the Bellows where `p` is set. -/
structure State.Keeps (s : State) (m i p : Bool) (t : State) : Prop where
  adds : s.Adds t
  mem : m = true → t.mem = s.mem
  islands : i = true → t.bell.islands = s.bell.islands
  bell : p = true → s.bell.Powers t.bell

namespace State.Keeps

theorem refl (s : State) : s.Keeps m i p s := ⟨.refl s, fun _ => rfl, fun _ => rfl, fun _ => rfl⟩

theorem trans (h : s.Keeps m i p t) (k : t.Keeps m i p u) : s.Keeps m i p u :=
  ⟨h.adds.trans k.adds, fun on => (k.mem on).trans (h.mem on), fun on => (k.islands on).trans (h.islands on),
    fun on => (h.bell on).trans (k.bell on)⟩

/-- A change of what none of this speaks of. -/
theorem data (h : s.Keeps m i p t)
    {now bench tables time clock tally start side lane fmt parser obs sieve cellar front loom ledger beam tiles gran move snap} :
    s.Keeps m i p { t with
      now := now, bench := bench, tables := tables, time := time, clock := clock, tally := tally, start := start, side := side
      lane := lane, fmt := fmt, parser := parser, obs := obs, sieve := sieve, cellar := cellar, front := front, loom := loom
      ledger := ledger, beam := beam, tiles := tiles, gran := gran, move := move, snap := snap } :=
  ⟨h.adds.trans (.aside rfl rfl rfl rfl), h.mem, h.islands, h.bell⟩

/-- A state in which nothing that this speaks of differs. -/
theorem alike (h : s.Keeps m i p t) (pending : u.pending = t.pending) (free : u.freeCount = t.freeCount) (out : u.out = t.out)
    (mem : u.mem = t.mem) (bell : u.bell = t.bell) : s.Keeps m i p u := by
  refine h.trans ⟨.aside pending out free mem, fun _ => mem, fun _ => by rw [bell], fun _ => ?_⟩
  rw [bell]
  rfl

theorem withObs (h : s.Keeps m i p t) {j : SubId} {f : ObsSub → ObsSub} : s.Keeps m i p (t.onObs j f) := h.data

theorem withSieve (h : s.Keeps m i p t) {j : SubId} {f : SieveSub → SieveSub} : s.Keeps m i p (t.onSieve j f) := h.data

theorem withAssay (h : s.Keeps m i p t) {j : SubId} {f : AssaySub → AssaySub} : s.Keeps m i p (t.onAssay j f) := h.data

theorem withCellar (h : s.Keeps m i p t) {j : SubId} {f : CellarSub → CellarSub} : s.Keeps m i p (t.onCellar j f) := h.data

theorem withLedger (h : s.Keeps m i p t) {j : SubId} {f : LedgerSub → LedgerSub} : s.Keeps m i p (t.onLedger j f) := h.data

theorem withLoom (h : s.Keeps m i p t) {j : SubId} {f : LoomSub → LoomSub} : s.Keeps m i p (t.onLoom j f) := h.data

theorem withLoomStat (h : s.Keeps m i p t) {j : SubId} {f : LoomStat → LoomStat} : s.Keeps m i p (t.onLoomStat j f) := h.data

theorem withBeam (h : s.Keeps m i p t) {j : SubId} {f : BeamSub → BeamSub} : s.Keeps m i p (t.onBeam j f) := h.data

theorem withBeamStat (h : s.Keeps m i p t) {j : SubId} {f : LoomBeamStat → LoomBeamStat} : s.Keeps m i p (t.onBeamStat j f) :=
  h.data

theorem withCellStat (h : s.Keeps m i p t) {j : SubId} {f : CellStat → CellStat} : s.Keeps m i p (t.onCellStat j f) := h.data

/-- A change of the Bellows' own fields beside its islands, and of what none of this speaks of. -/
theorem supplied (h : s.Keeps m i false t)
    {now bench tables time clock tally start side lane fmt parser obs sieve cellar front loom ledger beam tiles gran move snap}
    {cfg stat events event curve curveNext seqs running rails falling lastTest rideAt goodSince highAt straps alive down} :
    s.Keeps m i false { t with
      now := now, bench := bench, tables := tables, time := time, clock := clock, tally := tally, start := start, side := side
      lane := lane, fmt := fmt, parser := parser, obs := obs, sieve := sieve, cellar := cellar, front := front, loom := loom
      ledger := ledger, beam := beam, tiles := tiles, gran := gran, move := move, snap := snap
      bell := { t.bell with
        cfg := cfg, stat := stat, events := events, event := event, curve := curve, curveNext := curveNext, seqs := seqs
        running := running, rails := rails, falling := falling, lastTest := lastTest, rideAt := rideAt, goodSince := goodSince
        highAt := highAt, straps := straps, alive := alive, down := down } } :=
  ⟨h.adds.trans (.aside rfl rfl rfl rfl), h.mem, h.islands, fun on => absurd on (by decide)⟩

/-- Any change of the Bellows. -/
theorem bellows (h : s.Keeps m false false t) {x : BellowsBlock} : s.Keeps m false false { t with bell := x } :=
  ⟨h.adds.trans (.aside rfl rfl rfl rfl), h.mem, fun on => absurd on (by decide), fun on => absurd on (by decide)⟩

theorem rails (h : s.Keeps m i p t) {x : BitVec 12} : s.Keeps m i p { t with bell := { t.bell with rails := x } } :=
  ⟨h.adds.trans (.aside rfl rfl rfl rfl), h.mem, h.islands, fun on => (h.bell on).trans rfl⟩

theorem onIsland (h : s.Keeps m false p t) {k : IslandId} {f : Island → Island} : s.Keeps m false p (t.onIsland k f) :=
  ⟨h.adds.trans (.aside rfl rfl rfl rfl), h.mem, fun on => absurd on (by decide), fun on => (h.bell on).trans rfl⟩

theorem bytes (h : s.Keeps false i p t) {x : Memory} (wf : Memory.wf t.mem = true → Memory.wf x = true) :
    s.Keeps false i p { t with mem := x } :=
  ⟨h.adds.trans (.onMem wf), fun on => absurd on (by decide), h.islands, h.bell⟩

theorem store (h : s.Keeps false i p t) {a : Nat} {bs : List Byte} : s.Keeps false i p { t with mem := t.mem.store a bs } :=
  h.bytes Memory.wf_store

theorem zero (h : s.Keeps false i p t) {a n : Nat} : s.Keeps false i p { t with mem := t.mem.zero a n } := h.bytes Memory.wf_zero

theorem move (h : s.Keeps false i p t) {l : List (Nat × Nat × Nat)} : s.Keeps false i p { t with mem := t.mem.move l } :=
  h.bytes Memory.wf_move

theorem emits (h : s.Keeps m i p t) {os : List Output} : s.Keeps m i p (t.emits os) :=
  ⟨h.adds.trans ⟨rfl, List.prefix_append .., Nat.le_refl _, id⟩, h.mem, h.islands, h.bell⟩

theorem emit (h : s.Keeps m i p t) {o : Output} : s.Keeps m i p (t.emit o) := h.emits

theorem drawn (h : s.Keeps m i p t) {n : Nat} : s.Keeps m i p (t.drawn n) :=
  ⟨h.adds.trans ⟨rfl, List.prefix_rfl, Nat.le_add_right .., id⟩, h.mem, h.islands, h.bell⟩

theorem ite {c : Prop} [Decidable c] (h : s.Keeps m i p t) (k : s.Keeps m i p u) : s.Keeps m i p (if c then t else u) := by
  split
  exacts [h, k]

theorem iteFst {α : Type} {c : Prop} [Decidable c] {a b : State × α} (h : s.Keeps m i p a.1) (k : s.Keeps m i p b.1) :
    s.Keeps m i p (if c then a else b).1 := by
  split
  exacts [h, k]

/-- What is carried beside a state says nothing of it. -/
theorem mkFst {α : Type} {x : α} (h : s.Keeps m i p t) : s.Keeps m i p (t, x).1 := h

theorem dite {c : Prop} [Decidable c] {f : c → State} {g : ¬c → State} (h : ∀ yes, s.Keeps m i p (f yes))
    (k : ∀ no, s.Keeps m i p (g no)) : s.Keeps m i p (if c : c then f c else g c) := by
  split
  exacts [h _, k _]

theorem foldl {β : Type} {f : State → β → State} {l : List β} (h : s.Keeps m i p t)
    (each : ∀ u b, s.Keeps m i p u → s.Keeps m i p (f u b)) : s.Keeps m i p (l.foldl f t) :=
  foldl_keeps (s.Keeps m i p) f each l t h

/-- A fold that carries something beside the state. -/
theorem foldlFst {α β : Type} {f : State × α → β → State × α} {l : List β} {r : State × α} (h : s.Keeps m i p r.1)
    (each : ∀ r b, s.Keeps m i p r.1 → s.Keeps m i p (f r b).1) : s.Keeps m i p (l.foldl f r).1 :=
  foldl_keeps (fun r => s.Keeps m i p r.1) f each l r h

theorem tallyOnly (h : s.Keeps m i p t) (only : t.TallyOnly u) : s.Keeps m i p u := by
  refine h.trans ⟨only.adds, ?_, ?_, ?_⟩ <;> intro <;> rw [only.1]
  rfl

theorem saysOnly (h : s.Keeps m i p t) (only : t.SaysOnly u) : s.Keeps m i p u := h.tallyOnly only.tally

theorem bus (h : s.Keeps false i p t) (k : t.Bus u) : s.Keeps false i p u := by
  refine h.trans ⟨k.adds, fun on => absurd on (by decide), ?_, ?_⟩ <;> intro <;> rw [k.frame]
  rfl

/-! ### Flags (R317 to R321, R388 to R391) -/

theorem raise (h : s.Keeps m i p t) {k : SourceId} {detail : Word} {sub : Option SubId} : s.Keeps m i p (t.raise k detail sub) :=
  h.tallyOnly (t.raise_only ..)

theorem sendDatagram (h : s.Keeps m i p t) {b : BenchId} {type cmd : Nat} {offset aux : Word} {payload : List Word} :
    s.Keeps m i p (t.sendDatagram b type cmd offset aux payload) := h.saysOnly (t.sendDatagram_says ..)

theorem notify (h : s.Keeps m i p t) {b : BenchId} : s.Keeps m i p (t.notify b) := h.saysOnly (t.notify_says ..)

theorem setIrq (h : s.Keeps m i p t) {b : BenchId} {n : Fin 6} : s.Keeps m i p (t.setIrq b n) := h.saysOnly (t.setIrq_says ..)

theorem clearIrq (h : s.Keeps m i p t) {b : BenchId} {ones : BitVec 6} : s.Keeps m i p (t.clearIrq b ones) :=
  h.saysOnly (t.clearIrq_says ..)

theorem writeIrqEnable (h : s.Keeps m i p t) {b : BenchId} {v : BitVec 6} : s.Keeps m i p (t.writeIrqEnable b v) :=
  h.saysOnly (t.writeIrqEnable_says ..)

theorem protoError (h : s.Keeps m i p t) {b : BenchId} {code : BitVec 8} : s.Keeps m i p (t.protoError b code) :=
  h.saysOnly (t.protoError_says ..)

theorem setMode (h : s.Keeps m i p t) {mode : BitVec 4} : s.Keeps m i p (t.setMode mode) := by
  obtain ⟨bell, -, -⟩ := t.setMode_bell mode
  refine h.trans ⟨t.setMode_adds mode, fun _ => (t.setMode_frame mode).1, fun _ => ?_, fun _ => ?_⟩ <;> rw [bell]
  rfl

end State.Keeps

/-- A next state has lost nothing of the state before it. -/
def State.Leads (s : State) : Host.Outcome State Fault Refusal → Prop
  | .next t => s.Keeps false false false t
  | _ => True

/-- What the state of a commit satisfies, where it has one. -/
def Commit.All (P : State → Prop) : Commit → Prop
  | .done t _ => P t
  | _ => True

theorem Commit.All.ite {P : State → Prop} {c : Prop} [Decidable c] {a b : Commit} (h : a.All P) (k : b.All P) :
    Commit.All P (if c then a else b) := by
  split
  exacts [h, k]

theorem Commit.All.dite {P : State → Prop} {c : Prop} [Decidable c] {f : c → Commit} {g : ¬c → Commit}
    (h : ∀ yes, (f yes).All P) (k : ∀ no, (g no).All P) : Commit.All P (if c : c then f c else g c) := by
  split
  exacts [h _, k _]

end Sys2Proof.Machine
end

section
/-! What the operations keep: the front of the module: flags, the Granary, the Exchange, lanes and formats.
Each lemma says of one operation that it loses nothing of what the state before it kept (`State.Keeps`), and which of memory,
the islands and the rest of the Bellows it may change. -/

namespace Sys2Proof.Machine

variable {s t u : State} {m i p : Bool}

namespace State.Keeps

/-! ### The Bellows' record -/

theorem onBellStat (h : s.Keeps m i false t) {f : BellStat → BellStat} : s.Keeps m i false (t.onBellStat f) := h.supplied

/-! ### Interrupts, Tally events and HOLD -/

theorem tallyIrqs (h : s.Keeps m i p t) {leases : BitVec 5} {sub : Option SubId} : s.Keeps m i p (t.tallyIrqs leases sub) :=
  h.foldl fun _ _ k => .ite k.setIrq k

theorem judge (h : s.Keeps m i p t) {b : SourceId} {y : TallySource} : s.Keeps m i p (t.judge b y) :=
  .ite h.data.tallyIrqs h.data

theorem clearTo (h : s.Keeps m i p t) {b : SourceId} {recovered : Bool} : s.Keeps m i p (t.clearTo b recovered) := by
  unfold State.clearTo
  extract_lets
  split
  · exact h.data
  · exact h.judge

/-! ### The Granary (chapter 10) -/

theorem requestHold (h : s.Keeps m i false t) : s.Keeps m i false t.requestHold := .ite h h.onBellStat.setMode

theorem granuleRead (h : s.Keeps false i p t) {g : Nat} : s.Keeps false i p (t.granuleRead g).1 :=
  h.bus (t.granuleRead_bus ..)

theorem granuleWrite (h : s.Keeps false i p t) {g off : Nat} {data : List Byte} :
    s.Keeps false i p (t.granuleWrite g off data).1 :=
  h.bus (t.granuleWrite_bus ..)

theorem granWrite (h : s.Keeps false i p t) {a : Nat} {data : List Byte} : s.Keeps false i p (t.granWrite a data).1 :=
  h.bus (t.granWrite_bus ..)

theorem granRead (h : s.Keeps false i p t) {a n : Nat} : s.Keeps false i p (t.granRead a n).1 :=
  h.bus (t.granRead_bus ..)

theorem granuleFold (h : s.Keeps false i p t) {g : Nat} {kind : FoldKind} {vs : List Cplx} :
    s.Keeps false i p (t.granuleFold g kind vs).1 :=
  .iteFst h.data (.ite h.data.store h.data)

theorem listRow (h : s.Keeps m i p t) {b : Nat} : s.Keeps m i p (t.listRow b) := .ite h h.data

theorem freezeChan (h : s.Keeps m i false t) {g : Nat} {src : GranSource} {op : BitVec 2} {rd : ReadOutcome} :
    s.Keeps m i false (t.freezeChan g src op rd) :=
  h.data.listRow.raise.requestHold

theorem verified (h :
    s.Keeps m i false t) {g : Nat} {src : GranSource} {op : BitVec 2} {rd : ReadOutcome} {after : State → State}
    (each : ∀ u, s.Keeps m i false u → s.Keeps m i false (after u)) : s.Keeps m i false (t.verified g src op rd after) :=
  .ite (each _ h) (.ite (State.Keeps.emit (State.Keeps.freezeChan h.data)) (each _ h.data))

theorem foldOne (h : s.Keeps false i p t) {g : Nat} {kind : FoldKind} {entry : Fin 4} {v : Cplx} :
    s.Keeps false i p (t.foldOne g kind entry v) := by
  unfold State.foldOne
  extract_lets _ _ _ _ new _ _ _ _ _ reached counted
  have kept : s.Keeps false i p counted := (State.Keeps.ite h.data h).data
  clear_value new
  cases new with
  | some e => exact kept.store
  | none => exact kept

theorem trainChan (h : s.Keeps m i p t) {c : ChanId} {failed : Bool} : s.Keeps m i p (t.trainChan c failed) :=
  .ite (.ite h.data.raise h.data) h

theorem zeroQuad (h : s.Keeps false i p t) {q : Fin 4} : s.Keeps false i p (t.zeroQuad q) :=
  h.bytes (SMap.wfFrom_filter _)

theorem zeroGranary (h : s.Keeps false i p t) : s.Keeps false i p t.zeroGranary := h.zero

/-! ### The Exchange (R358 to R369) -/

theorem freeBytes (h : s.Keeps m i p t) {n : Nat} : s.Keeps m i p (t.freeBytes n).1 := h.drawn

theorem countBurst (h : s.Keeps m i p t) {c : MasterId} {a bytes : Nat} {granted : Bool} {code : BitVec 2} :
    s.Keeps m i p (t.countBurst c a bytes granted code) :=
  .ite h.data h.data

theorem endBridged (h : s.Keeps m i p t) {b : Burst} {code : BitVec 2} : s.Keeps m i p (t.endBridged b code) :=
  (State.Keeps.iteFst h h.freeBytes).countBurst.emit

theorem drainBridge (h : s.Keeps m i p t) {b : Fin 2} : s.Keeps m i p (t.drainBridge b) :=
  h.data.foldl fun _ _ k => k.endBridged

theorem busRead (h : s.Keeps false i p t) {c : MasterId} {a n : Nat} : s.Keeps false i p (t.busRead c a n).1 :=
  h.bus (t.busRead_bus ..)

theorem busWrite (h : s.Keeps false i p t) {c : MasterId} {a : Nat} {data : List (Option Byte)} :
    s.Keeps false i p (t.busWrite c a data).1 :=
  h.bus (t.busWrite_bus ..)

theorem serveBridges (h : s.Keeps false i p t) : s.Keeps false i p t.serveBridges :=
  h.bus (t.serveBridges_bus ..)

theorem dropLock (h : s.Keeps false i p t) {c : MasterId} : s.Keeps false i p (t.dropLock c) :=
  h.bus (t.dropLock_bus ..)

theorem burst (h : s.Keeps false i p t) {v : Burst} : s.Keeps false i p (t.burst v) :=
  h.bus (t.burst_bus ..)

theorem bridgeTimeout (h : s.Keeps false i p t) {v : Burst} : s.Keeps false i p (t.bridgeTimeout v) :=
  h.bus (t.bridgeTimeout_bus ..)

theorem breakLock (h : s.Keeps false i p t) : s.Keeps false i p t.breakLock := by
  unfold State.breakLock
  split
  · exact h.data.dropLock.raise
  · exact h

theorem resetMaster (h : s.Keeps false i p t) {b : MasterId} {inFlight : Option (Burst × Nat)} :
    s.Keeps false i p (t.resetMaster b inFlight) := by
  unfold State.resetMaster
  extract_lets s1 s2 s3 s4 s5
  have ks1 : s.Keeps false i p s1 := by
    unfold s1
    split
    · exact .ite (.ite (h.foldl fun _ _ k => k.busWrite) ((h.foldl fun _ _ k => k.busWrite).data)) (.ite
      (h.foldl fun _ _ k => k.busWrite) h)
    · exact h
  have ks2 : s.Keeps false i p s2 := ks1.foldl fun _ _ k => .ite k.drainBridge k
  have ks3 : s.Keeps false i p s3 := ks2.data
  have ks4 : s.Keeps false i p s4 := ks3.dropLock
  have ks5 : s.Keeps false i p s5 := ks4.data
  exact ks5.raise

/-! ### Lanes (chapter 2) -/

theorem sendBlock (h : s.Keeps m i p t) {l : LaneId} {b : BitVec 64} : s.Keeps m i p (t.sendBlock l b) := h.emit

theorem sendLink (h : s.Keeps m i p t) {l : LaneId} {st : Nat} : s.Keeps m i p (t.sendLink l st) := h.sendBlock

theorem trainLane (h : s.Keeps m i p t) {l : LaneId} {scan : BitVec 4} : s.Keeps m i p (t.trainLane l scan) :=
  .ite h.data h.data

theorem startLane (h : s.Keeps m i p t) {l : LaneId} {warm : Bool} {scan : BitVec 4} :
    s.Keeps m i p (t.startLane l warm scan) :=
  .ite h.data h.data

theorem startOctet (h : s.Keeps m i p t) {o : OctetId} {warm : Bool} {scan : BitVec 4} :
    s.Keeps m i p (t.startOctet o warm scan) :=
  h.foldl fun _ _ k => k.startLane

theorem trainOctet (h : s.Keeps m i p t) {o : OctetId} : s.Keeps m i p (t.trainOctet o) := h.foldl fun _ _ k => k.trainLane

theorem offOctet (h : s.Keeps m i p t) {o : OctetId} {scan : BitVec 4} : s.Keeps m i p (t.offOctet o scan) :=
  h.foldl fun _ _ k => k.data

theorem retrainLane (h : s.Keeps m i p t) {l : LaneId} : s.Keeps m i p (t.retrainLane l) := h.data.sendLink.raise

theorem faultLane (h : s.Keeps m i p t) {l : LaneId} : s.Keeps m i p (t.faultLane l) := h.data.raise

theorem replayRequest (h : s.Keeps m i p t) {l : LaneId} : s.Keeps m i p (t.replayRequest l) := .ite h.data.retrainLane h.data

theorem sendAck (h : s.Keeps m i p t) {l : LaneId} {seq : BitVec 12} : s.Keeps m i p (t.sendAck l seq) := h.data.sendBlock

theorem sendNak (h : s.Keeps m i p t) {l : LaneId} : s.Keeps m i p (t.sendNak l) := h.data.sendBlock.replayRequest

theorem nakOnce (h : s.Keeps m i p t) {l : LaneId} : s.Keeps m i p (t.nakOnce l) := .ite h h.sendNak

theorem badFrame (h : s.Keeps m i p t) {l : LaneId} : s.Keeps m i p (t.badFrame l) := .ite h.data.retrainLane h.data

theorem deliver (h : s.Keeps m i p t) {l : LaneId} {bytes : List Byte} {udp : Bool} : s.Keeps m i p (t.deliver l bytes udp) :=
  .ite h h.data

theorem frameEnded (h : s.Keeps m i p t) {l : LaneId} {f : EndedFrame} : s.Keeps m i p (t.frameEnded l f) := by
  unfold State.frameEnded
  extract_lets _ s1 _ t2
  have ks1 : s.Keeps m i p s1 := h.data
  have kt2 : s.Keeps m i p t2 := ks1.data
  split
  · exact ks1.data.nakOnce.badFrame
  · exact ks1.data.nakOnce.badFrame
  · exact .ite kt2.sendAck.deliver (.ite ks1.data.sendAck ks1.nakOnce)

theorem settleFrame (h : s.Keeps m i p t) {l : LaneId} : s.Keeps m i p (t.settleFrame l) := by
  unfold State.settleFrame
  split
  · exact h.frameEnded
  · exact h

theorem syncLane (h : s.Keeps m i p t) {l : LaneId} : s.Keeps m i p (t.syncLane l) := h.settleFrame.data.sendLink

theorem fillGapSeen (h : s.Keeps m i p t) {l : LaneId} : s.Keeps m i p (t.fillGapSeen l) := h.data.raise

theorem sendFrame (h : s.Keeps m i p t) {l : LaneId} {f : TxFrame} : s.Keeps m i p (t.sendFrame l f) := h.emit

theorem replay (h : s.Keeps m i p t) {l : LaneId} : s.Keeps m i p (t.replay l) := (h.foldl fun _ _ k => k.sendFrame).data

theorem release (h : s.Keeps m i p t) {l : LaneId} {seq : BitVec 12} : s.Keeps m i p (t.release l seq) := .ite h.data h

theorem gotAck (h : s.Keeps m i p t) {l : LaneId} {b : BitVec 64} : s.Keeps m i p (t.gotAck l b) := h.release

theorem gotNak (h : s.Keeps m i p t) {l : LaneId} {b : BitVec 64} : s.Keeps m i p (t.gotNak l b) :=
  .ite h.release.replay.replayRequest h.release

theorem upLane (h : s.Keeps m i p t) {l : LaneId} {next : BitVec 12} : s.Keeps m i p (t.upLane l next) := h.data.sendLink.replay

theorem gotLink (h : s.Keeps m i p t) {l : LaneId} {b : BitVec 64} : s.Keeps m i p (t.gotLink l b) := by
  unfold State.gotLink
  extract_lets _ _ _ _ _ s1 _ s2 s3
  have ks1 : s.Keeps m i p s1 := h.data
  have ks2 : s.Keeps m i p s2 := .ite ks1.data ks1
  have ks3 : s.Keeps m i p s3 := ks2.data
  exact .ite (.ite (.ite ks2.upLane ks2) (.ite ks3 ks3.data.raise)) (.ite ks1.retrainLane ks1)

theorem gotTrainReq (h : s.Keeps m i p t) {l : LaneId} {b : BitVec 64} : s.Keeps m i p (t.gotTrainReq l b) := by
  unfold State.gotTrainReq
  extract_lets _ _ _ _ _ _ s1 s2 s3
  have ks1 : s.Keeps m i p s1 := .ite h (.ite h.data h.data)
  have ks2 : s.Keeps m i p s2 := ks1.sendBlock
  have ks3 : s.Keeps m i p s3 := .ite ks2.data ks2
  exact .ite h (.ite ks3.syncLane ks3)

theorem sendReq (h : s.Keeps m i p t) {l : LaneId} {mk : BitVec 8 → BitVec 64} {next : Search} :
    s.Keeps m i p (t.sendReq l mk next) :=
  h.data.sendBlock

theorem searchDone (h : s.Keeps m i p t) {l : LaneId} {metric : BitVec 16} : s.Keeps m i p (t.searchDone l metric) :=
  .ite h.data.sendBlock.syncLane h.data.sendBlock

theorem searchNext (h : s.Keeps m i p t) {l : LaneId} {tap : Fin 3} {inc : Bool} {round : Nat} {improved : Bool}
    {metric : BitVec 16} :
    s.Keeps m i p (t.searchNext l tap inc round improved metric) :=
  .ite h.sendReq (.dite (fun _ => h.sendReq) fun _ => .ite h.searchDone h.sendReq)

theorem enterTrain (h : s.Keeps m i p t) {l : LaneId} : s.Keeps m i p (t.enterTrain l) := h.data.sendLink.sendReq

theorem gotTrainSts (h : s.Keeps m i p t) {l : LaneId} {b : BitVec 64} {metric : BitVec 16} :
    s.Keeps m i p (t.gotTrainSts l b metric) := by
  unfold State.gotTrainSts
  extract_lets _ s1
  have ks1 : s.Keeps m i p s1 := h.data
  split
  · exact h
  · split
    · split
      · exact ks1.sendReq
      · exact .ite ks1.searchDone ks1.sendReq
    · exact .ite (.ite ks1.searchNext ks1.sendReq) ks1.searchNext
    · exact ks1.searchNext
    · exact ks1
    · exact ks1

theorem breakFrame (h : s.Keeps m i p t) {l : LaneId} : s.Keeps m i p (t.breakFrame l) := by
  unfold State.breakFrame
  split
  · exact h.data
  · exact h

theorem stsBlockSeen (h : s.Keeps m i p t) {l : LaneId} {b : BitVec 64} : s.Keeps m i p (t.stsBlockSeen l b) :=
  .ite h.drawn.gotTrainSts h

theorem blockOutside (h : s.Keeps m i p t) {l : LaneId} {hdr : BitVec 2} {b : BitVec 64} :
    s.Keeps m i p (t.blockOutside l hdr b) := by
  unfold State.blockOutside
  split
  · exact h.data
  · split
    · split
      · exact h.data
      · exact h
      · exact h
      · exact h
      · exact h.gotAck
      · exact h.gotNak
      · exact h.gotLink
      · exact h.gotTrainReq
      · exact h.stsBlockSeen
      · exact h.data
    · exact h

theorem framer (h : s.Keeps m i p t) {l : LaneId} {hdr : BitVec 2} {b : BitVec 64} : s.Keeps m i p (t.framer l hdr b) := by
  unfold State.framer
  extract_lets s1 s2
  have ks1 : s.Keeps m i p s1 := h.settleFrame
  have ks2 : s.Keeps m i p s2 := ks1.breakFrame.settleFrame
  split
  · exact ks1.blockOutside
  · exact .ite ks1.data (.ite ks1.data ks2.blockOutside)

theorem readBlocks {l : LaneId} {n : Nat} (h : s.Keeps m i p t) : s.Keeps m i p (State.readBlocks l n t) := by
  induction n generalizing t with
  | zero => exact h
  | succ n ih =>
    unfold State.readBlocks
    split
    · exact h
    · exact ih (State.Keeps.data h).framer

theorem writeElastic (h : s.Keeps m i p t) {l : LaneId} {hdr : BitVec 2} {b : BitVec 64} :
    s.Keeps m i p (t.writeElastic l hdr b) :=
  .ite h (.ite h.data h.data.breakFrame.raise)

theorem gainLock (h : s.Keeps m i p t) {l : LaneId} : s.Keeps m i p (t.gainLock l) :=
  .ite (.ite h.data h.data.enterTrain) (.ite h.data.syncLane h.data)

theorem gotPlain (h : s.Keeps m i p t) {l : LaneId} {hdr : BitVec 2} {d : BitVec 64} {reads : Nat} :
    s.Keeps m i p (t.gotPlain l hdr d reads) := by
  unfold State.gotPlain
  extract_lets s1 s2 _ _ _ s3 _ _ s4
  have ks1 : s.Keeps m i p s1 := .ite h.fillGapSeen h
  have ks2 : s.Keeps m i p s2 := ks1.data
  have ks3 : s.Keeps m i p s3 := .ite ks2 ks2.data
  have ks4 : s.Keeps m i p s4 := ks3.data
  exact .ite (.ite ks3.data ks4.writeElastic.readBlocks) (.ite (.ite ks2.gainLock ks2.data) ks2.data)

theorem gotBlock (h : s.Keeps m i p t) {l : LaneId} {hdr : BitVec 2} {payload : BitVec 64} {reads : Nat} :
    s.Keeps m i p (t.gotBlock l hdr payload reads) :=
  h.data.gotPlain

theorem gotLooped (h : s.Keeps m i p t) {l : LaneId} {reads : Nat} : s.Keeps m i p (t.gotLooped l reads) := by
  unfold State.gotLooped
  split
  · exact h.data.gotPlain
  · exact h.gotPlain

theorem ethDiscard (h : s.Keeps m i p t) {l : LaneId} : s.Keeps m i p (t.ethDiscard l) := .ite h.data h

theorem ethFrame (h : s.Keeps m i p t) {l : LaneId} {frame : List Byte} : s.Keeps m i p (t.ethFrame l frame) :=
  .ite h.data.ethDiscard (.ite h.data.ethDiscard (.ite h.data h.data.ethDiscard.deliver))

theorem askIsland (h : s.Keeps m false p t) {b : IslandId} {on : Bool} : s.Keeps m false p (t.askIsland b on) := h.onIsland

theorem turnLane (h : s.Keeps m i p t) {c : OctetChange} {l : LaneId} : s.Keeps m i p (t.turnLane c l) := h.settleFrame.data

theorem applyOctet (h : s.Keeps m false p t) {o : OctetId} {c : OctetChange} : s.Keeps m false p (t.applyOctet o c) :=
  .ite ((h.foldl fun _ _ k => k.turnLane).data.offOctet.askIsland.startOctet)
    ((h.foldl fun _ _ k => k.turnLane).data.offOctet.askIsland)

theorem octetsPast (h : s.Keeps m false p t) {b : SubId} : s.Keeps m false p (t.octetsPast b) := by
  unfold State.octetsPast
  refine h.foldl fun u b k => ?_
  split
  · exact .ite k.applyOctet k.data
  · exact k

/-! ### Formats and egress (chapter 3) -/

theorem endStall (h : s.Keeps m i p t) {n : Fin 64} : s.Keeps m i p (t.endStall n) := by
  unfold State.endStall
  split
  · exact h
  · split
    · exact h.data
    · exact h

theorem stageBlocked {n : Nat} (h : s.Keeps m i p t) : s.Keeps m i p (State.stageBlocked n t) := by
  induction n generalizing t with
  | zero => exact h
  | succ n ih =>
    unfold State.stageBlocked
    split
    · exact h
    · exact .ite h (ih (.endStall (.ite h.data h.data)))

theorem unblock (h : s.Keeps m i p t) : s.Keeps m i p t.unblock := h.stageBlocked

theorem buildPacket (h : s.Keeps m i p t) {n : Fin 64} {f : FmtOut} {kind flags fine beam : Nat} {kindFields : List Byte}
    {t16 : Nat} {payload : List Byte} :
    s.Keeps m i p (t.buildPacket n f kind flags fine beam kindFields t16 payload) :=
  .ite h.data (.ite h.data (.ite h.data h.data))

theorem metadata (h : s.Keeps m i p t) {b : SubId} {subtype t16 : Nat} {payload : List Byte} :
    s.Keeps m i p (t.metadata b subtype t16 payload) :=
  h.foldl fun _ _ k => k.buildPacket

theorem event (h : s.Keeps m i p t) {b : SubId} {code span detail : Nat} : s.Keeps m i p (t.event b code span detail) :=
  h.metadata

theorem dropQueue (h : s.Keeps m i p t) {l : LaneId} : s.Keeps m i p (t.dropQueue l) :=
  (h.data.foldl fun _ _ k => k.data).unblock

theorem sendNext (h : s.Keeps m i p t) {l : LaneId} : s.Keeps m i p (t.sendNext l) := by
  unfold State.sendNext
  split
  · exact h
  · exact .ite h.dropQueue (.ite (.ite h h.data.emit.data.unblock) (.ite h.data.unblock (.ite h h.data.sendFrame.data.unblock)))

/-! ### Ingress (chapter 3) -/

theorem fileSamples (h : s.Keeps m i p t) {l : LaneId} {b : Parsed} : s.Keeps m i p (t.fileSamples l b) := by
  unfold State.fileSamples
  extract_lets _ _ _ _ _ _ _ _ _ _ _ _ t1 t2
  have kt1 : s.Keeps m i p t1 := h.data
  have kt2 : s.Keeps m i p t2 := kt1.data
  split
  · exact h.data
  · split
    · exact h.data
    · split
      · exact h.data
      · exact .ite h.data (.ite h.data (.ite h.data kt2.data))

theorem relay (h : s.Keeps m i p t) {l : LaneId} {b : Parsed} : s.Keeps m i p (t.relay l b) := h.metadata

theorem parserBeat (h : s.Keeps m i p t) {b : SubId} : s.Keeps m i p (t.parserBeat b) :=
  .ite ((State.Keeps.ite h.data h.data.raise).data) h

end State.Keeps

end Sys2Proof.Machine
end

section
/-! What the operations keep: the stores and the front end.
Each lemma says of one operation that it loses nothing of what the state before it kept (`State.Keeps`), and which of memory,
the islands and the rest of the Bellows it may change. -/

namespace Sys2Proof.Machine

variable {s t u : State} {m i p : Bool}

namespace State.Keeps

/-! ### The Cellar (chapter 6) -/

theorem subEvent (h : s.Keeps m i p t) {b : SubId} {code span detail : Nat} : s.Keeps m i p (t.subEvent b code span detail) :=
  h.event.data

theorem freezeBay (h : s.Keeps m i p t) {b : SubId} {span c : Nat} : s.Keeps m i p (t.freezeBay b span c) := by
  unfold State.freezeBay
  split
  · exact h.data
  · exact h

theorem takeBay (h : s.Keeps m i p t) {b : SubId} {span c : Nat} : s.Keeps m i p (t.takeBay b span c) :=
  h.data.freezeBay

theorem assign (h : s.Keeps m i p t) {b : SubId} {c : Nat} : s.Keeps m i p (t.assign b c) := h.takeBay.data

theorem dropGranules (h : s.Keeps m i p t) {b : SubId} {span : Nat} : s.Keeps m i p (t.dropGranules b span) :=
  h.foldl fun _ _ k => k.data

theorem condemn (h : s.Keeps m i p t) {b : SubId} {old : Nat} : s.Keeps m i p (t.condemn b old) :=
  h.dropGranules.data.raise.subEvent

theorem openSpan (h : s.Keeps m i p t) {b : SubId} : s.Keeps m i p (t.openSpan b) := by
  unfold State.openSpan
  extract_lets
  split
  · exact h
  · exact h
  · split
    · exact h.assign
    · exact .ite h.assign (.ite h.takeBay.data h.condemn.assign)

theorem openTo {j : SubId} {span n : Nat} (h : s.Keeps m i p t) : s.Keeps m i p (State.openTo j span n t) := by
  induction n generalizing t with
  | zero => exact h
  | succ n ih => exact .ite (ih h.openSpan) h

theorem putGranule (h : s.Keeps false i p t) {b : SubId} {span bay index : Nat} {bytes : List Byte} :
    s.Keeps false i p (t.putGranule b span bay index bytes) :=
  h.granWrite.data

theorem writeOut (h : s.Keeps false i p t) {sl : SliceId} {g : OpenGran} : s.Keeps false i p (t.writeOut sl g) := by
  unfold State.writeOut
  extract_lets t1
  have kt1 : s.Keeps false i p t1 := h.openTo
  split
  · exact kt1.putGranule.data
  · exact kt1

theorem flushFull (h : s.Keeps false i p t) {b : SubId} : s.Keeps false i p (t.flushFull b) :=
  h.foldl fun _ _ k => k.foldl fun _ _ k => k.writeOut

theorem combineWrite (h : s.Keeps false i p t) {sl : SliceId} {mine : OpenGran → Bool} {b : SubId} {span index n off : Nat}
    {data : List Byte} :
    s.Keeps false i p (t.combineWrite sl mine b span index n off data) := by
  unfold State.combineWrite
  extract_lets u1 t2 t3
  have ku1 : s.Keeps false i p u1 := by
    unfold u1
    split
    · split
      · exact h.writeOut
      · exact h
    · exact h
  have kt2 : s.Keeps false i p t2 := .ite h ku1.data
  have kt3 : s.Keeps false i p t3 := kt2.data
  split
  · exact .ite kt3.writeOut kt3
  · exact kt3

theorem cellarWrite (h : s.Keeps false i p t) {b : SubId} {input f n : Nat} {data : List Byte} :
    s.Keeps false i p (t.cellarWrite b input f n data) := by
  unfold State.cellarWrite
  extract_lets
  split
  · exact h.data
  · split
    · exact .ite h.granWrite.data h.combineWrite
    · exact h.combineWrite

theorem noteFilled (h : s.Keeps m i p t) {b : SubId} : s.Keeps m i p (t.noteFilled b) := .ite h h.data

theorem closeSpan (h : s.Keeps false i p t) {b : SubId} {o : OpenSpan} : s.Keeps false i p (t.closeSpan b o) :=
  (h.foldl fun _ _ k => k.putGranule).dropGranules.data

theorem captureSpan (h : s.Keeps m i p t) {b : SubId} {span : Nat} : s.Keeps m i p (t.captureSpan b span) := by
  unfold State.captureSpan
  split
  · exact h
  · exact .ite h.data.subEvent h.data

theorem makeAvailable (h : s.Keeps false i p t) {b : SubId} {span : Nat} : s.Keeps false i p (t.makeAvailable b span) := by
  unfold State.makeAvailable
  extract_lets t1 _ t2
  have kt1 : s.Keeps false i p t1 := by
    unfold t1
    split
    · exact h.closeSpan
    · exact h
  have kt2 : s.Keeps false i p t2 := kt1.data
  exact kt2.captureSpan.data.noteFilled

theorem startCapture (h : s.Keeps m i p t) {b : SubId} {t16 first c : Nat} : s.Keeps m i p (t.startCapture b t16 first c) := by
  unfold State.startCapture
  extract_lets _ _ _ _ t1
  have kt1 : s.Keeps m i p t1 := h.data
  refine kt1.foldl fun u b k => ?_
  extract_lets u2
  have ku2 : s.Keeps m i p u2 := by
    unfold u2
    split
    · exact k.freezeBay
    · exact k
  exact .ite ku2.captureSpan ku2

theorem releaseCapture (h : s.Keeps m i p t) : s.Keeps m i p t.releaseCapture := h.data.foldl fun _ _ k => k.data

theorem cutCapture (h : s.Keeps m i p t) {b : SubId} {announce : Bool} : s.Keeps m i p (t.cutCapture b announce) :=
  .ite (.ite h.data.subEvent h.data) h

/-! ### The Shelf (chapter 6) -/

theorem fillBuffers (h : s.Keeps m i p t) {b : SubId} : s.Keeps m i p (t.fillBuffers b) := by
  unfold State.fillBuffers
  extract_lets
  split
  · split
    · exact h
    · split
      · exact h.data
      · exact h
  · exact h

theorem releaseBuffers (h : s.Keeps m i p t) {b : SubId} : s.Keeps m i p (t.releaseBuffers b) := by
  unfold State.releaseBuffers
  extract_lets t1
  have kt1 : s.Keeps m i p t1 := by
    unfold t1
    refine h.foldl fun u b k => ?_
    split
    · exact .ite k.data k
    · exact k
  exact kt1.fillBuffers

theorem showFine (h : s.Keeps m i p t) {b : SubId} : s.Keeps m i p (t.showFine b) := by
  unfold State.showFine
  extract_lets
  split
  · exact h
  · exact h.data

theorem noteFinished (h : s.Keeps m i p t) {b : SubId} : s.Keeps m i p (t.noteFinished b) := by
  unfold State.noteFinished
  extract_lets _ t1
  have kt1 : s.Keeps m i p t1 := h.data
  split
  · exact .ite kt1.data h
  · exact h

theorem settled (h : s.Keeps m i p t) {b : SubId} : s.Keeps m i p (t.settled b) := h.releaseBuffers.showFine.noteFinished

theorem countValid (h : s.Keeps m i p t) {b : SubId} {n : Fin 2} {c : Nat} : s.Keeps m i p (t.countValid b n c) := by
  unfold State.countValid
  split
  exact .ite h h.data

theorem markFlags (h : s.Keeps m i p t) {b : SubId} {n : Fin 2} {c : Nat} : s.Keeps m i p (t.markFlags b n c) := by
  unfold State.markFlags
  split
  · exact h
  · split
    exact h.data

theorem endShelfWait (h : s.Keeps m i p t) {b : SubId} : s.Keeps m i p (t.endShelfWait b) := h.data

theorem setBuffer (h : s.Keeps m i p t) {b : SubId} {n : Fin 2} {g : Option Staging} :
    s.Keeps m i p (t.setBuffer b n g) := h.data

/-- The jobs of a unit that is staged join their queues, its odd codes counted (R163). -/
theorem joinUnit (h : s.Keeps m i p t) {b : SubId} {n : Fin 2} {k : Nat} {f : LoomStat → LoomStat} {g : LoomSub → LoomSub} :
    s.Keeps m i p ((((t.countValid b n k).markFlags b n k).onLoomStat b f).onLoom b g) :=
  h.countValid.markFlags.withLoomStat.withLoom

-- the read stands for any operation here: the kernel would otherwise run it
theorem stageUnit (h : s.Keeps false i p t) {b : SubId} {n : Fin 2} {g : Staging} : s.Keeps false i p (t.stageUnit b n g) := by
  unfold State.stageUnit
  obtain ⟨read, hread⟩ : ∃ read, @State.granRead = read := ⟨_, rfl⟩
  have reads (a n : Nat) : s.Keeps false i p (read t a n).1 := hread ▸ h.granRead
  rw [hread]
  clear hread
  split
  dsimp only
  split
  · exact h
  · split
    · exact reads _ _
    · exact .ite (reads _ _).store.setBuffer.endShelfWait (reads _ _).store.setBuffer.endShelfWait.joinUnit

theorem abandonUnits (h : s.Keeps m i p t) {b : SubId} {mine : Nat → Nat → Bool} : s.Keeps m i p (t.abandonUnits b mine).1 := by
  unfold State.abandonUnits
  refine h.foldlFst fun r b k => ?_
  extract_lets
  split
  exact .ite k.data k.data

theorem clearStore (h : s.Keeps m i p t) {b : SubId} {span c : Nat} : s.Keeps m i p (t.clearStore b span c) := by
  unfold State.clearStore
  split
  exact h.data

theorem restage (h : s.Keeps m i p t) {j : SubId} {n : Fin 2} {g : Staging} : s.Keeps m i p (t.restage j n g) := by
  unfold State.restage
  have unset : s.Keeps m i p (t.setBuffer j n (some { g with staged := false, again := true })) := h.data
  have kept : s.Keeps m i p ((t.setBuffer j n (some { g with staged := false, again := true })).abandonUnits j
    fun span u => span == g.span && u == g.unit).1 := unset.abandonUnits
  dsimp only
  exact kept.withLoom.withLoom.clearStore.withCellStat

theorem loseJob (h : s.Keeps m i p t) {b : SubId} {j : Job} {held : Bool} : s.Keeps m i p (t.loseJob b j held) := h.data.raise

theorem loseBeam (h : s.Keeps m i p t) {b : SubId} {j : BeamJob} : s.Keeps m i p (t.loseBeam b j) := h.data.raise

theorem markLost (h : s.Keeps m i p t) {b : SubId} {span f c : Nat} : s.Keeps m i p (t.markLost b span f c) :=
  .ite h h.data

theorem loseUnit (h : s.Keeps m i p t) {b : SubId} {g : Staging} : s.Keeps m i p (t.loseUnit b g) := by
  unfold State.loseUnit
  extract_lets _ _ _ _ _ t1 t2
  have kt1 : s.Keeps m i p t1 := h.abandonUnits.data
  have kt2 : s.Keeps m i p t2 := .ite ((kt1.foldl fun _ _ k => k.loseJob).foldl fun _ _ k => k.loseBeam) kt1
  split
  exact kt2.data.clearStore.markLost.data

theorem giveShelf (h : s.Keeps m i p t) {b : SubId} {c : Bool × Nat × Nat} : s.Keeps m i p (t.giveShelf b c) :=
  .ite h.data h.data

theorem fillAll (h : s.Keeps m i p t) : s.Keeps m i p t.fillAll := h.foldl fun _ _ k => k.fillBuffers

theorem applyShelf (h : s.Keeps m i p t) {b : SubId} : s.Keeps m i p (t.applyShelf b) := by
  unfold State.applyShelf
  split
  · exact h.data.fillAll
  · exact h

theorem layShelf (h : s.Keeps m i p t) : s.Keeps m i p t.layShelf := h.foldl fun _ _ k => k.giveShelf

/-! ### The Ledger (chapter 9) -/

theorem commitDump (h : s.Keeps false i p t) {j : SubId} {f q : Nat} {entries : List Cplx} :
    s.Keeps false i p (t.commitDump j f q entries) :=
  (h.bytes fun wf => foldl_keeps (fun x => Memory.wf x = true) _ (fun _ _ wf => Memory.wf_store wf) _ _ wf).data

theorem releaseSet (h : s.Keeps false i p t) {b : SubId} {span f : Nat} : s.Keeps false i p (t.releaseSet b span f) :=
  .ite h.zero.data h

theorem clearSets (h : s.Keeps false i p t) {b : SubId} : s.Keeps false i p (t.clearSets b) := h.zero.data

theorem foldTile (h : s.Keeps false i p t) {b : SubId} {f c : Nat} {kind : FoldKind} {set : List Cplx} :
    s.Keeps false i p (t.foldTile b f c kind set).1 :=
  h.foldlFst fun _ _ k => k.granuleFold

theorem foldOut (h : s.Keeps false i p t) {b : SubId} {f c : Nat} {kind : FoldKind} {set : List Cplx} :
    s.Keeps false i p (t.foldOut b f c kind set).1 := by
  unfold State.foldOut
  cases kind with
  | direct => exact h
  | store => exact h.foldTile.mkFst
  | add => exact h.foldTile.mkFst
  | take => exact h.foldTile.mkFst
  | swap => exact h.foldTile
  | flush => exact h.foldTile

theorem visPackets (h : s.Keeps m i p t) {d : SubId} {q : Integ} {g : Hold} {f a b : Nat} {kept : List Cplx}
    {satL satC : Bool} {e : Fin 64 × FmtOut} :
    s.Keeps m i p (t.visPackets d q g f a b kept satL satC e) :=
  h.foldl fun _ _ k => k.buildPacket

theorem outputTile (h : s.Keeps m i p t) {b : SubId} {q : Integ} {c : Hold} {f d : Nat} {pos : Nat × Nat} {vs : List Cplx} :
    s.Keeps m i p (t.outputTile b q c f d pos vs) := by
  unfold State.outputTile
  split
  · exact h.data
  · extract_lets _ _ _ _ _ t1 t2 t3 t4
    have kt1 : s.Keeps m i p t1 := h.foldl fun _ _ k => k.visPackets
    have kt2 : s.Keeps m i p t2 := kt1.data
    have kt3 : s.Keeps m i p t3 := kt2.data
    have kt4 : s.Keeps m i p t4 := .ite kt3.raise kt3
    exact .ite kt4.raise kt4

theorem foldChannel (h : s.Keeps false i p t) {b : SubId} {span f : Nat} {kind : FoldKind} {out : Option (Nat × Hold)} :
    s.Keeps false i p (t.foldChannel b span f kind out) := by
  unfold State.foldChannel
  extract_lets
  refine h.foldl fun u b k => ?_
  extract_lets _ r1
  have kr1 : s.Keeps false i p r1.1 := k.foldOut
  split
  · split
    · exact kr1.outputTile
    · exact kr1
  · exact kr1

theorem flushTo (h : s.Keeps false i p t) {b : SubId} {number upTo : Nat} : s.Keeps false i p (t.flushTo b number upTo) := by
  unfold State.flushTo
  split
  · exact h
  · refine h.foldl fun u b k => ?_
    extract_lets
    split
    · exact k.foldChannel.data
    · exact k.data

theorem finishInteg (h : s.Keeps m i p t) {b : SubId} {number count : Nat} : s.Keeps m i p (t.finishInteg b number count) := by
  unfold State.finishInteg
  split
  · exact h
  · exact h.metadata.data

theorem outDone (h : s.Keeps m i p t) {b : SubId} {n f : Nat} {held : Bool} : s.Keeps m i p (t.outDone b n f held) := h.data

theorem foldNext (h : s.Keeps false i false t) {j : SubId} {w : SpanFold} : s.Keeps false i false (t.foldNext j w) := by
  unfold State.foldNext
  split
  · exact h.releaseSet
  · dsimp only
    refine State.Keeps.releaseSet (State.Keeps.data ?_)
    split
    · exact h.flushTo.foldChannel.outDone
    · exact .ite h.flushTo.foldChannel.outDone h.foldChannel

theorem foldsEnd (h : s.Keeps false i p t) {b : SubId} {w : SpanFold} : s.Keeps false i p (t.foldsEnd b w) := by
  unfold State.foldsEnd
  extract_lets _ t1
  have kt1 : s.Keeps false i p t1 := by
    unfold t1
    split
    · exact h.flushTo.finishInteg
    · exact h
  split
  · split
    · exact kt1.flushTo.finishInteg
    · exact kt1
  · exact kt1

theorem flushStopped (h : s.Keeps false i p t) {b : SubId} : s.Keeps false i p (t.flushStopped b) :=
  .ite (h.foldl fun _ _ k => k.flushTo.finishInteg) h

theorem closeInteg (h : s.Keeps m i p t) {c : SubId} {b : Nat} : s.Keeps m i p (t.closeInteg c b) := by
  unfold State.closeInteg
  split
  · exact h
  · exact .ite h (.ite h.data h.data)

theorem ledgerBoundary (h : s.Keeps false i p t) {c : SubId} {b : Nat} : s.Keeps false i p (t.ledgerBoundary c b) := by
  unfold State.ledgerBoundary
  extract_lets _ _ _ t1 t2 t3
  have kt1 : s.Keeps false i p t1 := .ite h.subEvent h
  have kt2 : s.Keeps false i p t2 := .ite kt1.data kt1.data
  have kt3 : s.Keeps false i p t3 := .ite kt2.closeInteg kt2
  exact kt3.flushStopped.data

theorem startFolds (h : s.Keeps m i p t) {b : SubId} {span : Nat} : s.Keeps m i p (t.startFolds b span) := by
  unfold State.startFolds
  split
  exact h.data

theorem weightRecords (h : s.Keeps m i p t) {b : SubId} {span : Nat} : s.Keeps m i p (t.weightRecords b span) :=
  .ite h (h.foldl fun _ _ k => k.foldl fun _ _ k => k.foldl fun _ _ k => k.buildPacket)

/-! ### Beams and the turn (chapter 8) -/

theorem endSwitch (h : s.Keeps m i p t) {b : SubId} {span : Nat} : s.Keeps m i p (t.endSwitch b span) := .ite h.data h

theorem fetchWeights (h : s.Keeps false i p t) {b : SubId} {span g : Nat} : s.Keeps false i p (t.fetchWeights b span g).1 := by
  unfold State.fetchWeights
  refine .iteFst h ?_
  extract_lets both bytes r
  have read : s.Keeps false i p r.1 := by
    refine h.foldlFst fun r k kept => ?_
    dsimp only
    exact mkFst (.iteFst (granRead (granRead kept)) (mkFst (granRead kept)))
  exact .iteFst read.withBeam.mkFst read

theorem haltBeam (h : s.Keeps m i p t) {b : TileId} : s.Keeps m i p (t.haltBeam b).1 := by
  unfold State.haltBeam
  split
  · exact h
  · exact .iteFst h.data h.data

theorem markChunk (h : s.Keeps false i p t) {b : SubId} {span f c : Nat} : s.Keeps false i p (t.markChunk b span f c) := by
  generalize unfolded : @State.markChunk = f
  delta State.markChunk at unfolded
  subst unfolded
  exact State.Keeps.granWrite (h.foldl fun _ _ k => k.foldl fun _ _ k => k.granWrite)

theorem writeUnit (h : s.Keeps false i p t) {b : SubId} {c : Fin 2} {span d : Nat} :
    s.Keeps false i p (t.writeUnit b c span d) := by
  generalize unfolded : @State.writeUnit = f
  delta State.writeUnit at unfolded
  subst unfolded
  dsimp only
  refine State.Keeps.withBeam (State.Keeps.granWrite ?_)
  exact h.foldl fun _ _ k => k.foldl fun _ _ k => .ite k.granWrite k.granWrite.withBeamStat

theorem cursorPayload (h : s.Keeps false i p t) {b : SubId} {f : FmtOut} {c : Cursor} {d n : Nat} :
    s.Keeps false i p (t.cursorPayload b f c d n).1 := by
  unfold State.cursorPayload
  refine .iteFst ?_ h.mkFst
  extract_lets r bad
  have read : s.Keeps false i p r.1 := h.foldlFst fun _ _ k => k.foldlFst fun _ _ k => k.granRead.mkFst
  exact read.mkFst

theorem cursorPacket (h : s.Keeps false i p t) {b : SubId} {f : FmtOut} {c : Cursor} :
    s.Keeps false i p (t.cursorPacket b f c) := by
  unfold State.cursorPacket
  extract_lets _ _ _ _ _ r1
  have kr1 : s.Keeps false i p r1.1 := h.cursorPayload
  split
  · exact h
  · split
    · exact h.data
    · split
      · exact h
      · split
        · exact kr1
        · exact kr1.buildPacket.data

theorem cursorStep (h : s.Keeps false i p t) {b : SubId} {fmt : Fin 64} : s.Keeps false i p (t.cursorStep b fmt) := by
  unfold State.cursorStep
  split
  · exact h
  · split
    · split
      · exact h.cursorPacket
      · exact h
    · exact h

theorem skipPackets {j : SubId} {f : FmtOut} {upTo n : Nat} {c : Cursor} (h : s.Keeps m i p t) :
    s.Keeps m i p (State.skipPackets j f upTo n t c).1 := by
  induction n generalizing t c with
  | zero => exact h
  | succ n ih =>
    unfold State.skipPackets
    split
    · exact h
    · exact ih (.ite h h.data)

theorem overrunTurn (h : s.Keeps m i p t) {j : SubId} {span : Nat} : s.Keeps m i p (t.overrunTurn j span) := by
  refine h.foldl fun u c k => ?_
  split
  · exact k
  · exact .ite (State.Keeps.raise (State.Keeps.skipPackets k).data) k

theorem claimHalf (h : s.Keeps m i p t) {b : SubId} {span : Nat} : s.Keeps m i p (t.claimHalf b span) :=
  .ite h.overrunTurn.data h

theorem turnSpan (h : s.Keeps false i p t) {b : SubId} : s.Keeps false i p (t.turnSpan b) := by
  unfold State.turnSpan
  split
  · exact h
  · exact .ite h ((h.claimHalf.foldl fun _ _ k => .ite k k.markChunk).data.foldl fun _ _ k => k.data)

theorem unitStep (h : s.Keeps false i p t) {b : SubId} : s.Keeps false i p (t.unitStep b) := by
  unfold State.unitStep
  split
  · exact (State.Keeps.ite h h.claimHalf).writeUnit.turnSpan
  · exact h

/-! ### The Assay -/

theorem assayBin (h : s.Keeps false i p t) {a : AssayIn} {b : Nat} : s.Keeps false i p (t.assayBin a b) := by
  unfold State.assayBin
  extract_lets
  split
  · exact h.cellarWrite
  · split
    · split
      exact h.data.cellarWrite

theorem completeLevels (h : s.Keeps m i p t) {b : SubId} {span : Nat} : s.Keeps m i p (t.completeLevels b span) :=
  .ite h.data.raise h.data

theorem gainCommit (h : s.Keeps m i p t) {b : SubId} : s.Keeps m i p (t.gainCommit b).1 := .iteFst h (.iteFst h.data h.data)

/-! ### The Drayman (R370 to R376) -/

theorem drayError (h : s.Keeps m i p t) {c : DrayId} {code : BitVec 4} {a : Nat} : s.Keeps m i p (t.drayError c code a) :=
  h.data.raise

theorem drayRead (h : s.Keeps false i p t) {ps : List (Nat × Nat)} {down : optParam Bool false} :
    s.Keeps false i p (t.drayRead ps down).1 := by
  unfold State.drayRead
  extract_lets
  refine h.foldlFst fun r b k => ?_
  split
  · exact k
  · exact .iteFst k.busRead k.busRead

theorem drayWrite (h : s.Keeps false i p t) {ps : List (Nat × Nat)} {data : List Byte} {down : Bool} :
    s.Keeps false i p (t.drayWrite ps data down).1 := by
  unfold State.drayWrite
  extract_lets
  refine h.foldlFst fun r b k => ?_
  split
  · exact k
  · exact .iteFst k.busWrite k.busWrite

theorem beginMove (h : s.Keeps false i p t) {c : DrayId} {d : Descriptor} : s.Keeps false i p (t.beginMove c d) := by
  unfold State.beginMove
  extract_lets _ _ _ s1 r2 w3 t4
  have ks1 : s.Keeps false i p s1 := h.data
  have kr2 : s.Keeps false i p r2.1 := ks1.drayRead
  have kw3 : s.Keeps false i p w3.1 := kr2.drayWrite
  have kt4 : s.Keeps false i p t4 := kw3.data
  split
  · exact kt4.drayError
  · exact kt4.drayError
  · exact kt4

theorem startDescriptor (h : s.Keeps false i p t) {c : DrayId} : s.Keeps false i p (t.startDescriptor c) := by
  unfold State.startDescriptor
  extract_lets _ r1 _ _ s2
  have kr1 : s.Keeps false i p r1.1 := h.drayRead
  have ks2 : s.Keeps false i p s2 := kr1.data
  split
  · exact h.drayError
  · split
    · exact h.drayError
    · split
      · exact kr1.drayError
      · split
        · exact ks2.drayError
        · exact .ite ks2.data ks2.beginMove

theorem pulseLine (h : s.Keeps m i p t) {line : Fin 32} : s.Keeps m i p (t.pulseLine line) :=
  h.emit.foldl fun _ _ k => .ite k.data k

theorem timerTrigger (h : s.Keeps m i p t) {c : DrayId} : s.Keeps m i p (t.timerTrigger c) := .ite h.data h

theorem drayGo (h : s.Keeps m i p t) {c : DrayId} : s.Keeps m i p (t.drayGo c) := .ite h.data h

theorem resetDrayman (h : s.Keeps false i p t) {inFlight : Option (Burst × Nat)} :
    s.Keeps false i p (t.resetDrayman inFlight) :=
  h.resetMaster.foldl fun _ _ k => k.data.drayError

theorem masterReset (h : s.Keeps false i p t) {b : MasterId} {inFlight : Option (Burst × Nat)} :
    s.Keeps false i p (t.masterReset b inFlight) :=
  .ite h.resetDrayman h.resetMaster

/-! ### The Mill (chapter 5) -/

theorem millFault (h : s.Keeps m i p t) {e : EngineId} {code : Nat} : s.Keeps m i p (t.millFault e code) := h.data.raise

theorem millOutput (h : s.Keeps m i p t) {e : EngineId} {b : MillSlot} {c : Nat} : s.Keeps m i p (t.millOutput e b c) := by
  unfold State.millOutput
  split
  · exact .ite h h.data
  · exact h

theorem millStep (h : s.Keeps m i p t) {e : EngineId} {op : Nat} {run : Engine → Kernel → MillWord → (Nat → Nat) → MillRes} :
    s.Keeps m i p (t.millStep e op run) := by
  unfold State.millStep
  extract_lets
  split
  · exact h
  · extract_lets
    split
    · exact h
    · split
      · exact h.millFault
      · split
        · exact h
        · split
          · exact h.millFault
          · exact h.data
          · extract_lets _ t1
            have kt1 : s.Keeps m i p t1 := h.data.drawn
            split
            · exact kt1.millOutput
            · exact kt1

theorem takeEngines {j : SubId} {sl : SliceId} {k : Kernel} {n : Nat} (h : s.Keeps m i p t) :
    s.Keeps m i p (State.takeEngines j sl k n t) := by
  induction n generalizing t with
  | zero => exact h
  | succ n ih =>
    unfold State.takeEngines
    split
    · exact ih h.data
    · exact h

theorem recoverEngine (h : s.Keeps m i p t) {b : SubId} {e : EngineId} : s.Keeps m i p (t.recoverEngine b e) := by
  unfold State.recoverEngine
  extract_lets
  split
  · exact h
  · split
    · exact h.data
    · split
      · exact h
      · split
        · exact h
        · exact h.data
        · exact .ite h.data h.data

theorem recoverEngines (h : s.Keeps m i p t) {b : SubId} : s.Keeps m i p (t.recoverEngines b) :=
  (h.foldl fun _ _ k => k.recoverEngine).data

theorem dealFrame (h : s.Keeps m i p t) {sl : SliceId} {f : Frame} : s.Keeps m i p (t.dealFrame sl f) := by
  unfold State.dealFrame
  dsimp only
  split
  · exact h.data
  · exact h.data

/-! ### The Sieve (chapter 4) -/

theorem syncReset (h : s.Keeps m i p t) {b : SubId} {kr : Nat} {resync : Bool} : s.Keeps m i p (t.syncReset b kr resync) :=
  .ite h.data.subEvent h.data

theorem reachIndex (h : s.Keeps m i p t) {b : SubId} {c : Nat} : s.Keeps m i p (t.reachIndex b c) := by
  unfold State.reachIndex
  extract_lets _ t1 t2
  have kt1 : s.Keeps m i p t1 := h.data
  have kt2 : s.Keeps m i p t2 := kt1.foldl fun _ _ k => k.syncReset
  split
  · exact .ite kt2.data kt2
  · exact kt2

theorem sieveOut (h : s.Keeps m i p t) {b : SubId} {sl : SliceId} {input : Nat} {o : SieveOut} :
    s.Keeps m i p (t.sieveOut b sl input o) := by
  unfold State.sieveOut
  split
  · exact h.data.dealFrame
  · exact h.data

theorem runInput (h : s.Keeps m i p t) {b : SubId} {sl : SliceId} {slot : Slot} {input : Nat} :
    s.Keeps m i p (t.runInput b sl slot input) :=
  (h.data.foldl fun _ _ k => k.sieveOut).data

theorem returnSlice (h : s.Keeps m i p t) {b : SubId} {sl : SliceId} {kr : Nat} : s.Keeps m i p (t.returnSlice b sl kr) :=
  h.data.noteFilled

end State.Keeps

end Sys2Proof.Machine
end

section
/-! What the operations keep: the Loom, the Bellows, sessions and observations.
Each lemma says of one operation that it loses nothing of what the state before it kept (`State.Keeps`), and which of memory,
the islands and the rest of the Bellows it may change. -/

namespace Sys2Proof.Machine

variable {s t u : State} {m i p : Bool}

namespace State.Keeps

/-! ### Tiles, spares and plans (R165 to R180) -/

theorem showTiles (h : s.Keeps m i p t) : s.Keeps m i p t.showTiles := (h.foldl fun _ _ k => k.data).foldl fun _ _ k => k.data

theorem restoreCuts {j : SubId} {n : Nat} (h : s.Keeps m i p t) : s.Keeps m i p (State.restoreCuts j n t) := by
  induction n generalizing t with
  | zero => exact h
  | succ n ih => exact .ite h (ih h.data)

theorem cutMore {j : SubId} {n : Nat} (h : s.Keeps m i p t) : s.Keeps m i p (State.cutMore j n t) := by
  induction n generalizing t with
  | zero => exact h
  | succ n ih => exact .ite h (ih h.data)

theorem showAll (h : s.Keeps m i p t) : s.Keeps m i p t.showAll := h.showTiles.foldl fun _ _ k => k.data

theorem recut (h : s.Keeps m i p t) {b : SubId} {span : Nat} : s.Keeps m i p (t.recut b span) :=
  .ite h.restoreCuts.cutMore h.restoreCuts.cutMore.data.raise.subEvent

theorem announceFail (h : s.Keeps m i p t) {b : TileId} : s.Keeps m i p (t.announceFail b) := h.data.raise

theorem takeSpare (h : s.Keeps m i p t) {n : Nat} : s.Keeps m i p (t.takeSpare n) := by
  unfold State.takeSpare
  split
  · exact h
  · split
    · exact h.data.raise
    · exact h

theorem retire (h : s.Keeps m false p t) {b : TileId} : s.Keeps m false p (t.retire b) :=
  (State.Keeps.ite h h.announceFail).askIsland.data

theorem retireNow (h : s.Keeps m false p t) {b : TileId} : s.Keeps m false p (t.retireNow b) :=
  (State.Keeps.ite h.retire.takeSpare h.retire).showAll

theorem returnJobs (h : s.Keeps m i p t) {b : TileId} : s.Keeps m i p (t.returnJobs b) := by
  unfold State.returnJobs
  extract_lets _ r1 u2 u3 u4
  have kr1 : s.Keeps m i p r1.1 := h.haltBeam
  have ku2 : s.Keeps m i p u2 := by
    unfold u2
    split
    · exact kr1.data
    · exact kr1
  have ku3 : s.Keeps m i p u3 := by
    unfold u3
    split
    · exact ku2.data
    · exact ku2
  have ku4 : s.Keeps m i p u4 := by
    unfold u4
    split
    · exact ku3.data
    · exact ku3
  exact ku4.data

theorem failTile (h : s.Keeps m false p t) {b : TileId} {cause : BitVec 3} : s.Keeps m false p (t.failTile b cause) := by
  unfold State.failTile
  extract_lets u1 u2 u3
  have ku1 : s.Keeps m false p u1 := h.returnJobs
  have ku2 : s.Keeps m false p u2 := ku1.data
  have ku3 : s.Keeps m false p u3 := ku2.announceFail
  split
  · exact .ite ku3.data ku3.data.retireNow
  · exact ku3.data.retireNow

theorem tileBoundary (h : s.Keeps m false p t) {b : SubId} {span : Nat} : s.Keeps m false p (t.tileBoundary b span) := by
  unfold State.tileBoundary
  extract_lets _ t1 t2
  have kt1 : s.Keeps m false p t1 := h.foldl fun _ _ k => ((State.Keeps.ite ((State.Keeps.ite k k.returnJobs).data)
    (.ite k k.returnJobs)).retire).subEvent
  have kt2 : s.Keeps m false p t2 := kt1.foldl fun _ _ k => .ite k.data k
  exact kt2.foldl fun _ _ k => k.takeSpare

theorem retireStray (h : s.Keeps m false p t) : s.Keeps m false p t.retireStray :=
  h.foldl fun _ _ k => .ite k (.ite ((State.Keeps.ite k.data k).retireNow) (.ite ((State.Keeps.ite k.data k).data.retireNow)
    (.ite k.data k)))

theorem applyPlan (h : s.Keeps m false p t) {b : SubId} {c : Plan} : s.Keeps m false p (t.applyPlan b c) :=
  h.data.showTiles.retireStray.showAll

theorem askRetire (h : s.Keeps m false p t) {b : TileId} : s.Keeps m false p (t.askRetire b).1 :=
  .iteFst h (.iteFst h (.iteFst h.data.showAll h.data.retireNow))

theorem restored (h : s.Keeps m i p t) {b : TileId} : s.Keeps m i p (t.restored b) := by
  unfold State.restored
  extract_lets
  split <;> exact h.data.showAll

theorem followMode (h : s.Keeps m i p t) : s.Keeps m i p t.followMode := .ite h.setMode h

theorem dropJobs (h : s.Keeps m i p t) {b : SubId} : s.Keeps m i p (t.dropJobs b) := h.data.foldl fun _ _ k => k.data

theorem endFront (h : s.Keeps m i p t) {b : SubId} : s.Keeps m i p (t.endFront b) := by
  unfold State.endFront
  extract_lets t1 t2 t3 t4
  have kt2 : s.Keeps m i p t2 := h.data
  have kt3 : s.Keeps m i p t3 := .ite kt2.data kt2
  have kt4 : s.Keeps m i p t4 := kt3.data
  exact kt4.data

theorem endBack (h : s.Keeps false i p t) {b : SubId} : s.Keeps false i p (t.endBack b) :=
  h.data.dropJobs.clearSets.data.applyShelf.data

theorem leaveObs (h : s.Keeps false false p t) {b : SubId} : s.Keeps false false p (t.leaveObs b) := by
  unfold State.leaveObs
  extract_lets t1 t2 t3 t4
  have kt1 : s.Keeps false false p t1 := h.data
  have kt2 : s.Keeps false false p t2 := kt1.endFront.endBack.data
  have kt3 : s.Keeps false false p t3 := kt2.data
  have kt4 : s.Keeps false false p t4 := by
    unfold t4
    split
    · exact kt3.applyPlan
    · exact kt3.retireStray.showAll
  exact kt4.octetsPast.followMode

theorem stopNow (h : s.Keeps false false p t) {b : SubId} : s.Keeps false false p (t.stopNow b) := .ite h.cutCapture.leaveObs h

theorem tryStop (h : s.Keeps false false p t) {b : SubId} : s.Keeps false false p (t.tryStop b) := .ite h.leaveObs h

/-! ### The Loom (chapter 7) -/

theorem checkTile (h : s.Keeps m false p t) {b : SubId} {c : TileId} : s.Keeps m false p (t.checkTile b c) :=
  .ite h.data.raise.failTile h.data.raise.returnJobs.data

theorem failJob (h : s.Keeps m false p t) {b : TileId} {d : Dump} : s.Keeps m false p (t.failJob b d) :=
  (State.Keeps.ite h.data.checkTile.loseJob h.data.checkTile.data).settled

theorem afterTile (h : s.Keeps m i p t) {b : Option SubId} : s.Keeps m i p (t.afterTile b) := by
  unfold State.afterTile
  split
  · exact h.settled
  · exact h

theorem clockLoss (h : s.Keeps m false p t) {b : TileId} : s.Keeps m false p (t.clockLoss b) := .ite h h.failTile.afterTile

theorem selftestDone (h : s.Keeps m false p t) {b : TileId} {pass : Bool} : s.Keeps m false p (t.selftestDone b pass) := by
  unfold State.selftestDone
  extract_lets _ u1
  have ku1 : s.Keeps m false p u1 := h.data
  split
  · exact h
  · exact .ite ku1.data.showAll ku1.failTile
  · exact .ite ku1.data ku1.data.retireNow
  · exact .ite ku1.restored ku1.data.retireNow.data

theorem beginSpan (h : s.Keeps m i p t) {b : SubId} {span at' : Nat} : s.Keeps m i p (t.beginSpan b span at') := by
  unfold State.beginSpan
  extract_lets _ t1 t2 t3 t4
  have kt2 : s.Keeps m i p t2 := h.data
  have kt3 : s.Keeps m i p t3 := kt2.startFolds
  have kt4 : s.Keeps m i p t4 := .ite kt3 kt3.data
  exact kt4.settled.data

/-- What waits for a boundary is given up (R351). -/
theorem actionsDropped (h : s.Keeps m i p t) {b : SubId} : s.Keeps m i p (t.dropActions b) := h.data

/-- What waits for a boundary takes effect: formats, the beam curve and the cut (R351). -/
theorem applyAll (h : s.Keeps m i p t) {b c : SubId} : s.Keeps m i p ((t.applyFormats b false).applyBeamCurve c) :=
  h.alike rfl rfl rfl rfl rfl

theorem crossBoundary (h : s.Keeps false false p t) {c : SubId} {span b : Nat} :
    s.Keeps false false p (t.crossBoundary c span b) := by
  unfold State.crossBoundary
  extract_lets t1 t2 t3 t4 t5 t6
  have kt1 : s.Keeps false false p t1 := h.ledgerBoundary
  have kt2 : s.Keeps false false p t2 := .ite kt1.cutCapture.actionsDropped kt1
  have kt3 : s.Keeps false false p t3 := by
    unfold t3
    split
    · exact kt2.applyPlan
    · exact kt2
  have kt4 : s.Keeps false false p t4 := kt3.tileBoundary.showAll.recut.applyShelf
  have kt5 : s.Keeps false false p t5 := kt4.applyAll
  have kt6 : s.Keeps false false p t6 := kt5.withLoom
  exact kt6.endSwitch.octetsPast.recoverEngines

theorem endFold (h : s.Keeps false false p t) {b : SubId} : s.Keeps false false p (t.endFold b) := by
  unfold State.endFold
  split
  · exact h
  · exact .ite h h.foldsEnd.data.flushStopped.data.tryStop

theorem endBeam (h : s.Keeps m false p t) {k : TileId} : s.Keeps m false p (t.endBeam k) := by
  unfold State.endBeam
  split
  · exact h
  · split
    · exact h
    · have halted : s.Keeps m false p (t.haltBeam k).1 := h.haltBeam
      dsimp only
      generalize t.haltBeam k = r at *
      obtain ⟨u, j⟩ := r
      cases j with
      | none => exact halted.settled
      | some j => exact (State.Keeps.ite halted.checkTile.loseBeam halted.checkTile.data).settled

theorem endBeams (h : s.Keeps m false p t) : s.Keeps m false p t.endBeams := h.foldl fun _ _ k => k.endBeam

theorem abandonAll (h : s.Keeps m i p t) : s.Keeps m i p t.abandonAll := by
  unfold State.abandonAll
  refine h.foldl fun u b k => ?_
  extract_lets _ r1 u2 _ u3 u4
  have kr1 : s.Keeps m i p r1.1 := k.haltBeam
  have ku2 : s.Keeps m i p u2 := by
    unfold u2
    split
    · exact kr1.data
    · exact kr1
  have ku3 : s.Keeps m i p u3 := by
    unfold u3
    split
    · exact ku2.data
    · exact ku2
  have ku4 : s.Keeps m i p u4 := by
    unfold u4
    split
    · exact ku3.data
    · exact ku3
  exact ku4.data

theorem endRode (h : s.Keeps m i p t) : s.Keeps m i p t.endRode := h.foldl fun _ _ k => k.data

/-! ### Replies -/

theorem putReply (h : s.Keeps m i p t) {b : BenchId} {words : List Word} {counted : optParam Bool true} :
    s.Keeps m i p (t.putReply b words counted) :=
  (State.Keeps.ite h.data.emit h.data.sendDatagram).setIrq

theorem finishCommand (h : s.Keeps m i p t) {b : BenchId} {r : Reply} : s.Keeps m i p (t.finishCommand b r) := by
  unfold State.finishCommand
  split
  · exact h.data.putReply
  · exact h

/-! ### The Bellows (R403 to R424) -/

theorem performStep (h : s.Keeps m false p t) {x : SeqStep} : s.Keeps m false p (t.performStep x) := by
  unfold State.performStep
  extract_lets
  split
  · exact h.rails
  · exact h.rails
  · exact .dite (fun _ => .ite h h.askIsland) fun _ => h
  · exact .dite (fun _ => .ite h h.askIsland) fun _ => h
  · exact h.data
  · exact h.data
  · exact h

theorem beginSeq (h : s.Keeps m false false t) {id : Fin 6} {after : AfterSeq} :
    s.Keeps m false false (t.beginSeq id after) := by
  unfold State.beginSeq
  dsimp only
  split
  · exact h.supplied.performStep
  · exact h.supplied

theorem runNow (h : s.Keeps m false p t) {id : Fin 6} : s.Keeps m false p (t.runNow id) := h.foldl fun _ _ k => k.performStep

theorem restore (h : s.Keeps m false p t) {off : BitVec 79} : s.Keeps m false p (t.restore off) :=
  h.foldl fun _ _ k => k.performStep

theorem endSeq (h : s.Keeps m i false t) {q : SeqRun} : s.Keeps m i false (t.endSeq q) := by
  unfold State.endSeq
  extract_lets _ t1
  have kt1 : s.Keeps m i false t1 := h.supplied
  split
  · exact kt1
  · exact kt1.onBellStat
  · exact kt1.supplied.setMode
  · split
    · exact h
    · extract_lets u2
      have ku2 : s.Keeps m i false u2 := .ite kt1.setMode kt1
      split
      · exact ku2.finishCommand
      · exact ku2

theorem nextStep (h : s.Keeps m false false t) {q : SeqRun} : s.Keeps m false false (t.nextStep q) := by
  unfold State.nextStep
  split
  · exact .ite h.endSeq h
  · extract_lets _ _ t1
    have kt1 : s.Keeps m false false t1 := h.supplied
    split
    · exact h.supplied.performStep
    · exact .ite h.supplied.endSeq h.supplied

theorem seqStepOf (h : s.Keeps m false false t) {met : Bool} : s.Keeps m false false (t.seqStepOf met) := by
  unfold State.seqStepOf
  split
  · exact h
  · split
    · exact h
    · split
      · exact h.nextStep
      · exact .ite h.nextStep h

theorem railSeqOf (h : s.Keeps m false false t) : s.Keeps m false false t.railSeqOf := by
  unfold State.railSeqOf
  split
  · exact h
  · split
    · exact h
    · split
      · extract_lets t1 _ _ _ t2
        have kt1 : s.Keeps m false false t1 := h.raise
        have kt2 : s.Keeps m false false t2 := kt1.supplied.requestHold
        split
        · exact kt1.supplied
        · split
          · exact kt1.nextStep
          · split
            · exact kt2.finishCommand
            · exact kt2
      · exact h

/-- A slice without power holds nothing of its engines (R418). -/
theorem sliceLost (h :
    s.Keeps m i p t) {es : List EngineId} {f : Engine → Engine} {sl : SliceId} {g : List OpenGran → List OpenGran} :
    s.Keeps m i p ((es.foldl (fun (u : State) e => u.onEngine e f) t).onCombine sl g) := by
  have engines : s.Keeps m i p (es.foldl (fun (u : State) e => u.onEngine e f) t) := h.foldl fun _ _ k => k.data
  exact engines.data

theorem islandLost (h : s.Keeps m i p t) {b : IslandId} : s.Keeps m i p (t.islandLost b) :=
  .dite (fun _ => h.returnJobs) fun _ => .ite (State.Keeps.data h.sliceLost) (.dite (fun _ => h.offOctet.data) fun _ => h)

theorem reloadSlice (h : s.Keeps m i p t) {sl : SliceId} : s.Keeps m i p (t.reloadSlice sl) := by
  unfold State.reloadSlice
  refine h.foldl fun u b k => ?_
  split
  · exact k.foldl fun _ _ k => .ite k.data k
  · exact k

theorem islandUp (h : s.Keeps false i p t) {b : IslandId} : s.Keeps false i p (t.islandUp b) :=
  .ite (h.reloadSlice.foldl fun _ _ k => .ite k.data k) (.ite h.zero (.ite h.zero (.dite (fun _ =>
    (State.Keeps.ite h.startOctet h).data) fun _ => h)))

theorem addRideMs (h : s.Keeps m i false t) : s.Keeps m i false t.addRideMs := .ite h.onBellStat h

theorem closeRecord (h : s.Keeps m i false t) : s.Keeps m i false t.closeRecord := by
  unfold State.closeRecord
  split
  · exact .ite h h.supplied
  · exact h

theorem selfRefresh (h : s.Keeps m i p t) : s.Keeps m i p t.granSelfRefresh := h.data

theorem shutdown (h : s.Keeps false false false t) {cause : BitVec 2} : s.Keeps false false false (t.shutdown cause) := by
  unfold State.shutdown
  split
  · exact h
  · extract_lets t1 t2 t3 t4 t5 _ _ _ _ _ _ _ _ t6 t7
    have kt1 : s.Keeps false false false t1 := h.addRideMs.onBellStat
    have kt2 : s.Keeps false false false t2 := kt1.closeRecord
    have kt3 : s.Keeps false false false t3 := kt2.foldl fun _ _ k => k.stopNow
    have kt4 : s.Keeps false false false t4 := kt3.foldl fun _ _ k => k.offOctet
    have kt5 : s.Keeps false false false t5 := kt4.selfRefresh
    have kt6 : s.Keeps false false false t6 := (kt5.bellows (x := t6.bell)).alike rfl rfl rfl rfl rfl
    have kt7 : s.Keeps false false false t7 := kt6.foldl fun _ _ k => k.data
    exact kt7.beginSeq

theorem onEvent0 (h : s.Keeps m i false t) {f : BellEvent → BellEvent} : s.Keeps m i false (t.onEvent0 f) := h.supplied

theorem noteInput (h : s.Keeps m i false t) {v : BitVec 16} : s.Keeps m i false (t.noteInput v) := h.onBellStat.supplied

theorem seeInput (h : s.Keeps m i false t) {v : BitVec 16} : s.Keeps m i false (t.seeInput v) := by
  unfold State.seeInput
  extract_lets t1
  have kt1 : s.Keeps m i false t1 := h.noteInput
  split
  · exact .ite kt1 kt1.supplied.onEvent0.onBellStat
  · exact kt1

theorem seeBank (h : s.Keeps m i false t) {v : BitVec 16} : s.Keeps m i false (t.seeBank v) := by
  unfold State.seeBank
  extract_lets t1
  have kt1 : s.Keeps m i false t1 := h.onBellStat
  split
  · exact .ite kt1 kt1.supplied.onEvent0
  · exact kt1

theorem rideEvent (h : s.Keeps m i p t) {code detail : Nat} : s.Keeps m i p (t.rideEvent code detail) :=
  h.foldl fun _ _ k => .ite k.subEvent k

theorem stopBaler (h : s.Keeps m i p t) : s.Keeps m i p t.stopBaler := by
  unfold State.stopBaler
  split
  · exact .ite h.data h.data.finishCommand
  · exact h

theorem enterRide (h : s.Keeps m false false t) : s.Keeps m false false t.enterRide :=
  (State.Keeps.ite h.supplied.onBellStat.setMode h.supplied.onBellStat).abandonAll.stopBaler.runNow.rideEvent

theorem supplyBegin (h : s.Keeps m false false t) {v bank : BitVec 16} : s.Keeps m false false (t.supplyBegin v bank) := by
  unfold State.supplyBegin
  split
  · split
    · exact .ite h.seeBank.supplied.onEvent0.onBellStat.seeInput h
    · exact h.supplied.seeBank.enterRide.seeInput
  · exact .ite h.noteInput h

theorem closeEvent (h : s.Keeps m i false t) {e : SupplyEvent} : s.Keeps m i false (t.closeEvent e) := by
  unfold State.closeEvent
  extract_lets t1 _ t2 _ t3
  have kt1 : s.Keeps m i false t1 := h.onEvent0
  have kt2 : s.Keeps m i false t2 := kt1.onBellStat
  have kt3 : s.Keeps m i false t3 := kt2.supplied
  exact .ite kt3.raise (.ite kt3.raise (.ite kt3.raise kt3.raise))

theorem seqAgain (h : s.Keeps m false false t) {id : Nat} : s.Keeps m false false (t.seqAgain id) :=
  .dite (fun _ => .ite h.beginSeq h) fun _ => h

/-! ### Sessions and leases (R323 to R327) -/

theorem setHolder (h : s.Keeps m i p t) {b : BenchId} {cls : Nat} {c : SubId} {on : Bool} :
    s.Keeps m i p (t.setHolder b cls c on) := by
  unfold State.setHolder
  extract_lets
  split
  · exact h.data
  · exact h.data
  · exact h.data
  · exact h.data
  · exact h.data
  · exact h

theorem dropTxn (h : s.Keeps false i p t) {b : BenchId} : s.Keeps false i p (t.dropTxn b) := by
  unfold State.dropTxn
  split
  · exact h.zero.data
  · exact h

theorem checkTxn (h : s.Keeps false i p t) {b : BenchId} : s.Keeps false i p (t.checkTxn b) := by
  unfold State.checkTxn
  split
  · exact .ite h h.dropTxn
  · exact h

theorem workLost (h : s.Keeps m false false t) : s.Keeps m false false t.workLost := .ite h.beginSeq h

theorem dropLease (h : s.Keeps false false false t) {b : BenchId} {cls : Nat} {c : SubId} :
    s.Keeps false false false (t.dropLease b cls c) :=
  .ite (.ite h.setHolder.checkTxn.workLost h.setHolder.checkTxn) h

theorem dropLeases (h : s.Keeps false false false t) {b : BenchId} : s.Keeps false false false (t.dropLeases b) :=
  (h.foldl fun _ _ k => k.dropLease).foldl fun _ _ k => k.dropLease

theorem checkLease (h : s.Keeps false false false t) {b : BenchId} : s.Keeps false false false (t.checkLease b) :=
  .ite h (.ite h.data.dropLeases.setIrq.raise (.ite h.data.setIrq h))

theorem benchBeat (h : s.Keeps m i p t) {b : BenchId} : s.Keeps m i p (t.benchBeat b) :=
  .ite ((State.Keeps.ite h.data.raise h.data).raise) (.ite h.data.raise h.data)

theorem muteBench (h : s.Keeps m i false t) {b : BenchId} : s.Keeps m i false (t.muteBench b) := h.supplied

theorem closeSession (h : s.Keeps false false false t) {b : BenchId} : s.Keeps false false false (t.closeSession b) :=
  h.dropLeases.dropTxn.muteBench.data

theorem openSession (h : s.Keeps m i p t) {b : BenchId} {slot : Fin 8} : s.Keeps m i p (t.openSession b slot) := h.drawn.data

theorem idleClose (h : s.Keeps false false false t) {b : PortId} : s.Keeps false false false (t.idleClose b) :=
  .ite h.closeSession h

/-! ### Observations (R347 to R351) -/

theorem laySram (h : s.Keeps false i p t) : s.Keeps false i p t.laySram := h.move.foldl fun _ _ k => k.data

theorem layAll (h : s.Keeps false i p t) : s.Keeps false i p t.layAll := h.layShelf.laySram

theorem moveCoefs (h : s.Keeps m i p t) {moves : List (SubId × Nat)} : s.Keeps m i p (t.moveCoefs moves) := by
  unfold State.moveCoefs
  extract_lets _ _ u
  have moved : s.Keeps m i p u := h.foldl fun _ _ k => k.data
  exact moved.data

theorem dropPlan (h : s.Keeps m false p t) {b : SubId} : s.Keeps m false p (t.dropPlan b) :=
  h.withLoom.showTiles.retireStray.showAll

/-- The engines and the tables of a sub-array are given up (R347). -/
theorem forgot (h : s.Keeps m i p t) {b : SubId} : s.Keeps m i p ((t.freeFaulted b).forgetTables b) :=
  h.alike rfl rfl rfl rfl rfl

/-- The Cellar and the Sieve of a sub-array as its records show them. -/
theorem showStores (h : s.Keeps m i p t) {b : SubId} : s.Keeps m i p ((t.showBays b).showSieve b) :=
  h.alike rfl rfl rfl rfl rfl

theorem writeDefine (h : s.Keeps false false p t) {d : ObsParams} {coef gain : Nat} {regions : List Region} {a b c e : Nat} :
    s.Keeps false false p (t.writeDefine d coef gain regions a b c e) := by
  unfold State.writeDefine
  extract_lets _ _ _ _ t1 t2 t3 t4 t5 t6 t7 t8 t9
  have kt1 : s.Keeps false false p t1 := State.Keeps.data h.zero
  clear_value t1
  have kt9 : s.Keeps false false p t9 := kt1.withObs.withSieve.withAssay.withAssay.withCellar.withLoom.withLedger.withBeam
  exact kt9.forgot.dropPlan.layAll.showStores

theorem obsDefine (h : s.Keeps false false p t) {d : ObsParams} : s.Keeps false false p (t.obsDefine d).1 := by
  unfold State.obsDefine
  split
  · exact h
  · split
    · exact h
    · split
      · exact .iteFst h h.moveCoefs.writeDefine
      · exact h

/-- An observation's counters start where those of its sub-array stand (R348). -/
theorem rebaseCounts (h : s.Keeps m i p t) {u : State} : s.Keeps m i p (t.rebaseCounts u) := h.data

theorem obsRelease (h : s.Keeps false false p t) {b : SubId} : s.Keeps false false p (t.obsRelease b) := by
  unfold State.obsRelease
  extract_lets t1 _ _ t2 t3 t4
  have kt1 : s.Keeps false false p t1 := h.forgot.dropPlan
  have kt2 : s.Keeps false false p t2 := kt1.data
  clear_value t2
  have kt3 : s.Keeps false false p t3 := kt2.withObs.withSieve.withCellar.withLoom
  clear_value t3
  have kt4 : s.Keeps false false p t4 := kt3.withLedger.withBeam.rebaseCounts
  exact kt4.layAll.showAll

theorem assignEngines (h : s.Keeps m i p t) {b : SubId} : s.Keeps m i p (t.assignEngines b) := by
  unfold State.assignEngines
  split
  · exact (h.foldl fun _ _ k => k.takeEngines).alike rfl rfl rfl rfl rfl
  · exact h

theorem arm (h : s.Keeps false i p t) {b : SubId} : s.Keeps false i p (t.arm b) := by
  unfold State.arm
  extract_lets t1 t2 t3 t4
  have kt1 : s.Keeps false i p t1 := h.assignEngines
  have kt2 : s.Keeps false i p t2 := State.Keeps.alike kt1.clearSets rfl rfl rfl rfl rfl
  have kt3 : s.Keeps false i p t3 := kt2.data
  have kt4 : s.Keeps false i p t4 := kt3.data
  have shown : s.Keeps false i p ((t4.applyBeamCurve b).showLedger b) := kt4.alike rfl rfl rfl rfl rfl
  exact shown.showAll.followMode

theorem obsArm (h : s.Keeps false i p t) {b : SubId} : s.Keeps false i p (t.obsArm b).1 :=
  .iteFst h (.iteFst h (.iteFst h h.arm))

theorem setStart (h : s.Keeps m i p t) {b : SubId} {ks : Nat} : s.Keeps m i p (t.setStart b ks) := by
  unfold State.setStart
  extract_lets _ t1 t2 t3
  have kt1 : s.Keeps m i p t1 := h.data
  have kt2 : s.Keeps m i p t2 := kt1.data
  have kt3 : s.Keeps m i p t3 := kt2.data
  split
  · exact kt3.data
  · exact kt3

theorem startAt (h : s.Keeps m i p t) {b : SubId} {c : Nat} {timer : Bool} : s.Keeps m i p (t.startAt b c timer).1 :=
  .iteFst h (.iteFst h (.iteFst h h.setStart))

theorem reachStarts (h : s.Keeps m i p t) : s.Keeps m i p t.reachStarts := by
  unfold State.reachStarts
  refine h.foldl fun u b k => ?_
  split
  · exact .ite k.data.followMode k
  · exact k

theorem drainAt (h : s.Keeps false i p t) {b : SubId} {span : Nat} : s.Keeps false i p (t.drainAt b span).1 :=
  .iteFst h (.iteFst h (.iteFst h.data.ledgerBoundary (.iteFst h (.iteFst h h.data))))

theorem stopObs (h : s.Keeps false false p t) {b : SubId} {span : Nat} : s.Keeps false false p (t.stopObs b span).1 := by
  unfold State.stopObs
  refine .iteFst h.leaveObs.mkFst ?_
  extract_lets c yes u
  refine .iteFst h.mkFst ?_
  have marked : s.Keeps false false p u := h.data
  have cut : s.Keeps false false p (((u.ledgerBoundary b c.1).cutCapture b true).dropActions b) :=
    marked.ledgerBoundary.cutCapture.actionsDropped
  exact .iteFst cut.tryStop.mkFst marked.mkFst

theorem resyncAt (h : s.Keeps m i p t) {b : SubId} {c : Nat} : s.Keeps m i p (t.resyncAt b c).1 := .iteFst h h.data

theorem delayLoad (h : s.Keeps m i p t) {b : SubId} {set c : Nat} {ins : List (Nat × List Nat)} :
    s.Keeps m i p (t.delayLoad b set c ins).1 :=
  .iteFst h h.data

theorem weightLoad (h : s.Keeps m i p t) {b : SubId} {c : Option Nat} : s.Keeps m i p (t.weightLoad b c).1 :=
  .iteFst h.data (.iteFst h (.iteFst h (.iteFst h h.data)))

theorem coefSwap (h : s.Keeps m i p t) {b : SubId} {c : Option Nat} : s.Keeps m i p (t.coefSwap b c).1 := by
  unfold State.coefSwap
  extract_lets
  split
  · exact h
  · split
    · exact h.data
    · split
      · exact h
      · split <;> exact .iteFst h.data h.data

theorem dcbFreeze (h : s.Keeps m i p t) {b : SubId} {on : Bool} {mask kf : Nat} : s.Keeps m i p (t.dcbFreeze b on mask kf).1 :=
  .iteFst h h.data

theorem cellarTrigger (h : s.Keeps m i p t) {b : SubId} {pre post c : Nat} :
    s.Keeps m i p (t.cellarTrigger b pre post c).1 := by
  unfold State.cellarTrigger
  extract_lets
  split
  · exact h
  · split
    · exact h
    · split
      · exact h
      · exact .iteFst h (.iteFst h (.ite h.startCapture.cutCapture h.startCapture))

end State.Keeps

end Sys2Proof.Machine
end

section
/-! What the operations keep: the Tally, time, the Baler, tables and commands.
Each lemma says of one operation that it loses nothing of what the state before it kept (`State.Keeps`), and which of memory,
the islands and the rest of the Bellows it may change. -/

namespace Sys2Proof.Machine

variable {s t u : State} {m i p : Bool}

namespace State.Keeps

/-! ### The Tally -/

theorem clearSource (h : s.Keeps m i p t) {b : SourceId} : s.Keeps m i p (t.clearSource b) := .ite h h.clearTo

theorem clearSources (h : s.Keeps m i p t) : s.Keeps m i p t.clearSources := h.foldl fun _ _ k => k.clearSource

theorem takeEntries (h : s.Keeps m i p t) : s.Keeps m i p t.takeEntries := by
  unfold State.takeEntries
  extract_lets u
  have taken : s.Keeps m i p u := h.foldl fun _ _ k => k.data
  exact taken.data

/-! ### The Timekeeper (R280 to R294) -/

theorem tick (h : s.Keeps false false p t) {n : Nat} : s.Keeps false false p (t.tick n) :=
  .ite h.data.reachStarts.endBeams.serveBridges h.data

theorem enterFreeRun (h : s.Keeps m i p t) : s.Keeps m i p t.enterFreeRun := h.data.raise

theorem setIncrement (h : s.Keeps m i p t) {inc ticks : Nat} : s.Keeps m i p (t.setIncrement inc ticks) := by
  unfold State.setIncrement
  extract_lets _ u
  have set : s.Keeps m i p u := .ite h.data h.data
  exact set.data

theorem timerAct (h : s.Keeps false i p t) {x : TimeTimer} {inst at' : Nat} : s.Keeps false i p (t.timerAct x inst at').1 :=
  .iteFst h.emit (.iteFst h.timerTrigger (.iteFst h.startAt h.drainAt))

theorem fire (h : s.Keeps false i p t) {b : TimerId} {missed at' : Nat} : s.Keeps false i p (t.fire b missed at') :=
  .ite h.data.timerAct.data.raise h.data.timerAct

theorem stepTimer (h : s.Keeps false i p t) {b : TimerId} {now16 : Nat} : s.Keeps false i p (t.stepTimer b now16) :=
  .ite h.fire h

theorem dreqPassed (h : s.Keeps m i p t) : s.Keeps m i p t.dreqPassed := .ite h h.data

theorem stepTime (h : s.Keeps false i p t) {tk : Nat} : s.Keeps false i p (t.stepTime tk) := by
  unfold State.stepTime
  extract_lets _ _ _ t1 t2 t3 t4
  have kt1 : s.Keeps false i p t1 := h.data
  have kt2 : s.Keeps false i p t2 := kt1.dreqPassed
  have kt3 : s.Keeps false i p t3 := kt2.data
  have kt4 : s.Keeps false i p t4 := .ite (.ite kt3.data kt3.enterFreeRun) kt3
  exact .ite (kt4.foldl fun _ _ k => k.stepTimer) kt4

theorem capture (h : s.Keeps m i p t) {c : Capture} : s.Keeps m i p (t.capture c) := .ite h.data h.data

/-! ### Beats -/

theorem makeUpdate (h : s.Keeps m i p t) {b : SubId} {kb : Nat} : s.Keeps m i p (t.makeUpdate b kb).1 := by
  unfold State.makeUpdate
  split
  · exact .ite h.drawn.data.raise h.drawn.data
  · exact .ite h h.data.raise

theorem actLoads (h : s.Keeps m i p t) {c : SubId} {b : Nat} : s.Keeps m i p (t.actLoads c b) :=
  h.data.foldl fun _ _ k => k.data

theorem sendUpdate (h : s.Keeps m i p t) {b : SubId} {kb : Nat} : s.Keeps m i p (t.sendUpdate b kb) :=
  .ite h.makeUpdate.data.raise h.makeUpdate.data

theorem fixSwitch (h : s.Keeps m i p t) {c : SubId} {b kb : Nat} : s.Keeps m i p (t.fixSwitch c b kb) := by
  unfold State.fixSwitch
  split
  · exact .ite h.data h
  · exact h

theorem fixSwap (h : s.Keeps m i p t) {b : SubId} {kb : Nat} : s.Keeps m i p (t.fixSwap b kb) := .ite h.data h

theorem fixReturns (h : s.Keeps m i p t) {b : SubId} {kb : Nat} : s.Keeps m i p (t.fixReturns b kb) :=
  .ite (h.foldl fun _ _ k => k.returnSlice) h.data

theorem beatSub (h : s.Keeps m i p t) {c : SubId} {b : Nat} : s.Keeps m i p (t.beatSub c b) :=
  .ite h h.actLoads.sendUpdate.fixSwitch.fixSwap.fixReturns.data.parserBeat

theorem reportCounts (h : s.Keeps m i p t) : s.Keeps m i p t.reportCounts := by
  unfold State.reportCounts
  extract_lets _ _ t1
  have kt1 : s.Keeps m i p t1 := h.data
  refine kt1.foldl fun u b k => ?_
  split
  · exact k.raise
  · exact k

theorem readSensors (h : s.Keeps m i false t) {r : BeatReadings} : s.Keeps m i false (t.readSensors r) :=
  .ite ((h.onBellStat.seeBank.foldl fun _ _ k => k.data).raise) (h.onBellStat.seeBank.foldl fun _ _ k => k.data)

theorem beatWork (h : s.Keeps false false false t) {b : Nat} {r : BeatReadings} :
    s.Keeps false false false (t.beatWork b r) := by
  unfold State.beatWork
  extract_lets _ t1 t2 t3 t4 t5 t6 _ t7
  have kt1 : s.Keeps false false false t1 := h.data.pulseLine
  have kt2 : s.Keeps false false false t2 := kt1.foldl fun _ _ k => k.beatSub
  have kt3 : s.Keeps false false false t3 := kt2.takeEntries
  have kt4 : s.Keeps false false false t4 := kt3.foldl fun _ _ k => k.checkLease
  have kt5 : s.Keeps false false false t5 := kt4.foldl fun _ _ k => k.benchBeat
  have kt6 : s.Keeps false false false t6 := kt5.reportCounts
  have kt7 : s.Keeps false false false t7 := .ite kt6.data.raise kt6
  exact kt7.readSensors.data

theorem runBeat (h : s.Keeps false false false t) {j b : Nat} {r : BeatReadings} :
    s.Keeps false false false (t.runBeat j b r) :=
  .ite h.data.beatWork.data.raise h.data.beatWork

theorem slipBeat (h : s.Keeps m i p t) {j b : Nat} : s.Keeps m i p (t.slipBeat j b) := by
  unfold State.slipBeat
  extract_lets _ _ t1 t2
  have kt1 : s.Keeps m i p t1 := h.data
  clear_value t1
  have kt2 : s.Keeps m i p t2 := kt1.foldl fun _ _ k => .ite k.data k
  clear_value t2
  exact State.Keeps.raise kt2.data

/-! ### References -/

theorem enterHoldover (h : s.Keeps m i p t) : s.Keeps m i p t.enterHoldover := .ite h h.data.raise

theorem reselect (h : s.Keeps m i p t) : s.Keeps m i p t.reselect := by
  unfold State.reselect
  split
  · exact h
  · split
    · exact .ite h h.data
    · exact .ite h h.enterHoldover

theorem endClkSwitch (h : s.Keeps m i p t) : s.Keeps m i p t.endClkSwitch := by
  unfold State.endClkSwitch
  extract_lets u
  have set : s.Keeps m i p u := h.foldl fun _ _ k => k.data
  exact set.data

theorem disqualify (h : s.Keeps m i p t) {x : Fin 3} {present : Bool} : s.Keeps m i p (t.disqualify x present) :=
  (State.Keeps.ite h.data.raise.data.endClkSwitch h.data.raise).reselect

theorem qualify (h : s.Keeps m i p t) {x : Fin 3} : s.Keeps m i p (t.qualify x) := .ite h.data h.data

theorem measureRef (h : s.Keeps m i p t) {x : Fin 3} {b : RefMeasure} : s.Keeps m i p (t.measureRef x b) := by
  unfold State.measureRef
  extract_lets _ t1
  have kt1 : s.Keeps m i p t1 := .ite h.data h
  exact .ite kt1.data (.ite (.ite kt1 kt1.disqualify) (.ite kt1.data (.ite kt1 (.ite (.ite kt1.data kt1.qualify)
    (.ite kt1.data kt1.data)))))

theorem disputeRank (h : s.Keeps m i p t) {r : Nat} {xs : List (Fin 3)} : s.Keeps m i p (t.disputeRank r xs) := by
  unfold State.disputeRank
  extract_lets _ _ t1 t2 _ t3
  have kt1 : s.Keeps m i p t1 := h.foldl fun _ _ k => k.data
  have kt2 : s.Keeps m i p t2 := kt1.data
  have kt3 : s.Keeps m i p t3 := .ite kt2 kt2.data
  exact kt3.raise

theorem agreeRank (h : s.Keeps m i p t) {b : Fin 3} : s.Keeps m i p (t.agreeRank b) :=
  .ite h.data (.ite ((h.data.foldl fun _ _ k => .ite k.qualify k).data) (h.data.foldl fun _ _ k => .ite k.qualify k))

theorem endDispute (h : s.Keeps m i p t) : s.Keeps m i p t.endDispute := by
  unfold State.endDispute
  split
  · exact h
  · split
    · exact h.data
    · exact h

theorem checkDispute (h : s.Keeps m i p t) : s.Keeps m i p t.checkDispute := by
  unfold State.checkDispute
  split
  · exact .ite h h.disputeRank
  · exact h

theorem updateEstimate (h : s.Keeps m i p t) : s.Keeps m i p t.updateEstimate := .ite h.data.drawn h

/-! ### The Baler (R377 to R384) -/

theorem baleRead (h : s.Keeps false i p t) {a n : Nat} : s.Keeps false i p (t.baleRead a n).1 := by
  unfold State.baleRead
  refine h.foldlFst fun r b k => ?_
  split
  · exact k
  · exact k.busRead

theorem baleWrite (h : s.Keeps false i p t) {a : Nat} {bs : List Byte} : s.Keeps false i p (t.baleWrite a bs).1 :=
  h.foldlFst fun _ _ k => .iteFst k.busWrite k

theorem baleBlocks (h : s.Keeps false i p t) {o : BaleOptions} {src dst dstBytes len n off at' : Nat} {bad : Option Nat}
    {raw : List Byte} : s.Keeps false i p (State.baleBlocks o src dst dstBytes len bad n t off at' raw).1 := by
  induction n generalizing t off at' raw with
  | zero => exact h
  | succ n ih =>
    unfold State.baleBlocks
    refine .iteFst h ?_
    have read : s.Keeps false i p (t.baleRead (src + off) (min (2 ^ o.blockLog) (len - off))).1 := h.baleRead
    dsimp only
    generalize t.baleRead (src + off) (min (2 ^ o.blockLog) (len - off)) = r at *
    obtain ⟨u, bs⟩ := r
    cases bs with
    | error e => exact read
    | ok bs => exact .iteFst read (.iteFst read.baleWrite (.iteFst read.baleWrite (ih read.baleWrite)))

theorem baleJob (h : s.Keeps false i p t) {o : BaleOptions} {src len dst dstBytes : Nat} {bad : Option Nat} :
    s.Keeps false i p (t.baleJob o src len dst dstBytes bad).1 := by
  unfold State.baleJob
  refine .iteFst h ?_
  have written : s.Keeps false i p (t.baleWrite dst (List.replicate 32 0)).1 := h.baleWrite
  generalize t.baleWrite dst (List.replicate 32 0) = r at *
  obtain ⟨u, stored⟩ := r
  cases stored with
  | false => exact written
  | true =>
    have coded : s.Keeps false i p
      (State.baleBlocks o src dst dstBytes len bad (len / 2 ^ o.blockLog + 1) u 0 32 []).1 := written.baleBlocks
    dsimp only
    generalize State.baleBlocks o src dst dstBytes len bad (len / 2 ^ o.blockLog + 1) u 0 32 [] = q at *
    obtain ⟨v, x⟩ := q
    cases x with
    | error e => exact coded
    | ok x => exact coded.baleWrite

theorem unbaleBlocks (h : s.Keeps false i p t) {o : BaleOptions} {src srcBytes dst raw n off done : Nat} {bytes : List Byte} :
    s.Keeps false i p (State.unbaleBlocks o src srcBytes dst raw n t off done bytes).1 := by
  induction n generalizing t off done bytes with
  | zero => exact h
  | succ n ih =>
    unfold State.unbaleBlocks
    refine .iteFst h ?_
    have head : s.Keeps false i p (t.baleRead (src + off) 8).1 := h.baleRead
    dsimp only
    generalize t.baleRead (src + off) 8 = r at *
    obtain ⟨u, x⟩ := r
    cases x with
    | error e => exact head
    | ok x =>
      refine .iteFst head ?_
      have body : s.Keeps false i p (u.baleRead (src + off + 8) ((leAt x 0 4 + 3) / 4 * 4)).1 := head.baleRead
      generalize u.baleRead (src + off + 8) ((leAt x 0 4 + 3) / 4 * 4) = q at *
      obtain ⟨v, c⟩ := q
      cases c with
      | error e => exact body
      | ok c =>
        dsimp only
        split
        · exact body
        · exact .iteFst body (.iteFst (ih body.baleWrite) body.baleWrite)

theorem unbaleJob (h : s.Keeps false i p t) {src srcBytes dst dstBytes : Nat} :
    s.Keeps false i p (t.unbaleJob src srcBytes dst dstBytes).1 := by
  unfold State.unbaleJob
  refine .iteFst h ?_
  have head : s.Keeps false i p (t.baleRead src 32).1 := h.baleRead
  generalize t.baleRead src 32 = r at *
  obtain ⟨u, x⟩ := r
  cases x with
  | error e => exact head
  | ok x =>
    dsimp only
    split
    · exact head
    · next o raw blocks _ =>
      refine .iteFst head ?_
      have decoded : s.Keeps false i p (State.unbaleBlocks o src srcBytes dst raw blocks u 32 0 []).1 := head.unbaleBlocks
      generalize State.unbaleBlocks o src srcBytes dst raw blocks u 32 0 [] = q at *
      obtain ⟨v, y⟩ := q
      cases y with
      | error e => exact decoded
      | ok y => exact decoded

/-! ### Tables (R342 to R345) -/

/-- The two bytes of a weight reach the Granary, or have no place there. -/
theorem putWeights (h : s.Keeps false i p t) {j : SubId} {w : WeightSpan} {k : Nat} {v : Word} :
    s.Keeps false i p (t.putWeights j w k v).1 := by
  have one {u : State} (h : s.Keeps false i p u) (n : Nat) (bs : List Byte) :
      s.Keeps false i p (match u.weightPlace j w n with
        | some a => u.granWrite a bs
        | none => (u, true)).1 := by
    split
    exacts [h.granWrite, h]
  unfold State.putWeights
  extract_lets put r
  have first : s.Keeps false i p r.1 := one h _ _
  exact .iteFst (one first _ _) first

theorem replaceFmt (h : s.Keeps m i p t) {n : Fin 64} {f : Fmt} : s.Keeps m i p (t.replaceFmt n f).1 := by
  unfold State.replaceFmt
  extract_lets _ _ t1
  have kt1 : s.Keeps m i p t1 := h.data
  split
  · exact h.data
  · extract_lets
    split
    · exact h.data
    · split
      · split <;> exact h.data
      · exact kt1.data

theorem putCurve (h : s.Keeps m i p t) {id : Fin 16} {c : Curve} : s.Keeps m i p (t.putCurve id c).1 :=
  h.data.foldl fun _ _ k => k.data

theorem settleTables (h : s.Keeps m i p t) : s.Keeps m i p t.settleTables := h.foldl fun _ _ k => .ite k.data k

theorem commitFmt (h : s.Keeps m i p t) (j : SubId) (body : List Word) : (t.commitFmt j body).All (s.Keeps m i p) := by
  unfold State.commitFmt
  extract_lets n
  refine .ite ?_ ?_
  · split
    · exact trivial
    · exact h.data
  · split
    · exact trivial
    · refine .ite trivial ?_
      split
      · exact trivial
      · exact h.replaceFmt

theorem commitCurve (h : s.Keeps m i false t) (body : List Word) : (t.commitCurve body).All (s.Keeps m i false) := by
  unfold State.commitCurve
  split
  · unfold State.commitCurve0
    extract_lets
    refine .dite (fun _ => .ite trivial (.ite trivial ?_)) fun _ => trivial
    split
    · exact trivial
    · exact .ite trivial h.putCurve
  · unfold State.commitCurve1
    extract_lets
    refine .dite (fun _ => .ite trivial (.ite trivial ?_)) fun _ => trivial
    split
    · exact trivial
    · exact State.Keeps.foldl h.data fun _ _ k => .ite k k.withBeam
  · unfold State.commitCurve2
    extract_lets
    refine .ite trivial (.ite trivial (.ite trivial ?_))
    split
    · exact trivial
    · exact .ite (h.supplied) (h.supplied)
  · exact trivial

theorem commitPlan (h : s.Keeps m false p t) (j : SubId) (body : List Word) :
    (t.commitPlan j body).All (s.Keeps m false p) := by
  unfold State.commitPlan
  split
  · exact trivial
  · exact .ite h.applyPlan (.ite trivial h.data)

theorem commitSeq (h : s.Keeps m i false t) (body : List Word) : (t.commitSeq body).All (s.Keeps m i false) := by
  unfold State.commitSeq
  extract_lets
  refine .dite (fun _ => .ite trivial ?_) fun _ => trivial
  split
  · exact trivial
  · exact .ite trivial (h.supplied)

theorem commitTally (h : s.Keeps m i p t) (body : List Word) : (t.commitTally body).All (s.Keeps m i p) := by
  unfold State.commitTally
  extract_lets
  refine .ite trivial ?_
  split
  · exact trivial
  · exact h.data

theorem commitCoef (h : s.Keeps m i p t) (j : SubId) (body : List Word) : (t.commitCoef j body).All (s.Keeps m i p) := by
  unfold State.commitCoef
  extract_lets
  refine .ite trivial (.ite trivial (.ite trivial ?_))
  split
  · exact trivial
  · exact .ite trivial h.data

theorem commitKernel (h : s.Keeps m i p t) (body : List Word) : (t.commitKernel body).All (s.Keeps m i p) := by
  unfold State.commitKernel
  dsimp only
  refine .ite trivial (.ite trivial (.ite trivial (.ite trivial (.ite trivial ?_))))
  split
  · exact trivial
  · exact trivial
  · exact .ite trivial h.data

theorem commitWeight (h : s.Keeps m i p t) (j : SubId) (x : Txn) : (t.commitWeight j x).All (s.Keeps m i p) := by
  unfold State.commitWeight
  extract_lets
  refine .ite trivial (.ite trivial (.ite trivial (.ite trivial (.ite trivial ?_))))
  split
  · exact trivial
  · exact h.data

theorem commitDelay (h : s.Keeps m i p t) (j : SubId) (body : List Word) : (t.commitDelay j body).All (s.Keeps m i p) :=
  .ite trivial (.ite trivial (.ite trivial (.ite trivial (.ite trivial (.ite trivial h.data)))))

theorem commitHash (h : s.Keeps false i p t) (body : List Word) : (t.commitHash body).All (s.Keeps false i p) := by
  unfold State.commitHash
  extract_lets
  refine .ite trivial ?_
  split
  · exact trivial
  · exact .ite trivial (.ite trivial (State.Keeps.zeroGranary h.data))

/-- The rules of a table's class leave every state they commit to with what it had (R343). -/
theorem commitBody (h : s.Keeps false false false t) (x : Txn) (body : List Word) :
    (t.commitBody x body).All (s.Keeps false false false) := by
  unfold State.commitBody
  dsimp only
  split
  · exact h.commitFmt _ body
  · exact h.commitCurve body
  · exact h.commitPlan _ body
  · exact h.commitSeq body
  · exact h.commitTally body
  · exact h.commitCoef _ body
  · exact h.commitKernel body
  · exact h.commitWeight _ x
  · exact h.commitDelay _ body
  · exact h.commitHash body

/-- The commit of a TABLE_COMMIT: the body's rules, the transaction's end, and the freed staging space (R342, R344). -/
theorem commit (h : s.Keeps false false false t) {b : BenchId} {x : Txn} : s.Keeps false false false (t.commit b x).1 := by
  unfold State.commit
  extract_lets settled bs ws crc header body
  have one : s.Keeps false false false settled := h.settleTables
  clear_value settled
  refine .iteFst one (.iteFst one ?_)
  have ruled := one.commitBody x body
  generalize settled.commitBody x body = o at *
  cases o with
  | done u pending =>
    have taken : s.Keeps false false false u := ruled
    dsimp only
    exact .ite (State.Keeps.data taken).zero taken.data
  | busy => exact one
  | invalid off => exact one
  | wrongMode => exact one

/-! ### Answers of commands (R335) -/

theorem answer {r : State × Reply} {tests : List (Bool × BitVec 8)} (h : s.Keeps m i p t) (k : s.Keeps m i p r.1) :
    s.Keeps m i p (t.answer tests r).1 := by
  unfold State.answer
  split
  exacts [h, k]

theorem done (h : s.Keeps m i p t) {results : optParam (List Word) []} : s.Keeps m i p (done t results).1 := h

/-! ### Observation commands -/

theorem openTxn (h : s.Keeps false i p t) {b : BenchId} {cls n a : Nat} {j : SubId}
    (opens : t.openTxn b cls j n = some (u, a)) : s.Keeps false i p u := by
  rw [State.openTxn_eq] at opens
  obtain ⟨_, -, same⟩ := Option.map_eq_some_iff.mp opens
  obtain ⟨rfl, -⟩ := Prod.mk.inj same
  exact h.zero.data

theorem cmdTableBegin (h : s.Keeps false i p t) {b : BenchId} {x : Packet} :
    s.Keeps false i p (Machine.cmdTableBegin b x t).1 := by
  unfold Machine.cmdTableBegin
  refine h.answer (.iteFst h ?_)
  split
  · next opens => exact h.settleTables.openTxn opens
  · exact h

theorem cmdTableCommit (h : s.Keeps false false false t) {b : BenchId} {a : Packet} :
    s.Keeps false false false (Machine.cmdTableCommit b a t).1 := by
  unfold Machine.cmdTableCommit
  split
  · exact h.answer h.commit
  · exact h.answer h.done

theorem cmdTableAbort (h : s.Keeps false i p t) {b : BenchId} {a : Packet} :
    s.Keeps false i p (Machine.cmdTableAbort b a t).1 := by
  unfold Machine.cmdTableAbort
  split
  · exact h.answer h.dropTxn.done
  · exact h.answer h.done

theorem cmdTableQuery (h : s.Keeps m i p t) {b : BenchId} {a : Packet} :
    s.Keeps m i p (Machine.cmdTableQuery b a t).1 := h.answer h

theorem cmdObsDefine (h : s.Keeps false false p t) {b : BenchId} {a : Packet} :
    s.Keeps false false p (Machine.cmdObsDefine b a t).1 :=
  h.answer (.iteFst h.obsRelease.done h.obsDefine)

theorem cmdObsCheck (h : s.Keeps m i p t) {b : BenchId} {a : Packet} : s.Keeps m i p (Machine.cmdObsCheck b a t).1 := h.answer h

theorem cmdObsArm (h : s.Keeps false i p t) {b : BenchId} {a : Packet} : s.Keeps false i p (Machine.cmdObsArm b a t).1 :=
  h.answer h.obsArm

theorem cmdObsStartAt (h : s.Keeps m i p t) {b : BenchId} {a : Packet} : s.Keeps m i p (Machine.cmdObsStartAt b a t).1 :=
  h.answer h.startAt

theorem cmdObsStopAt (h : s.Keeps false false p t) {b : BenchId} {a : Packet} :
    s.Keeps false false p (Machine.cmdObsStopAt b a t).1 :=
  h.answer h.stopObs

theorem cmdDrainAt (h : s.Keeps false i p t) {b : BenchId} {a : Packet} : s.Keeps false i p (Machine.cmdDrainAt b a t).1 :=
  h.answer h.drainAt

theorem cmdResyncAt (h : s.Keeps m i p t) {b : BenchId} {a : Packet} : s.Keeps m i p (Machine.cmdResyncAt b a t).1 :=
  h.answer h.resyncAt

theorem cmdDelayLoad (h : s.Keeps m i p t) {b : BenchId} {a : Packet} : s.Keeps m i p (Machine.cmdDelayLoad b a t).1 :=
  h.answer h.delayLoad

theorem cmdWeightLoad (h : s.Keeps m i p t) {b : BenchId} {a : Packet} : s.Keeps m i p (Machine.cmdWeightLoad b a t).1 :=
  h.answer h.weightLoad

theorem cmdCoefSwap (h : s.Keeps m i p t) {b : BenchId} {a : Packet} : s.Keeps m i p (Machine.cmdCoefSwap b a t).1 :=
  h.answer h.coefSwap

theorem cmdDcbFreeze (h : s.Keeps m i p t) {b : BenchId} {a : Packet} : s.Keeps m i p (Machine.cmdDcbFreeze b a t).1 :=
  h.answer h.dcbFreeze

theorem cmdCellarTrigger (h : s.Keeps m i p t) {b : BenchId} {a : Packet} : s.Keeps m i p (Machine.cmdCellarTrigger b a t).1 :=
  h.answer h.cellarTrigger

theorem cmdCellarRelease (h : s.Keeps m i p t) {b : BenchId} {a : Packet} : s.Keeps m i p (Machine.cmdCellarRelease b a t).1 :=
  h.answer h.releaseCapture.done

/-! ### Commands of time, lanes and the Tally -/

theorem cmdTimeGet (h : s.Keeps m i p t) {b : BenchId} {a : Packet} :
    s.Keeps m i p (Machine.cmdTimeGet b a t).1 := h.answer h.done

theorem cmdTimeIncrement (h : s.Keeps m i p t) {b : BenchId} {a : Packet} : s.Keeps m i p (Machine.cmdTimeIncrement b a t).1 :=
  h.answer h.setIncrement.done

theorem cmdTimeStep (h : s.Keeps false i p t) {b : BenchId} {a : Packet} : s.Keeps false i p (Machine.cmdTimeStep b a t).1 :=
  h.answer h.stepTime.done

theorem cmdTimerSet (h : s.Keeps m i p t) {b : BenchId} {a : Packet} : s.Keeps m i p (Machine.cmdTimerSet b a t).1 :=
  h.answer h.data.done

theorem cmdCaptureGet (h : s.Keeps m i p t) {b : BenchId} {a : Packet} : s.Keeps m i p (Machine.cmdCaptureGet b a t).1 :=
  h.answer h.data

theorem setLanes (h : s.Keeps m i p t) {o : OctetId} {c : LaneOctCfg} : s.Keeps m i p (t.setLanes o c) :=
  (h.data.foldl fun _ _ k => k.data).foldl fun _ _ k => .ite (.ite k.settleFrame.trainLane k.settleFrame.startLane) k

theorem cmdLaneSet (h : s.Keeps m i p t) {b : BenchId} {a : Packet} : s.Keeps m i p (Machine.cmdLaneSet b a t).1 :=
  h.answer (.iteFst h h.setLanes.done)

theorem trainAsked (h : s.Keeps m i p t) {full : Bool} {l : LaneId} : s.Keeps m i p (t.trainAsked full l) :=
  .ite (.ite h h.trainLane) (.ite (.ite h.trainLane h.retrainLane) h)

theorem cmdLaneTrain (h : s.Keeps m i p t) {b : BenchId} {a : Packet} : s.Keeps m i p (Machine.cmdLaneTrain b a t).1 :=
  h.answer ((State.Keeps.ite (h.foldl fun _ _ k => k.trainAsked) h.trainAsked).done)

theorem cmdEyeScan (h : s.Keeps m i p t) {b : BenchId} {a : Packet} : s.Keeps m i p (Machine.cmdEyeScan b a t).1 :=
  h.answer (.iteFst h h.data)

theorem cmdLaneStats (h : s.Keeps m i p t) {b : BenchId} {a : Packet} :
    s.Keeps m i p (Machine.cmdLaneStats b a t).1 := h.answer h.done

theorem cmdOctetSet (h : s.Keeps m false p t) {b : BenchId} {a : Packet} : s.Keeps m false p (Machine.cmdOctetSet b a t).1 :=
  h.answer (.iteFst h (.iteFst h.applyOctet.done h.data))

theorem cmdTallyGet (h : s.Keeps m i p t) {b : BenchId} {a : Packet} :
    s.Keeps m i p (Machine.cmdTallyGet b a t).1 := h.answer h.done

theorem cmdTallyClear (h : s.Keeps m i p t) {b : BenchId} {a : Packet} : s.Keeps m i p (Machine.cmdTallyClear b a t).1 :=
  h.answer ((State.Keeps.ite h.clearSources h.clearSource).done)

theorem cmdTallyConfig (h : s.Keeps m i p t) {b : BenchId} {a : Packet} : s.Keeps m i p (Machine.cmdTallyConfig b a t).1 :=
  h.answer h.data.done

theorem moveMode (h : s.Keeps false false false t) {b : BenchId} {c : Nat} : s.Keeps false false false (t.moveMode b c).1 := by
  unfold State.moveMode
  extract_lets _ _
  refine .iteFst h.requestHold.mkFst (.iteFst (.iteFst h.runNow.setMode.mkFst ?_) (.iteFst h.beginSeq.mkFst
    (.iteFst h.beginSeq.mkFst h.setMode.mkFst)))
  have stopped : s.Keeps false false false ((allFin 4).foldl (fun
    (u : State) i => u.stopNow i) t) := h.foldl fun _ _ k => k.stopNow
  exact stopped.runNow.setMode.mkFst

theorem cmdModeRequest (h : s.Keeps false false false t) {b : BenchId} {a : Packet} :
    s.Keeps false false false (Machine.cmdModeRequest b a t).1 := by
  unfold Machine.cmdModeRequest
  extract_lets _ r1
  have kr1 : s.Keeps false false false r1.1 := h.moveMode
  split
  · exact h
  · exact .iteFst h kr1

theorem failRestore (h : s.Keeps m i p t) {b : TileId} : s.Keeps m i p (t.failRestore b) := by
  unfold State.failRestore
  split
  · exact h.data.finishCommand
  · exact h

theorem cmdTileRetire (h : s.Keeps m false p t) {b : BenchId} {a : Packet} :
    s.Keeps m false p (Machine.cmdTileRetire b a t).1 := by
  unfold Machine.cmdTileRetire
  refine h.answer ?_
  split
  · exact .ite h.askRetire.failRestore h.askRetire
  · exact h

theorem cmdTileRestore (h : s.Keeps m false p t) {b : BenchId} {a : Packet} :
    s.Keeps m false p (Machine.cmdTileRestore b a t).1 := by
  unfold Machine.cmdTileRestore
  split
  · exact h
  · split
    · exact h
    · exact .iteFst h (.iteFst h h.askIsland.data)

/-! ### Commands that move bytes -/

theorem freeWords (h : s.Keeps m i p t) {n : Nat} : s.Keeps m i p (t.freeWords n).1 := h.drawn

theorem undefine (h : s.Keeps false i p t) {c : MasterId} {a n : Nat} : s.Keeps false i p (t.undefine c a n) := by
  unfold State.undefine
  refine h.foldl fun u b k => ?_
  split
  · exact .ite k.freeBytes.store k
  · exact k

theorem copyOut (h : s.Keeps false i p t) {c : MasterId} {a : Nat} {bs : List Byte} :
    s.Keeps false i p (t.copyOut c a bs).1 := by
  unfold State.copyOut
  refine h.foldlFst fun r b k => ?_
  split
  · exact k
  · exact k.busWrite

theorem copyIn (h : s.Keeps false i p t) {c : MasterId} {a n : Nat} : s.Keeps false i p (t.copyIn c a n).1 := by
  unfold State.copyIn
  refine h.foldlFst fun r b k => ?_
  split
  · exact k
  · exact .iteFst k.busRead k.busRead

theorem routeWeights (h : s.Keeps false i p t) {j : SubId} {w : WeightSpan} {n : Nat} {vs : List Word} :
    s.Keeps false i p (t.routeWeights j w n vs).1 := by
  induction vs generalizing t n with
  | nil => exact h
  | cons v vs ih => exact .iteFst (ih h.putWeights) h

theorem undefineWeight (h : s.Keeps false i p t) {b : SubId} {w : WeightSpan} {c : Nat} :
    s.Keeps false i p (t.undefineWeight b w c) := by
  unfold State.undefineWeight
  split
  · exact h.freeBytes.store
  · exact h

theorem stageWeights (h : s.Keeps false i p t) {b : BenchId} {x : Txn} {off : Nat} {ws : List Word} :
    s.Keeps false i p (t.stageWeights b x off ws).1 := by
  unfold State.stageWeights
  extract_lets _ _ t1 _ _ _ r2 _ u3
  have kt1 : s.Keeps false i p t1 := h.store
  have kr2 : s.Keeps false i p r2.1 := kt1.routeWeights
  have ku3 : s.Keeps false i p u3 := kr2.data
  split
  · exact ku3.foldl fun _ _ k => k.undefineWeight
  · exact ku3

-- the copy stands for any operation here: the kernel would otherwise run it
theorem cmdBulkWrite (h : s.Keeps false i p t) {b : BenchId} {a : Packet} :
    s.Keeps false i p (Machine.cmdBulkWrite b a t).1 := by
  unfold Machine.cmdBulkWrite
  obtain ⟨copy, hcopy⟩ : ∃ copy, @State.copyOut = copy := ⟨_, rfl⟩
  have copies (k : MasterId) (n : Nat) (bytes : List Byte) : s.Keeps false i p (copy t k n bytes).1 := hcopy ▸ h.copyOut
  rw [hcopy]
  clear hcopy
  dsimp only
  refine h.answer ?_
  split
  · exact .iteFst h.stageWeights.mkFst (mkFst (copies ..))
  · split
    · exact State.Keeps.mkFst (State.Keeps.undefine (copies ..))
    · exact mkFst (copies ..)

theorem cmdBulkRead (h : s.Keeps false i p t) {b : BenchId} {a : Packet} : s.Keeps false i p (Machine.cmdBulkRead b a t).1 :=
  h.answer h.copyIn.freeWords.data

theorem endBaler (h : s.Keeps m i p t) : s.Keeps m i p t.endBaler := by
  unfold State.endBaler
  split
  · exact .ite h.data h.data.finishCommand
  · exact h

theorem runBaler (h : s.Keeps m i p t) {b : BenchId} {code : BitVec 2} {raw stream outBytes : Nat} :
    s.Keeps m i p (t.runBaler b code raw stream outBytes) :=
  h.endBaler.data

theorem endBale (h : s.Keeps m i p t) {b : BenchId} {code : BitVec 2} {e : BaleEnd} {outBytes : Nat} :
    s.Keeps m i p (t.endBale b code e outBytes).1 := by
  unfold State.endBale
  extract_lets s1
  have ks1 : s.Keeps m i p s1 := h.data
  split
  · exact .iteFst ks1.data ks1.runBaler
  · exact ks1.data
  · exact ks1.data.raise.data
  · exact ks1.data

theorem balerAnswer {r : State × Option Reply} {tests : List (Bool × BitVec 8)} (h : s.Keeps m i p t) (k : s.Keeps m i p r.1) :
    s.Keeps m i p (t.balerAnswer tests r).1 := by
  unfold State.balerAnswer
  split
  exacts [h, k]

theorem doBale (h : s.Keeps false i p t) {b : BenchId} {c : Packet} {o : BaleOptions} : s.Keeps false i p (t.doBale b c o).1 :=
  (State.Keeps.ite h.baleJob.undefine h.baleJob).endBale

theorem cmdBale (h : s.Keeps false i p t) {b : BenchId} {x : Packet} : s.Keeps false i p (Machine.cmdBale b x t).1 := by
  unfold Machine.cmdBale
  dsimp only
  refine h.balerAnswer ?_
  split
  · exact h
  · exact h.doBale

theorem cmdUnbale (h : s.Keeps false i p t) {b : BenchId} {a : Packet} :
    s.Keeps false i p (Machine.cmdUnbale b a t).1 := by
  unfold Machine.cmdUnbale
  dsimp only
  exact h.balerAnswer (State.Keeps.endBale h.unbaleJob)

theorem testTile (h : s.Keeps m false p t) {b : TileId} {pass : Bool} : s.Keeps m false p (t.testTile b pass) :=
  .ite h.data h.data.retireNow

theorem testTiles (h : s.Keeps m false p t) {mask : Nat} : s.Keeps m false p (t.testTiles mask).1 :=
  h.freeWords.foldl fun _ _ k => .ite k.testTile k

theorem repairRow (h : s.Keeps false i p t) {b : Nat} {r : RepairRow} : s.Keeps false i p (t.repairRow b r) :=
  .ite h.data (.ite h.drawn.data h.drawn.data.zero.data)

theorem testRepair (h : s.Keeps false i p t) : s.Keeps false i p t.testRepair.1 := h.foldl fun _ _ k => k.repairRow

theorem testEngines (h : s.Keeps m i p t) {mask : Nat} : s.Keeps m i p (t.testEngines mask).1 := h.drawn

theorem testSram (h : s.Keeps m i p t) : s.Keeps m i p t.testSram.1 := h.freeWords

theorem cmdSelftest (h : s.Keeps false false p t) {b : BenchId} {a : Packet} :
    s.Keeps false false p (Machine.cmdSelftest b a t).1 :=
  h.answer (.iteFst h.testTiles (.iteFst h.testRepair (.iteFst h.testEngines (.iteFst h h.testSram))))

theorem peekWords (h : s.Keeps false i p t) {a n : Nat} : s.Keeps false i p (t.peekWords a n).1 := by
  induction n generalizing t a with
  | zero => exact h
  | succ n ih => exact .iteFst (ih h.busRead) h.busRead

theorem pokeWords (h : s.Keeps false i p t) {a : Nat} {vs : List Word} : s.Keeps false i p (t.pokeWords a vs).1 := by
  induction vs generalizing t a with
  | nil => exact h
  | cons v vs ih => exact .iteFst (ih h.busWrite) h.busWrite

theorem cmdPeek (h : s.Keeps false i p t) {b : BenchId} {a : Packet} : s.Keeps false i p (Machine.cmdPeek b a t).1 :=
  h.answer h.peekWords

theorem cmdPoke (h : s.Keeps false i p t) {b : BenchId} {a : Packet} : s.Keeps false i p (Machine.cmdPoke b a t).1 :=
  h.answer h.pokeWords

/-! ### The store (R356, R437) -/

theorem cmdStoreWrite (h : s.Keeps m i p t) {b : BenchId} {a : Packet} : s.Keeps m i p (Machine.cmdStoreWrite b a t).1 :=
  h.answer (.iteFst h (.iteFst h.drawn.data h.data.done))

theorem provision (h : s.Keeps m i p t) {c : StoreCopy} (made : t.provision c = some u) : s.Keeps m i p u := by
  unfold State.provision at made
  split at made
  · exact Option.some.inj made ▸ h
  · split at made
    · exact Option.some.inj made ▸ h
    · split at made
      · exact absurd made (by simp)
      · exact Option.some.inj made ▸ h.data

theorem cmdStoreActivate (h : s.Keeps m i p t) {b : BenchId} {x : Packet} :
    s.Keeps m i p (Machine.cmdStoreActivate b x t).1 := by
  unfold Machine.cmdStoreActivate
  refine h.answer (.iteFst h (.iteFst h ?_))
  split
  · exact h
  · split
    · exact h
    · next made => exact .iteFst h (h.provision made).data

theorem cmdStoreQuery (h : s.Keeps m i p t) {b : BenchId} {a : Packet} : s.Keeps m i p (Machine.cmdStoreQuery b a t).1 :=
  h.answer h.done

end State.Keeps

end Sys2Proof.Machine
end

section
/-! What the operations keep: the starts, records, sessions and datagrams.
Each lemma says of one operation that it loses nothing of what the state before it kept (`State.Keeps`), and which of memory,
the islands and the rest of the Bellows it may change. -/

namespace Sys2Proof.Machine

variable {s t u : State} {m i p : Bool}

namespace State.Keeps

/-! ### Starts (chapter 17) -/

theorem restartGraces (h : s.Keeps m i p t) : s.Keeps m i p t.restartGraces := h.foldl fun _ _ k => k.data

theorem coldStartOf (h : s.Keeps false false false t) {cause : BitVec 4} : s.Keeps false false false (t.coldStartOf cause) := by
  unfold State.coldStartOf
  refine State.Keeps.beginSeq ?_
  exact h.trans ⟨⟨rfl, List.prefix_rfl, Nat.le_refl _, fun _ => rfl⟩, fun on => absurd on (by decide),
    fun on => absurd on (by decide), fun on => absurd on (by decide)⟩

theorem warmStartOf (h : s.Keeps false false false t) {cause : BitVec 4} : s.Keeps false false false (t.warmStartOf cause) :=
  (h.trans ⟨⟨rfl, List.prefix_rfl, Nat.le_refl _, fun wf => SMap.wf_keep wf⟩, fun on => absurd on (by decide),
    fun on => absurd on (by decide), fun on => absurd on (by decide)⟩ : s.Keeps false false false (t.warmStartOf cause))

theorem beginStart (h : s.Keeps false false false t) {cause : BitVec 4} : s.Keeps false false false (t.beginStart cause) :=
  .ite h (.ite h.warmStartOf h.coldStartOf)

theorem takeRestart (h : s.Keeps false false false t) : s.Keeps false false false t.takeRestart := by
  unfold State.takeRestart
  split
  · exact h.data.beginStart
  · exact h

/-- The commit's state, or the one before it. -/
theorem taken (h : s.Keeps false false false t) (o : Commit) :
    o.All (s.Keeps false false false) → s.Keeps false false false (match o with
      | .done u _ => u
      | _ => t) := by
  intro k
  cases o with
  | done u pending => exact k
  | busy => exact h
  | invalid off => exact h
  | wrongMode => exact h

theorem loadTable (h : s.Keeps false false false t) {c : StoreCopy} {warm : Bool} {x : Section} :
    s.Keeps false false false (t.loadTable c warm x) := by
  unfold State.loadTable
  extract_lets body cls ride e take put
  clear_value cls
  refine .ite h (State.Keeps.data ?_)
  unfold put
  split
  · exact h.taken _ (h.commitCurve body)
  · exact h.taken _ (h.commitSeq body)
  · exact h.foldl fun _ _ k => k.data
  · exact h.taken _ (h.commitKernel body)
  · exact h.data

theorem loadArea (h : s.Keeps m i p t) {c : StoreCopy} {warm : Bool} : s.Keeps m i p (t.loadArea c warm) :=
  .ite (.ite h.data h.data) (.ite h.data h.data)

theorem bootCopy (h : s.Keeps false false false t) {b : Bool} : s.Keeps false false false (t.bootCopy b) := by
  unfold State.bootCopy
  extract_lets _ _ _ _ t1 t2 t3 t4
  have kt1 : s.Keeps false false false t1 := h.data
  have kt2 : s.Keeps false false false t2 := kt1.loadArea
  have kt3 : s.Keeps false false false t3 := kt2.foldl fun _ _ k => k.loadTable
  have kt4 : s.Keeps false false false t4 := by
    unfold t4
    split <;> exact kt3.data
  split
  · exact kt2.data
  · split
    · exact kt3
    · split
      · exact kt4.supplied
      · exact kt4

theorem copyFirmware (h : s.Keeps false i p t) {b : Bool} : s.Keeps false i p (t.copyFirmware b) := by
  unfold State.copyFirmware
  extract_lets
  split
  · exact .ite h h.store
  · exact h

theorem bootStep (h : s.Keeps false false false t) : s.Keeps false false false t.bootStep := by
  unfold State.bootStep
  extract_lets t1
  have kt1 : s.Keeps false false false t1 := by
    unfold t1
    split
    · exact h.bootCopy.copyFirmware
    · exact h.data
  exact kt1.data

theorem powerStep (h : s.Keeps m false p t) {n : Nat} : s.Keeps m false p (t.powerStep n) :=
  h.foldl fun _ _ k => .dite (fun _ => .ite k k.onIsland) fun _ => k

theorem enterStep (h : s.Keeps m false false t) {n : Nat} : s.Keeps m false false (t.enterStep n) := by
  unfold State.enterStep
  extract_lets _ _ t1 t2
  have kt1 : s.Keeps m false false t1 := h.data
  have kt2 : s.Keeps m false false t2 := kt1.powerStep
  split
  · exact h.data.powerStep.data
  · exact h.data.powerStep.foldl fun _ _ k => .ite k.startOctet k
  · exact h.data.powerStep.beginSeq
  · exact kt2

theorem granaryStep (h : s.Keeps false i p t) {r : StepReport} : s.Keeps false i p (t.granaryStep r) := by
  unfold State.granaryStep
  extract_lets t1 t2 t3
  have kt1 : s.Keeps false i p t1 := h.foldl fun _ _ k => k.trainChan
  clear_value t1
  have kt2 : s.Keeps false i p t2 := kt1.foldl fun _ _ k => .ite k.zeroQuad k
  clear_value t2
  have kt3 : s.Keeps false i p t3 := kt2.foldl fun _ _ k => k.data
  clear_value t3
  exact kt3.data

theorem clearSrams (h : s.Keeps false i p t) : s.Keeps false i p t.clearSrams := h.zero.zero

theorem engineStep (h : s.Keeps m false p t) {r : StepReport} : s.Keeps m false p (t.engineStep r) :=
  (h.foldl fun _ _ k => .ite k.onIsland.raise k).foldl fun _ _ k => k.data

theorem startTile (h : s.Keeps m false p t) {r : StepReport} {b : TileId} : s.Keeps m false p (t.startTile r b) :=
  .ite h.data (.ite h.data.announceFail.onIsland.data h.data)

theorem tileStep (h : s.Keeps m false p t) {r : StepReport} : s.Keeps m false p (t.tileStep r) :=
  ((h.foldl fun _ _ k => k.startTile).foldl fun _ _ k => k.data).showAll

theorem finishRoll (h : s.Keeps m i p t) : s.Keeps m i p t.finishRoll := .ite h.data.setMode.setIrq.setIrq h.data.setMode

theorem foremanUp (h : s.Keeps m i p t) : s.Keeps m i p t.foremanUp := .ite h.data.restartGraces h.data

theorem afterRails (h : s.Keeps m false false t) : s.Keeps m false false t.afterRails :=
  .ite h.data.enterStep.data.enterStep h.data.enterStep

theorem rollStep (h : s.Keeps false false false t) {r : StepReport} : s.Keeps false false false (t.rollStep r) := by
  unfold State.rollStep
  dsimp only
  split
  · exact .ite (State.Keeps.data (h.bellows (x := { t.bell with running := none }))) (.ite h.afterRails h)
  · exact .ite (State.Keeps.enterStep (State.Keeps.data h)) h
  · exact (State.Keeps.enterStep (State.Keeps.data h.bootStep)).foremanUp
  · exact .ite (.data (.ite h (State.Keeps.data h.granaryStep))) (State.Keeps.enterStep (.ite h
    (State.Keeps.data h.granaryStep)))
  · exact State.Keeps.enterStep (State.Keeps.data h.clearSrams)
  · exact State.Keeps.enterStep (State.Keeps.data h.engineStep)
  · exact State.Keeps.enterStep (State.Keeps.data h.tileStep)
  · exact .ite (State.Keeps.enterStep h.data) h
  · exact .ite (State.Keeps.finishRoll h.data) h
  · exact h

/-! ### The ladder (R394 to R399) -/

theorem resetEngine (h : s.Keeps m i p t) {e : EngineId} : s.Keeps m i p (t.resetEngine e) := by
  unfold State.resetEngine
  extract_lets
  split
  · exact .ite h.data h
  · exact h

theorem resetTile (h : s.Keeps m i p t) {b : TileId} : s.Keeps m i p (t.resetTile b) := .ite h h.returnJobs.data

theorem resetOctet (h : s.Keeps m i p t) {o : OctetId} : s.Keeps m i p (t.resetOctet o) := .ite h h.trainOctet.data

theorem resetIsland (h : s.Keeps m false p t) {b : IslandId} : s.Keeps m false p (t.resetIsland b) :=
  .ite h h.askIsland.askIsland

theorem blockReset (h : s.Keeps false false false t) {b : SourceId} {detail : Word} :
    s.Keeps false false false (t.blockReset b detail) := by
  unfold State.blockReset
  extract_lets
  split
  · exact h.resetOctet
  · split
    · exact h.resetEngine
    · split
      · exact .dite (fun _ => h.resetTile) fun _ => h
      · exact .ite h.resetDrayman (.ite h.resetMaster (.ite h.seqAgain (.ite (.dite (fun _ => h.resetIsland) fun _ => h)
        (.ite h.resetMaster.emit h))))

theorem stepAll (h : s.Keeps m i p t) {js : List SourceId} : s.Keeps m i p (t.stepAll js) := h.foldl fun _ _ k => k.data

theorem chipStep (h : s.Keeps false false false t) {b : SourceId} : s.Keeps false false false (t.chipStep b) :=
  .ite h.stepAll.data.requestHold h.stepAll.data.beginStart

theorem expire (h : s.Keeps false false false t) {b : SourceId} : s.Keeps false false false (t.expire b) := by
  unfold State.expire
  extract_lets _ t1
  have kt1 : s.Keeps false false false t1 := h.data
  split
  · exact h.data
  · split
    · exact kt1.data
    · exact kt1.stepAll.emit
    · split
      · exact kt1.data
      · split
        · exact kt1.stepAll.blockReset
        · exact kt1.chipStep

theorem graceExpiry (h : s.Keeps false false false t) {src : SourceId} : s.Keeps false false false (t.graceExpiry src) :=
  .ite h.expire h

/-! ### Records written (R340) -/

theorem clearOnRead (h : s.Keeps m i p t) {code b lo n : Nat} : s.Keeps m i p (t.clearOnRead code b lo n) := by
  unfold State.clearOnRead
  extract_lets
  split
  · split
    · exact .ite h.data h
    · exact h
  · split
    · exact .ite h.data h
    · exact h
  · exact .ite h.data h
  · exact h

theorem cmdGetRecord (h : s.Keeps m i p t) {b : BenchId} {a : Packet} : s.Keeps m i p (Machine.cmdGetRecord b a t).1 :=
  h.answer h.clearOnRead

theorem cmdIdentify (h : s.Keeps m i p t) {_b : BenchId} {a : Packet} :
    s.Keeps m i p (Machine.cmdIdentify _b a t).1 := h.answer h

theorem cmdGetStatus (h : s.Keeps m i p t) {b : BenchId} {a : Packet} :
    s.Keeps m i p (Machine.cmdGetStatus b a t).1 := h.answer h

theorem setSieve (h : s.Keeps m i p t) {b : SubId} {ws : Writes} : s.Keeps m i p (t.setSieve b ws).1 :=
  .iteFst h (.ite h.data h.data)

theorem setMill (h : s.Keeps m i p t) {b : SubId} {ws : Writes} : s.Keeps m i p (t.setMill b ws).1 :=
  .iteFst h (.iteFst h (.iteFst h h.data))

theorem setAssay (h : s.Keeps m i p t) {b : SubId} {ws : Writes} : s.Keeps m i p (t.setAssay b ws).1 :=
  .iteFst h (.iteFst h (.ite ((State.Keeps.ite h.data h.data).gainCommit) (.ite h.data h.data)))

theorem setGain (h : s.Keeps m i p t) {b : SubId} {input n : Nat} {ws : Writes} : s.Keeps m i p (t.setGain b input n ws).1 :=
  .iteFst h h.data

theorem setLoom (h : s.Keeps m i p t) {b : SubId} {ws : Writes} : s.Keeps m i p (t.setLoom b ws).1 :=
  .iteFst h (.ite h.data h.data)

theorem setLedger (h : s.Keeps m i p t) {b : SubId} {ws : Writes} : s.Keeps m i p (t.setLedger b ws).1 := .iteFst h h.data

theorem setBeam (h : s.Keeps m i p t) {b : SubId} {ws : Writes} : s.Keeps m i p (t.setBeam b ws).1 :=
  .iteFst h (.ite h.data h.data)

theorem setGran (h : s.Keeps m i p t) {ws : Writes} : s.Keeps m i p (t.setGran ws).1 := .iteFst h h.data

theorem setRepair (h : s.Keeps m i p t) {ws : Writes} : s.Keeps m i p (t.setRepair ws).1 :=
  .iteFst h (.iteFst h (.iteFst h h.data))

theorem setTime (h : s.Keeps m i p t) {ws : Writes} : s.Keeps m i p (t.setTime ws).1 :=
  .iteFst h (.ite h.data h.data.dreqPassed)

theorem setBench (h : s.Keeps m i p t) {b : BenchId} {ws : Writes} : s.Keeps m i p (t.setBench b ws).1 := by
  unfold State.setBench
  extract_lets t1
  have kt1 : s.Keeps m i p t1 := by
    unfold t1
    split
    · exact h.clearIrq
    · exact h
  split
  · exact kt1.writeIrqEnable
  · exact kt1

theorem setMgmt (h : s.Keeps m i p t) {b : PortId} {ws : Writes} : s.Keeps m i p (t.setMgmt b ws).1 := .iteFst h h.data

theorem setDray (h : s.Keeps m i p t) {c : DrayId} {ws : Writes} : s.Keeps m i p (t.setDray c ws).1 :=
  .iteFst h (.iteFst h (.ite ((State.Keeps.ite h.data h.data).drayGo) (.ite h.data h.data)))

theorem setBell (h : s.Keeps m i false t) {ws : Writes} : s.Keeps m i false (t.setBell ws).1 := .iteFst h h.supplied

/-- A record of an index in range is changed, and no other (R340). -/
theorem indexed (h : s.Keeps m i p t) {n k : Nat} {f : Fin n → State} (each : ∀ j, s.Keeps m i p (f j)) :
    s.Keeps m i p (match inRange n k with
      | some j => f j
      | none => t) := by
  split
  exacts [each _, h]

theorem clearSeen (h : s.Keeps m i false t) {code k : Nat} {ws : Writes} : s.Keeps m i false (t.clearSeen code k ws) := by
  unfold State.clearSeen
  dsimp only
  split
  case h_11 | h_12 | h_14 | h_15 => exact h.data
  case h_17 => exact h.onBellStat
  case h_18 => exact h
  all_goals exact h.indexed fun _ => h.data

theorem indexedFst (h : s.Keeps m i p t) {n k : Nat} {f : Fin n → Wrote} (each : ∀ j, s.Keeps m i p (f j).1) :
    s.Keeps m i p (match inRange n k with
      | some j => f j
      | none => (t, stBadParam)).1 := by
  split
  exacts [each _, h]

theorem writeRecord (h : s.Keeps m i false t) {code k len : Nat} {ws : Writes} :
    s.Keeps m i false (t.writeRecord code k len ws).1 := by
  unfold State.writeRecord
  dsimp only
  split
  · exact h.indexedFst fun _ => h.setSieve
  · exact h.indexedFst fun _ => h.setMill
  · exact h.indexedFst fun _ => h.setAssay
  · exact h.indexedFst fun _ => h.setGain
  · exact h.indexedFst fun _ => h.setLoom
  · exact h.indexedFst fun _ => h.setBeam
  · exact h.indexedFst fun _ => h.setLedger
  · exact h.setGran
  · exact h.setRepair
  · exact h.setTime
  · exact h.indexedFst fun _ => h.setBench
  · exact h.indexedFst fun _ => h.setMgmt
  · exact h.indexedFst fun _ => h.setDray
  · exact h.setBell
  · exact .iteFst h h.clearSeen

theorem cmdSetRecord (h : s.Keeps m i false t) {b : BenchId} {a : Packet} : s.Keeps m i false (Machine.cmdSetRecord b a t).1 :=
  h.answer h.writeRecord

/-! ### Sessions and commands taken (R310 to R314, R324) -/

theorem cmdHello (h : s.Keeps false false false t) {b : BenchId} {slot : Fin 8} {a : Packet} :
    s.Keeps false false false (Machine.cmdHello b slot a t).1 :=
  h.answer (.ite ((State.Keeps.ite h.closeSession h).openSession) ((State.Keeps.ite h.closeSession h).openSession.data))

theorem cmdLease (h : s.Keeps m i p t) {b : BenchId} {a : Packet} : s.Keeps m i p (Machine.cmdLease b a t).1 :=
  h.answer h.setHolder.data.done

theorem cmdRelease (h : s.Keeps false false false t) {b : BenchId} {a : Packet} :
    s.Keeps false false false (Machine.cmdRelease b a t).1 :=
  h.answer ((State.Keeps.ite h.dropLeases h.dropLease).done)

theorem cmdHeartbeat (h : s.Keeps m i p t) {b : BenchId} {a : Packet} : s.Keeps m i p (Machine.cmdHeartbeat b a t).1 :=
  h.answer h.data.done

theorem runLow (h : s.Keeps false false false t) {b : BenchId} {op : Nat} {c : Packet} :
    s.Keeps false false false (t.runLow b op c).1 := by
  unfold State.runLow
  split
  · exact h.cmdHello
  · exact h.cmdLease
  · exact h.cmdRelease
  · exact h.cmdHeartbeat
  · exact h.cmdIdentify
  · exact h.cmdGetRecord
  · exact h.cmdSetRecord
  · exact h.cmdGetStatus
  · exact h.cmdTableBegin
  · exact h.cmdTableCommit
  · exact h.cmdTableAbort
  · exact h.cmdTableQuery
  · exact h

theorem runObs (h : s.Keeps false false p t) {b : BenchId} {op : Nat} {c : Packet} :
    s.Keeps false false p (t.runObs b op c).1 := by
  unfold State.runObs
  split
  · exact h.cmdObsDefine
  · exact h.cmdObsCheck
  · exact h.cmdObsArm
  · exact h.cmdObsStartAt
  · exact h.cmdObsStopAt
  · exact h.cmdDrainAt
  · exact h.cmdResyncAt
  · exact h.cmdDelayLoad
  · exact h.cmdWeightLoad
  · exact h.cmdCoefSwap
  · exact h.cmdDcbFreeze
  · exact h.cmdCellarTrigger
  · exact h.cmdCellarRelease
  · exact h.cmdTimeGet
  · exact h.cmdTimeIncrement
  · exact h.cmdTimeStep
  · exact h.cmdTimerSet
  · exact h.cmdCaptureGet
  · exact h

theorem runHigh (h : s.Keeps false false false t) {b : BenchId} {op : Nat} {c : Packet} :
    s.Keeps false false false (t.runHigh b op c).1 := by
  unfold State.runHigh
  split
  · exact h.cmdLaneSet
  · exact h.cmdLaneTrain
  · exact h.cmdEyeScan
  · exact h.cmdLaneStats
  · exact h.cmdBulkWrite
  · exact h.cmdBulkRead
  · exact h.cmdTallyGet
  · exact h.cmdTallyClear
  · exact h.cmdTallyConfig
  · exact h.cmdModeRequest
  · exact h.cmdTileRetire
  · exact h.cmdTileRestore
  · exact h.cmdOctetSet
  · exact h.cmdStoreWrite
  · exact h.cmdStoreActivate
  · exact h.cmdStoreQuery
  · exact h.cmdBale
  · exact h.cmdUnbale
  · exact h.cmdSelftest
  · exact h.cmdPeek
  · exact h.cmdPoke
  · exact h

theorem runOp (h : s.Keeps false false false t) {b : BenchId} {op : BitVec 8} {c : Packet} :
    s.Keeps false false false (t.runOp b op c).1 :=
  .iteFst h.runLow (.iteFst h.runObs h.runHigh)

theorem settle (h : s.Keeps false false false t) : s.Keeps false false false t.settle := by
  unfold State.settle
  extract_lets _ t1
  have kt1 : s.Keeps false false false t1 := by
    unfold t1
    split
    · exact h.data
    · exact h
  exact kt1.takeRestart

theorem answered {r : Ran} (h : s.Keeps false false false r.1) {b : BenchId} {op : BitVec 8} {tag : Word} {counted : Bool} :
    s.Keeps false false false (State.answered b op tag counted r) := by
  unfold State.answered
  split
  · exact h.putReply.settle
  · exact h.data

theorem carriedOut (h : s.Keeps false false false t) {x : Packet} {run : State → Ran}
    (each : ∀ u, s.Keeps false false false u → s.Keeps false false false (run u).1) :
    s.Keeps false false false (t.carriedOut x run).1 := by
  unfold State.carriedOut
  split
  · exact (State.Keeps.ite (each _ h) h).raise
  · exact each _ h

theorem carry (h : s.Keeps false false false t) {b : BenchId} {op : BitVec 8} {x : Packet} {run : State → Ran}
    (each : ∀ u, s.Keeps false false false u → s.Keeps false false false (run u).1) :
    s.Keeps false false false (t.carry b op x run) :=
  .ite (State.Keeps.answered (State.Keeps.data h)) (State.Keeps.answered (State.Keeps.carriedOut h.data each))

theorem carryRaw (h : s.Keeps false false false t) {b : BenchId} {ws : List Word} :
    s.Keeps false false false (t.carryRaw b ws) :=
  .ite (State.Keeps.answered (State.Keeps.data h))
    (.ite (State.Keeps.answered (State.Keeps.freeWords (State.Keeps.data h)).runOp) (State.Keeps.answered (State.Keeps.data h)))

theorem serveN (h : s.Keeps false false false t) {n : Nat} : s.Keeps false false false (t.serveN n) := by
  induction n generalizing t with
  | zero => exact h
  | succ n ih =>
    unfold State.serveN
    split
    · exact ih (State.Keeps.carryRaw h.data)
    · exact h

theorem serve (h : s.Keeps false false false t) : s.Keeps false false false t.serve := h.serveN

theorem postRaw (h : s.Keeps m i p t) {b : BenchId} {ws : List Word} : s.Keeps m i p (t.postRaw b ws) :=
  .ite h.protoError h.data

theorem holdRaw (h : s.Keeps m i p t) {b : BenchId} {ws : List Word} : s.Keeps m i p (t.holdRaw b ws) := by
  unfold State.holdRaw
  extract_lets
  split
  · exact h.data
  · exact h.protoError

theorem missed (h : s.Keeps m i p t) {b : BenchId} : s.Keeps m i p (t.missed b) := .ite h.data h

theorem wait (h : s.Keeps m i p t) {b : BenchId} {ws : List Word} : s.Keeps m i p (t.wait b ws) := .ite h.postRaw h.data.holdRaw

theorem posted (h : s.Keeps m i p t) {b : BenchId} : s.Keeps m i p (t.posted b) := .ite h.data h.data

theorem hand (h : s.Keeps false false false t) {b : BenchId} {op : BitVec 8} {x : Packet} {run : State → Ran}
    (each : ∀ u, s.Keeps false false false u → s.Keeps false false false (run u).1) :
    s.Keeps false false false (t.hand b op x run) :=
  .ite h.missed (.ite (State.Keeps.serve (State.Keeps.carry h.posted each)) h.wait)

theorem handBus (h : s.Keeps false false false t) {b : BenchId} {op : BitVec 8} {x : Packet} {run : State → Ran}
    (each : ∀ u, s.Keeps false false false u → s.Keeps false false false (run u).1) :
    s.Keeps false false false (t.handBus b op x run) := .ite h.wait (h.hand each)

theorem handRaw (h : s.Keeps false false false t) {b : BenchId} {ws : List Word} : s.Keeps false false false (t.handRaw b ws) :=
  .ite h.missed (.ite h.posted.carryRaw.serve h.wait)

theorem served (h : s.Keeps false false false t) : s.Keeps false false false (u.served t) := .ite h h.serve

theorem replyStray (h : s.Keeps m i p t) {b : BenchId} {slot : Fin 8} {peer : Option Peer} {words : List Word} :
    s.Keeps m i p (t.replyStray b slot peer words) := by
  unfold State.replyStray
  split
  · exact h.emit
  · exact h

theorem openFrom (h : s.Keeps false false false t) {b : BenchId} {slot : Fin 8} {peer : Option Peer} {seq : Nat} {x : Packet} :
    s.Keeps false false false (t.openFrom b slot peer seq x) :=
  .ite (State.Keeps.answered (State.Keeps.data h.cmdHello)) h.replyStray

theorem helloRow (h : s.Keeps false false false t) {b : BenchId} {slot : Fin 8} {c : Packet} :
    s.Keeps false false false (t.helloRow b slot c) :=
  .ite h (.ite h.data h.data.openFrom)

/-! ### Datagrams and host writes (R310 to R321) -/

theorem takeCommand (h : s.Keeps false false false t) {b : BenchId} {d : Dgram} :
    s.Keeps false false false (t.takeCommand b d) := by
  unfold State.takeCommand
  extract_lets
  split
  · exact .ite h h.data.serve
  · split
    · exact h.sendDatagram.data
    · exact .ite h h.protoError

theorem takeBulkPut (h : s.Keeps m i p t) {b : BenchId} {d : Dgram} : s.Keeps m i p (t.takeBulkPut b d) := h.data.sendDatagram

theorem takeBulkGet (h : s.Keeps m i p t) {b : BenchId} {d : Dgram} : s.Keeps m i p (t.takeBulkGet b d) := h.sendDatagram

theorem takeHello (h : s.Keeps false false false t) {b : BenchId} {slot : Fin 8} {peer : Peer} {d : Dgram} :
    s.Keeps false false false (t.takeHello b slot peer d) :=
  .ite h.protoError (.ite h.openFrom h.replyStray)

theorem datagram (h : s.Keeps false false false t) {port : PortId} {peer : Peer} {bs : List Byte} :
    s.Keeps false false false (t.datagram port peer bs) := by
  unfold State.datagram
  extract_lets _ _ _ _ _ t1 t2
  have kt1 : s.Keeps false false false t1 := h.data
  have kt2 : s.Keeps false false false t2 := kt1.data
  split
  · exact h
  · split
    · exact h.data
    · split
      · exact h.data
      · split
        · exact h.data
        · split
          · exact kt1.takeHello
          · split
            · exact kt2.takeCommand
            · exact kt2.takeBulkPut
            · exact kt2.takeBulkGet

theorem postTo (h : s.Keeps false false false t) {f : FuncId} {value : BitVec 16} {packets : List (List Word)} :
    s.Keeps false false false (t.postTo f value packets) := by
  unfold State.postTo
  extract_lets b x n more new r
  have drawn : s.Keeps false false false r.1 := h.foldlFst fun _ _ k => k.freeWords.mkFst
  clear_value r
  exact .ite h.protoError (State.Keeps.serve drawn.data)

theorem freeReplies (h : s.Keeps false false false t) {f : FuncId} {value : BitVec 16} :
    s.Keeps false false false (t.freeReplies f value) :=
  .ite h.protoError h.data.serve

theorem flushMsix (h : s.Keeps m i p t) {f : FuncId} : s.Keeps m i p (t.flushMsix f) := .ite h h.data.emits

theorem bar0Write (h : s.Keeps false false false t) {f : FuncId} {b : Nat} {w : Word}
    {packets : optParam (List (List Word)) []} :
    s.Keeps false false false (t.bar0Write f b w packets) :=
  .ite h.postTo (.ite h.freeReplies (.ite h.clearIrq (.ite h.writeIrqEnable (.ite h.data.flushMsix h))))

theorem bar2Write (h : s.Keeps m i p t) {f : FuncId} {b : Nat} {w : Word} : s.Keeps m i p (t.bar2Write f b w) := .ite h.data h

theorem barWrite (h : s.Keeps false false false t) {f : FuncId} {two : Bool} {b : Nat} {ws : List Word}
    {poisoned : optParam Bool false} :
    s.Keeps false false false (t.barWrite f two b ws poisoned) :=
  .ite h (h.foldl fun _ _ k => .ite k.bar2Write k.bar0Write)

theorem resetFunction (h : s.Keeps false false false t) {f : FuncId} : s.Keeps false false false (t.resetFunction f) :=
  h.closeSession.data

theorem setLink (h : s.Keeps m i p t) {fs : List FuncId} {up : Bool} : s.Keeps m i p (t.setLink fs up) :=
  h.foldl fun _ _ k => k.data

theorem recA (h : s.Keeps m i p t) {lock : Bool} : s.Keeps m i p (t.recA lock) :=
  .ite h (.ite (.ite h.data h) (.ite h.disqualify h.data))

/-! ### Management frames (R287) -/

theorem ptpReceived (h : s.Keeps m i p t) {b : PortId} {f : MgmtFrame} {bs : List Byte} :
    s.Keeps m i p (t.ptpReceived b f bs) :=
  .ite (.ite ((State.Keeps.ite h.capture.dreqPassed h.capture).data) h.capture) h

theorem sendMgmt (h : s.Keeps m i p t) {b : PortId} {dst : Nat} {tag : Option Nat} {ether : Nat} {body : List Byte} :
    s.Keeps m i p (t.sendMgmt b dst tag ether body) :=
  h.emit

theorem answerArp (h : s.Keeps m i p t) {b : PortId} {f : MgmtFrame} {bs : List Byte} : s.Keeps m i p (t.answerArp b f bs) :=
  .ite h.sendMgmt h

theorem answerNs (h : s.Keeps m i p t) {b : PortId} {f : MgmtFrame} {bs : List Byte} : s.Keeps m i p (t.answerNs b f bs) :=
  .ite h.sendMgmt h

end State.Keeps

end Sys2Proof.Machine
end

section
/-! Every command and event, row by row (log entries 2 to 4): what a step keeps. -/

namespace Sys2Proof.Machine

variable {s t u : State} {m i p : Bool}

namespace State.Keeps

theorem execGranaryAccess (h : s.Keeps false false false t) {src : GranSource} {op : GranOp} {addr : BitVec 44}
    {rd : ReadOutcome} :
    s.Leads (Machine.execGranaryAccess src op addr rd t) := by
  unfold Machine.execGranaryAccess
  split
  · exact trivial
  · split
    · exact h
    · split
      · exact .ite h.data.emit (h.verified fun _ k => k.granuleRead)
      · exact .ite h.data.emit (h.verified fun _ k => k.granuleWrite)
      · exact .ite h.data.emit (h.verified fun _ k => k.granuleWrite)
      · exact .ite h.data.emit (.ite h (h.verified fun _ k => k.foldOne))

theorem execSrIdle (h : s.Keeps false false false t) {c : ChanId} : s.Leads (Machine.execSrIdle c t) := by
  unfold Machine.execSrIdle
  split
  · exact .ite h.data h
  · exact h

theorem execZeroFillDone (h : s.Keeps false false false t) {q : Fin 4} : s.Leads (Machine.execZeroFillDone q t) := by
  unfold Machine.execZeroFillDone
  have zeroed : s.Keeps false false false (t.zeroQuad q) := h.zeroQuad
  exact State.Keeps.ite (zeroed.foldl fun _ _ k => .ite k.data k) h

theorem execAckRepeat (h : s.Keeps false false false t) {l : LaneId} : s.Leads (Machine.execAckRepeat l t) := by
  unfold Machine.execAckRepeat
  refine State.Keeps.ite ?_ h
  split
  · exact h
  · exact .ite h.sendNak (State.Keeps.sendBlock h.data)

theorem execHuntTimeout (h : s.Keeps false false false t) {l : LaneId} : s.Leads (Machine.execHuntTimeout l t) := by
  unfold Machine.execHuntTimeout
  split
  · exact .ite h.retrainLane h
  · exact h

theorem execLaneBringupTimeout (h : s.Keeps false false false t) {l : LaneId} :
    s.Leads (Machine.execLaneBringupTimeout l t) := by
  unfold Machine.execLaneBringupTimeout
  split
  · exact .ite h.faultLane h
  · exact h

theorem execRetrainTimeout (h : s.Keeps false false false t) {l : LaneId} : s.Leads (Machine.execRetrainTimeout l t) := by
  unfold Machine.execRetrainTimeout
  split
  · exact .ite h.trainLane h
  · exact h

theorem execEyeScanPoint (h : s.Keeps false false false t) {l : LaneId} {errors : Nat} :
    s.Leads (Machine.execEyeScanPoint l errors t) := by
  unfold Machine.execEyeScanPoint
  dsimp only
  split
  · exact h.data
  · exact h

theorem execEthFrameReceived (h : s.Keeps false false false t) {l : LaneId} {frame : List Byte} {fec : FecReport} :
    s.Leads (Machine.execEthFrameReceived l frame fec t) := by
  unfold Machine.execEthFrameReceived
  refine State.Keeps.ite (.ite ?_ (.ite (State.Keeps.ethDiscard h.data) (State.Keeps.ethFrame h.data))) h
  split
  · exact State.Keeps.ethFrame h.data
  · exact h

theorem execIngressSamplePacket (h : s.Keeps false false false t) {l : LaneId} {bytes : List Byte} :
    s.Leads (Machine.execIngressSamplePacket l bytes t) := by
  unfold Machine.execIngressSamplePacket
  extract_lets arrived
  have one : s.Keeps false false false arrived := h.data
  refine State.Keeps.ite one (.ite one.onBellStat ?_)
  split
  · exact one.data
  · exact one.fileSamples

theorem execIngressStatusPacket (h : s.Keeps false false false t) {l : LaneId} {bytes : List Byte} :
    s.Leads (Machine.execIngressStatusPacket l bytes t) := by
  unfold Machine.execIngressStatusPacket
  extract_lets arrived
  have one : s.Keeps false false false arrived := h.data
  refine State.Keeps.ite one ?_
  split
  · exact one.data
  · exact .ite one.data (State.Keeps.relay one.data)

theorem execIngressJump (h : s.Keeps false false false t) {j : SubId} : s.Leads (Machine.execIngressJump j t) := by
  unfold Machine.execIngressJump
  dsimp only
  split
  · exact State.Keeps.ite (State.Keeps.raise h.data) h
  · exact h

theorem execUnitStaged (h : s.Keeps false false false t) {j : SubId} : s.Leads (Machine.execUnitStaged j t) := by
  unfold Machine.execUnitStaged
  extract_lets copies pick
  clear_value pick
  cases pick with
  | some e => exact h.stageUnit.settled
  | none => exact h

theorem execCondemn (h : s.Keeps false false false t) {i : SubId} : s.Leads (Machine.execCondemn i t) := by
  unfold Machine.execCondemn
  split
  · exact .ite h h.condemn.data.flushFull.noteFilled.settled
  · exact h

theorem execShelfEcc (h : s.Keeps false false false t) {i : SubId} {site : ShelfSite} :
    s.Leads (Machine.execShelfEcc i site t) := by
  unfold Machine.execShelfEcc
  split
  · exact h.data
  · split
    · exact .ite h (.ite h.data.raise.restage h.data.raise.loseUnit.settled)
    · exact h

theorem execAssayFrame (h : s.Keeps false false false t) {sl : SliceId} : s.Leads (Machine.execAssayFrame sl t) := by
  unfold Machine.execAssayFrame
  split
  · exact h
  · exact (h.data.foldl fun _ _ k => k.assayBin).noteFilled.settled

theorem ingressApplied (h : s.Keeps m i p t) {b : SubId} {k : Nat} : s.Keeps m i p (t.applyIngress b k) := h.data

theorem execFrontEndSpanBoundary (h : s.Keeps false false false t) {j : SubId} :
    s.Leads (Machine.execFrontEndSpanBoundary j t) := by
  unfold Machine.execFrontEndSpanBoundary
  extract_lets x n done published applied
  have one : s.Keeps false false false applied := State.Keeps.data (State.Keeps.ingressApplied
    (State.Keeps.data h.completeLevels))
  refine State.Keeps.ite ?_ h
  split
  · exact .ite one.data one
  · exact one

theorem execGainCopyback (h : s.Keeps false false false t) {i : SubId} : s.Leads (Machine.execGainCopyback i t) := by
  unfold Machine.execGainCopyback
  split
  · exact .ite h.data h
  · exact h

theorem execDrayTrigger (h : s.Keeps false false false t) {c : DrayId} {line : Option (Fin 32)} :
    s.Leads (Machine.execDrayTrigger c line t) := by
  unfold Machine.execDrayTrigger
  split
  · exact h.timerTrigger
  · exact .ite h.data h

theorem execNullFrame (h : s.Keeps false false false t) {e : EngineId} : s.Leads (Machine.execNullFrame e t) := by
  unfold Machine.execNullFrame
  dsimp only
  split
  · exact State.Keeps.ite h.data h
  · exact h

theorem execSieveSlot (h : s.Keeps false false false t) {i : SubId} {sl : SliceId} :
    s.Leads (Machine.execSieveSlot i sl t) := by
  unfold Machine.execSieveSlot
  split
  · exact .ite ((h.reachIndex.foldl fun _ _ k => k.runInput).data.noteFilled.settled) h
  · exact h

theorem execXfadeEnd (h : s.Keeps false false false t) {i : SubId} : s.Leads (Machine.execXfadeEnd i t) := by
  unfold Machine.execXfadeEnd
  split
  · exact .ite h.data h
  · exact h

theorem execJobStart (h : s.Keeps false false false t) {k : TileId} : s.Leads (Machine.execJobStart k t) := by
  unfold Machine.execJobStart
  split
  · split
    · exact h
    · split
      · exact .ite h.data h
      · exact .ite h.data h.data
  · exact h

theorem execJobComputeDone (h : s.Keeps false false false t) {k : TileId} {upsets : List (Nat × Cplx)} :
    s.Leads (Machine.execJobComputeDone k upsets t) := by
  unfold Machine.execJobComputeDone
  dsimp only
  split
  · split
    · exact State.Keeps.ite h.data h
    · exact h
  · exact h

theorem execJobCheck (h : s.Keeps false false false t) {k : TileId} : s.Leads (Machine.execJobCheck k t) := by
  unfold Machine.execJobCheck
  split
  · exact .ite h (.ite h.commitDump.data.settled h.failJob)
  · exact h

theorem execLoomSpanBoundary (h : s.Keeps false false false t) {j : SubId} : s.Leads (Machine.execLoomSpanBoundary j t) := by
  unfold Machine.execLoomSpanBoundary
  dsimp only
  split
  · exact State.Keeps.ite (State.Keeps.tryStop (State.Keeps.pulseLine
      (State.Keeps.data (State.Keeps.showAll (State.Keeps.turnSpan (State.Keeps.data h.weightRecords.crossBoundary)))))) h
  · exact h

theorem execLedgerSetComplete (h : s.Keeps false false false t) {i : SubId} : s.Leads (Machine.execLedgerSetComplete i t) := by
  unfold Machine.execLedgerSetComplete
  split
  · exact h
  · split
    · exact .ite h.flushStopped.tryStop h
    · exact .ite (.ite h.foldNext.data.endFold h) h.endFold

theorem execLedgerEcc (h : s.Keeps false false false t) {i : SubId} {site : EccSite} :
    s.Leads (Machine.execLedgerEcc i site t) := by
  unfold Machine.execLedgerEcc
  split
  · exact h.data
  · split
    · exact .ite h.failJob h
    · exact h
  · extract_lets t1
    have kt1 : s.Keeps false false false t1 := by
      unfold t1
      split
      · exact h.data
      · exact h
    exact kt1.data.raise

theorem execBeamJobStart (h : s.Keeps false false false t) {k : TileId} {failAt : Option Nat} :
    s.Leads (Machine.execBeamJobStart k failAt t) := by
  unfold Machine.execBeamJobStart
  split
  · split
    · exact h
    · split
      · exact .ite h.data h
      · extract_lets r1
        have kr1 : s.Keeps false false false r1.1 := h.fetchWeights
        split
        · exact .ite kr1.data kr1.data
        · exact h
  · exact h

theorem execBeamCursorPacket (h : s.Keeps false false false t) {fmt : Fin 64} :
    s.Leads (Machine.execBeamCursorPacket fmt t) := by
  unfold Machine.execBeamCursorPacket
  split
  · exact h.cursorStep.tryStop
  · exact h

theorem execIslandPowerDone (h : s.Keeps false false false t) {k : IslandId} : s.Leads (Machine.execIslandPowerDone k t) := by
  unfold Machine.execIslandPowerDone
  refine State.Keeps.ite ?_ (.ite ?_ h)
  · extract_lets up
    have one : s.Keeps false false false up := h.onIsland.islandUp
    exact .ite one one.onIsland
  · extract_lets lost
    have one : s.Keeps false false false lost := h.onIsland.islandLost
    exact .ite one.onIsland one

theorem execSupplyEventEnd (h : s.Keeps false false false t) {v bank : BitVec 16} :
    s.Leads (Machine.execSupplyEventEnd v bank t) := by
  unfold Machine.execSupplyEventEnd
  split
  · exact .ite h.seeInput.seeBank.closeEvent.supplied h
  · exact .ite h.noteInput h

theorem execRideEnd (h : s.Keeps false false false t) {bank : BitVec 16} : s.Leads (Machine.execRideEnd bank t) := by
  unfold Machine.execRideEnd
  split
  · split
    · extract_lets _ t1 _ t2 t3 _ t4
      have kt1 : s.Keeps false false false t1 := h.endRode.addRideMs.seeBank
      have kt2 : s.Keeps false false false t2 := kt1.supplied
      have kt3 : s.Keeps false false false t3 := kt2.restore
      have kt4 : s.Keeps false false false t4 := by
        unfold t4
        split
        · exact kt3.onBellStat.setMode
        · split
          · exact .ite kt3 (.ite (.ite kt3.setMode kt3.runNow.setMode) kt3.setMode)
          · exact kt3
      exact kt4.rideEvent
    · exact h
  · exact h

theorem execSupplyLoss (h : s.Keeps false false false t) {v bank : BitVec 16} : s.Leads (Machine.execSupplyLoss v bank t) := by
  unfold Machine.execSupplyLoss
  split
  · exact .ite h.seeInput.seeBank.onEvent0.closeEvent.shutdown h
  · exact h

theorem execBeat (h : s.Keeps false false false t) {r : BeatReadings} : s.Leads (Machine.execBeat r t) := by
  unfold Machine.execBeat
  split
  · exact h
  · exact .ite h (.ite (.ite h.slipBeat h.slipBeat.runBeat) h.runBeat)

theorem execClkMeasure (h : s.Keeps false false false t) {a b c : RefMeasure} : s.Leads (Machine.execClkMeasure a b c t) := by
  unfold Machine.execClkMeasure
  split
  · extract_lets _ t1 t2 t3 t4
    have kt1 : s.Keeps false false false t1 := h.data
    have kt2 : s.Keeps false false false t2 := kt1.measureRef.measureRef.measureRef
    have kt3 : s.Keeps false false false t3 := kt2.foldl fun _ _ k => k.agreeRank
    have kt4 : s.Keeps false false false t4 := .ite kt3 kt3.endDispute.checkDispute
    exact kt4.reselect.updateEstimate
  · exact h

theorem execPowerUp (h : s.Keeps false false false t) {straps : Straps} {v : BitVec 16} :
    s.Leads (Machine.execPowerUp straps v t) := by
  unfold Machine.execPowerUp
  refine State.Keeps.beginSeq ?_
  exact h.trans ⟨⟨rfl, List.prefix_rfl, Nat.le_refl _, fun _ => rfl⟩, fun on => absurd on (by decide),
    fun on => absurd on (by decide), fun on => absurd on (by decide)⟩

theorem execNotifyRepeat (h : s.Keeps false false false t) {port : PortId} : s.Leads (Machine.execNotifyRepeat port t) := by
  unfold Machine.execNotifyRepeat
  dsimp only
  split
  · exact State.Keeps.ite h.notify h
  · exact h

theorem execDelayReq (h : s.Keeps false false false t) : s.Leads (Machine.execDelayReq t) := by
  unfold Machine.execDelayReq
  dsimp only
  split
  · exact State.Keeps.ite (State.Keeps.capture (State.Keeps.data h.emit)) h
  · exact h

theorem execI2cWrite (h : s.Keeps false false false t) {bytes : List Byte} : s.Leads (Machine.execI2cWrite bytes t) := by
  unfold Machine.execI2cWrite
  split
  · exact h
  · split
    · exact .ite h.emit h.data.emit
    · exact h.emit

theorem execExchangeBurst (h : s.Keeps false false false t) {v : Burst} : s.Leads (Machine.execExchangeBurst v t) :=
  State.Keeps.served h.burst

theorem execBridgeTimeout (h : s.Keeps false false false t) {v : Burst} : s.Leads (Machine.execBridgeTimeout v t) :=
  State.Keeps.served h.bridgeTimeout

theorem execTick (h : s.Keeps false false false t) {n : Nat} : s.Leads (Machine.execTick n t) := by
  unfold Machine.execTick
  extract_lets u
  have one : s.Keeps false false false u := State.Keeps.served h.tick
  exact .ite one.endBaler.serve one

theorem execLockBreak (h : s.Keeps false false false t) : s.Leads (Machine.execLockBreak t) :=
  State.Keeps.served h.breakLock

theorem execMasterReset (h : s.Keeps false false false t) {k : MasterId} {inFlight : Option (Burst × Nat)} :
    s.Leads (Machine.execMasterReset k inFlight t) :=
  State.Keeps.served h.masterReset

theorem execGraceExpiry (h : s.Keeps false false false t) {k : SourceId} : s.Leads (Machine.execGraceExpiry k t) :=
  State.Keeps.served h.graceExpiry

theorem execTileSelftestDone (h : s.Keeps false false false t) {k : TileId} {pass : Bool} :
    s.Leads (Machine.execTileSelftestDone k pass t) := by
  unfold Machine.execTileSelftestDone
  split
  · split
    · exact .ite h h.finishCommand.serve
    · exact h
  · split
    · exact .ite h.selftestDone h.selftestDone.finishCommand.serve
    · exact h.selftestDone

end State.Keeps

/-- Whatever a command does, it loses nothing. -/
theorem State.exec_leads (s : State) (c : Instr) : s.Leads (exec c s) := by
  have h : s.Keeps false false false s := .refl s
  cases c with
  | hello => exact .ite (h.hand fun _ k => k.cmdHello) h.helloRow
  | lease => exact h.hand fun _ k => k.cmdLease
  | release => exact h.hand fun _ k => k.cmdRelease
  | heartbeat => exact h.hand fun _ k => k.cmdHeartbeat
  | identify => exact h.hand fun _ k => k.cmdIdentify
  | getRecord => exact h.hand fun _ k => k.cmdGetRecord
  | setRecord => exact h.hand fun _ k => k.cmdSetRecord
  | getStatus => exact h.hand fun _ k => k.cmdGetStatus
  | tableBegin => exact h.hand fun _ k => k.cmdTableBegin
  | tableCommit => exact h.hand fun _ k => k.cmdTableCommit
  | tableAbort => exact h.hand fun _ k => k.cmdTableAbort
  | tableQuery => exact h.hand fun _ k => k.cmdTableQuery
  | obsDefine => exact h.hand fun _ k => k.cmdObsDefine
  | obsCheck => exact h.hand fun _ k => k.cmdObsCheck
  | obsArm => exact h.hand fun _ k => k.cmdObsArm
  | obsStartAt => exact h.hand fun _ k => k.cmdObsStartAt
  | obsStopAt => exact h.hand fun _ k => k.cmdObsStopAt
  | drainAt => exact h.hand fun _ k => k.cmdDrainAt
  | resyncAt => exact h.hand fun _ k => k.cmdResyncAt
  | delayLoad => exact h.hand fun _ k => k.cmdDelayLoad
  | weightLoad => exact h.hand fun _ k => k.cmdWeightLoad
  | coefSwap => exact h.hand fun _ k => k.cmdCoefSwap
  | dcbFreeze => exact h.hand fun _ k => k.cmdDcbFreeze
  | cellarTrigger => exact h.hand fun _ k => k.cmdCellarTrigger
  | cellarRelease => exact h.hand fun _ k => k.cmdCellarRelease
  | timeGet => exact h.hand fun _ k => k.cmdTimeGet
  | timeIncrement => exact h.hand fun _ k => k.cmdTimeIncrement
  | timeStep => exact h.hand fun _ k => k.cmdTimeStep
  | timerSet => exact h.hand fun _ k => k.cmdTimerSet
  | captureGet => exact h.hand fun _ k => k.cmdCaptureGet
  | laneSet => exact h.hand fun _ k => k.cmdLaneSet
  | laneTrain => exact h.hand fun _ k => k.cmdLaneTrain
  | eyeScan => exact h.hand fun _ k => k.cmdEyeScan
  | laneStats => exact h.hand fun _ k => k.cmdLaneStats
  | bulkWrite => exact h.handBus fun _ k => k.cmdBulkWrite
  | bulkRead => exact h.handBus fun _ k => k.cmdBulkRead
  | tallyGet => exact h.hand fun _ k => k.cmdTallyGet
  | tallyClear => exact h.hand fun _ k => k.cmdTallyClear
  | tallyConfig => exact h.hand fun _ k => k.cmdTallyConfig
  | modeRequest => exact h.hand fun _ k => k.cmdModeRequest
  | tileRetire => exact h.hand fun _ k => k.cmdTileRetire
  | tileRestore => exact h.hand fun _ k => k.cmdTileRestore
  | octetSet => exact h.hand fun _ k => k.cmdOctetSet
  | storeWrite => exact h.hand fun _ k => k.cmdStoreWrite
  | storeActivate => exact h.hand fun _ k => k.cmdStoreActivate
  | storeQuery => exact h.hand fun _ k => k.cmdStoreQuery
  | bale => exact h.handBus fun _ k => k.cmdBale
  | unbale => exact h.handBus fun _ k => k.cmdUnbale
  | selftest => exact h.hand fun _ k => k.cmdSelftest
  | peek => exact h.handBus fun _ k => k.cmdPeek
  | poke => exact h.handBus fun _ k => k.cmdPoke
  | badOpcode => exact h.handRaw
  | postTailWrite => exact .ite h.bar0Write h
  | replyHeadWrite => exact h.barWrite
  | irqEnableWrite => exact h.barWrite
  | irqStatusClear => exact h.barWrite
  | gainCommit => exact h.gainCommit
  | go => exact h.drayGo
  | stop => exact h.data
  | commandDatagram => exact h.datagram
  | bulkPut => exact h.datagram
  | bulkGet => exact h.datagram
  | notifyRepeat => exact h.execNotifyRepeat
  | sessionIdleClose => exact h.idleClose
  | functionLevelReset => exact .ite h.resetFunction.resetMaster.serve h
  | perstN => exact .ite h.data h.data.setLink.resetFunction.resetFunction.resetMaster.serve
  | frameEnd => exact h.settleFrame
  | ack => exact .ite h.gotAck h
  | nak => exact .ite h.gotNak h
  | link => exact .ite h.gotLink h
  | trainReq => exact .ite h.gotTrainReq h
  | trainSts => exact .ite h.gotTrainSts h
  | trainReqResend => exact .ite h.data.sendBlock h
  | trainTimeout => exact .ite h.drawn.searchDone h
  | ackRepeat => exact h.execAckRepeat
  | replayTimeout => exact .ite h.data.replay.replayRequest h
  | filler => exact .ite h.data.sendBlock h
  | fillGap => exact .ite h.fillGapSeen h
  | blockReceived => exact .ite h.gotBlock (.ite h.gotLooped (.ite h.data h))
  | huntTimeout => exact h.execHuntTimeout
  | signalDetected => exact .ite h.data h
  | laneBringupTimeout => exact h.execLaneBringupTimeout
  | retrainTimeout => exact h.execRetrainTimeout
  | laneFaultRetry => exact .ite h.trainLane h
  | eyeScanPoint => exact h.execEyeScanPoint
  | ethAlignLoss => exact .ite h.data.trainLane h
  | ethFrameReceived => exact h.execEthFrameReceived
  | ingressSamplePacket => exact h.execIngressSamplePacket
  | ingressStatusPacket => exact h.execIngressStatusPacket
  | ingressJump => exact h.execIngressJump
  | egressFrameSend => exact h.sendNext
  | egressStall => exact .ite h.data.raise h
  | sieveSlot => exact h.execSieveSlot
  | xfadeEnd => exact h.execXfadeEnd
  | frontEndSpanBoundary => exact h.execFrontEndSpanBoundary
  | nop => exact h.millStep
  | bf4 => exact h.millStep
  | bf2 => exact h.millStep
  | move => exact h.millStep
  | cmul => exact h.millStep
  | load => exact h.millStep
  | unload => exact h.millStep
  | xfer => exact h.millStep
  | loop => exact h.millStep
  | jump => exact h.millStep
  | setreg => exact h.millStep
  | nullFrame => exact h.execNullFrame
  | assayFrame => exact h.execAssayFrame
  | gainCopyback => exact h.execGainCopyback
  | condemn => exact h.execCondemn
  | spanAvailable => exact .ite h.makeAvailable h
  | unitStaged => exact h.execUnitStaged
  | shelfEcc => exact h.execShelfEcc
  | jobStart => exact h.execJobStart
  | jobComputeDone => exact h.execJobComputeDone
  | jobCheck => exact h.execJobCheck
  | jobTimeout => exact .ite h.failTile.afterTile h
  | tileClockLoss => exact .ite h.clockLoss.failRestore.serve h.clockLoss
  | tileSelftestDone => exact h.execTileSelftestDone
  | spareSelftest => exact .ite h.data h
  | loomSpanBoundary => exact h.execLoomSpanBoundary
  | spanStart => exact .ite h.beginSpan h
  | ledgerSetComplete => exact h.execLedgerSetComplete
  | ledgerEcc => exact h.execLedgerEcc
  | beamJobStart => exact h.execBeamJobStart
  | beamUnitComplete => exact h.unitStep.tryStop
  | beamCursorPacket => exact h.execBeamCursorPacket
  | granaryAccess => exact h.execGranaryAccess
  | srIdle => exact h.execSrIdle
  | srExit => exact .ite h.data h
  | refreshRateRead => exact .ite h (.ite h.data.raise h.data)
  | zqCalibration => exact h
  | granaryTrainingDone => exact h.foldl fun _ _ k => k.trainChan
  | zeroFillDone => exact h.execZeroFillDone
  | clkMeasure => exact h.execClkMeasure
  | refCyclesMissing => exact .ite h (.ite h.disqualify h.data)
  | clkSwitch => exact .ite h.data.endClkSwitch.raise h
  | tick => exact h.execTick
  | slewEnd => exact .ite h.data h
  | timeFreeRun => exact .ite h.enterFreeRun h
  | beat => exact h.execBeat
  | timerFire => exact .ite h.fire h
  | ppsOut => exact .ite (.ite h.data.emit h.data) h
  | edgeCapture => exact .ite h (.ite h.data (.ite h.data.capture.pulseLine h.data.capture))
  | mgmtFrameReceived => exact .ite h (.ite h.datagram (.ite (.ite h.ptpReceived h.ptpReceived.emit) h.answerArp.answerNs.emit))
  | delayReq => exact h.execDelayReq
  | exchangeBurst => exact h.execExchangeBurst
  | bridgeTimeout => exact h.execBridgeTimeout
  | lockBreak => exact h.execLockBreak
  | masterReset => exact h.execMasterReset
  | drayTrigger => exact h.execDrayTrigger
  | descriptorStart => exact .ite (.ite h h.startDescriptor) (.ite (.ite h h.beginMove) h)
  | descriptorComplete => exact .ite (.ite h.data.pulseLine h.data) h
  | tallyEvent => exact .ite h.raise h
  | graceExpiry => exact h.execGraceExpiry
  | quietPeriod => exact .ite h.data h
  | autoClear => exact .ite h.clearTo h
  | foremanWdog => exact .ite h.raise h
  | supplyEventBegin => exact .ite h.supplyBegin.serve h.supplyBegin
  | supplyTransient => exact .ite h.onBellStat.raise h
  | swellIsolate => exact .ite h (.ite h.seeInput.onBellStat (.ite h.seeInput.onBellStat h.seeInput))
  | supplyEventEnd => exact h.execSupplyEventEnd
  | rideEnd => exact h.execRideEnd
  | supplyLoss => exact h.execSupplyLoss
  | autoRestart => exact .ite ((State.Keeps.ite h.noteInput h).beginStart) (.ite h.noteInput h)
  | bankTest => exact .ite (.ite h.supplied.onBellStat.onBellStat.raise h.supplied.onBellStat) h
  | railFault => exact .ite h.raise.shutdown h
  | railSeq => exact h.railSeqOf.serve
  | seqStep => exact h.seqStepOf.serve
  | islandPowerDone => exact h.execIslandPowerDone
  | islandGate => exact .ite h.onIsland.raise h
  | cableOvercurrent => exact .ite h.data.raise h
  | thermalCrit => exact .ite h.raise.shutdown h
  | resetN => exact .ite h h.beginStart
  | powerUp => exact h.execPowerUp
  | rollCallStep => exact .ite h.rollStep.serve h
  | i2cWrite => exact h.execI2cWrite
  | i2cRead => exact .ite h h.data.emit
  | dropout => exact .ite h.seeInput.seeBank h
  | pcieLinkDown => exact h.setLink
  | pcieLinkUp => exact .ite (h.setLink.foldl fun _ _ k => k.flushMsix) h
  | mgmtBlockLock => exact .ite h (.ite h.data.recA h.data)
  | mgmtBlockLockLoss => exact .ite h (.ite h.data.recA h.data)
  | remoteFault => exact .ite h.data h
  | ethPcsAligned => exact .ite (.ite h.data h.data) h
  | ethTrainDone => exact .ite (.ite h.data h.faultLane) h
  | cblPresentN => exact h.data
  | busMasterEnable => exact .ite h.data.flushMsix h
  | msixUnmask => exact .ite h.data.flushMsix h

end Sys2Proof.Machine
end

section
/-! Every step adds only, and keeps the memory in its one form (log entries 2 to 4). -/

namespace Sys2Proof.Machine

/-- A step loses nothing of the state with the command at the front of the queue taken away. -/
theorem step_keeps {s t : State} (h : step s = .next t) :
    State.Keeps { s with pending := s.pending.tail } false false false t := by
  unfold step at h
  cases hp : s.pending with
  | nil =>
    rw [hp] at h
    obtain rfl : s = t := by injection h
    exact ⟨⟨hp, List.prefix_rfl, Nat.le_refl _, id⟩, fun on => absurd on (by decide), fun on => absurd on (by decide),
      fun on => absurd on (by decide)⟩
  | cons c rest =>
    rw [hp] at h
    have leads : State.Leads { s with pending := rest } (.next t) := h ▸ State.exec_leads { s with pending := rest } c
    exact leads

/-- Settles O58: no operation of any command leaves a zero byte listed or the keys out of order. -/
theorem memoryStaysCanonical : Obligations.MemoryStaysCanonical := by
  intro s t wf h
  exact (step_keeps h).adds.wf wf

/-- Settles O59: every operation keeps the queue, and only adds to what left the module and to the values drawn. -/
theorem stepsOnlyAdd : Obligations.StepsOnlyAdd := by
  intro s t h
  obtain ⟨pending, out, free, -⟩ := (step_keeps h).adds
  exact ⟨pending, out, free⟩

end Sys2Proof.Machine
end

section
/-! Sequences, islands and cables (R416 to R419, R423, R443): what a step of a sequence, a timeout, an island's arrival and a
cable's supply do. -/

namespace Sys2Proof.Machine

variable {s t u : State} {i : IslandId}

/-- What changes the Tally alone keeps a change of the Bellows, and everything else. -/
theorem State.TallyOnly.of_bell {x : BellowsBlock} (h : State.TallyOnly { s with bell := x } t) :
    t.bell = x ∧ t = { s with bell := t.bell, tally := t.tally, bench := t.bench, out := t.out } := by
  have bell : t.bell = x := by rw [h.1]
  refine ⟨bell, ?_⟩
  rw [bell]
  exact h.1

theorem State.island_of_islands (same : t.bell.islands = s.bell.islands) (i : IslandId) : t.island i = s.island i := by
  unfold State.island
  rw [same]

/-! ### Sequences (R416, R417) -/

/-- A step whose condition is met ends, and the next is performed (R416). -/
theorem State.seqStepOf_met {q : SeqRun} {x y : SeqStep} {rest : List SeqStep} {met : Bool} (running : s.bell.running = some q)
    (left : q.left = x :: y :: rest) (may : s.seqMay q = true) (done : q.stepMet x met s.now = true) :
    s.seqStepOf met = ({ s with bell := { s.bell with
      running := some { q with left := y :: rest, index := q.index + 1, since := s.now } } } : State).performStep y := by
  simp only [State.seqStepOf, running, may, Bool.not_true, Bool.false_eq_true, if_false, left, done, if_true, State.nextStep]

/-- RAILS_UP that times out ends the roll call with RAIL_SEQ raised (R417). -/
theorem State.railSeqOf_up {q : SeqRun} {x : SeqStep} {rest : List SeqStep} (running : s.bell.running = some q)
    (left : q.left = x :: rest) (late : q.since + 1000 * x.timeout < s.now) (may : s.seqMay q = true) (free : q.forced = false)
    (up : q.id = 0) : s.railSeqOf =
      let t := s.raise srcRailSeq (BitVec.ofNat 32 (q.id.val + 256 * q.index))
      { t with bell := { t.bell with running := none }, start := { t.start with reg := { t.start.reg with step := 0 } } } := by
  have timeout : q.since + 1000 * x.timeout < s.now ∧ s.seqMay q = true ∧ (!q.forced) = true := ⟨late, may, by rw [free]; rfl⟩
  simp only [State.railSeqOf, running, left]
  have first : q.id.val = 0 := congrArg Fin.val up
  rw [if_pos timeout, if_pos first]

/-! ### Islands (R418, R419, R423) -/

/-- An island that is neither a Ledger store nor the Shelf takes up its work without a byte changing. -/
theorem State.Keeps.islandUp_apart {m p : Bool} (h : s.Keeps m true p t) (apart : i.val < 46 ∨ 50 < i.val) :
    s.Keeps m true p (t.islandUp i) := by
  unfold State.islandUp
  split
  · exact h.reloadSlice.foldl fun _ _ k => .ite k.data k
  · rw [if_neg (by omega), if_neg (by omega)]
    refine .dite (fun _ => State.Keeps.data ?_) fun _ => h
    exact .ite h.startOctet h

theorem State.islandUp_island (i k : IslandId) : (s.islandUp i).island k = s.island k :=
  State.island_of_islands ((State.Keeps.refl (m := false) (i := true) (p := true) s).islandUp.islands rfl) k

theorem State.islandUp_mem (apart : i.val < 46 ∨ 50 < i.val) : (s.islandUp i).mem = s.mem :=
  ((State.Keeps.refl (m := true) (i := true) (p := true) s).islandUp_apart apart).mem rfl

theorem State.islandLost_island (i k : IslandId) : (s.islandLost i).island k = s.island k :=
  State.island_of_islands ((State.Keeps.refl (m := true) (i := true) (p := true) s).islandLost.islands rfl) k

theorem State.islandLost_mem : (s.islandLost i).mem = s.mem :=
  (State.Keeps.refl (m := true) (i := true) (p := true) s).islandLost.mem rfl

/-- An island that is powered up is on, or goes off at once where the latest request wants it off (R419). -/
theorem State.islandPowerDone_up (coming : (s.island i).state = 1) : ∃ t, exec (.islandPowerDone i) s = .next t ∧
    (t.island i).state = (if (s.island i).target then 2 else 3) ∧ (i.val < 46 ∨ 50 < i.val → s.sameMemory t) := by
  let on : State := (s.onIsland i fun y => { y with state := 2, gated := false }).islandUp i
  have state : (on.island i).state = 2 := by rw [State.islandUp_island, State.onIsland_island]
  have mem (apart : i.val < 46 ∨ 50 < i.val) : on.mem = s.mem := State.islandUp_mem apart
  have row : exec (.islandPowerDone i) s =
      .next (if (s.island i).target then on else on.onIsland i fun y => { y with state := 3, since := s.now }) :=
    congrArg Host.Outcome.next (if_pos coming)
  refine ⟨_, row, ?_, fun apart => State.sameMemory_of_mem ?_⟩ <;> split
  · exact state
  · rw [State.onIsland_island]
  · exact mem apart
  · exact mem apart

/-- An island that is powered down is off, or comes on again where the latest request wants it (R419). -/
theorem State.islandPowerDone_down (going : (s.island i).state = 3) : ∃ t, exec (.islandPowerDone i) s = .next t ∧
    (t.island i).state = (if (s.island i).target then 1 else 0) ∧ s.sameMemory t := by
  let off : State := (s.onIsland i fun y => { y with state := 0 }).islandLost i
  have state : (off.island i).state = 0 := by rw [State.islandLost_island, State.onIsland_island]
  have mem : off.mem = s.mem := State.islandLost_mem
  have row : exec (.islandPowerDone i) s =
      .next (if (s.island i).target then off.onIsland i fun y => { y with state := 1, since := s.now, gated := false } else off) :=
    congrArg Host.Outcome.next ((if_neg (by rw [going]; decide)).trans (if_pos going))
  refine ⟨_, row, ?_, State.sameMemory_of_mem ?_⟩ <;> split
  · rw [State.onIsland_island]
  · exact state
  · exact mem
  · exact mem

/-- An island that takes longer than its limit raises ISLAND_GATE once (R423). -/
theorem State.islandGate_late (coming : (s.island i).state = 1) (first : (s.island i).gated = false)
    (late : (s.island i).since + gateLimit i.val < s.now) (counted : s.inReset = false) :
    ∃ t, exec (.islandGate i) s = .next t ∧ (t.island i).gated = true ∧ (t.island i).state = 1 ∧
      (t.source srcIslandGate).reg.events = (s.source srcIslandGate).reg.events + 1 ∧
      t = { s with bell := t.bell, tally := t.tally, bench := t.bench, out := t.out } ∧ s.sameMemory t := by
  let told : State := s.onIsland i fun y => { y with gated := true }
  let t : State := told.raise srcIslandGate (BitVec.ofNat 32 i.val)
  obtain ⟨bell, frame⟩ := State.TallyOnly.of_bell (told.raise_only srcIslandGate (BitVec.ofNat 32 i.val) none)
  have island : t.island i = { s.island i with gated := true } :=
    (State.island_of_islands (s := told) (congrArg _ bell) i).trans (State.onIsland_island s i _)
  have row : exec (.islandGate i) s = .next t := congrArg Host.Outcome.next (if_pos ⟨coming, by rw [first]; rfl, late⟩)
  refine ⟨t, row, ?_, ?_, State.raise_source_events _ _ _ _ counted, frame, State.sameMemory_of_mem (State.raise_mem ..)⟩
  · rw [island]
  · rw [island]
    exact coming

/-! ### Cables (R443) -/

/-- Whether a cable whose bit is set or cleared is supplied. -/
theorem getLsbD_setBit (x : BitVec 16) (o : OctetId) (on : Bool) :
    (if on then x ||| (1 <<< o.val : BitVec 16) else x &&& ~~~(1 <<< o.val : BitVec 16)).getLsbD o.val = on := by
  have bit : ((1 <<< o.val : Nat) : BitVec 16).getLsbD o.val = true := by rw [getLsbD_bit _ o.isLt, decide_eq_true rfl]
  cases on with
  | true =>
    rw [if_pos rfl, BitVec.getLsbD_or]
    exact (congrArg _ bit).trans (Bool.or_true _)
  | false =>
    rw [if_neg Bool.false_ne_true, BitVec.getLsbD_and, BitVec.getLsbD_not]
    exact (congrArg (fun b => x.getLsbD o.val && (decide (o.val < 16) && !b)) bit).trans (by simp)

/-- A cable that draws too much loses its supply and raises an event (R443). -/
theorem State.cableOvercurrent_off {o : OctetId} (fed : s.side.cable3v3.getLsbD o.val = true) (counted : s.inReset = false) :
    ∃ t, exec (.cableOvercurrent o) s = .next t ∧ t.side.cable3v3.getLsbD o.val = false ∧
      (t.source srcIslandGate).reg.events = (s.source srcIslandGate).reg.events + 1 ∧
      t = { s with side := t.side, tally := t.tally, bench := t.bench, out := t.out } ∧ s.sameMemory t := by
  let cut : State := { s with side := { s.side with cable3v3 := s.side.cable3v3 &&& ~~~(1 <<< o.val : BitVec 16) } }
  let t : State := cut.raise srcIslandGate (BitVec.ofNat 32 (octetIsland o).val)
  obtain ⟨frame, -⟩ := cut.raise_only srcIslandGate (BitVec.ofNat 32 (octetIsland o).val) none
  have side : (cut.raise srcIslandGate (BitVec.ofNat 32 (octetIsland o).val)).side = cut.side := by rw [frame]
  have row : exec (.cableOvercurrent o) s = .next t := congrArg Host.Outcome.next (if_pos fed)
  refine ⟨t, row, ?_, State.raise_source_events _ _ _ _ counted, ?_, State.sameMemory_of_mem (State.raise_mem ..)⟩
  · rw [side]
    exact getLsbD_setBit _ _ false
  · rw [side]
    exact frame

/-- A cable is supplied where it is present and its octet's island is on (R443). -/
theorem State.cblPresentN_switches (o : OctetId) (high : Bool) :
    ∃ t, exec (.cblPresentN o high) s = .next t ∧ t.side.cblHigh.getLsbD o.val = high ∧
      t.side.cable3v3.getLsbD o.val = (s.islandOn (octetIsland o) && !high) ∧ t = { s with side := t.side } ∧ s.sameMemory t := by
  have seen := getLsbD_setBit s.side.cblHigh o high
  refine ⟨_, rfl, seen, (getLsbD_setBit _ o _).trans ?_, rfl, fun _ => rfl⟩
  exact congrArg (fun b => s.islandOn (octetIsland o) && !b) seen

/-- Settles O53: sequences go on or time out, islands reach the state they were on their way to or turn round, and cables follow
their contact. -/
theorem sequencesIslandsAndCables : Obligations.SequencesIslandsAndCables := by
  refine ⟨fun s q x y rest running left may => ⟨fun met done => ?_, fun late free counted up => ?_⟩,
    fun s => ⟨?_, ?_, ?_, ?_, ?_⟩⟩
  case refine_1 =>
    exact congrArg (fun t => Host.Outcome.next (State.serve t)) (State.seqStepOf_met running left may done)
  case refine_2 =>
    let told : State := s.raise srcRailSeq (BitVec.ofNat 32 (q.id.val + 256 * q.index))
    obtain ⟨frame, -⟩ := s.raise_only srcRailSeq (BitVec.ofNat 32 (q.id.val + 256 * q.index)) none
    have row : exec .railSeq s = _ := congrArg (fun t : State => Host.Outcome.next t.serve)
      (State.railSeqOf_up running left late may free up)
    refine ⟨_, row, rfl, rfl, State.raise_source_events _ _ _ _ counted, ?_, State.sameMemory_of_mem (State.raise_mem ..)⟩
    exact congrArg (fun t : State => { t with
      bell := { told.bell with running := none }, start := { told.start with reg := { told.start.reg with step := 0 } } }) frame
  · exact fun i => State.islandPowerDone_up
  · exact fun i => State.islandPowerDone_down
  · exact fun i => State.islandGate_late
  · exact fun o => State.cableOvercurrent_off
  · exact fun o high => State.cblPresentN_switches o high

end Sys2Proof.Machine
end

section
/-! What supply events do to the Bellows (R404 to R413): the equations of the input and the bank being seen, and what the parts of
RIDE and of an orderly shutdown leave of it. -/

namespace Sys2Proof.Machine

variable {s t u : State} {e : SupplyEvent} {v bank : BitVec 16}

/-! ### The input and the bank are seen (R403, R405, R407) -/

/-- An input voltage is recorded, whatever it means for an event. -/
theorem State.seeInput_frame (s : State) (v : BitVec 16) : ∃ event events classNow, s.seeInput v =
    { s with bell := { (s.noteInput v).bell with
      event := event, events := events, stat := { s.bell.stat with supply10mv := v, classNow := classNow } } } := by
  unfold State.seeInput
  dsimp only
  split
  · split
    · exact ⟨_, _, _, rfl⟩
    · exact ⟨_, _, _, rfl⟩
  · exact ⟨_, _, _, rfl⟩

/-- The class of an event only rises (R405). -/
def BellEvent.seen (x : BellEvent) (v : BitVec 16) : BellEvent :=
  { x with
    cls := if x.cls < classOf v.toNat then classOf v.toNat else x.cls
    min10mv := if v < x.min10mv then v else x.min10mv
    max10mv := if x.max10mv < v then v else x.max10mv }

/-- An event in progress sees an input voltage. -/
theorem State.seeInput_event (event : s.bell.event = some e) (going : e.past = false) : s.seeInput v =
    { s with bell := { (s.noteInput v).bell with
      event := some (e.sample ((s.noteInput v).bandOf v.toNat) s.now)
      events := vmod s.bell.events (0 : Fin 16) fun x => x.seen v
      stat := { s.bell.stat with
        supply10mv := v
        classNow := if s.bell.stat.classNow < classOf v.toNat then classOf v.toNat else s.bell.stat.classNow } } } := by
  have noted : (s.noteInput v).bell.event = some e := event
  simp only [State.seeInput, noted, going, Bool.false_eq_true, if_false]
  rfl

/-- What the bank has given once it stands at a voltage (R408). -/
def State.drawnAt (s : State) (e : SupplyEvent) (bank : BitVec 16) : Nat :=
  e.drawn + s.bankCap * (s.bell.stat.bank10mv.toNat * s.bell.stat.bank10mv.toNat - bank.toNat * bank.toNat)

/-- The Bellows' words of the bank at a voltage (R408). -/
def State.bankStat (s : State) (bank : BitVec 16) : BellStat :=
  { s.bell.stat with bank10mv := bank, holdupUs := satNat 32 (holdup s.bankCap bank.toNat) }

/-- The record of an event as the bank has given so much. -/
def BellEvent.drew (x : BellEvent) (d : Nat) (bank : BitVec 16) : BellEvent :=
  { x with bankMj := satNat 16 (d / 20000000), bankMin10mv := if bank < x.bankMin10mv then bank else x.bankMin10mv }

/-- An event in progress sees the bank. -/
theorem State.seeBank_event (event : s.bell.event = some e) (going : e.past = false) : s.seeBank bank =
    { s with bell := { s.bell with
      event := some { e with drawn := s.drawnAt e bank }
      events := vmod s.bell.events (0 : Fin 16) fun x => x.drew (s.drawnAt e bank) bank
      stat := s.bankStat bank } } := by
  have noted : (s.onBellStat fun x => { x with bank10mv := bank, holdupUs := satNat 32 (holdup s.bankCap bank.toNat) }).bell.event =
    some e := event
  simp only [State.seeBank, noted, going, Bool.false_eq_true, if_false]
  rfl

/-- With no event in progress the bank is only recorded. -/
theorem State.seeBank_quiet (quiet : ∀ e, s.bell.event = some e → e.past = true) :
    s.seeBank bank = { s with bell := { s.bell with stat := s.bankStat bank } } := by
  unfold State.seeBank
  dsimp only
  split
  · next e event => exact if_pos (quiet e event)
  · rfl

/-- A sampled event is still the event it was. -/
theorem SupplyEvent.sample_kept (e : SupplyEvent) (band : Option Nat) (now : Nat) :
    (e.sample band now).start = e.start ∧ (e.sample band now).past = e.past ∧ (e.sample band now).rodeFrom = e.rodeFrom ∧
      (e.sample band now).offBefore = e.offBefore ∧ (e.sample band now).lastAt = now ∧ (e.sample band now).drawn = e.drawn := by
  unfold SupplyEvent.sample
  split <;> exact ⟨rfl, rfl, rfl, rfl, rfl, rfl⟩

/-! ### RIDE and the Bellows (R410, R412) -/

/-- Real time and the Bellows are as they were, but for its islands and its rails. -/
def State.Steers (s t : State) : Prop :=
  t.now = s.now ∧ t.bell = { s.bell with islands := t.bell.islands, rails := t.bell.rails }

theorem State.Steers.of_bell (bell : t.bell = s.bell) (now : t.now = s.now) : s.Steers t := by
  refine ⟨now, ?_⟩
  rw [bell]

theorem State.Steers.refl (s : State) : s.Steers s := .of_bell rfl rfl

theorem State.Steers.trans (h : s.Steers t) (k : t.Steers u) : s.Steers u := by
  refine ⟨k.1.trans h.1, ?_⟩
  rw [k.2, h.2]

theorem State.performStep_steers (s : State) (x : SeqStep) : s.Steers (s.performStep x) := by
  unfold State.performStep
  dsimp only
  split
  case h_3 | h_4 =>
    split
    · split
      · exact .refl s
      · exact ⟨rfl, rfl⟩
    · exact .refl s
  all_goals exact ⟨rfl, rfl⟩

theorem State.runNow_steers (s : State) (id : Fin 6) : s.Steers (s.runNow id) :=
  foldl_keeps s.Steers _ (fun u x h => h.trans (u.performStep_steers x)) _ s (.refl s)

theorem State.restore_steers (s : State) (off : BitVec 79) : s.Steers (s.restore off) :=
  foldl_keeps s.Steers _ (fun u x h => h.trans (u.performStep_steers x)) _ s (.refl s)

theorem State.haltBeam_steers (s : State) (k : TileId) : s.Steers (s.haltBeam k).1 := by
  unfold State.haltBeam
  split
  · exact .refl s
  · extract_lets upTo u
    have one : s.Steers u := .of_bell rfl rfl
    clear_value u
    split
    · exact one.trans (.of_bell rfl rfl)
    · exact one

theorem State.abandonAll_steers (s : State) : s.Steers s.abandonAll := by
  refine foldl_keeps s.Steers _ (fun u k kept => ?_) _ s (.refl s)
  have halted : s.Steers (u.haltBeam k).1 := kept.trans (u.haltBeam_steers k)
  extract_lets x r beams back jobs dumps
  have one : s.Steers beams := by
    unfold beams
    split
    · exact halted.trans (.of_bell rfl rfl)
    · exact halted
  have two : s.Steers jobs := by
    unfold jobs
    split
    · exact one.trans (.of_bell rfl rfl)
    · exact one
  have three : s.Steers dumps := by
    unfold dumps
    split
    · exact two.trans (.of_bell rfl rfl)
    · exact two
  exact three

theorem State.SaysOnly.steers (h : s.SaysOnly t) : s.Steers t := by
  refine .of_bell ?_ ?_ <;> rw [h.1]

theorem State.finishCommand_steers (s : State) (b : BenchId) (r : Reply) : s.Steers (s.finishCommand b r) := by
  unfold State.finishCommand
  split
  · unfold State.putReply
    extract_lets _ queued sent
    have one : s.Steers sent := by
      unfold sent
      split
      · exact .of_bell rfl rfl
      · exact (State.Steers.of_bell rfl rfl : s.Steers queued).trans (State.sendDatagram_says ..).steers
    exact one.trans (State.setIrq_says ..).steers
  · exact .refl s

theorem State.stopBaler_steers (s : State) : s.Steers s.stopBaler := by
  unfold State.stopBaler
  split
  · extract_lets _ _ stopped
    have one : s.Steers stopped := .of_bell rfl rfl
    split
    · exact one
    · exact one.trans (stopped.finishCommand_steers ..)
  · exact .refl s

theorem State.rideEvent_steers (s : State) (code detail : Nat) : s.Steers (s.rideEvent code detail) := by
  refine foldl_keeps s.Steers _ (fun u k kept => ?_) _ s (.refl s)
  split
  · obtain ⟨_, _, said⟩ := u.subEvent_fmt_ledger k code (u.spanNow k) detail
    rw [said]
    exact kept
  · exact kept

/-! ### An event begins (R405, R410) -/

/-- The record of an event that begins. -/
def State.freshEvent (s : State) (v bank : BitVec 16) : BellEvent :=
  { inProgress := true, secLo := BitVec.ofNat 32 (secOf s.time16), secHi := BitVec.ofNat 16 (secOf s.time16 / 2 ^ 32)
    ns := BitVec.ofNat 30 (nsOf s.time16), min10mv := v, max10mv := v, bankMin10mv := bank }

/-- The records with that of an event that begins before them. -/
def State.freshEvents (s : State) (v bank : BitVec 16) : Vector BellEvent 16 :=
  Vector.ofFn fun k : Fin 16 => if h : k.val = 0 then s.freshEvent v bank else s.bell.events[k.val - 1]'(by omega)

theorem State.freshEvents_getElem (s : State) (v bank : BitVec 16) :
    (s.freshEvents v bank)[0] = s.freshEvent v bank ∧ (s.freshEvents v bank)[1] = s.bell.events[0] := by
  unfold State.freshEvents
  exact ⟨by rw [Vector.getElem_ofFn]; rfl, by rw [Vector.getElem_ofFn]; rfl⟩

/-- The records and the bank's words as an event begins. -/
def State.banked (s : State) (records : Vector BellEvent 16) (bank : BitVec 16) : State :=
  { s with bell := { s.bell with events := records, stat := s.bankStat bank } }

theorem State.seeBank_opened (records : Vector BellEvent 16) (quiet : s.bell.event = none) :
    State.seeBank { s with bell := { s.bell with events := records } } bank = s.banked records bank :=
  State.seeBank_quiet fun _ event => nomatch event.symm.trans quiet

theorem State.supplyBegin_fresh (runs : s.running = true) (step : s.start.reg.step ≠ 1) (bad : classOf v.toNat ≠ 0)
    (quiet : s.bell.event = none) :
    s.supplyBegin v bank = ((s.banked (s.freshEvents v bank) bank).enterRide).seeInput v := by
  rw [← State.seeBank_opened _ quiet]
  unfold State.supplyBegin
  simp only [runs, step, bad, quiet, ne_eq, not_false_eq_true, and_self, if_true, State.freshEvents, State.freshEvent]

/-- A mode that an event takes into RIDE (R410). -/
def State.rides (s : State) : Bool :=
  s.mode == modeProvision || s.mode == modeAlign || s.mode == modeObserve || s.mode == modeWorkshop

/-- The event that begins now. -/
def State.rideEntered (s : State) : SupplyEvent :=
  { start := s.now, lastAt := s.now, offBefore := s.islandsOff, rodeFrom := if s.rides then some s.mode else none }

/-- The Bellows' words once an event has begun, but for the mode. -/
def State.rideStat (s : State) : BellStat :=
  { s.bell.stat with
    rides := s.bell.stat.rides + 1, rideSeen := s.bell.stat.rideSeen || s.rides
    rideInHold := s.bell.stat.rideInHold || s.mode == modeHold }

/-- The state as an event begins, before RIDE is entered. -/
def State.rideBegun (s : State) : State :=
  { s with bell := { s.bell with rideAt := s.now, event := some s.rideEntered, stat := s.rideStat } }

theorem State.enterRide_eq (s : State) : s.enterRide =
    ((((if s.rides then s.rideBegun.setMode modeRide else s.rideBegun).abandonAll).stopBaler).runNow 2).rideEvent 1 0 := rfl

/-- What the Bellows show once RIDE is entered. -/
theorem State.enterRide_bell (s : State) : s.enterRide.now = s.now ∧ ∃ islands rails prevMode, s.enterRide.bell =
    { s.bell with
      rideAt := s.now, event := some s.rideEntered, islands := islands, rails := rails
      stat := { s.rideStat with mode := if s.rides then modeRide else s.mode, prevMode := prevMode } } := by
  have after (u : State) : u.Steers ((((u.abandonAll).stopBaler).runNow 2).rideEvent 1 0) :=
    ((u.abandonAll_steers.trans (State.stopBaler_steers _)).trans (State.runNow_steers _ _)).trans (State.rideEvent_steers _ _ _)
  rw [State.enterRide_eq]
  split
  · obtain ⟨now, bell⟩ := after (s.rideBegun.setMode modeRide)
    rw [(State.setMode_bell _ _).1] at bell
    rw [(State.setMode_frame _ _).2.2.2.1] at now
    exact ⟨now, _, _, _, bell⟩
  · obtain ⟨now, bell⟩ := after s.rideBegun
    exact ⟨now, _, _, _, bell⟩

end Sys2Proof.Machine
end

section
/-! Supply events, the bank test and the faults that bring an orderly shutdown (R404 to R424). -/

namespace Sys2Proof.Machine

variable {s t u : State} {e : SupplyEvent} {v bank : BitVec 16}

/-- What an event of a class that is not good changes is not nothing. -/
theorem pos_of_classOf (bad : classOf v.toNat ≠ 0) : (0 : BitVec 3) < classOf v.toNat := by
  rw [BitVec.lt_def]
  exact Nat.pos_of_ne_zero fun zero => bad (BitVec.eq_of_toNat_eq zero)

/-- The newest record is changed, and no other. -/
theorem vmod_zero {α : Type} (x : Vector α 16) (f : α → α) : (vmod x (0 : Fin 16) f)[0] = f x[0] := by simp

theorem vmod_one {α : Type} (x : Vector α 16) (f : α → α) : (vmod x (0 : Fin 16) f)[1] = x[1] := by simp

section
variable (s) (records : Vector BellEvent 16) (bank : BitVec 16)

theorem State.banked_mode : (s.banked records bank).mode = s.mode := rfl

theorem State.banked_rides : (s.banked records bank).rides = s.rides := rfl

theorem State.banked_islandsOff : (s.banked records bank).islandsOff = s.islandsOff := by
  have island (i : IslandId) : (s.banked records bank).island i = s.island i := State.island_of_islands rfl i
  unfold State.islandsOff
  simp only [island]

end

/-- What the Bellows show once RIDE is entered and the input seen (R404, R405, R410). -/
theorem State.banked_bell (s : State) (records : Vector BellEvent 16) (v bank : BitVec 16) : ∃ band,
    (((s.banked records bank).enterRide).seeInput v).bell.event = some ((s.banked records bank).rideEntered.sample band s.now) ∧
      (((s.banked records bank).enterRide).seeInput v).bell.events = vmod records (0 : Fin 16) (fun r => r.seen v) ∧
      ∃ prevMode classNow, (((s.banked records bank).enterRide).seeInput v).bell.stat = { (s.banked records bank).rideStat with
        supply10mv := v, classNow := classNow, mode := if s.rides then modeRide else s.mode, prevMode := prevMode } := by
  obtain ⟨now, islands, rails, prevMode, bell⟩ := (s.banked records bank).enterRide_bell
  generalize (s.banked records bank).enterRide = u at *
  have event : u.bell.event = some (s.banked records bank).rideEntered := by rw [bell]
  have events : u.bell.events = records := by
    rw [bell]
    rfl
  have stat : u.bell.stat = { (s.banked records bank).rideStat with
      mode := if s.rides then modeRide else s.mode, prevMode := prevMode } := by
    rw [bell, State.banked_rides, State.banked_mode]
  rw [State.seeInput_event event rfl]
  refine ⟨(u.noteInput v).bandOf v.toNat, ?_, ?_, prevMode, if u.bell.stat.classNow < classOf v.toNat then classOf v.toNat
    else u.bell.stat.classNow, ?_⟩
  · exact congrArg (fun n => some ((s.banked records bank).rideEntered.sample _ n)) now
  · exact congrArg (fun x => vmod x (0 : Fin 16) fun r => r.seen v) events
  · exact congrArg (fun x : BellStat => { x with
      supply10mv := v
      classNow := if u.bell.stat.classNow < classOf v.toNat then classOf v.toNat else u.bell.stat.classNow }) stat

/-- An event begins: its record, RIDE, and the words of the Bellows (R404, R405, R410). -/
theorem State.supplyEventBegin_opens (runs : s.running = true) (step : s.start.reg.step ≠ 1) (bad : classOf v.toNat ≠ 0)
    (quiet : s.bell.event = none) (idle : s.move.baleRun = none) :
    ∃ t, exec (.supplyEventBegin v bank) s = .next t ∧ t.bell.events[0].inProgress = true ∧
      t.bell.events[0].cls = classOf v.toNat ∧
      t.bell.events[0].min10mv = v ∧ t.bell.events[0].max10mv = v ∧ t.bell.events[0].bankMin10mv = bank ∧
      t.bell.events[0].bankMj = 0 ∧ t.bell.events[1] = s.bell.events[0] ∧
      t.bell.stat.rides = s.bell.stat.rides + 1 ∧ t.bell.stat.supply10mv = v ∧
      (s.mode = modeProvision ∨ s.mode = modeAlign ∨ s.mode = modeObserve ∨ s.mode = modeWorkshop →
        t.mode = modeRide ∧ ∃ e, t.bell.event = some e ∧ e.start = s.now ∧ e.past = false ∧ e.rodeFrom = some s.mode ∧
          e.offBefore = s.islandsOff ∧ e.lastAt = s.now) ∧
      (s.mode = modeHold → t.mode = modeHold ∧ t.bell.stat.rideInHold = true) ∧ s.sameMemory t := by
  have row : exec (.supplyEventBegin v bank) s = .next (s.supplyBegin v bank) :=
    congrArg Host.Outcome.next (if_neg (by rw [idle]; exact Bool.false_ne_true))
  obtain ⟨band, event, events, prevMode, classNow, stat⟩ := s.banked_bell (s.freshEvents v bank) v bank
  obtain ⟨start, past, rodeFrom, offBefore, lastAt, -⟩ :=
    (s.banked (s.freshEvents v bank) bank).rideEntered.sample_kept band s.now
  obtain ⟨fresh, older⟩ := s.freshEvents_getElem v bank
  rw [← State.supplyBegin_fresh runs step bad quiet] at event events stat
  have first : (s.supplyBegin v bank).bell.events[0] = (s.freshEvent v bank).seen v := by
    rw [events, vmod_zero, fresh]
  have second : (s.supplyBegin v bank).bell.events[1] = s.bell.events[0] := by
    rw [events, vmod_one, older]
  have mode : (s.supplyBegin v bank).mode = if s.rides then modeRide else s.mode := congrArg BellStat.mode stat
  have mem : (s.supplyBegin v bank).mem = s.mem :=
    (State.Keeps.refl (m := true) (i := false) (p := false) s).supplyBegin.mem rfl
  generalize s.supplyBegin v bank = t at *
  generalize s.freshEvents v bank = records at *
  refine ⟨t, row, ?_, ?_, ?_, ?_, ?_, ?_, second, ?_, ?_, fun takes => ?_, fun hold => ?_, State.sameMemory_of_mem mem⟩
  · rw [first]; rfl
  · rw [first]; exact if_pos (pos_of_classOf bad)
  · rw [first]; exact if_neg (BitVec.lt_irrefl v)
  · rw [first]; exact if_neg (BitVec.lt_irrefl v)
  · rw [first]; rfl
  · rw [first]; rfl
  · rw [stat]; rfl
  · rw [stat]
  · have rides : s.rides = true := by
      unfold State.rides
      rcases takes with h | h | h | h <;> rw [h] <;> rfl
    rw [mode, if_pos rides]
    refine ⟨rfl, _, event, start, past, rodeFrom.trans ?_, offBefore.trans (s.banked_islandsOff _ bank), lastAt⟩
    exact if_pos ((s.banked_rides _ bank).trans rides)
  · have stays : s.rides = false := by
      unfold State.rides
      rw [hold]
      rfl
    rw [mode, stays, stat]
    refine ⟨hold, ?_⟩
    change (s.bell.stat.rideInHold || s.mode == modeHold) = true
    rw [hold]
    exact Bool.or_true _

/-! ### What an event sees (R403, R406 to R409) -/

/-- A transient is counted (R403). -/
theorem State.supplyTransient_counts (runs : s.running = true) (bad : classOf v.toNat ≠ 0) (counted : s.inReset = false) :
    ∃ t, exec (.supplyTransient v) s = .next t ∧
      t.bell = { s.bell with stat := { s.bell.stat with transients := s.bell.stat.transients + 1 } } ∧
      (t.source srcSupplyTransient).reg.events = (s.source srcSupplyTransient).reg.events + 1 ∧
      t = { s with bell := t.bell, tally := t.tally, bench := t.bench, out := t.out } ∧ s.sameMemory t := by
  obtain ⟨bell, frame⟩ := State.TallyOnly.of_bell
    ((s.onBellStat fun x => { x with transients := x.transients + 1 }).raise_only srcSupplyTransient (v.setWidth 32) none)
  have row : exec (.supplyTransient v) s = _ := congrArg Host.Outcome.next (if_pos ⟨runs, bad⟩)
  exact ⟨_, row, bell, State.raise_source_events _ _ _ _ counted, frame, State.sameMemory_of_mem (State.raise_mem ..)⟩

/-- The isolation switch opens above 60 V and closes once the input has been below 59 V for a millisecond (R404). -/
theorem State.swellIsolate_switches (alive : s.bell.alive = true) :
    (6000 < v.toNat → ∃ t, exec (.swellIsolate v) s = .next t ∧ t.bell.stat.isolated = true ∧ t = { s with bell := t.bell } ∧
      s.sameMemory t) ∧
    (v.toNat < 5900 → s.bell.highAt + 1000000 ≤ s.now →
      ∃ t, exec (.swellIsolate v) s = .next t ∧ t.bell.stat.isolated = false ∧ t = { s with bell := t.bell } ∧ s.sameMemory t) ∧
    (v.toNat ≤ 6000 → (5900 ≤ v.toNat ∨ s.now < s.bell.highAt + 1000000) →
      ∃ t, exec (.swellIsolate v) s = .next t ∧ t.bell.stat.isolated = s.bell.stat.isolated ∧
        (5900 ≤ v.toNat → t.bell.highAt = s.now) ∧ t = { s with bell := t.bell } ∧ s.sameMemory t) := by
  obtain ⟨event, events, classNow, seen⟩ := s.seeInput_frame v
  have feeds : ¬((!s.bell.alive) = true) := by rw [alive]; exact Bool.false_ne_true
  refine ⟨fun high => ?_, fun low settled => ?_, fun below unsettled => ?_⟩
  · have row : exec (.swellIsolate v) s = .next ((s.seeInput v).onBellStat fun x => { x with isolated := true }) :=
      congrArg Host.Outcome.next ((if_neg feeds).trans (if_pos high))
    rw [seen] at row
    exact ⟨_, row, rfl, rfl, fun _ => rfl⟩
  · have row : exec (.swellIsolate v) s = .next ((s.seeInput v).onBellStat fun x => { x with isolated := false }) :=
      congrArg Host.Outcome.next ((if_neg feeds).trans ((if_neg (by omega)).trans (if_pos ⟨low, settled⟩)))
    rw [seen] at row
    exact ⟨_, row, rfl, rfl, fun _ => rfl⟩
  · have row : exec (.swellIsolate v) s = .next (s.seeInput v) :=
      congrArg Host.Outcome.next ((if_neg feeds).trans ((if_neg (by omega)).trans (if_neg (by omega))))
    rw [seen] at row
    exact ⟨_, row, rfl, fun high => if_pos high, rfl, fun _ => rfl⟩

/-- An event in progress sees its input and its bank. -/
theorem State.seeBoth_event (event : s.bell.event = some e) (going : e.past = false) : ∃ x, x.start = e.start ∧ x.past = false ∧
    x.rodeFrom = e.rodeFrom ∧ (s.seeInput v).seeBank bank = { s with bell := { (s.noteInput v).bell with
      event := some x
      events := vmod (vmod s.bell.events (0 : Fin 16) fun r => r.seen v) (0 : Fin 16) fun r => r.drew (s.drawnAt e bank) bank
      stat := { s.bankStat bank with
        supply10mv := v
        classNow := if s.bell.stat.classNow < classOf v.toNat then classOf v.toNat else s.bell.stat.classNow } } } := by
  obtain ⟨start, past, rodeFrom, -, -, drawn⟩ := e.sample_kept ((s.noteInput v).bandOf v.toNat) s.now
  rw [State.seeInput_event event going, State.seeBank_event rfl (past.trans going)]
  generalize e.sample ((s.noteInput v).bandOf v.toNat) s.now = x at *
  refine ⟨{ x with drawn := s.drawnAt e bank }, start, past.trans going, rodeFrom, ?_⟩
  unfold State.drawnAt
  rw [drawn]
  rfl

end Sys2Proof.Machine
end

section
/-! The end of supply events, orderly shutdowns and the bank test (R405 to R417). -/

namespace Sys2Proof.Machine

variable {s t u : State} {e : SupplyEvent} {v bank : BitVec 16}

/-- A drop below 33 V is a dropout (R405, R408). -/
theorem State.dropout_rises (low : v.toNat < 3300) (alive : s.bell.alive = true) (event : s.bell.event = some e)
    (going : e.past = false) : ∃ t, exec (.dropout v bank) s = .next t ∧ t.bell.stat.bank10mv = bank ∧
      t.bell.stat.holdupUs = satNat 32 (holdup s.bankCap bank.toNat) ∧
      t.bell.events[0].bankMj = satNat 16 ((e.drawn + s.bankCap *
        (s.bell.stat.bank10mv.toNat * s.bell.stat.bank10mv.toNat - bank.toNat * bank.toNat)) / 20000000) ∧
      (s.bell.events[0].cls < 3 → t.bell.events[0].cls = 3) ∧ (s.bell.stat.classNow < 3 → t.bell.stat.classNow = 3) ∧
      t.bell.stat.supply10mv = v ∧ t = { s with bell := t.bell } ∧ s.sameMemory t := by
  have dropout : classOf v.toNat = 3 := if_pos low
  obtain ⟨x, -, -, -, seen⟩ := State.seeBoth_event (v := v) (bank := bank) event going
  have row : exec (.dropout v bank) s = .next ((s.seeInput v).seeBank bank) := congrArg Host.Outcome.next (if_pos ⟨low, alive⟩)
  rw [seen] at row
  refine ⟨_, row, rfl, rfl, ?_, fun below => ?_, fun below => ?_, rfl, rfl, fun _ => rfl⟩
  · dsimp only
    rw [vmod_zero]
    rfl
  · dsimp only
    rw [vmod_zero, vmod_zero]
    change (if s.bell.events[0].cls < classOf v.toNat then classOf v.toNat else s.bell.events[0].cls) = 3
    rw [dropout, if_pos below]
  · dsimp only
    rw [dropout, if_pos below]

/-- An input inside the range that ends an event is of no class. -/
theorem classOf_of_good (good : goodInput v = true) : classOf v.toNat = 0 := by
  obtain ⟨low, high⟩ := of_decide_eq_true good
  unfold classOf
  rw [if_neg (by omega), if_neg (by omega), if_neg (by omega)]

/-- A sag that ends is recorded and told (R412). -/
theorem State.closeEvent_sag (event : s.bell.event = some e) (going : e.past = false) (good : goodInput v = true)
    (sag : s.bell.events[0].cls = 1) : ∃ x b, x.start = e.start ∧ x.rodeFrom = e.rodeFrom ∧ b.event = some x ∧
      b.events[0].bankMj = satNat 16 (s.drawnAt e bank / 20000000) ∧ b.events[0].inProgress = false ∧
      b.events[0].durationUs = satNat 32 ((s.now - e.start) / 1000) ∧ b.stat.classNow = 0 ∧
      ((s.seeInput v).seeBank bank).closeEvent e = State.raise { s with bell := b } srcSupplySag 0 := by
  obtain ⟨x, start, -, rodeFrom, seen⟩ := State.seeBoth_event (v := v) (bank := bank) event going
  have newest : (vmod (vmod (vmod s.bell.events (0 : Fin 16) fun r => r.seen v) (0 : Fin 16)
      fun r => r.drew (s.drawnAt e bank) bank) (0 : Fin 16)
      fun r => { r with inProgress := false, durationUs := satNat 32 ((s.now - e.start) / 1000) })[0] =
      { (s.bell.events[0].seen v).drew (s.drawnAt e bank) bank with
        inProgress := false, durationUs := satNat 32 ((s.now - e.start) / 1000) } := by
    rw [vmod_zero, vmod_zero, vmod_zero]
  have still : (s.bell.events[0].seen v).cls = 1 := by
    unfold BellEvent.seen
    rw [classOf_of_good good, sag]
    rfl
  rw [seen]
  refine ⟨x, _, start, rodeFrom, ?_, ?_, ?_, ?_, ?_, if_pos ?_⟩
  case refine_6 =>
    dsimp only [State.onEvent0, State.onBellStat]
    rw [newest]
    exact still
  case refine_2 =>
    dsimp only [State.onEvent0, State.onBellStat]
    rw [newest]
    rfl
  case refine_3 | refine_4 =>
    dsimp only [State.onEvent0, State.onBellStat]
    rw [newest]
  all_goals rfl

/-- An event ends once the input has stayed good long enough (R412). -/
theorem State.supplyEventEnd_ends (event : s.bell.event = some e) (going : e.past = false) (good : goodInput v = true)
    (stayed : s.bell.goodSince + 1000000 * s.bell.cfg.recoverMs.toNat ≤ s.now) (counted : s.inReset = false)
    (sag : s.bell.events[0].cls = 1) : ∃ t, exec (.supplyEventEnd v bank) s = .next t ∧
      (∃ x, t.bell.event = some x ∧ x.past = true ∧ x.start = e.start ∧ x.rodeFrom = e.rodeFrom) ∧
      t.bell.events[0].bankMj = satNat 16 ((e.drawn + s.bankCap *
        (s.bell.stat.bank10mv.toNat * s.bell.stat.bank10mv.toNat - bank.toNat * bank.toNat)) / 20000000) ∧
      t.bell.events[0].inProgress = false ∧ t.bell.events[0].durationUs = satNat 32 ((s.now - e.start) / 1000) ∧
      t.bell.stat.classNow = 0 ∧ (t.source srcSupplySag).reg.events = (s.source srcSupplySag).reg.events + 1 ∧
      t = { s with bell := t.bell, tally := t.tally, bench := t.bench, out := t.out } ∧ s.sameMemory t := by
  obtain ⟨x, b, start, rodeFrom, event', bankMj, closes, duration, classNow, closed⟩ :=
    State.closeEvent_sag (bank := bank) event going good sag
  have ends : (!e.past) = true ∧ goodInput v = true ∧ s.bell.goodSince + 1000000 * s.bell.cfg.recoverMs.toNat ≤ s.now :=
    ⟨by rw [going]; rfl, good, stayed⟩
  have row : exec (.supplyEventEnd v bank) s = .next (let t := ((s.seeInput v).seeBank bank).closeEvent e
      { t with bell := { t.bell with event := t.bell.event.map fun (x : SupplyEvent) => { x with past := true } } }) := by
    change Host.Outcome.next (match s.bell.event with
      | some e => _
      | none => _) = _
    rw [event]
    exact congrArg Host.Outcome.next (if_pos ends)
  rw [closed] at row
  have counts : ((State.raise { s with bell := b } srcSupplySag 0).source srcSupplySag).reg.events =
    (s.source srcSupplySag).reg.events + 1 := State.raise_source_events _ _ _ _ counted
  obtain ⟨bell, frame⟩ := State.TallyOnly.of_bell (State.raise_only { s with bell := b } srcSupplySag 0 none)
  generalize State.raise { s with bell := b } srcSupplySag 0 none = t at *
  subst bell
  have mem : t.mem = s.mem := (congrArg State.mem frame :)
  refine ⟨_, row, ⟨{ x with past := true }, ?_, rfl, start, rodeFrom⟩, bankMj, closes, duration, classNow, counts, ?_, ?_⟩
  · exact congrArg (Option.map _) event'
  · exact congrArg (fun u : State =>
      { u with bell := { t.bell with event := t.bell.event.map fun (x : SupplyEvent) => { x with past := true } } }) frame
  · exact State.sameMemory_of_mem mem

/-- A bank test is recorded, and a bank below 1,350 uF is told (R408, R409). -/
theorem State.bankTest_records {uF : BitVec 16} (alive : s.bell.alive = true) (quiet : s.bell.event = none)
    (tests : 0 < s.bell.cfg.bankTestH.toNat) (due : s.bell.lastTest + 3600000000000 * s.bell.cfg.bankTestH.toNat ≤ s.now)
    (counted : s.inReset = false) : ∃ t, exec (.bankTest uF bank) s = .next t ∧ t.bell.lastTest = s.now ∧
      t.bell.stat.bankUf = uF ∧ t.bell.stat.bank10mv = bank ∧ t.bell.stat.holdupUs = satNat 32 (holdup uF.toNat bank.toNat) ∧
      (uF.toNat < 1350 → t.bell.stat.bankLowSeen = true ∧
        (t.source srcBankLow).reg.events = (s.source srcBankLow).reg.events + 1) ∧
      (1350 ≤ uF.toNat → t.tally = s.tally ∧ t.bench = s.bench ∧ t.out = s.out) ∧
      t = { s with bell := t.bell, tally := t.tally, bench := t.bench, out := t.out } ∧ s.sameMemory t := by
  have runs : s.bell.alive = true ∧ s.bell.event.isNone = true ∧ 0 < s.bell.cfg.bankTestH.toNat ∧
      s.bell.lastTest + 3600000000000 * s.bell.cfg.bankTestH.toNat ≤ s.now := ⟨alive, by rw [quiet]; rfl, tests, due⟩
  let b : BellowsBlock := { s.bell with
    lastTest := s.now
    stat := { s.bell.stat with bankUf := uF, bank10mv := bank, holdupUs := satNat 32 (holdup uF.toNat bank.toNat) } }
  by_cases low : uF.toNat < 1350
  · let told : State := { s with bell := { b with stat := { b.stat with bankLowSeen := true } } }
    have row : exec (.bankTest uF bank) s = .next (told.raise srcBankLow (uF.setWidth 32)) :=
      congrArg Host.Outcome.next ((if_pos runs).trans (if_pos low))
    have counts : ((told.raise srcBankLow (uF.setWidth 32)).source srcBankLow).reg.events =
      (s.source srcBankLow).reg.events + 1 := State.raise_source_events _ _ _ _ counted
    obtain ⟨bell, frame⟩ := State.TallyOnly.of_bell (told.raise_only srcBankLow (uF.setWidth 32) none)
    refine ⟨_, row, ?_, ?_, ?_, ?_, fun _ => ⟨?_, counts⟩, fun high => absurd low (Nat.not_lt.mpr high), frame,
      State.sameMemory_of_mem (State.raise_mem ..)⟩
    all_goals rw [bell]
  · have row : exec (.bankTest uF bank) s = .next { s with bell := b } :=
      congrArg Host.Outcome.next ((if_pos runs).trans (if_neg low))
    exact ⟨_, row, rfl, rfl, rfl, rfl, fun below => absurd below low, fun _ => ⟨rfl, rfl, rfl⟩, rfl, fun _ => rfl⟩

/-! ### Orderly shutdown (R414, R417, R424) -/

/-- A sequence that begins is the one in progress, and steers the Bellows. -/
theorem State.beginSeq_running (s : State) (id : Fin 6) (after : AfterSeq) : ∃ q islands rails, q.id = id ∧
    (s.beginSeq id after).bell = { s.bell with running := some q, islands := islands, rails := rails } := by
  unfold State.beginSeq
  dsimp only
  split
  · obtain ⟨-, bell⟩ := State.performStep_steers { s with bell := { s.bell with running := some _ } } _
    exact ⟨_, _, _, rfl, bell⟩
  · exact ⟨_, _, _, rfl, rfl⟩

/-- A sub-array that is not active is not stopped. -/
theorem State.stopNow_of_idle {i : SubId} (idle : s.active i = false) : s.stopNow i = s :=
  if_neg (by rw [idle]; exact Bool.false_ne_true)

/-- Where no sub-array is active, none is stopped. -/
theorem State.stopAll_of_noneActive (idle : s.noneActive = true) : (allFin 4).foldl (fun (u : State) i => u.stopNow i) s = s := by
  refine foldl_keeps (fun u => u = s) _ (fun u i same => ?_) _ s rfl
  subst same
  have none' : (!u.active i) = true := List.all_eq_true.mp idle i (List.mem_finRange i)
  exact State.stopNow_of_idle (by rwa [Bool.not_eq_true'] at none')

/-- The record of an event that a shutdown cuts keeps its class, and nothing but the Bellows is touched. -/
theorem State.closeRecord_frame (s : State) : ∃ records, s.closeRecord = { s with bell := { s.bell with events := records } } ∧
    records[0].cls = s.bell.events[0].cls := by
  unfold State.closeRecord
  split
  · split
    · exact ⟨_, rfl, rfl⟩
    · exact ⟨_, rfl, by rw [vmod_zero]⟩
  · exact ⟨_, rfl, rfl⟩

theorem State.addRideMs_frame (s : State) : ∃ ms, s.addRideMs = s.onBellStat fun x => { x with rideMs := ms } := by
  unfold State.addRideMs
  split
  · exact ⟨_, rfl⟩
  · exact ⟨s.bell.stat.rideMs, rfl⟩

/-- The Bellows' words as an orderly shutdown begins, before anything stops (R414). -/
theorem State.shutdown_opens (s : State) (f : BellStat → BellStat) : ∃ records ms, (s.addRideMs.onBellStat f).closeRecord =
    { s with bell := { s.bell with events := records, stat := f { s.bell.stat with rideMs := ms } } } ∧
    records[0].cls = s.bell.events[0].cls := by
  obtain ⟨ms, rode⟩ := s.addRideMs_frame
  rw [rode]
  obtain ⟨records, closed, cls⟩ := ((s.onBellStat fun x => { x with rideMs := ms }).onBellStat f).closeRecord_frame
  exact ⟨records, ms, closed, cls⟩

/-- What an orderly shutdown stops, and what that leaves of the Bellows. -/
theorem State.stopAll_powers (s : State) : s.bell.Powers ((allFin 16).foldl (fun (u : State) o => u.offOctet o 4)
    ((allFin 4).foldl (fun (u : State) i => u.stopNow i) s)).bell := by
  have kept : s.Keeps false false true ((allFin 4).foldl (fun (u : State) i => u.stopNow i) s) :=
    (State.Keeps.refl s).foldl fun _ _ k => k.stopNow
  exact (kept.foldl fun _ _ k => k.offOctet).bell rfl

theorem State.offAll_mem (s : State) : ((allFin 16).foldl (fun (u : State) o => u.offOctet o 4) s).mem = s.mem :=
  ((State.Keeps.refl (m := true) (i := false) (p := false) s).foldl fun _ _ k => k.offOctet).mem rfl

/-- The PCI Express links of an orderly shutdown are down. -/
theorem State.unlink_frame (s : State) (fs : List FuncId) : ∀ t, t = fs.foldl (fun (u : State) f =>
      u.onBnch (funcBench f) fun x => { x with linkUp := false }) s →
    t.bell = s.bell ∧ t.bench.serving = s.bench.serving ∧ t.mem = s.mem := by
  rintro _ rfl
  refine foldl_keeps (fun u : State => u.bell = s.bell ∧ u.bench.serving = s.bench.serving ∧ u.mem = s.mem) _ ?_ _ s
    ⟨rfl, rfl, rfl⟩
  exact fun _ _ kept => kept

/-- The Bellows once an orderly shutdown has begun (R414, R417, R424). -/
theorem State.shutdown_falls (s : State) (cause : BitVec 2) (up : s.bell.falling = false) :
    (s.shutdown cause).bell.falling = true ∧ (s.shutdown cause).bell.event = none ∧
      (s.shutdown cause).bell.stat.lastShutdown = cause ∧
      (s.shutdown cause).bell.stat.pwrGood = false ∧ (s.shutdown cause).bench.serving = false ∧
      (∃ q, (s.shutdown cause).bell.running = some q ∧ q.id = 1) ∧
      (s.shutdown cause).bell.events[0].cls = s.bell.events[0].cls ∧ (s.noneActive = true → (s.shutdown cause).mem = s.mem) := by
  unfold State.shutdown
  rw [if_neg (by rw [up]; exact Bool.false_ne_true)]
  extract_lets t1 t2 t3 t4 t5 _ _ _ _ _ _ _ _ t6 t7
  obtain ⟨records, ms, opened, cls⟩ := s.shutdown_opens fun x =>
    { x with pwrGood := false, lastShutdown := cause, shutdowns := x.shutdowns + 1, classNow := 0, rideInHold := false }
  have stopped : t2.bell.Powers t4.bell := t2.stopAll_powers
  have mem : s.noneActive = true → t4.mem = s.mem := fun idle => by
    have none' : t2.noneActive = true := by
      change (State.closeRecord _).noneActive = true
      rw [opened]
      exact idle
    have still : t3 = t2 := State.stopAll_of_noneActive none'
    have off : t4.mem = t3.mem := t3.offAll_mem
    rw [off, still]
    change (State.closeRecord _).mem = s.mem
    rw [opened]
  have words : t2.bell.stat.lastShutdown = cause ∧ t2.bell.stat.pwrGood = false ∧
      t2.bell.events[0].cls = s.bell.events[0].cls := by
    change (State.closeRecord _).bell.stat.lastShutdown = cause ∧ (State.closeRecord _).bell.stat.pwrGood = false ∧
      (State.closeRecord _).bell.events[0].cls = _
    rw [opened]
    exact ⟨rfl, rfl, cls⟩
  have kept : t4.bell.stat.lastShutdown = cause ∧ t4.bell.stat.pwrGood = false ∧
      t4.bell.events[0].cls = s.bell.events[0].cls := by
    rw [stopped]
    exact words
  clear_value t4
  have fell : t6.bell.falling = true ∧ t6.bell.event = none ∧ t6.bell.stat = t4.bell.stat ∧ t6.bell.events = t4.bell.events ∧
    t6.bench.serving = false ∧ t6.mem = t4.mem := ⟨rfl, rfl, rfl, rfl, rfl, rfl⟩
  obtain ⟨bell, serving, mem'⟩ := t6.unlink_frame _ t7 rfl
  clear_value t6 t7
  obtain ⟨q, islands, rails, id, begun⟩ := t7.beginSeq_running 1 .dormant
  obtain ⟨served, memory⟩ : (t7.beginSeq 1 .dormant).bench = t7.bench ∧ (t7.beginSeq 1 .dormant).mem = t7.mem := by
    rw [t7.beginSeq_power 1 .dormant]
    exact ⟨rfl, rfl⟩
  obtain ⟨falling, event, stat, events, mute, same⟩ := fell
  obtain ⟨shutdown, powered, newest⟩ := kept
  refine ⟨?_, ?_, ?_, ?_, ?_, ⟨q, ?_, id⟩, ?_, fun idle => ?_⟩
  · rw [begun, bell]; exact falling
  · rw [begun, bell]; exact event
  · rw [begun, bell, stat]; exact shutdown
  · rw [begun, bell, stat]; exact powered
  · rw [served, serving]; exact mute
  · rw [begun]
  · rw [begun, bell, events]; exact newest
  · rw [memory, mem', same]; exact mem idle

/-- An event of the Tally, then an orderly shutdown. -/
theorem State.shutdown_told {c : Instr} {cause : BitVec 2} (row : exec c s = .next (t.shutdown cause)) (told : s.TallyOnly t)
    (runs : s.running = true) : ∃ t, exec c s = .next t ∧ t.bell.falling = true ∧ t.bell.stat.lastShutdown = cause ∧
      t.bell.stat.pwrGood = false ∧ t.bench.serving = false ∧ (∃ q, t.bell.running = some q ∧ q.id = 1) ∧
      (s.noneActive = true → s.sameMemory t) := by
  obtain ⟨bell, mem, idle⟩ : t.bell = s.bell ∧ t.mem = s.mem ∧ t.noneActive = s.noneActive := by
    rw [told.1]
    exact ⟨rfl, rfl, rfl⟩
  have up : t.bell.falling = false := by
    simp only [State.running, Bool.and_eq_true, Bool.not_eq_true'] at runs
    rw [bell]
    exact runs.1.2
  obtain ⟨falling, -, shutdown, powered, serving, seq, -, memory⟩ := t.shutdown_falls cause up
  refine ⟨_, row, falling, shutdown, powered, serving, seq, fun none' => State.sameMemory_of_mem ?_⟩
  exact (memory (idle.trans none')).trans mem

/-- A rail that fails while nothing runs on the rails brings the orderly shutdown (R414). -/
theorem State.railFault_falls {rail : Fin 12} (runs : s.running = true) (free : s.bell.running = none)
    (fed : s.bell.rails.getLsbD rail.val = true) : ∃ t, exec (.railFault rail) s = .next t ∧ t.bell.falling = true ∧
      t.bell.stat.lastShutdown = 3 ∧ t.bell.stat.pwrGood = false ∧ t.bench.serving = false ∧
      (∃ q, t.bell.running = some q ∧ q.id = 1) ∧ (s.noneActive = true → s.sameMemory t) := by
  have row : exec (.railFault rail) s = .next ((s.raise srcRailFault (BitVec.ofNat 32 rail.val)).shutdown 3) :=
    congrArg Host.Outcome.next (if_pos ⟨runs, by rw [free]; rfl, fed⟩)
  exact State.shutdown_told row (s.raise_only _ _ _) runs

/-- A temperature above its limit for 10 ms brings the orderly shutdown (R424). -/
theorem State.thermalCrit_falls {i : IslandId} {tj dram : BitVec 16} {ms : Nat} (runs : s.running = true) (long : 10 ≤ ms)
    (hot : 920 < tj.toInt ∨ 720 < dram.toInt) : ∃ t, exec (.thermalCrit i tj dram ms) s = .next t ∧ t.bell.falling = true ∧
      t.bell.stat.lastShutdown = 2 ∧ t.bell.stat.pwrGood = false ∧ t.bench.serving = false ∧
      (∃ q, t.bell.running = some q ∧ q.id = 1) ∧ (s.noneActive = true → s.sameMemory t) := by
  have row : exec (.thermalCrit i tj dram ms) s = .next ((s.raise srcThermalCrit (BitVec.ofNat 32 i.val)).shutdown 2) :=
    congrArg Host.Outcome.next (if_pos ⟨runs, long, hot⟩)
  exact State.shutdown_told row (s.raise_only _ _ _) runs

/-- An event of class 4 that ends is told as a loss (R413). -/
theorem State.closeEvent_told (s : State) (e : SupplyEvent) (loss : s.bell.events[0].cls = 4) : ∃ b, b.events[0].cls = 4 ∧
    b.falling = s.bell.falling ∧ s.closeEvent e = State.raise { s with bell := b } srcSupplyLoss 0 := by
  have newest : (vmod s.bell.events (0 : Fin 16)
      fun r => { r with inProgress := false, durationUs := satNat 32 ((s.now - e.start) / 1000) })[0].cls = 4 := by
    rw [vmod_zero]
    exact loss
  unfold State.closeEvent
  extract_lets closed cls _ _ t2
  have same : cls = 4 := newest
  have frame : t2 = { s with bell := t2.bell } := rfl
  refine ⟨t2.bell, newest, rfl, ?_⟩
  rw [if_neg (by rw [same]; decide), if_neg (by rw [same]; decide), if_neg (by rw [same]; decide)]
  exact congrArg (fun u : State => u.raise srcSupplyLoss 0) frame

/-- An event that becomes a loss is recorded and told as one (R407, R413). -/
theorem State.closeEvent_loss (event : s.bell.event = some e) (going : e.past = false) : ∃ b, b.events[0].cls = 4 ∧
    b.falling = s.bell.falling ∧ (((s.seeInput v).seeBank bank).onEvent0 fun x => { x with cls := 4 }).closeEvent e =
      State.raise { s with bell := b } srcSupplyLoss 0 := by
  obtain ⟨x, -, -, -, seen⟩ := State.seeBoth_event (v := v) (bank := bank) event going
  have loss : (((s.seeInput v).seeBank bank).onEvent0 fun x => { x with cls := 4 }).bell.events[0].cls = 4 := by
    unfold State.onEvent0
    rw [vmod_zero]
  obtain ⟨b, newest, falling, told⟩ := State.closeEvent_told _ e loss
  rw [seen] at told falling ⊢
  exact ⟨b, newest, falling, told⟩

/-- An input or a bank that can no longer carry the module brings the orderly shutdown (R407, R413). -/
theorem State.supplyLoss_falls (event : s.bell.event = some e) (going : e.past = false)
    (due : s.lossDue e v.toNat bank.toNat = true) (up : s.bell.falling = false) :
    ∃ t, exec (.supplyLoss v bank) s = .next t ∧ t.bell.falling = true ∧ t.bell.event = none ∧ t.bell.stat.lastShutdown = 1 ∧
      t.bell.events[0].cls = 4 ∧ t.bench.serving = false ∧ (s.noneActive = true → s.sameMemory t) := by
  obtain ⟨b, cls, falls, closed⟩ := State.closeEvent_loss (v := v) (bank := bank) event going
  have lost : (!e.past) = true ∧ s.lossDue e v.toNat bank.toNat = true := ⟨by rw [going]; rfl, due⟩
  have row : exec (.supplyLoss v bank) s =
      .next (((((s.seeInput v).seeBank bank).onEvent0 fun x => { x with cls := 4 }).closeEvent e).shutdown 1) := by
    change Host.Outcome.next (match s.bell.event with
      | some e => _
      | none => _) = _
    rw [event]
    exact congrArg Host.Outcome.next (if_pos lost)
  rw [closed] at row
  have told := State.raise_only { s with bell := b } srcSupplyLoss 0 none
  generalize State.raise { s with bell := b } srcSupplyLoss 0 none = t at *
  obtain ⟨bell, mem, idle⟩ : t.bell = b ∧ t.mem = s.mem ∧ t.noneActive = s.noneActive := by
    rw [told.1]
    exact ⟨rfl, rfl, rfl⟩
  obtain ⟨falling, gone, shutdown, -, serving, -, newest, memory⟩ := t.shutdown_falls 1 (by rw [bell, falls, up])
  refine ⟨_, row, falling, gone, shutdown, ?_, serving, fun none' => State.sameMemory_of_mem ?_⟩
  · rw [newest, bell, cls]
  · exact (memory (idle.trans none')).trans mem

end Sys2Proof.Machine
end

section
/-! The end of RIDE (R412), and the supply events together. -/

namespace Sys2Proof.Machine

variable {s t u : State} {e : SupplyEvent} {v bank : BitVec 16}

/-- The mode that RIDE ends in (R412). -/
def State.leaveRide (s : State) (e : SupplyEvent) : State :=
  if s.bell.stat.rideInHold then (s.onBellStat fun x => { x with rideInHold := false }).setMode modeHold
  else
    match e.rodeFrom with
    | some m =>
      if s.mode ≠ modeRide then s
      else if m = modeWorkshop then
        if s.bench.workHolder.isSome then s.setMode modeWorkshop else (s.runNow 5).setMode modeStandby
      else
        s.setMode (if (allFin 4).any fun i => s.saState i == saObserve then modeObserve
          else if (allFin 4).any fun i => s.saState i == saAlign then modeAlign else modeProvision)
    | none => s

/-- What the end of RIDE leaves: the event, the bank's words, and every byte. -/
def State.RideKept (s t : State) : Prop :=
  t.bell.event = s.bell.event ∧ t.bell.stat.bank10mv = s.bell.stat.bank10mv ∧ t.mem = s.mem

theorem State.RideKept.setMode (h : s.RideKept t) (m : BitVec 4) : s.RideKept (t.setMode m) := by
  obtain ⟨event, bank, mem⟩ := h
  obtain ⟨bell, -, -⟩ := t.setMode_bell m
  refine ⟨?_, ?_, (t.setMode_frame m).1.trans mem⟩ <;> rw [bell]
  exacts [event, bank]

theorem State.RideKept.runNow (h : s.RideKept t) (id : Fin 6) : s.RideKept (t.runNow id) := by
  obtain ⟨event, bank, mem⟩ := h
  obtain ⟨-, bell⟩ := t.runNow_steers id
  refine ⟨?_, ?_, ?_⟩
  · rw [bell]; exact event
  · rw [bell]; exact bank
  · exact ((State.Keeps.refl (m := true) (i := false) (p := false) t).runNow.mem rfl).trans mem

theorem State.leaveRide_kept (s : State) (e : SupplyEvent) : s.RideKept (s.leaveRide e) := by
  have same : s.RideKept s := ⟨rfl, rfl, rfl⟩
  unfold State.leaveRide
  split
  · have held : s.RideKept (s.onBellStat fun x => { x with rideInHold := false }) := ⟨rfl, rfl, rfl⟩
    exact held.setMode _
  · split
    · split
      · exact same
      · split
        · split
          · exact same.setMode _
          · exact (same.runNow _).setMode _
        · exact same.setMode _
    · exact same

theorem State.leaveRide_hold (held : s.bell.stat.rideInHold = true) :
    (s.leaveRide e).mode = modeHold ∧ (s.leaveRide e).bell.stat.rideInHold = false := by
  unfold State.leaveRide
  rw [if_pos held]
  refine ⟨State.setMode_mode _ _, ?_⟩
  rw [(State.setMode_bell _ _).1]
  rfl

theorem State.leaveRide_provision (free : s.bell.stat.rideInHold = false) (rode : e.rodeFrom = some modeProvision)
    (ride : s.mode = modeRide) (idle : ∀ i, s.active i = false) : (s.leaveRide e).mode = modeProvision := by
  have observe : ¬ ((allFin 4).any fun i => s.saState i == saObserve) = true := by
    rw [List.any_eq_true]
    rintro ⟨i, -, at'⟩
    have := idle i
    rw [State.active, at', Bool.or_true] at this
    exact absurd this (by decide)
  have align : ¬ ((allFin 4).any fun i => s.saState i == saAlign) = true := by
    rw [List.any_eq_true]
    rintro ⟨i, -, at'⟩
    have := idle i
    rw [State.active, at', Bool.true_or] at this
    exact absurd this (by decide)
  unfold State.leaveRide
  rw [if_neg (by rw [free]; exact Bool.false_ne_true), rode]
  dsimp only
  rw [if_neg (not_not.mpr ride), if_neg (by decide), if_neg observe, if_neg align]
  exact State.setMode_mode _ _

/-- The jobs are no longer marked, the time of RIDE is counted and the bank is seen (R412). -/
theorem State.rideCounted (quiet : ∀ e, s.bell.event = some e → e.past = true) : ∃ x stat,
    stat.bank10mv = bank ∧ stat.mode = s.bell.stat.mode ∧ stat.rideInHold = s.bell.stat.rideInHold ∧
      ((s.endRode).addRideMs).seeBank bank = { s with loom := x, bell := { s.bell with stat := stat } } := by
  obtain ⟨x, rode⟩ : ∃ x, s.endRode = { s with loom := x } := by
    refine foldl_keeps (fun u : State => ∃ x, u = { s with loom := x }) _ ?_ _ s ⟨s.loom, rfl⟩
    rintro _ i ⟨x, rfl⟩
    exact ⟨_, rfl⟩
  obtain ⟨ms, counted⟩ := State.addRideMs_frame { s with loom := x }
  have banked := State.seeBank_quiet (bank := bank)
    (s := State.onBellStat { s with loom := x } fun y => { y with rideMs := ms }) quiet
  rw [rode, counted, banked]
  exact ⟨x, State.bankStat (State.onBellStat { s with loom := x } fun y => { y with rideMs := ms }) bank, rfl, rfl, rfl, rfl⟩

/-- RIDE ends once the bank is charged (R412). -/
theorem State.rideEnd_row (event : s.bell.event = some e) (past : e.past = true) (charged : 9000 ≤ bank.toNat) : ∃ x stat run,
    stat.bank10mv = bank ∧ stat.mode = s.bell.stat.mode ∧ stat.rideInHold = s.bell.stat.rideInHold ∧
    exec (.rideEnd bank) s = .next (((State.restore { s with loom := x, bell := { s.bell with
      event := none, running := run, stat := stat } } e.offBefore).leaveRide e).rideEvent 2 s.bell.events[0].cls.toNat) := by
  obtain ⟨x, stat, charge, mode, held, counted⟩ := State.rideCounted (s := s) (bank := bank) fun e' is =>
    (Option.some.inj (event.symm.trans is)) ▸ past
  have row : exec (.rideEnd bank) s = .next (let t := ((s.endRode).addRideMs).seeBank bank
      ((State.restore { t with bell := { t.bell with
        event := none, running := t.bell.running.map fun (q : SeqRun) => { q with since := t.now } } } e.offBefore).leaveRide
      e).rideEvent 2 s.bell.events[0].cls.toNat) := by
    change Host.Outcome.next (match s.bell.event with
      | some e => _
      | none => _) = _
    rw [event]
    exact congrArg Host.Outcome.next (if_pos ⟨past, charged⟩)
  rw [counted] at row
  exact ⟨x, stat, _, charge, mode, held, row⟩

/-- What the islands that come back leave. -/
theorem State.restore_frame (s : State) (off : BitVec 79) : (s.restore off).obs = s.obs ∧ (s.restore off).mem = s.mem := by
  have power : s.PowerOnly (s.restore off) :=
    foldl_keeps s.PowerOnly _ (fun u x h => h.trans (u.performStep_power x)) _ s (.refl s)
  rw [power]
  exact ⟨rfl, rfl⟩

theorem State.rideEnd_ends (event : s.bell.event = some e) (past : e.past = true) (charged : 9000 ≤ bank.toNat) :
    ∃ t, exec (.rideEnd bank) s = .next t ∧ t.bell.event = none ∧ t.bell.stat.bank10mv = bank ∧
      (e.rodeFrom = some modeProvision → s.mode = modeRide → s.bell.stat.rideInHold = false → (∀ i, s.active i = false) →
        t.mode = modeProvision) ∧
      (s.bell.stat.rideInHold = true → t.mode = modeHold ∧ t.bell.stat.rideInHold = false) ∧ s.sameMemory t := by
  obtain ⟨x, stat, run, charge, mode, held, row⟩ := State.rideEnd_row event past charged
  let began : State := { s with loom := x, bell := { s.bell with event := none, running := run, stat := stat } }
  obtain ⟨-, back⟩ := began.restore_steers e.offBefore
  obtain ⟨obs, mem⟩ := began.restore_frame e.offBefore
  generalize began.restore e.offBefore = u at *
  have words : u.bell.event = none ∧ u.bell.stat = stat := by
    rw [back]
    exact ⟨rfl, rfl⟩
  obtain ⟨gone, words⟩ := words
  obtain ⟨event', bank', mem'⟩ := u.leaveRide_kept e
  obtain ⟨-, told⟩ := (u.leaveRide e).rideEvent_steers 2 s.bell.events[0].cls.toNat
  have memory : ((u.leaveRide e).rideEvent 2 s.bell.events[0].cls.toNat).mem = (u.leaveRide e).mem :=
    (State.Keeps.refl (m := true) (i := false) (p := false) (u.leaveRide e)).rideEvent.mem rfl
  have modeOf : ((u.leaveRide e).rideEvent 2 s.bell.events[0].cls.toNat).mode = (u.leaveRide e).mode := by
    unfold State.mode
    rw [told]
  have active (i : SubId) : u.active i = s.active i := by
    unfold State.active State.saState
    rw [obs]
  refine ⟨_, row, ?_, ?_, fun rode ride free idle => ?_, fun hold => ?_, State.sameMemory_of_mem ?_⟩
  · rw [told]
    exact event'.trans gone
  · rw [told]
    exact bank'.trans ((congrArg BellStat.bank10mv words).trans charge)
  · rw [modeOf]
    exact State.leaveRide_provision ((congrArg BellStat.rideInHold words).trans (held.trans free)) rode
      ((congrArg BellStat.mode words).trans (mode.trans ride)) fun i => (active i).trans (idle i)
  · obtain ⟨toHold, cleared⟩ := State.leaveRide_hold (e := e) ((congrArg BellStat.rideInHold words).trans (held.trans hold))
    rw [modeOf, told]
    exact ⟨toHold, cleared⟩
  · exact memory.trans (mem'.trans mem)

/-- Settles O52: each event by what it leaves of the Bellows, the Tally and memory. -/
theorem supplyEventsRide : Obligations.SupplyEventsRide := by
  refine ⟨fun s => ⟨?_, ?_, ?_, ?_, ?_, ?_, ?_⟩, ?_, fun s runs => ⟨?_, ?_⟩⟩
  · exact fun v bank => State.supplyEventBegin_opens
  · exact fun v => State.supplyTransient_counts
  · exact fun v => State.swellIsolate_switches
  · exact fun v bank e => State.dropout_rises
  · exact fun v bank e => State.supplyEventEnd_ends
  · exact fun v bank e => State.supplyLoss_falls
  · exact fun bank e => State.rideEnd_ends
  · exact fun s uF bank => State.bankTest_records
  · exact fun rail => State.railFault_falls runs
  · exact fun i tj dram ms => State.thermalCrit_falls runs

end Sys2Proof.Machine
end
